-- ==== Sys2Proof/Word.lean ====
section
/-! DEFINITION. The word types of the YN960 (R1, R2): bytes, 32-bit words and 64-bit double words,
and the sparse map in which every large array of the machine is held. -/

namespace Sys2Proof

/-- A byte. -/
abbrev Byte := BitVec 8

/-- A word is 32 bits (R1). -/
abbrev Word := BitVec 32

/-- A 64-bit general register of a Kindling core (R183). -/
abbrev DWord := BitVec 64

/-- A vector register of a Kindling core (R183). -/
abbrev VWord := BitVec 512

/-- A sparse array: pairs of an index and a value in strictly rising index order, none equal to
what an unlisted index reads as. A byte memory is `SMap Byte`, which is a list of `Host.Cell`. -/
abbrev SMap (β : Type) := List (Nat × β)

end Sys2Proof
end

