-- ==== Sys2Proof/Syntax.lean ====
section
/-! DEFINITION. The commands of the YN960: one constructor of `Instr` for each row of the table of
operations and events. The table gives no bits to a row, so the operands are the model's: the unit
that acts, the words of a request or an instruction, and, for an event of the surroundings, what the
surroundings supply (a reading, an error found). -/

namespace Sys2Proof

/-- The header fields and payload words of a ZT request (R69), less magic and opcode; and after how many of its
words other accesses fall between two of them (R79): 0 if none do. -/
structure ZtReq where
  tag   : BitVec 8
  addr  : Word
  count : BitVec 16
  flags : BitVec 16
  rsv   : Word
  words : List Word
  pause : Nat := 0
  deriving DecidableEq, Repr

/-- What one Kiln check finds while a command runs (R120, R542): a fault of the hardware is an input
of the model, `none` on sound hardware. -/
inductive KilnCheck where
  | none | residue | tableParity | weightParity | codebookParity | h16Check | mergeCheck
  deriving DecidableEq, Repr

/-- What a Quench unit's own checks find in the unit of one Kiln (R542). -/
inductive QuenchCheck where
  | none
  | rescale (kiln : Nat)
  | tableParity (kiln : Nat)
  deriving DecidableEq, Repr

/-- Errors of stored words that a read meets (R439, R447): indices of 64-bit words. -/
structure WordErrors where
  corrected     : List Nat
  uncorrectable : List Nat
  deriving DecidableEq, Repr

/-- What a region test finds (R441 to R444): the banks or rows that fail, and the words, 0 to 511, in which the copies
of the region meet an error. -/
structure RegionResult where
  failing : List Nat
  errors  : WordErrors
  deriving DecidableEq, Repr

/-- What the read of a scrub line meets (R445 to R448): its words with an error, 0 to 7; the set of the line's cache way
in which the look-up meets an uncorrectable error, if any (R484); and the errors that the link ECC corrects. -/
structure LineErrors where
  words  : WordErrors
  waySet : Option Nat
  link   : Nat
  deriving DecidableEq, Repr

/-- A flit on a link (R15 to R18): its direction over the link, its number, and the nodes between which it goes. -/
structure Flit where
  dir    : Nat
  number : Nat
  src    : Nat
  dst    : Nat
  deriving DecidableEq, Repr

/-- What a transfer of host domain `d` holds where a request should begin (R72). -/
structure BadTail where
  d    : Nat
  tail : List Byte
  deriving DecidableEq, Repr

/-- The activity of one unit in an epoch (R454): its number, its counters, and the sensor nearest it. -/
structure UnitActivity where
  unit     : Nat
  counters : List Nat
  sensor   : Nat
  deriving DecidableEq, Repr

/-- An operation that a source sends to the Hitch array (R426). -/
inductive HitchOp where
  | signal (n : Nat)
  | wait (n : Nat)
  | tryWait (n : Nat)
  | setCount (n : Nat)
  | arm (v : Nat)
  deriving DecidableEq, Repr

/-- An agent that can queue on a Hitch (R426): a core, a window unit (by side) or a Splice engine. -/
inductive Agent where
  | core (h c : Nat)
  | window (h side : Nat)
  | splice (h : Nat)
  | dispatch (sub : Nat)
  | binner (sub : Nat)
  | unit (edge : Nat)
  | host (d : Nat)
  deriving DecidableEq, Repr

/-- The commands. `h` is a logical Hearth, `c` a core, `k` a Kiln, `d` a host domain, `p` a port,
`n` a Cord, `sub` a submission number, `w` a word as a host writes it. -/
inductive Instr where
  -- supply, reset and clocks
  | powerUp
  | moduleResetEnd
  | fwStart
  | resetNAssert
  | resetNRelease
  | fuseTrip
  | fuseRetry (persists : Bool)
  | vinOvervoltage
  | vinOvervoltageClear
  | brownoutEnter (mv : Nat)
  | supplyRecover
  | holdEnd
  | supplyReset
  | supplyFault (rail nominal measured : Nat)
  | clockMonitorWindow (clock measuredKHz : Nat)
  | pllRelock
  | relockTimeout
  | dividerChange (h : Nat)
  | flitReceive (link cls : Nat) (flit : Flit) (crcOk : Bool)
  | sensorSample (readings : List Int) (mv : Nat)
  -- the Draught governor
  | draughtEpoch (activity : List UnitActivity)
  | correctionUpdate (meanMw : Nat)
  | targetPowerUpdate
  | inputClamp (mw : Nat)
  | clampRelease
  | drgCap (d : Nat) (w : Word)
  -- the Ziland transport
  | writeInc (d : Nat) (r : ZtReq)
  | writeFix (d : Nat) (r : ZtReq)
  | readInc (d : Nat) (r : ZtReq)
  | readFix (d : Nat) (r : ZtReq)
  | set (d : Nat) (r : ZtReq)
  | ztClear (d : Nat) (r : ZtReq)
  | ztFence (d : Nat) (r : ZtReq)
  | fenceComplete (d : Nat)
  | ztNop (d : Nat) (op : BitVec 8) (r : ZtReq)
  | tsyncExchange (d : Nat) (r : ZtReq) (latency : Nat)
  | framingError (x : BadTail)
  | eventTransfer (d : Nat)
  | usbLinkUp (d rate : Nat) (flip : Bool)
  | usbLinkDown (d : Nat)
  | ccOpenTimeout (d : Nat)
  | dpDataWrite (d p : Nat) (words : List Word)
  | dpDataRead (d p count : Nat)
  | outboundRingResume (d p : Nat)
  | dataPortStall (d p : Nat)
  | tsyncReset (d : Nat)
  | registerWrite (d : Nat) (addr w : Word)
  | readClear (d : Nat) (addr : Word)
  | loRead (d : Nat) (addr : Word)
  | setAliasWrite (d : Nat) (addr w : Word)
  | clearAliasWrite (d : Nat) (addr w : Word)
  -- the Lay loader
  | layOpen (d : Nat)
  | layData (d : Nat) (w : Word)
  | layVerify (d : Nat)
  | verifyDone
  | layApply (d policy : Nat)
  | layCancel (d : Nat)
  | layDrainTimeout
  | drainEnd
  | applyComplete (memError : Bool)
  -- Kilns, Quench units and window units
  | mac (h k : Nat) (chk : KilnCheck)
  | merge (h k : Nat) (chk : KilnCheck)
  | kilnClear (h k : Nat)
  | quench (h : Nat) (chk : QuenchCheck)
  | rows (h : Nat)
  | diag (h : Nat)
  | diagmax (h : Nat)
  | mtable (h : Nat)
  | regroup (h : Nat)
  | splice (h : Nat)
  | spliceAcked (h : Nat) (ok : Bool)
  | release (h : Nat)
  | streamOpen (h stream : Nat)
  -- Kindling cores: scalar
  | add (h c : Nat) (rd rs1 rs2 : BitVec 5)
  | sub (h c : Nat) (rd rs1 rs2 : BitVec 5)
  | and (h c : Nat) (rd rs1 rs2 : BitVec 5)
  | or (h c : Nat) (rd rs1 rs2 : BitVec 5)
  | xor (h c : Nat) (rd rs1 rs2 : BitVec 5)
  | sll (h c : Nat) (rd rs1 rs2 : BitVec 5)
  | srl (h c : Nat) (rd rs1 rs2 : BitVec 5)
  | sra (h c : Nat) (rd rs1 rs2 : BitVec 5)
  | slt (h c : Nat) (rd rs1 rs2 : BitVec 5)
  | sltu (h c : Nat) (rd rs1 rs2 : BitVec 5)
  | min (h c : Nat) (rd rs1 rs2 : BitVec 5)
  | max (h c : Nat) (rd rs1 rs2 : BitVec 5)
  | minu (h c : Nat) (rd rs1 rs2 : BitVec 5)
  | maxu (h c : Nat) (rd rs1 rs2 : BitVec 5)
  | mul (h c : Nat) (rd rs1 rs2 : BitVec 5)
  | mulh (h c : Nat) (rd rs1 rs2 : BitVec 5)
  | mulhu (h c : Nat) (rd rs1 rs2 : BitVec 5)
  | div (h c : Nat) (rd rs1 rs2 : BitVec 5)
  | divu (h c : Nat) (rd rs1 rs2 : BitVec 5)
  | rem (h c : Nat) (rd rs1 rs2 : BitVec 5)
  | remu (h c : Nat) (rd rs1 rs2 : BitVec 5)
  | addi (h c : Nat) (rd rs1 : BitVec 5) (imm : BitVec 16)
  | andi (h c : Nat) (rd rs1 : BitVec 5) (imm : BitVec 16)
  | ori (h c : Nat) (rd rs1 : BitVec 5) (imm : BitVec 16)
  | xori (h c : Nat) (rd rs1 : BitVec 5) (imm : BitVec 16)
  | slli (h c : Nat) (rd rs1 : BitVec 5) (imm : BitVec 16)
  | srli (h c : Nat) (rd rs1 : BitVec 5) (imm : BitVec 16)
  | srai (h c : Nat) (rd rs1 : BitVec 5) (imm : BitVec 16)
  | slti (h c : Nat) (rd rs1 : BitVec 5) (imm : BitVec 16)
  | sltiu (h c : Nat) (rd rs1 : BitVec 5) (imm : BitVec 16)
  | lui (h c : Nat) (rd rs1 : BitVec 5) (imm : BitVec 16)
  | jalr (h c : Nat) (rd rs1 : BitVec 5) (imm : BitVec 16)
  | csrr (h c : Nat) (rd rs1 : BitVec 5) (imm : BitVec 16)
  | csrw (h c : Nat) (rd rs1 : BitVec 5) (imm : BitVec 16)
  -- Kindling cores: memory
  | lb (h c : Nat) (rd base : BitVec 5) (off : BitVec 16)
  | lbu (h c : Nat) (rd base : BitVec 5) (off : BitVec 16)
  | lh (h c : Nat) (rd base : BitVec 5) (off : BitVec 16)
  | lhu (h c : Nat) (rd base : BitVec 5) (off : BitVec 16)
  | lw (h c : Nat) (rd base : BitVec 5) (off : BitVec 16)
  | lwu (h c : Nat) (rd base : BitVec 5) (off : BitVec 16)
  | ld (h c : Nat) (rd base : BitVec 5) (off : BitVec 16)
  | sb (h c : Nat) (rs base : BitVec 5) (off : BitVec 16)
  | sh (h c : Nat) (rs base : BitVec 5) (off : BitVec 16)
  | sw (h c : Nat) (rs base : BitVec 5) (off : BitVec 16)
  | sd (h c : Nat) (rs base : BitVec 5) (off : BitVec 16)
  | vld (h c : Nat) (vd base : BitVec 5) (off : BitVec 16)
  | vst (h c : Nat) (vs base : BitVec 5) (off : BitVec 16)
  | setw (h c : Nat) (rs base : BitVec 5) (off : BitVec 16)
  | clrw (h c : Nat) (rs base : BitVec 5) (off : BitVec 16)
  -- Kindling cores: branches
  | beq (h c : Nat) (rs1 rs2 : BitVec 5) (off : BitVec 16)
  | bne (h c : Nat) (rs1 rs2 : BitVec 5) (off : BitVec 16)
  | blt (h c : Nat) (rs1 rs2 : BitVec 5) (off : BitVec 16)
  | bge (h c : Nat) (rs1 rs2 : BitVec 5) (off : BitVec 16)
  | bltu (h c : Nat) (rs1 rs2 : BitVec 5) (off : BitVec 16)
  | bgeu (h c : Nat) (rs1 rs2 : BitVec 5) (off : BitVec 16)
  | jal (h c : Nat) (rd : BitVec 5) (off : BitVec 16)
  | bpany (h c : Nat) (pr : BitVec 3) (off : BitVec 16)
  | bpnone (h c : Nat) (pr : BitVec 3) (off : BitVec 16)
  -- Kindling cores: integer vector
  | vadd (h c : Nat) (vd vs1 vs2 : BitVec 5) (pr : BitVec 3) (w16 : Bool)
  | vsub (h c : Nat) (vd vs1 vs2 : BitVec 5) (pr : BitVec 3) (w16 : Bool)
  | vadds (h c : Nat) (vd vs1 vs2 : BitVec 5) (pr : BitVec 3) (w16 : Bool)
  | vmul (h c : Nat) (vd vs1 vs2 : BitVec 5) (pr : BitVec 3) (w16 : Bool)
  | vmulh (h c : Nat) (vd vs1 vs2 : BitVec 5) (pr : BitVec 3) (w16 : Bool)
  | vmac (h c : Nat) (vd vs1 vs2 : BitVec 5) (pr : BitVec 3) (w16 : Bool)
  | vmacw (h c : Nat) (vd vs1 vs2 : BitVec 5) (pr : BitVec 3) (w16 : Bool)
  | vrshr (h c : Nat) (vd vs1 vs2 : BitVec 5) (pr : BitVec 3) (w16 : Bool)
  | vrshrw (h c : Nat) (vd vs1 vs2 : BitVec 5) (pr : BitVec 3) (w16 : Bool)
  | vsll (h c : Nat) (vd vs1 vs2 : BitVec 5) (pr : BitVec 3) (w16 : Bool)
  | vsra (h c : Nat) (vd vs1 vs2 : BitVec 5) (pr : BitVec 3) (w16 : Bool)
  | vsrl (h c : Nat) (vd vs1 vs2 : BitVec 5) (pr : BitVec 3) (w16 : Bool)
  | vand (h c : Nat) (vd vs1 vs2 : BitVec 5) (pr : BitVec 3) (w16 : Bool)
  | vor (h c : Nat) (vd vs1 vs2 : BitVec 5) (pr : BitVec 3) (w16 : Bool)
  | vxor (h c : Nat) (vd vs1 vs2 : BitVec 5) (pr : BitVec 3) (w16 : Bool)
  | vmin (h c : Nat) (vd vs1 vs2 : BitVec 5) (pr : BitVec 3) (w16 : Bool)
  | vmax (h c : Nat) (vd vs1 vs2 : BitVec 5) (pr : BitVec 3) (w16 : Bool)
  | vminu (h c : Nat) (vd vs1 vs2 : BitVec 5) (pr : BitVec 3) (w16 : Bool)
  | vmaxu (h c : Nat) (vd vs1 vs2 : BitVec 5) (pr : BitVec 3) (w16 : Bool)
  | vlut (h c : Nat) (vd vs1 vs2 : BitVec 5) (pr : BitVec 3) (w16 : Bool)
  | vcmpeq (h c : Nat) (pd : BitVec 3) (vs1 vs2 : BitVec 5) (pr : BitVec 3) (w16 : Bool)
  | vcmplt (h c : Nat) (pd : BitVec 3) (vs1 vs2 : BitVec 5) (pr : BitVec 3) (w16 : Bool)
  | vcmpltu (h c : Nat) (pd : BitVec 3) (vs1 vs2 : BitVec 5) (pr : BitVec 3) (w16 : Bool)
  | vsel (h c : Nat) (vd vs1 vs2 : BitVec 5) (pr : BitVec 3) (w16 : Bool)
  -- Kindling cores: floating-point vector
  | vfadd (h c : Nat) (vd vs1 vs2 : BitVec 5) (pr : BitVec 3) (w16 : Bool)
  | vfsub (h c : Nat) (vd vs1 vs2 : BitVec 5) (pr : BitVec 3) (w16 : Bool)
  | vfmul (h c : Nat) (vd vs1 vs2 : BitVec 5) (pr : BitVec 3) (w16 : Bool)
  | vfma (h c : Nat) (vd vs1 vs2 : BitVec 5) (pr : BitVec 3) (w16 : Bool)
  | vfmin (h c : Nat) (vd vs1 vs2 : BitVec 5) (pr : BitVec 3) (w16 : Bool)
  | vfmax (h c : Nat) (vd vs1 vs2 : BitVec 5) (pr : BitVec 3) (w16 : Bool)
  | vfcmplt (h c : Nat) (pd : BitVec 3) (vs1 vs2 : BitVec 5) (pr : BitVec 3) (w16 : Bool)
  | vfcmpeq (h c : Nat) (pd : BitVec 3) (vs1 vs2 : BitVec 5) (pr : BitVec 3) (w16 : Bool)
  | vcvtif (h c : Nat) (vd vs1 vs2 : BitVec 5) (pr : BitVec 3) (w16 : Bool)
  | vcvtfi (h c : Nat) (vd vs1 vs2 : BitVec 5) (pr : BitVec 3) (w16 : Bool)
  | vcvtfb (h c : Nat) (vd vs1 vs2 : BitVec 5) (pr : BitVec 3) (w16 : Bool)
  | vcvtbf (h c : Nat) (vd vs1 vs2 : BitVec 5) (pr : BitVec 3) (w16 : Bool)
  | vcvtfh (h c : Nat) (vd vs1 vs2 : BitVec 5) (pr : BitVec 3) (w16 : Bool)
  | vcvthf (h c : Nat) (vd vs1 vs2 : BitVec 5) (pr : BitVec 3) (w16 : Bool)
  | vbcast (h c : Nat) (vd vs1 vs2 : BitVec 5) (pr : BitVec 3) (w16 : Bool)
  | vmvx (h c : Nat) (vd vs1 vs2 : BitVec 5) (pr : BitVec 3) (w16 : Bool)
  | vredadd (h c : Nat) (vd vs1 vs2 : BitVec 5) (pr : BitVec 3) (w16 : Bool)
  | vfredadd (h c : Nat) (vd vs1 vs2 : BitVec 5) (pr : BitVec 3) (w16 : Bool)
  | vredmax (h c : Nat) (vd vs1 vs2 : BitVec 5) (pr : BitVec 3) (w16 : Bool)
  -- Kindling cores: predicates
  | pand (h c : Nat) (pd : BitVec 3) (vs1 vs2 : BitVec 5) (pr : BitVec 3) (w16 : Bool)
  | por (h c : Nat) (pd : BitVec 3) (vs1 vs2 : BitVec 5) (pr : BitVec 3) (w16 : Bool)
  | pxor (h c : Nat) (pd : BitVec 3) (vs1 vs2 : BitVec 5) (pr : BitVec 3) (w16 : Bool)
  | pnot (h c : Nat) (pd : BitVec 3) (vs1 vs2 : BitVec 5) (pr : BitVec 3) (w16 : Bool)
  | psetn (h c : Nat) (pd : BitVec 3) (vs1 vs2 : BitVec 5) (pr : BitVec 3) (w16 : Bool)
  -- Kindling cores: texture, commands, Hitches, system
  | vtex (h c : Nat) (vd vs1 vs2 : BitVec 5) (pr : BitVec 3) (w16 : Bool)
  | kissue (h c : Nat) (rs1 : BitVec 5) (target : BitVec 3) (off : BitVec 12)
  | kwait (h c : Nat) (target : BitVec 3)
  | kpoll (h c : Nat) (rd : BitVec 5) (target : BitVec 3)
  | signal (h c : Nat) (rs1 rs2 : BitVec 5)
  | wait (h c : Nat) (rs1 rs2 : BitVec 5)
  | trywait (h c : Nat) (rd rs1 rs2 : BitVec 5)
  | arm (h c : Nat) (rs1 rs2 : BitVec 5)
  | nop (h c : Nat)
  | halt (h c : Nat)
  | fence (h c : Nat)
  | ppoint (h c : Nat)
  | trap (h c : Nat) (code : BitVec 8)
  | setd (h c : Nat) (v : BitVec 12)
  | blk (h c : Nat) (adj : Bool) (d s : BitVec 12)
  -- the history mover
  | hinfo (h : Nat)
  | hread (h : Nat)
  | happend (h : Nat)
  | wfetch (h : Nat)
  -- the raster tile unit and the binning units
  | rtuNext (h : Nat)
  | rtuRetire (h : Nat)
  | rtuVdone (h : Nat)
  | drawAssembly (sub : Nat)
  | tileRender (sub k : Nat)
  -- vision and post-processing
  | visionTile (sub : Nat)
  | postJob (sub : Nat)
  -- intake
  | inputRecord (sub : Nat)
  | jpegDecode (decoder : Nat)
  | augmentation
  | cacheStoreComplete (n : Nat) (id : Nat)
  | batchTrailer (sub : Nat)
  | dictLoad (sub : Nat)
  | sensorRecord (sub : Nat)
  | bundleEmit (sub : Nat)
  | intakeWindowEnd (n : Nat)
  | intCacheCfg (d n : Nat) (w : Word)
  | cacheReset (d n : Nat) (w : Word)
  -- panel ports and the frame store
  | ppCommit (d p : Nat) (w : Word)
  | teEvent (p : Nat)
  | syntheticTe (p : Nat)
  | commitLine (p : Nat)
  | pushEnd (p : Nat)
  | teLost (p : Nat)
  | ppModeReq (d p : Nat) (w : Word)
  | modeChangeLp11 (p : Nat)
  | modeChangeReprogram (p : Nat)
  | modeChangeHsEntry (p : Nat)
  | bringup (d p : Nat) (w : Word)
  | portDisable (d p : Nat) (w : Word)
  | dcsReadResponse (p : Nat) (clean : Bool)
  | bringupReadTimeout (p : Nat)
  | bringupRetry (p : Nat)
  | panelContention (p : Nat)
  | ppDcs (d p : Nat) (w : Word)
  | ppPanel (d p : Nat) (w : Word)
  | panelOutputDeferred (p output : Nat)
  | fsgSplit (d : Nat) (w : Word)
  | pushBandWrite (sub : Nat)
  | copyJob (sub : Nat)
  -- the dispatch unit
  | sessionOpen (d n : Nat) (w : Word)
  | sessionClose (d n : Nat) (w : Word)
  | submitLc (d n : Nat) (w : Word)
  | submitBe (d n : Nat) (w : Word)
  | dispAbort (d n : Nat) (w : Word)
  | dispCqSize (d n : Nat) (w : Word)
  | jobDispatch (n : Nat)
  | weightShareLoaded (sub h : Nat)
  | sliceEnd (sub : Nat)
  | budgetExpiry (sub : Nat)
  | jobSave (sub overrunNs boundNs : Nat)
  | saveEnd (sub : Nat)
  | restore (sub : Nat)
  | swap (n : Nat)
  | jobRetire (sub : Nat)
  | teardownZeroDone (h : Nat)
  | histWindowEnd (n busyPct : Nat)
  -- the fill governor
  | slotDecision (n session : Nat)
  | fillForce (d n : Nat) (w : Word)
  | fillRecSize (d n : Nat) (w : Word)
  | fillWindowEnd (n : Nat)
  -- Hitches
  | hitchOperationArrival (k : Nat) (src : Agent) (op : HitchOp)
  | hitchCancel (k : Nat) (src : Agent)
  | hitchCount (d k : Nat) (w : Word)
  | hitchSignal (d k : Nat) (w : Word)
  | hitchTry (d k : Nat) (w : Word)
  | hitchPoisonClear (d k : Nat)
  -- memories and tests
  | bankWake (h bank : Nat)
  | regionTest
  | regionTestDone (result : RegionResult)
  | scrubLine (ch : Nat) (errors : LineErrors)
  | rotationSlot
  | migrationCopyDone
  | structuralTestDone (h : Nat) (pass : Bool) (vector : Nat)
  | copyBackDone
  | idleTest (h : Nat)
  | kilnTestDone (h k : Nat) (pass : Bool) (vector : Nat)
  | coreTest (h c : Nat) (pass : Bool)
  -- logs, trust and recovery
  | fltLogSel (d : Nat) (w : Word)
  | trustChgSel (d : Nat) (w : Word)
  | attReq (d : Nat)
  | attestReady
  | trustAttNonce (d i : Nat) (w : Word)
  | ownOpen (d : Nat)
  | trustOwnData (d : Nat) (w : Word)
  | ownVerify (d : Nat)
  | ownVerifyDone
  | ownCommit (d : Nat)
  | ownerRecordCurrent (readBackOk : Bool)
  | ownCancel (d : Nat)
  | recOpen (d : Nat)
  | trustRecData (d : Nat) (w : Word)
  | recVerify (d : Nat)
  | recVerifyDone
  | recBoot (d : Nat)
  | recProgram (d : Nat)
  | recOwner (d : Nat)
  -- lands and the SMBus target
  | outputFault (group signal kind : Nat)
  | outputRetry (group signal : Nat) (still : Bool)
  | syncOutPulse
  | smbReadStatus
  | smbReadResetCause
  | smbReadService
  | smbReadTj
  | smbReadVoltage
  | smbReadCurrent
  | smbReadPower
  | smbReadLogSequences
  | smbReadFaultEntry
  | smbReadChangeEntry
  | smbReadInterfaceFaults
  | smbTimeout
  -- rows added at the end of the table
  | illegalInstruction (h c : Nat) (w : Word)
  | railReturn
  | recProgramDone (readBackOk : Bool)
  deriving DecidableEq, Repr

end Sys2Proof
end

