-- ==== Sys2Proof/Config.lean ====
section
/-! DEFINITION. What a part fixes and the manual leaves to standards, to mask ROM or to silicon, and
the free values. Each is a constant without a body: nothing can be proved about its value. -/

namespace Sys2Proof

/-- SHA-384 of a byte string, as the standard defines it. [DESIGN CHOICE: assumption 3] -/
opaque Config.sha384 : List Byte → BitVec 384

/-- ECDSA P-384 with SHA-384: key (97 bytes), message, r and s (assumption 3). -/
opaque Config.ecdsaVerify : List Byte → List Byte → List Byte → List Byte → Bool

/-- LMS verification: public key (56 bytes), message, signature (assumption 3). -/
opaque Config.lmsVerify : List Byte → List Byte → List Byte → Bool

/-- The ECDSA signature (r, s) that a private key gives a message (R503). -/
opaque Config.ecdsaSign : BitVec 384 → List Byte → BitVec 384 × BitVec 384

/-- The public key of a private key, an uncompressed point of 97 bytes (R499). -/
opaque Config.ecdsaPublic : BitVec 384 → List Byte

/-- HMAC-SHA-384 (R495). -/
opaque Config.hmacSha384 : BitVec 384 → List Byte → BitVec 384

/-- The identity private key that the PUF response and the helper data give, if reconstruction
succeeds (R499). -/
opaque Config.pufIdentity : List Byte → Option (BitVec 384)

/-- The seal secret that the PUF response and the helper data give (R495). -/
opaque Config.pufSeal : List Byte → Option (BitVec 384)

/-- The hash of the vendor's ECDSA root key that mask ROM holds (R497). -/
opaque Config.romEcdsaHash : BitVec 384

/-- The hash of the vendor's LMS root key that mask ROM holds (R497). -/
opaque Config.romLmsHash : BitVec 384

/-- The mask-ROM code version, `ID_ROM_VERSION` (R517 gives no value). -/
opaque Config.romVersion : Word

/-- The ROM-held minimum of energy coefficient `i` of unit `u` (R455). [DESIGN CHOICE: assumption 9] -/
opaque Config.coefMin : Nat → Nat → Nat

/-- The ROM-held minimum of leakage band `b` of unit `u`, in mW (R455). -/
opaque Config.leakMin : Nat → Nat → Nat

/-- The energy coefficient `i` of unit `u` that the Ranik firmware writes (R455). -/
opaque Config.coefFw : Nat → Nat → Nat

/-- The leakage of band `b` of unit `u` that the Ranik firmware writes, in mW (R455). -/
opaque Config.leakFw : Nat → Nat → Nat

/-- The bytes that VESA DSC 1.2a gives line `y` of a picture (R370; assumption 3): its RGB bytes in row order,
width, height, the bits of `PP_MODE`, and y. -/
opaque Config.dscLine : List Byte → Nat → Nat → Nat → Nat → List Byte

/-- The 128-byte picture parameter set of a picture (R371; assumption 3): width, height, the bits of `PP_MODE`. -/
opaque Config.dscPps : Nat → Nat → Nat → List Byte

/-- A free value: the manual leaves it open, and nothing constrains it. The argument is the number of the draw, which
`State.draws` counts. [DESIGN CHOICE: assumption 2] -/
opaque Config.freeValue : Nat → BitVec 64

/-- The CLK_B cycles of a line where `LINE_CYC` is 0, which the register's range leaves out (R391). [DESIGN CHOICE:
assumption 14] -/
opaque Config.lineCycOfZero : Nat

end Sys2Proof
end

