-- ==== Sys2Proof/Machine/SMap.lean ====
section
/-! DEFINITION. Operations on the sparse arrays that hold the large memories and register files. An
index that is not listed reads as `dflt` of it; writing that value removes the entry, so that equal
arrays are equal lists. -/

namespace Sys2Proof

/-- The value at index `k`; an unlisted index reads as `dflt k`. -/
def SMap.look {β : Type} (dflt : Nat → β) : SMap β → Nat → β
  | [], k => dflt k
  | (i, v) :: rest, k => if i = k then v else SMap.look dflt rest k

/-- Insert a pair before the first larger index. -/
def SMap.place {β : Type} (k : Nat) (v : β) : SMap β → SMap β
  | [] => [(k, v)]
  | (i, w) :: rest => if k < i then (k, v) :: (i, w) :: rest else (i, w) :: SMap.place k v rest

/-- The array without its entry at `k`. -/
def SMap.drop {β : Type} (m : SMap β) (k : Nat) : SMap β := m.filter fun e => !(e.1 == k)

/-- The array with `v` at `k`, in canonical form. -/
def SMap.put {β : Type} [DecidableEq β] (dflt : Nat → β) (m : SMap β) (k : Nat) (v : β) : SMap β :=
  if v = dflt k then m.drop k else SMap.place k v (m.drop k)

/-- The array with every entry of indices `lo` to `lo + n - 1` back at the default. -/
def SMap.wipe {β : Type} (m : SMap β) (lo n : Nat) : SMap β :=
  m.filter fun e => !(decide (lo ≤ e.1) && decide (e.1 < lo + n))

/-- The array with the list `vs` written from index `k` upward. -/
def SMap.putList {β : Type} [DecidableEq β] (dflt : Nat → β) (m : SMap β) (k : Nat) :
    List β → SMap β
  | [] => m
  | v :: vs => SMap.putList dflt (m.put dflt k v) (k + 1) vs

/-- The `n` values from index `k` upward. -/
def SMap.lookList {β : Type} (dflt : Nat → β) (m : SMap β) (k : Nat) : Nat → List β
  | 0 => []
  | n + 1 => m.look dflt k :: SMap.lookList dflt m (k + 1) n

/-- Apply `f` to the value at `k`. -/
def SMap.modify {β : Type} [DecidableEq β] (dflt : Nat → β) (m : SMap β) (k : Nat) (f : β → β) :
    SMap β :=
  m.put dflt k (f (m.look dflt k))

/-- The canonical form: indices strictly rising, no entry equal to its default. -/
def SMap.wf {β : Type} [DecidableEq β] (dflt : Nat → β) : SMap β → Bool
  | [] => true
  | (i, v) :: rest =>
    (rest.all fun e => decide (i < e.1)) && !(decide (v = dflt i)) && SMap.wf dflt rest

/-- A byte memory whose unlisted addresses read as 0. [DESIGN CHOICE: assumption 5] -/
def zeroByte : Nat → Byte := fun _ => 0

/-- An erased flash byte reads as 0xFF (R492). -/
def erasedByte : Nat → Byte := fun _ => 0xFF

/-- The little-endian number that a list of bytes spells (R1). -/
def leNat : List Byte → Nat
  | [] => 0
  | b :: rest => b.toNat + 256 * leNat rest

/-- The `n` bytes of a number, least significant first (R1). -/
def natLe (x : Nat) : Nat → List Byte
  | 0 => []
  | n + 1 => BitVec.ofNat 8 x :: natLe (x / 256) n

/-- The `n`-byte little-endian number at address `a`. -/
def SMap.readLe (m : SMap Byte) (a n : Nat) : Nat := leNat (m.lookList zeroByte a n)

/-- The number `x` written as `n` little-endian bytes at address `a`. -/
def SMap.writeLe (m : SMap Byte) (a n x : Nat) : SMap Byte := m.putList zeroByte a (natLe x n)

/-- The 32 bytes of a command as a memory from address 0. -/
def cmdMem (bs : List Byte) : SMap Byte := SMap.putList zeroByte [] 0 bs

end Sys2Proof
end

