-- ==== Sys2Proof/Machine/Float.lean ====
section
/-! DEFINITION. Exact integer rounding (R106) and binary floating point: fp32, fp16 and bf16 values as
exact dyadic numbers, one rounding to nearest with ties to even for each operation (R102, R189). -/

namespace Sys2Proof.Machine

/-- The rounding right shift of R106 on exact integers: to nearest, ties to even. -/
def rshiftRne (v : Int) (sh : Nat) : Int :=
  if sh = 0 then v
  else
    let q := v / (2 ^ sh : Nat)
    let r := v - q * (2 ^ sh : Nat)
    let half : Int := (2 ^ (sh - 1) : Nat)
    if half < r ∨ (r = half ∧ q % 2 = 1) then q + 1 else q

/-- The same rounding on a natural number. -/
def rshiftRneNat (v sh : Nat) : Nat := (rshiftRne (v : Int) sh).toNat

/-- Division of integers rounded to nearest, ties to even, for a positive divisor. -/
def divRne (v : Int) (d : Nat) : Int :=
  let q := v / (d : Int)
  let r := 2 * (v - q * d)
  if (d : Int) < r ∨ (r = d ∧ q % 2 = 1) then q + 1 else q

/-- Clamp to the signed range of `n` bits. -/
def satS (n : Nat) (v : Int) : Int :=
  max (-(2 ^ (n - 1) : Nat)) (min v ((2 ^ (n - 1) : Nat) - 1))

/-- `sat32` of R99. -/
def sat32 (v : Int) : Int := satS 32 v

/-- A binary format: exponent bits and fraction bits. -/
structure Fmt where
  eb : Nat
  fb : Nat
  deriving DecidableEq, Repr

/-- The three formats of the part. -/
def fp32 : Fmt := ⟨8, 23⟩
def fp16 : Fmt := ⟨5, 10⟩
def bf16 : Fmt := ⟨8, 7⟩

/-- Exponent bias, and the weight (as an exponent of two) of the least subnormal. -/
def Fmt.bias (F : Fmt) : Nat := 2 ^ (F.eb - 1) - 1
def Fmt.minUnit (F : Fmt) : Int := 1 - (F.bias : Int) - F.fb

/-- The encoding of +∞; adding the sign bit gives −∞. -/
def Fmt.inf (F : Fmt) : Nat := (2 ^ F.eb - 1) * 2 ^ F.fb
def Fmt.sign (F : Fmt) : Nat := 2 ^ (F.eb + F.fb)

/-- The quiet NaN with only the top fraction bit set: 0x7FC0_0000 in fp32 (R102). -/
def Fmt.qnan (F : Fmt) : Nat := F.inf + 2 ^ (F.fb - 1)

/-- A decoded floating-point value: `fin neg m e` is ± m × 2^e, zero with its sign kept. -/
inductive FVal where
  | nan
  | inf (neg : Bool)
  | fin (neg : Bool) (m : Nat) (e : Int)
  deriving DecidableEq, Repr

/-- Decode the bits of a format. -/
def Fmt.decode (F : Fmt) (x : Nat) : FVal :=
  let neg := decide (x / F.sign % 2 = 1)
  let e := x / 2 ^ F.fb % 2 ^ F.eb
  let f := x % 2 ^ F.fb
  if e = 2 ^ F.eb - 1 then (if f = 0 then .inf neg else .nan)
  else if e = 0 then .fin neg f F.minUnit
  else .fin neg (2 ^ F.fb + f) (F.minUnit + (e - 1 : Nat))

/-- A subnormal operand read as a zero of the same sign (R102). -/
def Fmt.decodeFtz (F : Fmt) (x : Nat) : FVal :=
  match F.decode x with
  | .fin neg m e => if m < 2 ^ F.fb then .fin neg 0 e else .fin neg m e
  | v => v

/-- Round the exact number ± m × 2^e to the format: nearest, ties to even; overflow gives infinity. -/
def Fmt.encode (F : Fmt) (neg : Bool) (m : Nat) (e : Int) : Nat :=
  let s := if neg then F.sign else 0
  if m = 0 then s
  else
    let top := (Nat.log2 m : Int) + e
    let base := max top (F.minUnit + F.fb)
    let unit := base - F.fb
    let q := if unit ≤ e then m * 2 ^ (e - unit).toNat else rshiftRneNat m (unit - e).toNat
    let bits := (base - (F.minUnit + F.fb)).toNat * 2 ^ F.fb + q
    s + min bits F.inf

/-- Encode a decoded value. -/
def Fmt.pack (F : Fmt) : FVal → Nat
  | .nan => F.qnan
  | .inf neg => (if neg then F.sign else 0) + F.inf
  | .fin neg m e => F.encode neg m e

/-- The exact number of a finite value as a scaled integer at exponent `e`, where `e` is at most the
value's own exponent. -/
def scaledInt (neg : Bool) (m : Nat) (e0 e : Int) : Int :=
  let k : Int := (m * 2 ^ (e0 - e).toNat : Nat)
  if neg then -k else k

/-- Exact product. -/
def FVal.mul : FVal → FVal → FVal
  | .nan, _ => .nan
  | _, .nan => .nan
  | .inf a, .inf b => .inf (a != b)
  | .inf a, .fin b m _ => if m = 0 then .nan else .inf (a != b)
  | .fin a m _, .inf b => if m = 0 then .nan else .inf (a != b)
  | .fin a m e, .fin b n f => .fin (a != b) (m * n) (e + f)

/-- Exact sum; an exact zero from unlike signs is +0. [DEDUCED: assumption 81] -/
def FVal.add : FVal → FVal → FVal
  | .nan, _ => .nan
  | _, .nan => .nan
  | .inf a, .inf b => if a = b then .inf a else .nan
  | .inf a, .fin _ _ _ => .inf a
  | .fin _ _ _, .inf b => .inf b
  | .fin a m e, .fin b n f =>
    let g := min e f
    let v := scaledInt a m e g + scaledInt b n f g
    if v = 0 then .fin (a && b) 0 g else .fin (decide (v < 0)) v.natAbs g

/-- Negation. -/
def FVal.neg : FVal → FVal
  | .nan => .nan
  | .inf a => .inf !a
  | .fin a m e => .fin (!a) m e

/-- Whether x < y; comparisons with NaN are false. -/
def FVal.lt : FVal → FVal → Bool
  | .nan, _ => false
  | _, .nan => false
  | .inf a, .inf b => a && !b
  | .inf a, .fin _ _ _ => a
  | .fin _ _ _, .inf b => !b
  | .fin a m e, .fin b n f =>
    let g := min e f
    decide (scaledInt a m e g < scaledInt b n f g)

/-- Whether x = y as numbers (−0 = +0); false with a NaN. -/
def FVal.eq : FVal → FVal → Bool
  | .nan, _ => false
  | _, .nan => false
  | .inf a, .inf b => a == b
  | .fin a m e, .fin b n f =>
    let g := min e f
    decide (scaledInt a m e g = scaledInt b n f g)
  | _, _ => false

/-- Whether the value is zero. -/
def FVal.isZero : FVal → Bool
  | .fin _ m _ => m == 0
  | _ => false

/-- An integer as a value. -/
def FVal.ofInt (v : Int) : FVal := .fin (decide (v < 0)) v.natAbs 0

/-- The quotient, with 64 extra bits and a sticky bit, so that one rounding follows exactly. -/
def FVal.div : FVal → FVal → FVal
  | .nan, _ => .nan
  | _, .nan => .nan
  | .inf _, .inf _ => .nan
  | .inf a, .fin b _ _ => .inf (a != b)
  | .fin a _ e, .inf b => .fin (a != b) 0 e
  | .fin a m e, .fin b n f =>
    if n = 0 then (if m = 0 then .nan else .inf (a != b))
    else
      let k := Nat.log2 n + 64
      let q := m * 2 ^ k / n
      let r := m * 2 ^ k % n
      .fin (a != b) (2 * q + (if r = 0 then 0 else 1)) (e - f - k - 1)

/-- Integer square root by bisection on bits, from bit `k` down. -/
def isqrtBits (m : Nat) : Nat → Nat → Nat
  | 0, acc => if (acc + 1) * (acc + 1) ≤ m then acc + 1 else acc
  | k + 1, acc =>
    let t := acc + 2 ^ (k + 1)
    isqrtBits m k (if t * t ≤ m then t else acc)

/-- Integer square root, rounded down. -/
def isqrt (m : Nat) : Nat := isqrtBits m (Nat.log2 m / 2 + 1) 0

/-- The square root, with guard bits and a sticky bit; −0 keeps its sign and a negative gives NaN. -/
def FVal.sqrt : FVal → FVal
  | .nan => .nan
  | .inf a => if a then .nan else .inf false
  | .fin a m e =>
    if m = 0 then .fin a 0 e
    else if a then .nan
    else
      let k : Nat := 80 + (e % 2).toNat
      let n := m * 2 ^ k
      let r := isqrt n
      .fin false (2 * r + (if r * r = n then 0 else 1)) ((e - k) / 2 - 1)

/-- The value truncated to an integer at 2^-s: floor of x × 2^s; 0 for a NaN or infinity. -/
def FVal.floorScaled (s : Nat) : FVal → Int
  | .fin a m e =>
    let x := e + s
    let v : Int := if 0 ≤ x then (m * 2 ^ x.toNat : Nat) else (m : Int)
    let v := if a then -v else v
    if 0 ≤ x then v else v / (2 ^ (-x).toNat : Nat)
  | _ => 0

/-- x × 2^s rounded to an integer, ties to even; 0 for a NaN or infinity. -/
def FVal.roundScaled (s : Int) : FVal → Int
  | .fin a m e =>
    let x := e + s
    let v : Int := if a then -(m : Int) else m
    if 0 ≤ x then v * (2 ^ x.toNat : Nat) else rshiftRne v (-x).toNat
  | _ => 0

/-- fp32 arithmetic on encodings: each rounds once. -/
def f32add (x y : Nat) : Nat := fp32.pack ((fp32.decode x).add (fp32.decode y))
def f32sub (x y : Nat) : Nat := fp32.pack ((fp32.decode x).add (fp32.decode y).neg)
def f32mul (x y : Nat) : Nat := fp32.pack ((fp32.decode x).mul (fp32.decode y))
def f32div (x y : Nat) : Nat := fp32.pack ((fp32.decode x).div (fp32.decode y))
def f32sqrt (x : Nat) : Nat := fp32.pack (fp32.decode x).sqrt
def f32lt (x y : Nat) : Bool := (fp32.decode x).lt (fp32.decode y)
def f32eq (x y : Nat) : Bool := (fp32.decode x).eq (fp32.decode y)
def f32ofInt (v : Int) : Nat := fp32.pack (FVal.ofInt v)
def f32isNan (x : Nat) : Bool := fp32.decode x == .nan

/-- π × 2^126, rounded down. -/
def piScaled : Nat := 267257146016241686964920093290467695825

/-- cos and sin (as integers × 2^120) of an angle z × 2^-120 by their series, `n` terms from term `k`. -/
def cosSeries (z2 : Int) : Nat → Nat → Int → Int
  | 0, _, _ => 0
  | n + 1, k, t =>
    t + cosSeries z2 n (k + 2) (-(t * z2 / (2 ^ 120 : Nat)) / ((k + 1) * (k + 2) : Nat))

end Sys2Proof.Machine
end

