-- ==== Sys2Proof/Machine/State.lean ====
section
/-! DEFINITION. The state of the YN960 as plain data, the ways a command can stop, and the state right
after module reset. Every field's default is its value when module reset ends after power-on. -/

namespace Sys2Proof.Machine

/-- The ways a command can stop the machine. Every one is safe: the model stops where the command names
a unit that the module does not have, so nothing false can be proved of the module by it. -/
inductive Fault where
  /-- The command names a Hearth above 47, a core above 1, a Kiln above 3, a host domain above 3, a panel
  or data port or Cord or other unit that does not exist. Raised by `withUnit`. Safe. -/
  | noSuchUnit
  deriving DecidableEq, Repr

/-- Commands that the model gives no meaning. -/
inductive Refusal where
  /-- The row of this mnemonic has no meaning yet. Raised by an arm of `exec` alone. Safe. -/
  | notModelled (mnemonic : String)
  deriving DecidableEq, Repr

/-! ### Chapter 20: supply, reset, straps and lands -/

/-- The supply stage, module reset and the straps (R534 to R536). -/
structure Power where
  /-- The module has power: VIN is above its levels and the fuse is closed. -/
  powered    : Bool := true
  fuseOpen   : Bool := false
  overvolt   : Bool := false
  /-- The die is held in module reset. -/
  inReset    : Bool := false
  /-- RESET_N is low; and the time at which it last went high (R536). -/
  resetNLow  : Bool := false
  resetNHigh : Nat := 0
  /-- The die stays in reset until Tj < 95 °C (R466). -/
  thermalHold : Bool := false
  /-- The die stays in reset until a rail has been back for 100 ms (R485). -/
  railHold   : Bool := false
  /-- The time at which the rail came back within tolerance. -/
  railBack   : Nat := 0
  /-- The time of the fuse's last trip or failed retry (R534). -/
  fuseAt     : Nat := 0
  /-- The time of the last sample of the die sensors (R453). -/
  sampled    : Option Nat := none
  /-- `DEV_RESET_CAUSE.CAUSE` (R518): 0 POWER_ON, 1 RESET_N, 2 THERMAL, 3 SUPPLY, 4 CLOCK, 5 LINK. -/
  cause      : Nat := 0
  /-- The cause held in the always-powered domain for the reset in progress (R519). -/
  nextCause  : Option Nat := none
  /-- The reset began in this CLK_S cycle, so that a cause of a lower code replaces its own (R519). -/
  fresh      : Bool := false
  /-- The level of PWR_CAP[1:0]; open lands read 1 (R533). [DESIGN CHOICE: assumption 6] -/
  pwrCapPins : Nat := 3
  /-- The level of RECOVERY_N. -/
  recoveryN  : Bool := true
  /-- The strap cap in W, latched when module reset ends (R451). -/
  strapCapW  : Nat := 120
  /-- RECOVERY_N as latched when module reset ended (R497 step 1). -/
  recoveryStrap : Bool := true
  /-- The last telemetry of the input: mV, mA and mW (R469, R538), 0 before the first (R6). -/
  vinMv      : Nat := 0
  iinMa      : Nat := 0
  inputMw    : Nat := 0
  /-- The brown-out hold (R467): when it began, the lowest input seen, and when the exit timer started. -/
  holdSince  : Option Nat := none
  holdLowest : Nat := 0
  exitTimer  : Option Nat := none
  deriving DecidableEq, Repr

/-- Land groups and outputs (R537 to R541). [DEDUCED: assumption 231] -/
structure Lands where
  /-- (group code, signal, fault kind) of each interface fault present (R541). -/
  faults   : List (Nat × Nat × Nat) := []
  /-- (group code, signal) of each output that R539 disabled. -/
  disabled : List (Nat × Nat) := []
  /-- The time at which each disabled output last drove its land: by group × 256 + signal (R539). -/
  drove    : SMap Nat := []
  /-- Device time of the last rising edge of SYNC_OUT, if any (R537). -/
  syncOut  : Option Nat := none
  /-- The data of the last SMBus read, `none` after a NACK or a bus reset (R538). -/
  smbData  : Option (List Byte) := none
  deriving DecidableEq, Repr

/-! ### Chapter 1 and R486: clocks; R18, R483: Braid links -/

/-- The PLL root, the clock monitors and a relock in progress (R19 to R23, R486). -/
structure Clocks where
  /-- Root cycles since module reset ended. -/
  root       : Nat := 0
  /-- The PLL is not locked, and device time when it lost its lock. -/
  relocking  : Bool := false
  lostLock   : Nat := 0
  /-- (clock code of R489, end of the window) of the last monitor windows that were outside ±1 %. -/
  suspect    : List (Nat × Nat) := []
  /-- Device times of the clock faults. -/
  faultTimes : List Nat := []
  deriving DecidableEq, Repr

/-- One Braid link (R15 to R18, R483). A traffic class of a direction, a lane below, has the number 3 × direction +
class. -/
structure Link where
  /-- Lane halves that work: 2, 1 or 0. -/
  halves   : Nat := 2
  /-- For each lane, the consecutive failed retries of the flit that is being retransmitted. -/
  fails    : SMap Nat := []
  /-- Device times of retries within the last second. -/
  retries  : List Nat := []
  /-- For each lane, the flit in the sender's replay buffer that is being retransmitted: source and destination. -/
  replay   : SMap (Option (Nat × Nat)) := []
  /-- For each lane, the number of the next flit to be received. -/
  nextFlit : SMap Nat := []
  /-- For each lane, the flits that the receiver holds, oldest first: source and destination. -/
  held     : SMap (List (Nat × Nat)) := []
  /-- For each lane, the input that the sending router's rotation considers first (R17). -/
  turn     : SMap Nat := []
  deriving DecidableEq, Repr

/-! ### Chapter 16: the Draught governor -/

/-- A best-effort energy request in the governor's queue (R459). -/
structure BeRequest where
  sub    : Nat
  cord   : Nat
  time   : Nat
  energy : Nat
  deriving DecidableEq, Repr

/-- The Draught governor (R451 to R467). -/
structure Draught where
  /-- The 64 sensors in 1/16 °C. -/
  sensors   : List Int := List.replicate 64 0
  warn      : Bool := false
  limit     : Bool := false
  /-- Consecutive samples with Tj ≥ 115 °C. -/
  hot       : Nat := 0
  /-- The module estimates of the last ten epochs in mW, newest first. -/
  recent    : List Nat := []
  /-- Consecutive epoch ends with P_100 < P_t − 5 W. -/
  below     : Nat := 0
  /-- The correction factor k (R456); `DRG_K` resets to 0 (R6), which stands for 4,096. -/
  k         : Nat := 0
  /-- The target power P_t in mW (R462). -/
  target    : Nat := 120000
  /-- The effective cap in W (R452). -/
  capW      : Nat := 120
  /-- The reserve accounts A_c in nJ. -/
  accounts  : SMap Int := []
  /-- The best-effort pool B in nJ. -/
  pool      : Int := 0
  queue     : List BeRequest := []
  /-- Submissions whose grant has been given and not yet used. -/
  granted   : List Nat := []
  lastDown  : Option Nat := none
  lastUp    : Option Nat := none
  overCap   : Bool := false
  reserveShort : Bool := false
  clampSince : Option Nat := none
  /-- The current BE divider (R463). [DESIGN CHOICE: assumption 184] -/
  beDiv     : Nat := 8
  /-- The uncorrected estimate of the running millisecond in nJ (R456). -/
  estNj     : Nat := 0
  deriving DecidableEq, Repr

/-! ### Chapter 17: logs, services and physical Hearths -/

/-- A log entry (R488). -/
structure LogEntry where
  time   : Nat
  origin : Nat
  kind   : Nat
  addr   : Word
  old    : Word
  new    : Word
  seq    : Nat
  check  : Word
  deriving DecidableEq, Repr

/-- An append-only log of 16,384 entries, newest first (R488, R505). -/
structure Log where
  entries : List LogEntry := []
  /-- `sequence` of the next entry. -/
  next    : Nat := 0
  /-- Entries written since module reset. -/
  written : Nat := 0
  /-- `check` of the last entry, 0 before the first. -/
  check   : Word := 0
  /-- The sequence selected for reading, and the entry copied by that selection. -/
  sel     : Word := 0
  copied  : Option LogEntry := none
  deriving DecidableEq, Repr

/-- A physical Hearth (R472 to R482): what stays with the mesh position. -/
structure Phys where
  /-- 0 IN_SERVICE, 1 RECOVERING, 2 SUSPECT, 3 QUARANTINED (R473). -/
  service   : Nat := 0
  /-- Kiln k: 0 READY, 1 TESTING, 2 QUARANTINED. -/
  kilns     : SMap Nat := []
  /-- It entered service after module reset (R474 start-up test passed). -/
  started   : Bool := false
  /-- Why Kilns are TESTING: 1 start-up, 2 in-field, 3 recovery of some Kiln, 0 none (R474); and for each Kiln. -/
  testing   : Nat := 0
  why       : SMap Nat := []
  /-- Device time at which the test of a TESTING Kiln k began. -/
  testFrom  : SMap Nat := []
  /-- Device times of the last passed test of Kiln k, plus one; 0 if never. -/
  kilnTests : SMap Nat := []
  /-- Device time of the last passed structural test (R476 step 4), if any. -/
  tested    : Option Nat := none
  /-- Suspected faults: (part, device time); part 0 to 3 Kiln, 4 and 5 core, 6 divider (R481). -/
  suspects  : List (Nat × Nat) := []
  /-- Device time of the last end of a job here, if any (R479). -/
  idleSince : Nat := 0
  /-- The CLK_A divider in force, the governor's choice, and a request not yet in force (R20, R21). -/
  div       : Nat := 8
  gov       : Nat := 8
  divReq    : Option Nat := none
  /-- Spare rows used in each bank, and whether that bank is in retention or off (R440, R441). -/
  spareRows : SMap Nat := []
  retention : SMap Nat := []
  /-- Device time of the last access to each bank. -/
  bankUse   : SMap Nat := []
  deriving DecidableEq, Repr

/-- The rotation slot in progress (R476). -/
structure Slot where
  /-- The physical Hearth under test. -/
  hearth   : Nat
  start    : Nat
  /-- The logical Hearth that moved and the spare that hosts it, if anything moved. -/
  moved    : Option (Nat × Nat) := none
  /-- The copy to the spare is in progress; then the test; then the copy back. 0, 1, 2. -/
  phase    : Nat := 0
  deriving DecidableEq, Repr

/-- Rotation, services, and retired resources (R476 to R487). -/
structure Faults where
  log       : Log := {}
  /-- Service causes (R487). -/
  service   : Nat := 0
  slot      : Option Slot := none
  /-- The physical Hearth whose slot came last, and when the rotation last began again. -/
  lastSlot  : Option Nat := none
  rotStart  : Option Nat := none
  rotPeriod : Nat := 0
  /-- Physical Hearths whose structural test runs alone: (Hearth, old code of HEARTH_TEST_FAIL, device time of its
  begin). -/
  alone     : List (Nat × Nat × Nat) := []
  /-- Device time of the begin of the last slot. -/
  slotAt    : Option Nat := none
  retiredCh : List Nat := []
  retiredWays : List Nat := []
  /-- Edge stops whose link is dead. -/
  deadStops : List Nat := []
  deriving DecidableEq, Repr

/-! ### Chapter 18: boot, owner record, attestation and recovery -/

/-- The current owner record (R494, R496). -/
structure OwnerRec where
  seq      : Nat := 0
  host     : Nat := 0
  minFw    : Nat := 0
  ecdsaKey : List Byte := []
  lmsKey   : List Byte := []
  hash     : BitVec 384 := 0
  /-- The default record of R496 is in use. -/
  isDefault : Bool := true
  /-- The record stands in copy B of the flash. -/
  copyB    : Bool := false
  deriving DecidableEq, Repr

/-- The trust unit (R492 to R507). -/
structure Trust where
  /-- 0 ROM, 1 RECOVERY, 2 RUN. -/
  boot       : Nat := 0
  recovered  : Bool := false
  /-- The identity private key, when the PUF gave it and it matches the certificate (R499). -/
  idKey      : Option (BitVec 384) := none
  sealKey    : Option (BitVec 384) := none
  identityOk : Bool := false
  serial     : List Byte := []
  owner      : OwnerRec := {}
  attBusy    : Bool := false
  attValid   : Bool := false
  attFailed  : Bool := false
  quote      : List Byte := []
  /-- 0 idle, 1 receiving, 2 busy, 3 verified. -/
  ownState   : Nat := 0
  ownResult  : Nat := 0
  ownStaged  : List Byte := []
  ownOver    : Bool := false
  /-- A commit that is writing the flash, or waits for the Lay loader (R502). -/
  ownCommit  : Bool := false
  /-- The recovery image staged in Hearth stores 0 to 7: bytes received (R498). -/
  recOpen    : Bool := false
  recCount   : Nat := 0
  recOver    : Bool := false
  recResult  : Nat := 0
  recBusy    : Bool := false
  /-- REC_VERIFY found the staged image good, and nothing has changed it or the owner record since. -/
  recVerified : Bool := false
  /-- REC_PROGRAM is writing the flash. -/
  recProgramming : Bool := false
  fwVersion  : Nat := 0
  fwHash     : BitVec 384 := 0
  chg        : Log := {}
  deriving DecidableEq, Repr

/-! ### Chapter 3: host ports -/

/-- An event record (R86). -/
structure Event where
  code  : Nat
  block : Nat
  arg   : Word
  time  : Nat
  deriving DecidableEq, Repr

/-- A ZT response (R74). -/
structure Response where
  opcode : Nat
  tag    : Nat
  status : Nat
  words  : List Word
  detail : Nat
  deriving DecidableEq, Repr

/-- A complete time-sync exchange (R89). -/
structure Exchange where
  t1     : Nat
  offset : Int
  delay  : Int
  deriving DecidableEq, Repr

/-- A data port's stream (R80). -/
structure DataPort where
  bound    : Bool := false
  outbound : Bool := false
  cord     : Nat := 0
  session  : Nat := 0
  /-- Ring base (Cord-relative byte address) and size in words. -/
  base     : Nat := 0
  size     : Nat := 0
  /-- Index of the oldest word held and the number of words held. -/
  head     : Nat := 0
  held     : Nat := 0
  /-- Words moved since binding. -/
  moved    : Nat := 0
  /-- Submission that waits on this ring and since when. -/
  waiter   : Option (Nat × Nat) := none
  /-- Device time from which the running wait has yet to be counted in `DP_STALL_US`. -/
  uncounted : Nat := 0
  /-- DATA_PORT_STALL was queued and `DP_STALL_US` has not been read since. -/
  stallSent : Bool := false
  deriving DecidableEq, Repr

/-- A request that has begun and is not done (R68, R79, R84): the words still to be written, or one 0 for each word
still to be read; the words performed, the status so far, and the words read. -/
structure Active where
  op     : Nat
  req    : ZtReq
  todo   : List Word := []
  done   : Nat := 0
  status : Nat := 0
  got    : List Word := []
  /-- The link went down: the request completes, and its response is discarded (R88). -/
  lost   : Bool := false
  deriving DecidableEq, Repr

/-- One host domain: its USB port, responses, events, data ports and clock mapping. -/
structure HostPort where
  rate      : Nat := 0
  flip      : Bool := false
  downs     : Nat := 0
  /-- Device time at which the link last went down (R540). -/
  downSince : Nat := 0
  /-- Responses written to bulk IN and not discarded by a link loss, oldest first. [DESIGN CHOICE: assumption 70] -/
  responses : List Response := []
  /-- The request in progress, if other accesses fall between its words (R79). -/
  active    : Option Active := none
  /-- A FENCE that is not yet answered: its tag (R78). -/
  fence     : Option Nat := none
  /-- Requests that wait behind the FENCE, oldest first, each with the device time at which it arrived. -/
  behind    : List (Nat × Instr) := []
  events    : List Event := []
  /-- Events lost since the last EVENTS_LOST. -/
  lost      : Nat := 0
  /-- Records of the last interrupt transfers, oldest first. -/
  delivered : List Event := []
  ports     : SMap DataPort := []
  /-- The exchange whose t4 has not arrived: t1, t2, t3. -/
  open1     : Option (Nat × Nat × Nat) := none
  /-- The last 16 complete exchanges, oldest first. -/
  exchanges : List Exchange := []
  /-- The mapping (R90): whether it exists, ref_host, offset, rate. -/
  mapped    : Bool := false
  refHost   : Nat := 0
  offset    : Int := 0
  ratePpb   : Int := 0
  /-- `_HI` values latched by `_LO` reads: by address of the `_LO` register (R513). -/
  latches   : SMap Word := []
  /-- The words that the last read that is a command of its own returned. -/
  lastRead  : List Word := []
  deriving DecidableEq, Repr

/-! ### Chapter 2: the Lay image and its loader -/

/-- One entry of a timing table (R48). -/
structure Timing where
  mode    : Nat
  scale   : Nat
  hearths : Nat
  wcNs    : Nat
  energy  : Nat
  spillNs : Nat
  deriving DecidableEq, Repr

/-- One resident model: the fields of the MODEL header (R46), its timing table, and its bytes. -/
structure ModelCfg where
  cord     : Nat
  index    : Nat
  modelId  : Nat
  cls      : Nat
  halo     : Nat
  scaleK   : Nat
  flags    : Nat
  rows     : Nat
  need     : Nat
  /-- (offset, length) of the Kindling code, the command streams, codebooks, weights, signatures and
  vector bodies. -/
  kindling : Nat × Nat
  commands : Nat × Nat
  codebooks : Nat × Nat
  weights  : Nat × Nat
  sigs     : Nat × Nat
  vector   : Nat × Nat
  timing   : List Timing
  /-- The section's bytes. -/
  bytes    : List Byte
  deriving DecidableEq, Repr

/-- One Cord (R37). -/
structure CordCfg where
  cord        : Nat
  ownerHost   : Nat
  reserveMw   : Nat
  hearths     : BitVec 48
  channels    : BitVec 32
  ways        : BitVec 16
  hitchBase   : Nat
  hitchCount  : Nat
  sessionBase : Nat
  sessionCount : Nat
  weightShare : Nat
  historyBytes : Nat
  haloBytes   : Nat
  scaleBytes  : Nat
  tileBytes   : Nat
  historySteps : Nat
  /-- (base, size) in 64 KiB units of the seven structures of R43. -/
  region      : List (Nat × Nat)
  deriving DecidableEq, Repr

/-- A Lay image in effect (R26 to R49). -/
structure LayCfg where
  seq     : Nat
  hash    : BitVec 384
  roles   : List Nat
  scWays  : BitVec 16
  beSlice : Nat
  units   : List Nat
  cords   : List CordCfg
  models  : List ModelCfg
  deriving DecidableEq, Repr

/-- The Lay loader (R52 to R60). -/
structure Loader where
  /-- 0 IDLE, 1 RECEIVING, 2 VERIFYING, 3 VERIFIED, 4 STOPPING, 5 APPLYING. -/
  state     : Nat := 0
  result    : Nat := 0
  errOffset : Word := 0xFFFFFFFF
  affected  : BitVec 16 := 0
  count     : Nat := 0
  /-- A word beyond the limits was discarded (TOO_LARGE). -/
  tooBig    : Bool := false
  /-- The effective cap at the moment of VERIFY, in W (R45), and device time of APPLY (R58). -/
  capW      : Nat := 0
  applyAt   : Nat := 0
  /-- The image that passed VERIFY. -/
  next      : Option LayCfg := none
  deriving DecidableEq, Repr

/-! ### Chapters 4 and 5: Kilns and Quench units -/

/-- One accumulator entry: its 32 bits, its sticky clamp bit (R104) and its residue lane (R115). -/
structure Acc where
  val   : Word := 0
  clamp : Bool := false
  lane  : BitVec 3 := 0
  deriving DecidableEq, Repr

/-- A slot handed to the Quench unit and not yet read (R111): its number, the mode it is held in (4 for a 16-channel
integer tile, R170), and the `channel_base` of its command, which is carried with it (R107). -/
structure HeldSlot where
  slot   : Nat
  mode   : Nat
  chBase : Nat
  deriving DecidableEq, Repr

/-- A Kiln (R93 to R123). [DESIGN CHOICE: assumption 211] -/
structure Kiln where
  /-- Entry i of the bank of PE (r, c) is at index (16r + c) × 64 + i (R95). -/
  acc     : SMap Acc := []
  /-- The weight buffer of 8 KiB: half i is at i × 4,096 (R93). [DEDUCED: assumption 217] -/
  weights : SMap Byte := []
  held    : List HeldSlot := []
  mode    : Nat := 0
  /-- A started command waits for the Quench unit (R111, R123). -/
  busy    : Bool := false
  faulted : Bool := false
  cause   : Nat := 0
  deriving DecidableEq, Repr

/-- What the window unit delivers to one PE row for one term (R97, R102, R159). -/
inductive Tap where
  /-- An activation code and the zero point of the input row it was read from. -/
  | code (k : Nat) (zp : Int)
  /-- An expanded activation: constant padding in T4 and E8. -/
  | value (a : Int)
  /-- A bf16 activation. -/
  | bf (x : Nat)
  /-- A forced zero. -/
  | zero
  deriving DecidableEq, Repr

/-! ### Chapter 6: the window unit -/

/-- A row stream (R154, R155, R168). -/
structure Stream where
  /-- 0 closed, 1 set up by a command and not yet open, 2 open. -/
  phase   : Nat := 0
  /-- Its window command, and the core and pc that issued it. -/
  cmd     : List Byte := []
  core    : Nat := 0
  pc      : Nat := 0
  /-- 1 CODE4, 2 CODE8, 3 BF16. -/
  fmt     : Nat := 0
  fanout  : Nat := 0
  /-- The terms, each with the taps of PE rows 0 to 15 (dense form), or of 16 channels for each PE row
  (diagonal form: tap of row r and channel column c at 16r + c). -/
  terms   : List (List Tap) := []
  /-- 0 dense, 1 DIAG, 2 DIAGMAX, with the kernel rows, taps per row, channels and fold multipliers. -/
  diag    : Nat := 0
  nky     : Nat := 0
  nkx     : Nat := 0
  nc      : Nat := 0
  mults   : List Nat := []
  /-- Kilns that have taken the stream. -/
  taken   : List Nat := []
  deriving DecidableEq, Repr

/-- A SPLICE in progress (R177). -/
structure Splicing where
  cmd  : List Byte
  core : Nat
  /-- The FREE Hitch has been granted and the writes are under way. -/
  written : Bool
  /-- The uncorrectable word that the writes met, as a Hearth and a byte address (R439). -/
  ue : Option (Nat × Nat) := none
  deriving DecidableEq, Repr

/-- A line of the line buffer (R153): the window block, real row and channel that it is a copy of, the Lb bytes that it
occupies, and its bytes. In per-tap fetch mode it belongs to one stream (R163). -/
structure Line where
  block : Nat
  row   : Nat
  chan  : Nat
  size  : Nat
  bytes : List Byte
  owner : Option Nat := none
  deriving DecidableEq, Repr

/-- A window unit and its Splice engine (R152 to R182). -/
structure Window where
  streams : SMap Stream := []
  splice  : Option Splicing := none
  /-- (window block and parity, side) of the halos that are present (R178), and of those waited for. -/
  present : List (Nat × Nat) := []
  waiting : List (Nat × Nat) := []
  /-- The resident lines, oldest first (R152, R163). -/
  lines   : List Line := []
  cause   : Nat := 0
  deriving DecidableEq, Repr

/-! ### Chapter 7: Kindling cores -/

/-- A command in a target queue (R196, R197): its 32 bytes, and the core and pc that issued it. -/
structure QEntry where
  cmd  : List Byte
  core : Nat
  pc   : Nat := 0
  deriving DecidableEq, Repr

/-- A Kindling core (R183 to R215). -/
structure Core where
  /-- 0 idle, 1 running, 2 stalled, 3 halted. -/
  state   : Nat := 0
  pc      : Nat := 0
  x       : SMap DWord := []
  v       : SMap VWord := []
  p       : SMap Word := []
  g       : BitVec 12 := 0
  d       : BitVec 12 := 0
  /-- The pc is a taken target that R205 has not yet checked. -/
  blkPending : Bool := false
  /-- A pre-emption request is pending; the core has stopped for it (R207). -/
  stopReq : Bool := false
  stopped : Bool := false
  cord    : Nat := 0
  session : Nat := 0
  arg0    : Word := 0
  arg1    : Word := 0
  vpath   : Bool := false
  ppointOnly : Bool := false
  rowFirst : Nat := 0
  rowCount : Nat := 0
  texsel  : Word := 0
  scratch : DWord := 0
  /-- Instruction words by pc / 4; the rest of the memory is 0. -/
  imem    : SMap Word := []
  /-- Pairs of instructions (pc / 8) that hold a double-bit error (R206). -/
  imemUe  : List Nat := []
  faulted : Bool := false
  cause   : Nat := 0
  trapCode : Nat := 0
  faultPc : Nat := 0
  /-- The Hitch that a stalled WAIT is queued on. -/
  waitsOn : Option Nat := none
  /-- Commands issued to each target and not complete. -/
  issued  : SMap Nat := []
  deriving DecidableEq, Repr

/-! ### Chapter 15: Hitches and memories -/

/-- An agent queued on a Hitch and the n it waits for (R426). -/
structure Waiter where
  agent : Agent
  n     : Nat
  deriving DecidableEq, Repr

/-- A Hitch (R425). -/
structure Hitch where
  count   : Nat := 0
  barrier : Bool := false
  target  : Nat := 0
  poison  : Bool := false
  ovf     : Bool := false
  queue   : List Waiter := []
  /-- The host domains whose last `HITCH_TRY` succeeded (R433). -/
  tryOk   : List Nat := []
  deriving DecidableEq, Repr

/-- Errors and spares of one DRAM channel (R446, R449, R484). -/
structure Channel where
  corrected : Nat := 0
  uncorrectable : Nat := 0
  /-- (block, word address) of the correctable errors of this scrub pass. -/
  seen      : List (Nat × Nat) := []
  /-- Blocks remapped to spares. -/
  remapped  : List Nat := []
  /-- (block, device time) of uncorrectable errors of the last 24 h. -/
  ueBlocks  : List (Nat × Nat) := []
  /-- The next line that the patrol scrubber reads (R448), and the passes it has completed. -/
  scrubLine : Nat := 0
  /-- Device time from which the scrubber reads that line (R448). -/
  scrubFrom : Nat := 0
  passes    : Nat := 0
  deriving DecidableEq, Repr

/-- Background test, spare rows and channels (R441 to R449). -/
structure MemSys where
  /-- The next region to test, and the region under test (R442). -/
  region    : Nat := 0
  running   : Option Nat := none
  passes    : Nat := 0
  /-- First regions of the memory instances whose background test has stopped (R444). -/
  stopped   : List Nat := []
  /-- Regions redirected to their spare for good. -/
  redirected : List Nat := []
  /-- (physical Hearth, bank, row) of the store words that were corrected in this test pass (R441). -/
  rowErrors : List (Nat × Nat × Nat) := []
  channels  : SMap Channel := []
  /-- (way, set, device time) of uncorrectable errors in cache ways (R484). -/
  wayErrors : List (Nat × Nat × Nat) := []
  deriving DecidableEq, Repr

/-! ### Chapters 10 to 12: what a running job of the engines keeps -/

/-- A binned primitive (R284 to R286): its number, draw, snapped positions in 1/256 pixel, depths and w as
fp32, and the Cord-relative addresses of its three transformed vertices. -/
structure Prim where
  seq   : Nat
  draw  : Nat
  pos   : List (Int × Int)
  z     : List Nat
  w     : List Nat
  vtx   : List Nat
  /-- The draw's `blend`, `depth`, `raster` and `target_mask` (R281). -/
  blend : Nat
  dtest : Nat
  rast  : Nat
  mask  : Nat
  /-- The address of its record in list memory (R286). -/
  recAt : Nat
  deriving DecidableEq, Repr

/-- A batch that a raster tile unit has to hand out or has handed out (R283, R293): the primitive's number, or
the first vertex; the 4 × 4 block; the coverage mask, or the vertex count; and the batch slot once handed out. -/
structure Batch where
  item  : Nat
  block : Nat := 0
  mask  : Nat
  slot  : Nat := 0
  deriving DecidableEq, Repr

/-- A tile that a Hearth renders (R291). -/
structure TileRt where
  tx    : Nat
  ty    : Nat
  /-- The texels of attachments 0 to 4, 1,024 each in raster order, as format codes; absent ones are empty. -/
  pix   : List (List Nat)
  /-- The running depth as an fp32 value for each pixel. -/
  depth : List Nat
  /-- Batches not yet handed out, and those handed out and not yet retired. -/
  todo  : List Batch := []
  out   : List Batch := []
  /-- Translucent primitives still to rasterise, in ascending number. -/
  later : List Prim := []
  deriving DecidableEq, Repr

/-- What a raster tile unit holds for one stretch of a pass. -/
structure Stretch where
  /-- Vertex batches given to this Hearth, not yet handed out and handed out. -/
  todo  : List Batch := []
  out   : List Batch := []
  /-- Tiles (ty × TW + tx) still to render in this segment. -/
  tiles : List Nat := []
  tile  : Option TileRt := none
  /-- Boundaries that cores 0 and 1 have still to take. -/
  bound : List Nat := [0, 0]
  deriving DecidableEq, Repr

/-- A pass in progress (R276 to R297). -/
structure Pass where
  /-- 0 not begun, 1 shading and binning, 2 rendering a segment, 3 finished. -/
  phase    : Nat := 0
  /-- The wait on `wait_hitch` has been granted; the Hitch that the binning unit is queued on. -/
  waited   : Bool := false
  waitsOn  : Option Nat := none
  draw     : Nat := 0
  /-- The Cord-relative address of the current draw's first vertex, and list memory in use before it. -/
  vtxBase  : Nat := 0
  usedBefore : Nat := 0
  nextSeq  : Nat := 0
  /-- List memory in use in this segment, and its largest use so far. -/
  listUsed : Nat := 0
  segment  : Nat := 0
  /-- The first draw of this segment. -/
  segFirst : Nat := 0
  /-- This segment ends at a flush. -/
  flush    : Bool := false
  prims    : List Prim := []
  /-- Entries in each tile's list in this segment. -/
  counts   : SMap Nat := []
  /-- The address of each tile's newest list chunk in this segment (R286). -/
  chunks   : SMap Nat := []
  /-- A vertex batch of the current draw has been handed out. -/
  begun    : Bool := false
  /-- Tiles that some segment has rendered. -/
  rendered : List Nat := []
  stretches : List Stretch := []
  flushSent : Bool := false
  missSent : Bool := false
  deriving DecidableEq, Repr

/-- A VISION job between tiles (R312, R317). -/
structure VisionRt where
  tile     : Nat := 0
  features : Nat := 0
  dropped  : Nat := 0
  deriving DecidableEq, Repr

/-- A sample of a BATCH job in the intake unit (R357). -/
structure Sample where
  /-- Its place in the order of consumption. -/
  order   : Nat
  id      : Nat
  kind    : Nat
  label   : List Byte
  payload : List Byte
  /-- 0 waits for a decoder, 1 for a cache store of its id, 2 for augmentation, 3 has its output. -/
  stage   : Nat
  /-- Device time at which it reached this stage. -/
  ready   : Nat := 0
  fmt     : Nat := 0
  width   : Nat := 0
  height  : Nat := 0
  /-- Decoded bytes, rows packed. -/
  pixels  : List Byte := []
  fromCache : Bool := false
  stored  : Bool := false
  /-- Its output record, without position and backfill flag. -/
  out     : List Byte := []
  /-- The JPEG decoder that decodes it (R343). -/
  decoder : Option Nat := none
  deriving DecidableEq, Repr

/-- A SENSOR sample that the aligner has accepted (R364). -/
structure SensorSample where
  stream  : Nat
  time    : Nat
  bytes   : List Byte
  deriving DecidableEq, Repr

/-- An INTAKE job (R357 to R366). -/
structure IntakeRt where
  /-- The descriptor has been found valid. -/
  checked  : Bool := false
  consumed : Nat := 0
  /-- Bytes taken from the ring of a record that is longer than the ring. -/
  head     : List Byte := []
  /-- Bytes to take from the ring of a record at its front that is being decided and is consumed only then (R359). -/
  front    : Option Nat := none
  /-- Words that wait for room in the outbound ring, and whether they end with the job's last output. -/
  out      : List Word := []
  last     : Bool := false
  /-- (order, id, reason) of the failures. -/
  failures : List (Nat × Nat × Nat) := []
  /-- Samples in decode, lookup, augmentation or staging. -/
  samples  : List Sample := []
  /-- (position, id) of the positions filled. -/
  filled   : List (Nat × Nat) := []
  /-- (order, position) given to extra records that succeeded. -/
  given    : List (Nat × Nat) := []
  /-- The status with which the job ends early (R359). -/
  ending   : Option Nat := none
  bundle   : Nat := 0
  sensors  : List SensorSample := []
  /-- Device time of the last accepted sample of each stream, plus one. -/
  lastTime : SMap Nat := []
  deriving DecidableEq, Repr

/-! ### Chapter 14: jobs -/

/-- What the end of a job leaves for a job that is chained to it (R399, R405): status, Hearths, first rows of the
stretches and `rows`, and those of the RASTER job that began the chain, with no rows where none did. -/
structure ChainLink where
  status : Nat
  hearths : List Nat := []
  cuts   : List Nat := []
  rows   : Nat := 0
  rasterCuts : List Nat := []
  rasterRows : Nat := 0
  deriving DecidableEq, Repr

/-- A job: its descriptor (R398), and what the dispatch unit and the units that run it keep of it (R402 to R419). -/
structure Job where
  sub      : Nat
  cord     : Nat
  /-- The host that owned the Cord when the job was accepted (R421). -/
  host     : Nat
  lc       : Bool
  /-- The descriptor (R398). -/
  kind     : Nat
  flags    : Nat
  nHearths : Nat
  histFlags : Nat
  session  : Nat
  modelId  : Nat
  entry0   : Nat
  entry1   : Nat
  arg0     : Word
  arg1     : Word
  deadline : Nat
  budgetNs : Nat
  wcNs     : Nat
  energyUj : Nat
  npBoundUs : Nat
  rows     : Nat
  tag      : Word
  startHitch : Nat
  startCount : Nat
  doneHitch : Nat
  /-- The energy that it asks the Draught governor for, in nJ (R406). -/
  energyNj : Nat := 0
  /-- The energy its Hearths and units have used, in nJ (R460). -/
  usedNj   : Nat := 0
  /-- 0 queued, 1 loading its weight share, 2 running, 3 stopping for a pre-emption, 4 being saved,
  5 saved and queued, 6 being restored. -/
  phase    : Nat := 0
  /-- The submission accepted before it in its session since the open, 0 for none, and how that one ended. -/
  prev     : Nat := 0
  chain    : Option ChainLink := none
  /-- The start wait has succeeded (R398). -/
  waitOk   : Bool := false
  /-- Waits for its energy grant (R406). -/
  asked    : Bool := false
  /-- Its Hearths in stretch order, and the stretches already loaded (R217). -/
  hearths  : List Nat := []
  loaded   : List Nat := []
  /-- It ran when it was aborted, and stops at its next pre-emption point (R419). -/
  aborting : Bool := false
  /-- Its save records, in stretch order (R412). -/
  records  : List Nat := []
  /-- The distinct Hitches it signalled, newest first, at most 64 (R417). -/
  signalled : List Nat := []
  firstStart : Option Nat := none
  resumed  : Nat := 0
  residentNs : Nat := 0
  sliceStart : Nat := 0
  sliceLeft  : Nat := 0
  demoted  : Bool := false
  preempts : Nat := 0
  /-- 0 not asked to stop, 1 for an LC job, 2 for a swap, 3 at the end of its slice. -/
  stopWhy  : Nat := 0
  /-- Blocked since (R414). -/
  blockedSince : Option Nat := none
  /-- First rows of the stretches, ended by `rows` (R399). -/
  cuts     : List Nat := []
  /-- Part of a slot's chain of the fill governor, which draws on the governor's grant: the slot's number. -/
  slot     : Option Nat := none
  /-- Position in the work of an engine: words copied, tiles, samples, lines. -/
  done     : Nat := 0
  /-- It waits on a full outbound or empty inbound ring. -/
  ringWait : Bool := false
  /-- The engine descriptor as read when the job started, and the units it holds while it runs. -/
  desc     : List Byte := []
  units    : List Nat := []
  pass     : Pass := {}
  vis      : VisionRt := {}
  intake   : IntakeRt := {}
  deriving DecidableEq, Repr

/-- What the dispatch unit knows of a session beside its descriptor. -/
structure SessRt where
  /-- How the last accepted job of the session ended, if it has. -/
  last : Option ChainLink := none
  /-- Device time of the open. -/
  opened : Nat := 0
  /-- A panel sink: the frame whose commit line is the next slot's deadline (R250). -/
  target : Option Nat := none
  /-- The Hearths of the last FILL job (R261). -/
  fillHearths : List Nat := []
  /-- The last slot decided as N or U whose chain ended OK (R258). -/
  okSlot : Option Nat := none
  deriving DecidableEq, Repr

/-- The run-time state of one Cord. -/
structure CordRt where
  /-- The staged words of the two submission windows (R401). -/
  stagedLc : SMap Word := []
  stagedBe : SMap Word := []
  sessResult : Word := 0
  abortResult : Nat := 0
  cqWr     : Nat := 0
  accepted : Nat := 0
  finished : Nat := 0
  torn     : Nat := 0
  /-- Save records in use, and their owner: (record, submission). -/
  records  : List (Nat × Nat) := []
  swapPending : Bool := false
  shortSent : Bool := false
  /-- Device time from which an ingestion job waits only because of the hold and has yet to be counted, and whether this
  hold has queued INGEST_HELD (R242). -/
  heldSince : Option Nat := none
  heldSent : Bool := false
  /-- Dictionaries built by DICT_LOAD: (dict_addr, entries in token order) (R344). -/
  dicts    : List (Nat × List (List Byte)) := []
  /-- Cache stores in progress: id and the stored bytes (R353, R354). -/
  stores   : List (Nat × List Byte) := []
  /-- A cache reset waits for the stores in progress. -/
  cacheReset : Bool := false
  /-- Arena in use in 64-byte units, and directory entries in use (R352). -/
  arena    : Nat := 0
  entries  : Nat := 0
  /-- The directory size in effect: D = 2^(8 + dir) (R352). -/
  dir      : Nat := 0
  /-- Late records of this 100 ms window, and the last window's SATURATED (R369). -/
  late     : Nat := 0
  saturated : Bool := false
  /-- Nanoseconds of the window in which every decoder that the Cord owns was decoding (R369). -/
  decNs    : Nat := 0
  deriving DecidableEq, Repr

/-! ### Chapter 8: the history mover; Hearths -/

/-- The history mover of a Hearth (R224, R225, R230, R236). -/
structure History where
  /-- Ring appends and prefix appends that the job has made on this stretch. -/
  p       : Nat := 0
  q       : Nat := 0
  /-- The area's tag: session, stretch, `steps`. -/
  tag     : Option (Nat × Nat × Nat) := none
  /-- The history record as of the job's dispatch, and the stretch index. -/
  record  : List Byte := []
  stretch : Nat := 0
  deriving DecidableEq, Repr

/-- A logical Hearth: what moves with it when a migration moves it (R472, R476). -/
structure Hearth where
  /-- The Hearth store; unlisted bytes read as 0. -/
  store   : SMap Byte := []
  /-- 64-bit words of the store that hold an uncorrectable error (R439). -/
  storeUe : List Nat := []
  /-- The weight-share tag: Cord and model_id (R217). -/
  tag     : Option (Nat × Nat) := none
  kilns   : SMap Kiln := []
  /-- `QUENCH_STATUS.CAUSE` (R149). -/
  quenchCause : Nat := 0
  /-- Map rows begun by `ROW_FIRST` and not ended by `ROW_LAST` (R146): the parameter block, the row, and the position
  where the next group begins. -/
  mapRows : List (Nat × Nat × Nat) := []
  win     : Window := {}
  cores   : SMap Core := []
  /-- The command queues of the eight targets (R197). -/
  queues  : SMap (List QEntry) := []
  hist    : History := {}
  /-- The submission number of the job that holds the Hearth, if any. -/
  job     : Option Nat := none
  /-- Store bytes must be zeroed before another job starts (R417), and Kilns restarted after that. -/
  zeroing : Bool := false
  deriving DecidableEq, Repr

/-! ### Chapter 9: the fill governor -/

/-- A slot decided and not complete (R264 to R271). -/
structure SlotRt where
  cord     : Nat
  session  : Nat
  k        : Nat
  deadline : Nat
  mode     : Nat
  /-- The last job of its chain, and every job of it. -/
  last     : Nat
  subs     : List Nat
  /-- Its slot record's number (`FILL_REC_WR` before it was written), if one was written. -/
  record   : Option Nat := none
  /-- A panel slot: it completes at a commit (R266), and its (port, region). -/
  panel    : Option (Nat × Nat) := none
  /-- The chain rendered the next anchor (R259). -/
  anchor   : Bool := false
  /-- The chain has ended, with this status. -/
  chain    : Option Nat := none
  /-- A panel slot that a commit of its own chain has completed while the chain runs on. -/
  committed : Bool := false
  deriving DecidableEq, Repr

/-- A force of R263: session, mode, scale, slots left. -/
structure Force where
  session : Nat
  mode    : Nat
  scale   : Nat
  count   : Nat
  deriving DecidableEq, Repr

/-- The governor's state for one Cord. -/
structure FillRt where
  wr        : Nat := 0
  /-- The ring size in effect (R272). -/
  size      : Nat := 0
  forces    : List Force := []
  /-- (session, mode, scale) of the anchors rendered early (R259). -/
  early     : List (Nat × Nat × Nat) := []
  fallbacks : Nat := 0
  saturated : Bool := false
  deriving DecidableEq, Repr

/-! ### Chapter 13: panel ports -/

/-- A commit that no latch has taken (R377): its number, its marks, and the front slot it changes to. -/
structure Commit where
  seq     : Nat
  content : Nat
  warp    : Nat
  front   : Option Nat := none
  deriving DecidableEq, Repr

/-- What a panel port sends on its link (R371): the DCS code, or 0x100 + the data type of a DSI packet, and the
bytes that follow it. -/
structure PanelMsg where
  code  : Nat
  bytes : List Byte
  deriving DecidableEq, Repr

/-- An output land of a panel port (R390). -/
structure PanelOut where
  level    : Bool := false
  /-- Device time of its last change, if any, and the changes that are deferred, oldest first. -/
  changed  : Option Nat := none
  deferred : List Bool := []
  deriving DecidableEq, Repr

/-- A panel port (R370 to R392). -/
structure Panel where
  /-- 0 OFF, 1 BRINGUP, 2 RUN, 3 MODE_CHANGE. -/
  state    : Nat := 0
  pushing  : Bool := false
  teLost   : Bool := false
  laneRev  : Nat := 0
  latchErr : Bool := false
  modeErr  : Bool := false
  fault    : Bool := false
  dcsOvf   : Bool := false
  /-- Active values of the RWS registers by offset; an unlisted one holds its reset value. -/
  active   : SMap Word := []
  /-- The mode in force: `PP_MODE` and `PP_GEOM` as last programmed. -/
  mode     : Word := 2
  geom     : Word := 0
  seq      : Nat := 0
  taken    : Nat := 0
  pending  : List Commit := []
  /-- Marks latched and not yet carried by a push, the commits they came from, and whether the next push is
  full-frame. -/
  content  : Nat := 0
  warp     : Nat := 0
  full     : Bool := false
  /-- A latched commit changed the front slot, and no push has carried it. -/
  newFront : Bool := false
  /-- Marks that the push in progress carries. -/
  pushContent : Nat := 0
  pushWarp : Nat := 0
  /-- (slot, band, device time) of the bands that the push in progress holds, until it has read past them (R382). -/
  holds    : List (Nat × Nat × Nat) := []
  pushes   : Nat := 0
  /-- (push number, highest sequence, start time) of the last 16 pushes, newest first. -/
  log      : List (Nat × Nat × Nat) := []
  /-- The counter has reached the commit line in this frame. -/
  passed   : Bool := false
  /-- TE events so far: the number of the frame in progress. -/
  frames   : Nat := 0
  /-- Device time at which the line counter was last 0, and of the last real TE. -/
  lineBase : Int := 0
  lastTe   : Option Nat := none
  /-- Device time from which R385's 100 ms without a real TE count. -/
  quiet    : Nat := 0
  /-- A mode change: 0 none, 1 waits for the push to end, 2 in LP-11, 3 reprogrammed, 4 waits for TE. In BRINGUP:
  1 while a read is in progress, 0 until the next try. -/
  step     : Nat := 0
  /-- Device time at which the lanes went to LP-11 in a mode change; in BRINGUP that of the read's request, or of the
  fault. -/
  since    : Nat := 0
  /-- The mode fields that step 3 of a mode change found valid (R386). -/
  nextMode : Word := 2
  nextGeom : Word := 0
  /-- EN was written 0 while a push was in progress. -/
  closing  : Bool := false
  /-- The bring-up read in progress: the lane and whether it is swapped. -/
  lane     : Nat := 0
  swapped  : Bool := false
  /-- Queued DCS writes: command word and payload. -/
  dcs      : List (Nat × List Byte) := []
  /-- What the port sends in the push, setup or bring-up in progress, oldest first; code 0x200 is the skew calibration
  of R370. [DESIGN CHOICE: assumption 179] -/
  sent     : List PanelMsg := []
  rstN     : PanelOut := {}
  pwrEn    : PanelOut := {}
  deriving DecidableEq, Repr

/-! ### The whole machine -/

/-- The state of the module. -/
structure State where
  /-- The commands that wait, first in, first out. -/
  pending : List Instr := []
  /-- Device time in ns (R4). -/
  time    : Nat := 0
  /-- Time of the surroundings in ns, which passes in reset too (the model's own field; assumption 4). -/
  wall    : Nat := 0
  /-- Device time at which each periodic event last came, by a key of the event (the model's own field; assumption 4).
  -/
  came    : SMap Nat := []
  /-- Free values drawn so far (the model's own field; assumption 2). -/
  draws   : Nat := 0
  pwr     : Power := {}
  lands   : Lands := {}
  clk     : Clocks := {}
  /-- Braid links by link code (R489). -/
  links   : SMap Link := []
  drg     : Draught := {}
  flt     : Faults := {}
  trust   : Trust := {}
  /-- The boot flash; an unlisted byte is erased (R492). -/
  flash   : SMap Byte := []
  hosts   : SMap HostPort := []
  /-- Plain registers and counters by `regKey` (R5, R6); an unlisted one holds its reset value. -/
  regs    : SMap Word := []
  loader  : Loader := {}
  /-- The active Lay image (R26). -/
  lay     : Option LayCfg := none
  /-- Physical Hearths, and where each logical Hearth lies: an unlisted one lies at its own number (R472). -/
  phys    : SMap Phys := []
  place   : SMap Nat := []
  /-- Logical Hearths. -/
  hearths : SMap Hearth := []
  /-- DRAM: byte `off` of channel c is at c × 1,879,048,192 + off (R41); unlisted bytes read as 0. -/
  dram    : SMap Byte := []
  /-- 64-bit words of DRAM (address div 8) that hold an uncorrectable error (R447). -/
  dramUe  : List Nat := []
  mem     : MemSys := {}
  hitches : SMap Hitch := []
  /-- Jobs in flight, in the order of their queue positions. -/
  jobs    : List Job := []
  /-- (submission, Cord) of the jobs that have ended. -/
  ended   : List (Nat × Nat) := []
  nextSub : Nat := 1
  slots   : List SlotRt := []
  fills   : SMap FillRt := []
  sessions : SMap SessRt := []
  /-- The session cache (R397): session numbers, most recently used first, at most 8,192. -/
  sessCache : List Nat := []
  cords   : SMap CordRt := []
  panels  : SMap Panel := []
  /-- The frame store, 24 MiB (R372). -/
  frame   : SMap Byte := []
  /-- Saved Hearths: by Cord × 65,536 + record (R412). -/
  saved   : SMap Hearth := []
  /-- Accepted, finished and torn down jobs of each host (R421): by host × 4 + 0, 1, 2. -/
  hostCounts : SMap Nat := []
  deriving DecidableEq, Repr

/-- The machine right after module reset following power-on (R6, R497): device time 0, BOOT is ROM. [DESIGN CHOICE:
assumption 1; DEDUCED: assumption 7] -/
def State.reset : State := {}

end Sys2Proof.Machine
end

