-- ==== Sys2Proof/Machine/Operands.lean ====
section
/-! DEFINITION. Operand forms of the Kindling cores: register reads and writes (R183, R184), lanes,
instruction encodings (R186, R187), effective addresses and branch targets (R188, R193). -/

namespace Sys2Proof.Machine

/-! ### Registers -/

/-- x register `r`; x0 reads 0 (R183). -/
def Core.readX (k : Core) (r : BitVec 5) : DWord :=
  if r = 0 then 0 else k.x.look (fun _ => 0) r.toNat

/-- Write x register `r`; a write to x0 is discarded (R183). -/
def Core.writeX (k : Core) (r : BitVec 5) (v : DWord) : Core :=
  if r = 0 then k else { k with x := k.x.put (fun _ => 0) r.toNat v }

/-- Vector register `r`. -/
def Core.readV (k : Core) (r : BitVec 5) : VWord := k.v.look (fun _ => 0) r.toNat

/-- Write vector register `r` whole. -/
def Core.writeV (k : Core) (r : BitVec 5) (v : VWord) : Core :=
  { k with v := k.v.put (fun _ => 0) r.toNat v }

/-- Predicate register `r`; p0 reads all ones (R183). -/
def Core.readP (k : Core) (r : BitVec 3) : Word :=
  if r = 0 then 0xFFFFFFFF else k.p.look (fun _ => 0) r.toNat

/-- Write predicate register `r`; a write to p0 is discarded (R183). -/
def Core.writeP (k : Core) (r : BitVec 3) (v : Word) : Core :=
  if r = 0 then k else { k with p := k.p.put (fun _ => 0) r.toNat v }

/-! ### Lanes -/

/-- Lane width and number of lanes of a form (R183). -/
def laneBits (w16 : Bool) : Nat := if w16 then 16 else 32
def laneCount (w16 : Bool) : Nat := if w16 then 32 else 16

/-- Lane `i` of a vector as a natural number. -/
def lane (w16 : Bool) (v : VWord) (i : Nat) : Nat :=
  v.toNat / 2 ^ (laneBits w16 * i) % 2 ^ laneBits w16

/-- Lane `i` as a signed number. -/
def laneS (w16 : Bool) (v : VWord) (i : Nat) : Int :=
  let x := lane w16 v i
  if x < 2 ^ (laneBits w16 - 1) then x else (x : Int) - (2 ^ laneBits w16 : Nat)

/-- A vector from a function of the lane number. -/
def ofLanes (w16 : Bool) (f : Nat → Nat) : VWord :=
  BitVec.ofNat 512 ((List.range (laneCount w16)).foldl
    (fun a i => a + f i % 2 ^ laneBits w16 * 2 ^ (laneBits w16 * i)) 0)

/-- Merge lanes under a predicate: lane i is new where bit i of `pr` is 1 (R184). -/
def maskLanes (w16 : Bool) (pr : Word) (old : VWord) (f : Nat → Nat) : VWord :=
  ofLanes w16 fun i => if pr.toNat.testBit i then f i else lane w16 old i

/-! ### Encodings (R186, R187) -/

/-- Fields side by side, from the major opcode down. -/
def encode5 (op : BitVec 6) (a b : BitVec 5) (rest : BitVec 16) : Word := op ++ a ++ b ++ rest

/-- A format: major opcode 0, funct. -/
def encA (funct : BitVec 11) (rd rs1 rs2 : BitVec 5) : Word := (0 : BitVec 6) ++ rd ++ rs1 ++ rs2 ++ funct
/-- I and M formats. -/
def encI (op : BitVec 6) (rd rs1 : BitVec 5) (imm : BitVec 16) : Word := encode5 op rd rs1 imm
/-- B format with two registers. -/
def encB (op : BitVec 6) (rs1 rs2 : BitVec 5) (off : BitVec 16) : Word := encode5 op rs1 rs2 off
/-- B format with a predicate in [23:21]. -/
def encBP (op : BitVec 6) (pr : BitVec 3) (off : BitVec 16) : Word :=
  encode5 op ((0 : BitVec 2) ++ pr) 0 off
/-- V format writing a vector register. -/
def encV (op : BitVec 6) (funct : BitVec 7) (vd vs1 vs2 : BitVec 5) (pr : BitVec 3) (w16 : Bool) : Word :=
  op ++ vd ++ vs1 ++ vs2 ++ pr ++ (if w16 then (1 : BitVec 1) else 0) ++ funct
/-- V format writing a predicate in [23:21]. -/
def encVP (op : BitVec 6) (funct : BitVec 7) (pd : BitVec 3) (vs1 vs2 : BitVec 5) (pr : BitVec 3)
    (w16 : Bool) : Word :=
  encV op funct ((0 : BitVec 2) ++ pd) vs1 vs2 pr w16
/-- K format. -/
def encK (op : BitVec 6) (rs1 rd : BitVec 5) (target : BitVec 3) (off : BitVec 12) : Word :=
  op ++ rs1 ++ rd ++ target ++ (0 : BitVec 1) ++ off
/-- H format. -/
def encH (oper : BitVec 3) (rd rs1 rs2 : BitVec 5) : Word :=
  (0x3C : BitVec 6) ++ rd ++ rs1 ++ rs2 ++ (0 : BitVec 8) ++ oper
/-- SYS: bits [25:20] 0, a 12-bit value in [19:8], the operation in [7:0]. -/
def encSys (v : BitVec 12) (oper : BitVec 8) : Word := (0x3E : BitVec 6) ++ (0 : BitVec 6) ++ v ++ oper
/-- BLK. -/
def encBlk (adj : Bool) (d s : BitVec 12) : Word :=
  (0x3F : BitVec 6) ++ (if adj then (1 : BitVec 1) else 0) ++ (0 : BitVec 1) ++ d ++ s

/-- Masks of the fields that an encoding fixes: all of them; without [25:24] of a predicate destination or
source; KISSUE without rd; KWAIT and KPOLL; SYS without a value; TRAP. No rule requires the rest to be 0. -/
def maskAll : Word := 0xFFFFFFFF
def maskPd : Word := 0xFCFFFFFF
def maskKissue : Word := 0xFFE0FFFF
def maskKwait : Word := 0xFC00F000
def maskKpoll : Word := 0xFC1FF000
def maskSys : Word := 0xFFF000FF
def maskTrap : Word := 0xFFF0FFFF

/-- Whether a word is a BLK instruction (R205). -/
def isBlk (w : Word) : Bool := w.toNat / 2 ^ 26 == 0x3F

/-- Field [hi:lo] of a word. -/
def field (w : Word) (lo n : Nat) : Nat := w.toNat / 2 ^ lo % 2 ^ n

/-- Whether a V word is legal (R187, R188, R190). VTEX names a multiple of 4 (R211). -/
def vecLegal (w : Word) : Bool :=
  let op := field w 26 6
  let fn := field w 0 7
  let w16 := decide (field w 7 1 = 1)
  if op = 0x30 then
    decide (fn ≤ 0x17) && (fn != 6 || (!w16 && field w 21 1 == 0)) &&
    (fn != 8 || (!w16 && field w 16 1 == 0))
  else if op = 0x31 then decide (fn ≤ 7)
  else if op = 0x32 then decide (fn ≤ 0x0F)
  else fn == 0 && field w 21 2 == 0

/-- Whether an instruction word is legal (R187, R190). The control-register index of CSRR and CSRW is judged by R185.
[DEDUCED: assumption 82] -/
def legalWord (w : Word) : Bool :=
  let op := field w 26 6
  let rd := field w 21 5
  let rs1 := field w 16 5
  let imm := field w 0 16
  if op = 0 then
    let f := field w 0 11
    decide (f ≤ 0xD) || (decide (0x10 ≤ f) && decide (f ≤ 0x16))
  else if op ≤ 0xB then true
  else if op = 0xC then rs1 == 0 && decide (imm ≤ 0xD)
  else if op = 0xD then rd == 0 && (imm == 0xC || imm == 0xD)
  else if 0x10 ≤ op ∧ op ≤ 0x1E then true
  else if 0x20 ≤ op ∧ op ≤ 0x25 then true
  else if op = 0x26 then rs1 == 0
  else if op = 0x27 ∨ op = 0x28 then rs1 == 0
  else if 0x30 ≤ op ∧ op ≤ 0x33 then vecLegal w
  else if 0x38 ≤ op ∧ op ≤ 0x3A then field w 12 1 == 0
  else if op = 0x3C then
    field w 3 8 == 0 && decide (field w 0 3 ≤ 3) && (field w 0 3 == 2 || rd == 0)
  else if op = 0x3E then field w 20 6 == 0 && decide (field w 0 8 ≤ 5)
  else if op = 0x3F then field w 24 1 == 0
  else false

/-! ### Addresses and targets -/

/-- x[base] + offset, sign-extended (R186). -/
def Core.effAddr (k : Core) (base : BitVec 5) (off : BitVec 16) : Nat :=
  (k.readX base + off.signExtend 64).toNat

/-- A pc after `n` bytes, within the 32 KiB memory. -/
def pcAdd (pc n : Nat) : Nat := (pc + n) % 32768

/-- The target of a B-format branch or JAL: pc + 4 × offset, mod 32,768 (R188). -/
def branchTarget (pc : Nat) (off : BitVec 16) : Nat :=
  (((pc : Int) + 4 * off.toInt) % 32768).toNat

/-- The target of JALR: x[rs1] + imm with bits [1:0] cleared, mod 32,768 (R188). -/
def Core.jalrTarget (k : Core) (rs1 : BitVec 5) (imm : BitVec 16) : Nat :=
  (k.readX rs1 + imm.signExtend 64).toNat % 32768 / 4 * 4

/-- The instruction word at the pc. -/
def Core.fetch (k : Core) : Word := k.imem.look (fun _ => 0) (k.pc / 4)

/-- Major opcodes of the M and V formats (R187), and those that R191 shuts out as the first of a pair. -/
def majorM (op : Nat) : Bool := decide (0x10 ≤ op) && decide (op ≤ 0x1E)
def majorV (op : Nat) : Bool := decide (0x30 ≤ op) && decide (op ≤ 0x33)
def majorLast (op : Nat) : Bool := (decide (0x20 ≤ op) && decide (op ≤ 0x28)) || decide (0x38 ≤ op) || op == 0x0B

/-- Whether the instruction at the pc may issue in the cycle of the one before it (R191, but for its registers). [DESIGN
CHOICE: assumption 8] -/
def Core.mayPair (k : Core) : Bool :=
  let a := (k.imem.look (fun _ => 0) (k.pc / 4 - 1)).toNat / 2 ^ 26
  let b := k.fetch.toNat / 2 ^ 26
  !k.blkPending && decide (4 ≤ k.pc) && !majorLast a && !(majorM a && majorM b) && !(majorV a && majorV b)

end Sys2Proof.Machine
end

