-- ==== Sys2Proof/Machine/Flags.lean ====
section
/-! DEFINITION. Results of the Kindling arithmetic: scalar operations, comparisons, predicate results and
lane operations (R187 to R189). -/

namespace Sys2Proof.Machine

/-! ### Scalar -/

/-- The high 64 bits of the signed and of the unsigned product. -/
def mulhS (a b : DWord) : DWord := BitVec.ofInt 64 (a.toInt * b.toInt / (2 ^ 64 : Nat))
def mulhU (a b : DWord) : DWord := BitVec.ofNat 64 (a.toNat * b.toNat / 2 ^ 64)

/-- Division and remainder (R188): divisor 0 gives all ones and the dividend; −2^63 / −1 gives −2^63, 0. -/
def divS (a b : DWord) : DWord := if b = 0 then BitVec.allOnes 64 else BitVec.ofInt 64 (a.toInt.tdiv b.toInt)
def divU (a b : DWord) : DWord := if b = 0 then BitVec.allOnes 64 else BitVec.ofNat 64 (a.toNat / b.toNat)
def remS (a b : DWord) : DWord := if b = 0 then a else BitVec.ofInt 64 (a.toInt.tmod b.toInt)
def remU (a b : DWord) : DWord := if b = 0 then a else BitVec.ofNat 64 (a.toNat % b.toNat)

/-- 1 or 0. -/
def boolWord (b : Bool) : DWord := if b then 1 else 0
def sltS (a b : DWord) : DWord := boolWord (decide (a.toInt < b.toInt))
def sltU (a b : DWord) : DWord := boolWord (decide (a.toNat < b.toNat))
def minS (a b : DWord) : DWord := if a.toInt < b.toInt then a else b
def maxS (a b : DWord) : DWord := if a.toInt < b.toInt then b else a
def minU (a b : DWord) : DWord := if a.toNat < b.toNat then a else b
def maxU (a b : DWord) : DWord := if a.toNat < b.toNat then b else a

/-- Shifts by the low six bits of the amount. -/
def shl (a b : DWord) : DWord := a <<< (b.toNat % 64)
def shrL (a b : DWord) : DWord := a >>> (b.toNat % 64)
def shrA (a b : DWord) : DWord := a.sshiftRight (b.toNat % 64)

/-! ### Predicates -/

/-- A predicate from a function of the lane number, for the lanes of the form (R184). -/
def ofBits (n : Nat) (f : Nat → Bool) : Word :=
  BitVec.ofNat 32 ((List.range n).foldl (fun a i => a + (if f i then 2 ^ i else 0)) 0)

/-- A comparison result: bits of unselected lanes and beyond the form are 0 (R188). -/
def cmpPred (w16 : Bool) (pr : Word) (f : Nat → Bool) : Word :=
  ofBits (laneCount w16) fun i => pr.toNat.testBit i && f i

/-- PSETN: bits 0 to n − 1, n taken unsigned and saturated at 32 (R188). -/
def psetn (x : DWord) : Word := ofBits 32 fun i => decide (i < x.toNat)

/-! ### Integer lanes -/

/-- A signed number as `n` bits. -/
def bitsOf (n : Nat) (v : Int) : Nat := (v % (2 ^ n : Nat)).toNat

/-- The shift amount of a lane: [4:0] in 32-bit form, [3:0] in 16-bit form (R188). -/
def laneShift (w16 : Bool) (v : VWord) (i : Nat) : Nat := lane w16 v i % laneBits w16

/-- The 64-bit pair {v(d+1) : v(d)} of 32-bit lane i, signed (R188). -/
def pairLane (lo hi : VWord) (i : Nat) : Int :=
  laneS false hi i * (2 ^ 32 : Nat) + (lane false lo i : Int)

/-! ### Floating-point lanes (R189) -/

/-- The format of a V instruction's width. -/
def vfmt (w16 : Bool) : Fmt := if w16 then fp16 else fp32

/-- VFMIN and VFMAX: NaN if either is NaN; −0 is less than +0. -/
def fltMin (F : Fmt) (a b : Nat) : Nat :=
  let x := F.decode a
  let y := F.decode b
  if x = .nan ∨ y = .nan then F.qnan
  else if x.isZero && y.isZero then (if F.sign ≤ a then a else b)
  else if y.lt x then b else a
def fltMax (F : Fmt) (a b : Nat) : Nat :=
  let x := F.decode a
  let y := F.decode b
  if x = .nan ∨ y = .nan then F.qnan
  else if x.isZero && y.isZero then (if F.sign ≤ a then b else a)
  else if x.lt y then b else a

/-- VCVTFI: ties to even, saturating, NaN to 0. -/
def cvtFI (F : Fmt) (n a : Nat) : Nat :=
  match F.decode a with
  | .nan => 0
  | .inf neg => if neg then 2 ^ (n - 1) else 2 ^ (n - 1) - 1
  | v => bitsOf n (satS n (v.roundScaled 0))

/-- Convert between formats, one rounding. -/
def cvtFmt (F G : Fmt) (a : Nat) : Nat := G.pack (F.decode a)

/-- An fp32 value as bf16; the manual gives a NaN no bf16 value, and `free` stands for it. [DESIGN CHOICE: assumption
15] -/
def bf16Of (a : Nat) (free : BitVec 64) : Nat :=
  if fp32.decode a = .nan then free.toNat % 65536 else cvtFmt fp32 bf16 a

end Sys2Proof.Machine
end

