-- ==== Sys2Proof/Machine/Hitch.lean ====
section
/-! DEFINITION. The operations of one Hitch (R425 to R431): signal, wait, trywait, set, arm, cancel and
poison, and the serving of the waiter queue. Each answers the Hitch and the agents granted. -/

namespace Sys2Proof.Machine

/-- Grant head waiters while the count allows (R427, counter mode). -/
def serveCounter : Nat → List Waiter → Nat × List Waiter × List Agent
  | c, [] => (c, [], [])
  | c, w :: rest =>
    if w.n ≤ c then
      let (c', q, g) := serveCounter (c - w.n) rest
      (c', q, w.agent :: g)
    else (c, w :: rest, [])

/-- Serve the queue after a signal, a set or a removal (R427). A poisoned Hitch grants nothing (R429). -/
def Hitch.serve (h : Hitch) : Hitch × List Agent :=
  if h.poison then (h, [])
  else if h.barrier then
    (if h.target ≤ h.count then
      ({ h with count := h.count - h.target, queue := [] }, h.queue.map Waiter.agent)
     else (h, []))
  else
    let (c, q, g) := serveCounter h.count h.queue
    ({ h with count := c, queue := q }, g)

/-- SIGNAL(n): the count saturates at 0xFFFF_FFFF and sets overflow (R426, R428). -/
def Hitch.signal (h : Hitch) (n : Nat) : Hitch × List Agent :=
  let c := h.count + n
  ({ h with count := min c 0xFFFFFFFF, ovf := h.ovf || decide (0xFFFFFFFF < c) } : Hitch).serve

/-- WAIT(n) by an agent (R426): it joins the queue, which is served at once in counter mode. -/
def Hitch.wait (h : Hitch) (a : Agent) (n : Nat) : Hitch × List Agent :=
  let h' : Hitch := { h with queue := h.queue ++ [⟨a, n⟩] }
  if h.barrier then (h', []) else h'.serve

/-- TRYWAIT(n) (R426): the Hitch after it and whether it succeeded. -/
def Hitch.tryWait (h : Hitch) (n : Nat) : Hitch × Bool :=
  if !h.poison && !h.barrier && h.queue.isEmpty && decide (n ≤ h.count) then
    ({ h with count := h.count - n }, true)
  else (h, false)

/-- Set (R426): the count, and barrier mode ends. -/
def Hitch.set (h : Hitch) (v : Nat) : Hitch × List Agent :=
  ({ h with count := v, barrier := false } : Hitch).serve

/-- ARM as a barrier of `t` parties (R426). -/
def Hitch.arm (h : Hitch) (t : Nat) : Hitch :=
  { h with count := 0, target := t, barrier := true }

/-- Remove an agent's entry and serve the queue (R431). -/
def Hitch.cancel (h : Hitch) (a : Agent) : Hitch × List Agent :=
  ({ h with queue := h.queue.filter fun w => w.agent != a } : Hitch).serve

/-- Poison: every waiter completes with POISONED (R429). -/
def Hitch.poisoned (h : Hitch) : Hitch × List Agent :=
  ({ h with poison := true, queue := [] }, h.queue.map Waiter.agent)

/-- A write of 1 to POISON while poisoned (R429). -/
def Hitch.unpoison (h : Hitch) : Hitch :=
  if h.poison then { h with poison := false, count := 0, barrier := false } else h

/-- `HITCH_STATUS` as domain `d` reads it (R433). -/
def Hitch.status (h : Hitch) (d : Nat) : Word :=
  BitVec.ofNat 32 ((if h.poison then 1 else 0) + (if h.barrier then 2 else 0) + (if h.ovf then 4 else 0) +
    (if d ∈ h.tryOk then 8 else 0) + min h.queue.length 255 * 256 + h.target % 65536 * 65536)

end Sys2Proof.Machine
end

