-- ==== Sys2Proof/Machine/Ops.lean ====
section
/-! DEFINITION. The named operations over the state that every chapter shares: unit guards, accessors,
registers and counters, logs and events, service causes, the Lay's lookups, DRAM and Hearth stores. -/

namespace Sys2Proof.Machine

/-- The die has power and is not held in module reset. -/
def State.live (s : State) : Bool := s.pwr.powered && !s.pwr.inReset

/-- The outcome type of a command. -/
abbrev Out := Host.Outcome State Fault Refusal

/-- Run a command on a unit that exists; a unit that does not exist stops the machine. [DESIGN CHOICE: assumption 10] -/
def withUnit (ok : Bool) (t : State) : Out := if ok then .next t else .fault .noSuchUnit

/-! ### Accessors -/

def State.host (s : State) (d : Nat) : HostPort := s.hosts.look (fun _ => {}) d
def State.setHost (s : State) (d : Nat) (h : HostPort) : State :=
  { s with hosts := s.hosts.put (fun _ => {}) d h }
def State.phy (s : State) (p : Nat) : Phys := s.phys.look (fun _ => {}) p
def State.setPhy (s : State) (p : Nat) (v : Phys) : State :=
  { s with phys := s.phys.put (fun _ => {}) p v }
def State.hearth (s : State) (h : Nat) : Hearth := s.hearths.look (fun _ => {}) h
def State.setHearth (s : State) (h : Nat) (v : Hearth) : State :=
  { s with hearths := s.hearths.put (fun _ => {}) h v }
def State.core (s : State) (h c : Nat) : Core := (s.hearth h).cores.look (fun _ => {}) c
def State.setCore (s : State) (h c : Nat) (k : Core) : State :=
  let v := s.hearth h
  s.setHearth h { v with cores := v.cores.put (fun _ => {}) c k }
def State.kiln (s : State) (h k : Nat) : Kiln := (s.hearth h).kilns.look (fun _ => {}) k
def State.setKiln (s : State) (h k : Nat) (v : Kiln) : State :=
  let w := s.hearth h
  s.setHearth h { w with kilns := w.kilns.put (fun _ => {}) k v }
def State.queueOf (s : State) (h t : Nat) : List QEntry := (s.hearth h).queues.look (fun _ => []) t
def State.setQueueOf (s : State) (h t : Nat) (q : List QEntry) : State :=
  let v := s.hearth h
  s.setHearth h { v with queues := v.queues.put (fun _ => []) t q }
def State.hitch (s : State) (k : Nat) : Hitch := s.hitches.look (fun _ => {}) k
def State.setHitch (s : State) (k : Nat) (v : Hitch) : State :=
  { s with hitches := s.hitches.put (fun _ => {}) k v }
def State.cordRt (s : State) (n : Nat) : CordRt := s.cords.look (fun _ => {}) n
def State.setCordRt (s : State) (n : Nat) (v : CordRt) : State :=
  { s with cords := s.cords.put (fun _ => {}) n v }
def State.sess (s : State) (i : Nat) : SessRt := s.sessions.look (fun _ => {}) i
def State.setSess (s : State) (i : Nat) (v : SessRt) : State :=
  { s with sessions := s.sessions.put (fun _ => {}) i v }
def State.port (s : State) (d p : Nat) : DataPort := (s.host d).ports.look (fun _ => {}) p
def State.setPort (s : State) (d p : Nat) (v : DataPort) : State :=
  let h := s.host d
  s.setHost d { h with ports := h.ports.put (fun _ => {}) p v }

/-- A free value: the draw's number is counted in `draws`. -/
def State.draw (s : State) : BitVec 64 × State := (Config.freeValue s.draws, { s with draws := s.draws + 1 })

/-! ### Registers -/

/-- The key of a register: the blocks that each domain sees as its own are kept per domain, and the
registers of a Hearth or a panel port are kept by its number whichever Cord block shows them (R66, R472,
R520). -/
def regKey (d a : Nat) : Nat :=
  if (0x1000 ≤ a ∧ a < 0x2000) ∨ (0x10000 ≤ a ∧ a < 0x11000) then (d + 1) * 2 ^ 32 + a
  else if 0x100000 ≤ a ∧ a < 0x200000 ∧ ((0x8000 ≤ a % 65536 ∧ a % 65536 < 0xC000) ∨
      (0x6000 ≤ a % 65536 ∧ a % 65536 < 0x7000)) then
    2 ^ 40 + a % 65536
  else a

/-- The key of a Hearth or panel-port register at Cord-block offset `off`. -/
def hKey (off : Nat) : Nat := 2 ^ 40 + off

/-- The address of a Cord-block register. -/
def cordAddr (n off : Nat) : Nat := 0x100000 + n * 65536 + off

/-- The reset value of the register at offset `off` of a panel port (R391, R392): `PP_MODE`, `PP_TIMING`, and
h0, h4 and h8 of each region's warp, which is the identity. -/
def panelReset (off : Nat) : Word :=
  if off = 0x008 then 2
  else if off = 0x010 then 109253512
  else if 0x400 ≤ off ∧ off < 0x800 ∧ (off % 64 = 0 ∨ off % 64 = 16 ∨ off % 64 = 32) then 0x3F800000
  else 0

/-- Reset values of the plain registers that do not reset to 0 (R6): `LAY_DRAIN_TIMEOUT`, `FLT_CTRL`,
`MEM_CTRL`, `FSG_SPLIT`, `HIST_HOLD` of each Cord, and those of the panel ports. -/
def regReset (k : Nat) : Word :=
  if k = 0x200018 then 10000
  else if k = 0x280004 then 3
  else if k = 0x2A0004 then 3
  else if k = 0x230000 then 192
  else if 0x100000 ≤ k ∧ k < 0x200000 ∧ k % 65536 = 0xC004 then 90
  else if 2 ^ 40 + 0x6000 ≤ k ∧ k < 2 ^ 40 + 0x7000 then panelReset ((k - 2 ^ 40 - 0x6000) % 0x800)
  else 0

def State.reg (s : State) (k : Nat) : Word := s.regs.look regReset k
def State.setReg (s : State) (k : Nat) (w : Word) : State := { s with regs := s.regs.put regReset k w }

/-- Count `n` in a counter that saturates at 0xFFFF_FFFF. -/
def State.bump (s : State) (k n : Nat) : State :=
  s.setReg k (BitVec.ofNat 32 (min ((s.reg k).toNat + n) 0xFFFFFFFF))

/-- Count cycles of an activity or a wait for which the manual gives a counter and no figure: a free number, at most
`most`. [DESIGN CHOICE: assumption 8] -/
def State.cycles (s : State) (k most : Nat) : State :=
  let (v, t) := s.draw
  t.bump k (v.toNat % (most + 1))

/-- Count a number of cycles that nothing bounds. -/
def State.anyCycles (s : State) (k : Nat) : State := s.cycles k 0xFFFFFFFF

/-- Count `n` in a counter whose unit is `u`: what is short of a unit is kept at a key of its own. [DESIGN CHOICE:
assumption 175] -/
def State.bumpUnits (s : State) (k u n : Nat) : State :=
  let t := (s.reg (2 ^ 41 + k)).toNat + n
  (s.setReg (2 ^ 41 + k) (BitVec.ofNat 32 (t % u))).bump k (t / u)

/-! ### Time -/

/-- Do `f` at a multiple of `p` ns of device time, once; `k` is the event's key. [DESIGN CHOICE: assumption 4] -/
def State.each (s : State) (k p : Nat) (f : State → State) : State :=
  if s.time % p = 0 ∧ s.came.look (fun _ => 0) k < s.time then f { s with came := s.came.put (fun _ => 0) k s.time } else s

/-! ### Logs and events -/

/-- One bit of the reflected CRC-32 of IEEE 802.3. -/
def crcBit (c : Nat) : Nat := if c % 2 = 1 then (c / 2) ^^^ 0xEDB88320 else c / 2

/-- One byte. -/
def crcByte (c : Nat) (b : Byte) : Nat := (List.range 8).foldl (fun x _ => crcBit x) (c ^^^ b.toNat)

/-- CRC-32 of a byte string (R488). -/
def crc32 (bs : List Byte) : Word :=
  BitVec.ofNat 32 (bs.foldl crcByte 0xFFFFFFFF ^^^ 0xFFFFFFFF)

/-- Bytes 0 to 27 of a log entry (R488). -/
def logBytes (time origin kind : Nat) (addr old new : Word) (seq : Nat) : List Byte :=
  natLe time 8 ++ natLe origin 2 ++ natLe kind 2 ++ natLe addr.toNat 4 ++ natLe old.toNat 4 ++
    natLe new.toNat 4 ++ natLe seq 4

/-- Append an entry; the oldest of 16,384 goes (R488). [DEDUCED: assumption 38] -/
def Log.append (l : Log) (time origin kind : Nat) (addr old new : Word) : Log :=
  let check := crc32 (logBytes time origin kind addr old new l.next ++ natLe l.check.toNat 4)
  { l with
    entries := (⟨time, origin, kind, addr, old, new, l.next, check⟩ :: l.entries).take 16384
    next := (l.next + 1) % 2 ^ 32
    written := l.written + 1
    check := check }

/-- Origins: host domain, physical Hearth and edge stop (R488). Firmware's, 0x4000, has no sender (assumption 229). -/
def originHost (d : Nat) : Nat := d
def originHearth (p : Nat) : Nat := 0x8000 + p
def originStop (i : Nat) : Nat := 0x8040 + i

def State.logFault (s : State) (origin kind : Nat) (addr old new : Nat) : State :=
  let l := s.flt.log.append s.time origin kind (.ofNat 32 addr) (.ofNat 32 old) (.ofNat 32 new)
  { s with flt := { s.flt with log := l } }

def State.logChange (s : State) (origin kind : Nat) (addr old new : Nat) : State :=
  let l := s.trust.chg.append s.time origin kind (.ofNat 32 addr) (.ofNat 32 old) (.ofNat 32 new)
  { s with trust := { s.trust with chg := l } }

/-- Queue an event for a host domain (R86, R87): one that finds 256 records is lost and counted; after a
loss, EVENTS_LOST goes first when space returns. -/
def State.event (s : State) (d code block arg : Nat) : State :=
  let h := s.host d
  if 256 ≤ h.events.length then
    (s.setHost d { h with lost := h.lost + 1 }).bump (regKey d 0x1010) 1
  else s.setHost d { h with events := h.events ++ [⟨code, block, BitVec.ofNat 32 arg, s.time⟩] }

/-- The owner host of the current owner record. -/
def State.owner (s : State) : Nat := s.trust.owner.host

/-- Queue an event for the owner host. -/
def State.eventOwner (s : State) (code block arg : Nat) : State := s.event s.owner code block arg

/-- Queue an event for every domain whose link is up. -/
def State.eventUp (s : State) (code block arg : Nat) : State :=
  ([0, 1, 2, 3] : List Nat).foldl (fun t d => if (s.host d).rate = 0 then t else t.event d code block arg) s

/-! ### Land faults (R539 to R541) -/

/-- The edge stop that detects a fault of a land group (R14): W0 for a USB port, E0 for a panel port, else W4. -/
def landStop (g : Nat) : Nat := if 0x10 ≤ g ∧ g < 0x14 then 16 else if 0x20 ≤ g ∧ g < 0x22 then 22 else 20

/-- A (group, signal) enters a fault state: one INTERFACE_FAULT entry (R541). -/
def State.landFault (s : State) (g i kind : Nat) : State :=
  if s.lands.faults.any fun e => e.1 == g && e.2.1 == i then s
  else
    let s1 := s.logFault (originStop (landStop g)) 0x32 (g + i * 256) 0 kind
    { s1 with lands := { s1.lands with faults := (g, i, kind) :: s1.lands.faults } }

/-- A (group, signal) leaves its fault state: one entry of kind 6 CLEARED. -/
def State.landClear (s : State) (g i : Nat) : State :=
  if s.lands.faults.any fun e => e.1 == g && e.2.1 == i then
    let s1 := s.logFault (originStop (landStop g)) 0x32 (g + i * 256) 0 6
    { s1 with lands := { s1.lands with faults := s1.lands.faults.filter fun e => !(e.1 == g && e.2.1 == i) } }
  else s

/-! ### The Lay -/

def State.cordCfg (s : State) (n : Nat) : Option CordCfg :=
  s.lay.bind fun l => l.cords.find? fun c => c.cord == n

/-- Queue an event for the owner host of a Cord. -/
def State.eventCord (s : State) (n code block arg : Nat) : State :=
  match s.cordCfg n with
  | some c => s.event c.ownerHost code block arg
  | none => s

/-- An event of Cord block n (R248). -/
def State.eventCordBlock (s : State) (n code arg : Nat) : State := s.eventCord n code (0x10 + n) arg

/-- The physical Hearth that hosts a logical one (R472). [DEDUCED: assumption 215] -/
def State.physOf (s : State) (h : Nat) : Nat := s.place.look id h

/-- The logical Hearth that a physical one hosts, if any. -/
def State.logicalOf (s : State) (p : Nat) : Option Nat :=
  (List.range 48).find? fun h => s.physOf h == p

/-- Whether a logical Hearth has left its Cord: its physical Hearth is quarantined (R482). -/
def State.lostHearth (s : State) (h : Nat) : Bool := (s.phy (s.physOf h)).service == 3

/-- The member Hearths of a Cord, in ascending number (R37, R482). -/
def State.members (s : State) (n : Nat) : List Nat :=
  match s.cordCfg n with
  | some c => (List.range 48).filter fun h => c.hearths.getLsbD h && !s.lostHearth h
  | none => []

/-- The Cord that holds a logical Hearth. -/
def State.cordOfHearth (s : State) (h : Nat) : Option Nat :=
  (List.range 16).find? fun n => (s.members n).contains h

/-- The Cord whose range holds a Hitch (R38). -/
def State.cordOfHitch (s : State) (k : Nat) : Option Nat :=
  s.lay.bind fun l => (l.cords.find? fun c =>
    decide (c.hitchBase ≤ k) && decide (k < c.hitchBase + c.hitchCount)).map CordCfg.cord

/-- Whether a Hitch lies in a Cord's range. -/
def State.hitchIn (s : State) (n k : Nat) : Bool := s.cordOfHitch k == some n

/-- The model of a Cord with a model_id (R46). -/
def State.model (s : State) (n id : Nat) : Option ModelCfg :=
  s.lay.bind fun l => l.models.find? fun m => m.cord == n && m.modelId == id

/-- The edge stop of an assignable unit (R14, R35). -/
def unitStop (u : Nat) : Nat :=
  if u < 2 then 23 else if u < 4 then 24 else if u < 8 then 25 else if u < 12 then 26 else if u = 12 then 27
  else if u < 15 then 22 else 21

/-- Whether a unit needs what stands at edge stop `i`: its own stop, and for the feature and match engines E5 too, where
the vision control core stands (R14). [DEDUCED: assumption 213] -/
def unitAtStop (u i : Nat) : Bool := unitStop u == i || (i == 27 && decide (4 ≤ u) && decide (u < 12))

/-- The owner byte of an assignable unit (R35); 0xFF with no Lay, and at a dead stop (R483). -/
def State.unitOwner (s : State) (u : Nat) : Nat :=
  match s.lay with
  | some l => if s.flt.deadStops.any (unitAtStop u) then 0xFF else l.units.getD u 0xFF
  | none => 0xFF

/-- Whether a Cord owns or shares a unit (R36). -/
def State.unitUsable (s : State) (n u : Nat) : Bool := s.unitOwner u == n || s.unitOwner u == 0xFE

/-! ### Service causes -/

/-- Set a service cause (R487): a newly set one is logged and queued. -/
def State.setService (s : State) (bit : Nat) : State :=
  if s.flt.service.testBit bit then s
  else
    let new := s.flt.service + 2 ^ bit
    let s1 := s.logFault (originStop 20) 0x40 bit s.flt.service new
    { s1 with flt := { s1.flt with service := new } }.eventOwner 0x1105 0x28 new

/-! ### DRAM -/

/-- Bytes of a channel's data memory, of its device region, and of a Cord's share (R41). -/
def chBytes : Nat := 1879048192
def devBytes : Nat := 17825792
def chCordBytes : Nat := chBytes - devBytes

/-- Member channels of a Cord, lowest first. -/
def CordCfg.chans (c : CordCfg) : List Nat := (List.range 32).filter fun i => c.channels.getLsbD i
/-- Size of the Cord region (R42). -/
def CordCfg.size (c : CordCfg) : Nat := c.chans.length * chCordBytes

/-- The DRAM address of a Cord-relative address (R42): 4 KiB interleave over the member channels; the blocks of a
channel follow one another in ascending order above the device region. [DEDUCED: assumption 207] -/
def CordCfg.dramAddr (c : CordCfg) (a : Nat) : Nat :=
  let n := c.chans.length
  c.chans.getD (a / 4096 % n) 0 * chBytes + devBytes + a / 4096 / n * 4096 + a % 4096

/-- Base and size in bytes of a Cord-region structure (R43). -/
def CordCfg.regionBase (c : CordCfg) (i : Nat) : Nat := (c.region.getD i (0, 0)).1 * 65536
def CordCfg.regionSize (c : CordCfg) (i : Nat) : Nat := (c.region.getD i (0, 0)).2 * 65536

/-- A byte of a Cord region. -/
def State.cordByte (s : State) (c : CordCfg) (a : Nat) : Byte := s.dram.look zeroByte (c.dramAddr a)

/-- `n` bytes of a Cord region. -/
def State.cordBytes (s : State) (c : CordCfg) (a n : Nat) : List Byte :=
  (List.range n).map fun i => s.cordByte c (a + i)

/-- A little-endian number in a Cord region. -/
def State.cordLe (s : State) (c : CordCfg) (a n : Nat) : Nat := leNat (s.cordBytes c a n)

/-- Write bytes of a Cord region; a whole 64-bit word repairs an uncorrectable one (R447). -/
def State.putCordBytes (s : State) (c : CordCfg) (a : Nat) (bs : List Byte) : State :=
  let d := (List.range bs.length).foldl
    (fun m i => m.put zeroByte (c.dramAddr (a + i)) (bs.getD i 0)) s.dram
  let whole := (List.range (bs.length / 8 + 1)).filterMap fun i =>
    let w := (a + 7) / 8 * 8 + 8 * i
    if w + 8 ≤ a + bs.length then some (c.dramAddr w / 8) else none
  { s with dram := d, dramUe := s.dramUe.filter fun w => !whole.contains w }

/-- Write a little-endian number in a Cord region. -/
def State.putCordLe (s : State) (c : CordCfg) (a n x : Nat) : State := s.putCordBytes c a (natLe x n)

/-- Whether a range of a Cord region meets an uncorrectable word. -/
def State.cordUe (s : State) (c : CordCfg) (a n : Nat) : Bool :=
  s.dramUe.any fun w => (List.range ((n + 7) / 8 + 1)).any fun i =>
    c.dramAddr (a / 8 * 8 + 8 * i) / 8 == w && decide (a / 8 * 8 + 8 * i < a + n)

/-! ### Hearth stores -/

/-- Whether bytes [a, a + n) of a Hearth store meet an uncorrectable word (R439). -/
def Hearth.meetsUe (v : Hearth) (a n : Nat) : Bool :=
  v.storeUe.any fun w => decide (8 * w < a + n) && decide (a < 8 * w + 8)

/-- Whether a write of [a, a + n) covers only part of an uncorrectable word (R439). -/
def Hearth.partUe (v : Hearth) (a n : Nat) : Bool :=
  v.storeUe.any fun w => decide (8 * w < a + n) && decide (a < 8 * w + 8) &&
    !(decide (a ≤ 8 * w) && decide (8 * w + 8 ≤ a + n))

/-- Write bytes of a Hearth store; whole words repair uncorrectable ones. -/
def Hearth.write (v : Hearth) (a : Nat) (bs : List Byte) : Hearth :=
  { v with store := v.store.putList zeroByte a bs
           storeUe := v.storeUe.filter fun w => !(decide (a ≤ 8 * w) && decide (8 * w + 8 ≤ a + bs.length)) }

/-- A store with the bits of 64-bit word `w` inverted. -/
def flipWord (m : SMap Byte) (w : Nat) : SMap Byte :=
  m.putList zeroByte (8 * w) ((m.lookList zeroByte (8 * w) 8).map fun b => ~~~b)

/-- What a change of a store does with a word (R439): it leaves it alone, it writes the whole of it without a read, or
it needs what the word holds, which it reads or writes in part. -/
inductive WordUse
  | unused
  | whole
  | needed
  deriving DecidableEq, Repr

/-- The use that `f` makes of word `w`: with the word inverted before, `f` leaves the same store, the same but for the
word, or another. [DEDUCED: assumption 228] -/
def wordUse (f : SMap Byte → SMap Byte) (m : SMap Byte) (w : Nat) : WordUse :=
  let after := f (flipWord m w)
  if f m = after then .whole else if flipWord (f m) w = after then .unused else .needed

/-- The first uncorrectable word whose contents a change of the store needs. -/
def Hearth.needs (v : Hearth) (f : SMap Byte → SMap Byte) : Option Nat :=
  v.storeUe.find? fun w => wordUse f v.store w == .needed

/-- A store changed by an engine; the uncorrectable words that it writes whole are repaired. -/
def Hearth.change (v : Hearth) (f : SMap Byte → SMap Byte) : Hearth :=
  { v with store := f v.store, storeUe := v.storeUe.filter fun w => wordUse f v.store w != .whole }

/-- The bank of a store address (R435). -/
def bankOf (a : Nat) : Nat := a / 64 % 16

/-- An access to [a, a + n) of a logical Hearth's store: it wakes the banks in retention, which the Draught
governor counts, and marks them used (R440, R463). -/
def State.touch (s : State) (h a n : Nat) : State :=
  let p := s.physOf h
  let v := s.phy p
  let banks := ((List.range ((n + 63) / 64 + 1)).map fun i => bankOf (a + 64 * i)).filter fun b =>
    v.retention.look (fun _ => 0) b == 1
  let woken := banks.eraseDups
  let v1 := woken.foldl (fun (x : Phys) b =>
    { x with retention := x.retention.put (fun _ => 0) b 0 }) v
  let t := if woken = [] then s else (s.setPhy p v1).bump 0x27002C woken.length
  let used := (List.range (min ((a + n - 1) / 64 - a / 64 + 1) 16)).map fun i => bankOf (a + 64 * i)
  t.setPhy p (used.foldl (fun (x : Phys) b =>
    { x with bankUse := x.bankUse.put (fun _ => 0) b s.time }) (t.phy p))

/-- The first uncorrectable word that [a, a + n) of a Hearth store meets, as a byte address. -/
def Hearth.ueAt (v : Hearth) (a n : Nat) : Nat :=
  match v.storeUe.find? fun w => decide (8 * w < a + n) && decide (a < 8 * w + 8) with
  | some w => 8 * w
  | none => a

/-- Log and count an uncorrectable SRAM word, number `w` of a region, that a read met (R439, R449, R489). [DESIGN
CHOICE: assumption 196] -/
def State.noteRegionUe (s : State) (origin region w : Nat) : State :=
  ((s.logFault origin 0x10 region w 0).bump 0x2A0014 1).eventOwner 0x0F04 0x2A region

/-- The same for byte `a` of a Hearth store. -/
def State.noteSramUe (s : State) (h a : Nat) : State :=
  s.noteRegionUe (originHearth (s.physOf h)) (s.physOf h * 1024 + a / 4096) (a % 4096 / 8)

/-- The same for the instruction word pair that core c of a Hearth reads at `pc` (R206, R442). -/
def State.noteImemUe (s : State) (h c pc : Nat) : State :=
  s.noteRegionUe (originHearth (s.physOf h)) (64256 + (s.physOf h * 2 + c) * 8 + pc / 4096) (pc % 4096 / 8)

end Sys2Proof.Machine
end

