-- ==== Sys2Proof/Machine/Kiln.lean ====
section
/-! DEFINITION. Kiln arithmetic (R93 to R121): codebooks, the MAC, MERGE and CLEAR commands, saturation,
clamp bits and residue lanes. Functions of one Kiln and its Hearth store. -/

namespace Sys2Proof.Machine

/-- Bytes of a Hearth store (R11). -/
def storeSize : Nat := 4194304

/-- A signed byte. -/
def s8 (x : Nat) : Int := if x % 256 < 128 then (x % 256 : Nat) else (x % 256 : Nat) - 256

/-- A signed 32-bit word. -/
def s32 (x : Nat) : Int :=
  if x % 4294967296 < 2147483648 then (x % 4294967296 : Nat) else (x % 4294967296 : Nat) - 4294967296

/-- Slots, accumulator entries per slot and channels per tile of a mode: 1 T4, 2 E8, 3 H16 (R94, R95). -/
def modeSlots (mode : Nat) : Nat := if mode = 1 then 16 else if mode = 2 then 32 else 64
def modePer (mode : Nat) : Nat := if mode = 1 then 4 else if mode = 2 then 2 else 1
def modeChannels (mode : Nat) : Nat := 16 * modePer mode

/-- The index of the accumulator entry of PE row `r`, tile channel `ch`, slot `slot` (R94, R95). -/
def accIndex (mode slot r ch : Nat) : Nat :=
  (16 * r + ch / modePer mode) * 64 + modePer mode * slot + ch % modePer mode

/-- Default of an accumulator memory. -/
def accZero : Nat → Acc := fun _ => {}

/-- x mod 7, floored (R115). -/
def res7 (x : Int) : Nat := (x % 7).toNat

/-- A decoded Kiln command (R107). -/
structure KilnCmd where
  op     : Nat
  mode   : Nat
  slot   : Nat
  flags  : Nat
  count  : Nat
  chBase : Nat
  wAddr  : Nat
  wcb    : Nat
  bias   : Nat
  acb    : Nat
  stream : Nat
  rsv    : Nat
  deriving DecidableEq, Repr

/-- The command at a store address (R107). -/
def readKilnCmd (m : SMap Byte) (a : Nat) : KilnCmd where
  op := m.readLe a 1
  mode := m.readLe (a + 1) 1
  slot := m.readLe (a + 2) 1
  flags := m.readLe (a + 3) 1
  count := m.readLe (a + 4) 2
  chBase := m.readLe (a + 6) 2
  wAddr := m.readLe (a + 8) 4
  wcb := m.readLe (a + 12) 4
  bias := m.readLe (a + 16) 4
  acb := m.readLe (a + 20) 4
  stream := m.readLe (a + 24) 1
  rsv := m.readLe (a + 25) 7

def KilnCmd.isBias (c : KilnCmd) : Bool := c.flags.testBit 0
def KilnCmd.isCont (c : KilnCmd) : Bool := c.flags.testBit 1
def KilnCmd.isLast (c : KilnCmd) : Bool := c.flags.testBit 2
def KilnCmd.terms (c : KilnCmd) : Nat := c.count % 4096 + 1
def KilnCmd.sources (c : KilnCmd) : Nat := c.count % 16 + 1
def KilnCmd.shift (c : KilnCmd) : Nat := c.count / 16 % 32

/-- A range of `n` bytes at `a`, `a` a multiple of `al`, that lies in the Hearth store. -/
def addrOk (a al n : Nat) : Bool := a % al == 0 && decide (a + n ≤ storeSize)

/-- A codebook block (R112): its kind and entries, `none` if it breaks the layout. [DEDUCED: assumption 72] -/
def readCodebook (m : SMap Byte) (a : Nat) : Option (Nat × List Int) :=
  let kind := m.readLe a 1
  let flags := m.readLe (a + 1) 1
  let entries := m.readLe (a + 2) 2
  let chBase := m.readLe (a + 8) 2
  let ident := flags.testBit 0
  let want := if ident then 0 else if kind = 1 ∨ kind = 3 then 16 else 256
  let bad := decide (kind < 1) || decide (4 < kind) || decide (1 < flags) || decide (entries ≠ want) ||
    (ident && (kind == 1 || kind == 3)) || decide (m.readLe (a + 10) 6 ≠ 0) ||
    (kind == 1 && decide (chBase % 64 ≠ 0)) || (kind == 2 && decide (chBase % 32 ≠ 0)) ||
    !addrOk a 16 (16 + want)
  if bad then none
  else if ident then some (kind, (List.range 256).map fun k => s8 k)
  else some (kind, (m.lookList zeroByte (a + 16) want).map fun b => s8 b.toNat)

/-- A merge table: (source slot, multiplier) per source, `none` if a reserved byte is nonzero (R108). -/
def readMergeTable (m : SMap Byte) (a n : Nat) : Option (List (Nat × Nat)) :=
  (List.range n).mapM fun i =>
    if m.readLe (a + 4 * i + 1) 1 = 0 then
      some (m.readLe (a + 4 * i) 1, m.readLe (a + 4 * i + 2) 2)
    else none

/-- Whether a stream format (1 CODE4, 2 CODE8, 3 BF16) and an activation codebook kind fit (R109). -/
def streamFits (mode fmt acbKind : Nat) : Bool :=
  if mode = 3 then fmt == 3
  else (fmt == 1 && acbKind == 3) || (fmt == 2 && acbKind == 4)

/-- What R109 asks of a command and of the codebooks it names. Of MERGE and CLEAR it judges no stream, and of a MAC
without `BIAS` no bias address; a MAC names one of the four streams. [DEDUCED: assumption 218] -/
def kilnFieldsOk (m : SMap Byte) (c : KilnCmd) : Bool :=
  let common := decide (1 ≤ c.mode) && decide (c.mode ≤ 3) && decide (c.slot < modeSlots c.mode) &&
    decide (c.flags < 8) && c.rsv == 0
  if c.op = 1 then
    common && decide (c.stream < 4) && !(c.isBias && c.isCont) && decide (c.count < 4096) &&
    addrOk c.wAddr 32 (32 * c.terms) && (!c.isBias || addrOk c.bias 4 (4 * modeChannels c.mode)) &&
    (if c.mode = 3 then true
     else match readCodebook m c.wcb, readCodebook m c.acb with
      | some (wk, _), some (ak, _) => wk == c.mode && (ak == 3 || ak == 4)
      | _, _ => false)
  else if c.op = 2 then
    common && decide (c.mode ≠ 3) && decide (c.count < 512) && addrOk c.wAddr 4 (4 * c.sources)
  else if c.op = 3 then common && c.count == 0
  else false

/-- A command may run (R109). `fmt` is the format of the row stream that the command names. -/
def kilnCmdOk (m : SMap Byte) (c : KilnCmd) (fmt : Nat) : Bool :=
  kilnFieldsOk m c &&
  (if c.op = 1 then streamFits c.mode fmt (if c.mode = 3 then 0 else ((readCodebook m c.acb).map Prod.fst).getD 0)
   else if c.op = 2 then
    (match readMergeTable m c.wAddr c.sources with
     | some t => (t.map Prod.fst).Nodup && t.all fun e => decide (e.1 < modeSlots c.mode)
     | none => false)
   else true)

/-- Whether a slot meets a held slot: by number, or by an accumulator entry (R111). -/
def meetsHeld (held : List HeldSlot) (mode slot : Nat) : Bool :=
  held.any fun x =>
    x.slot == slot ||
    (decide (modePer x.mode * x.slot < modePer mode * (slot + 1)) &&
     decide (modePer mode * slot < modePer x.mode * (x.slot + 1)))

/-- The weight buffer after the refills of a MAC (R93, R113, R121): block i of 128 terms goes to half i mod 2. -/
def weightRefill (m : SMap Byte) (c : KilnCmd) (buf : SMap Byte) : SMap Byte :=
  let n := (c.terms + 127) / 128
  (List.range n).foldl (fun b i =>
    if i + 2 < n then b
    else b.putList zeroByte (4096 * (i % 2)) (m.lookList zeroByte (c.wAddr + 4096 * i) (min 4096 (32 * c.terms - 4096 * i)))) buf

/-- The slots whose read by the Quench unit a command must wait for: its destination and sources. -/
def kilnCmdSlots (m : SMap Byte) (c : KilnCmd) : List Nat :=
  c.slot :: (if c.op = 2 then ((readMergeTable m c.wAddr c.sources).getD []).map Prod.fst else [])

/-- One integer accumulation (R99, R104, R115). -/
def accStep (e : Acc) (a c : Int) : Acc :=
  let v := e.val.toInt + a * c
  { val := BitVec.ofInt 32 (sat32 v)
    clamp := e.clamp || decide (sat32 v ≠ v)
    lane := BitVec.ofNat 3 ((e.lane.toNat + res7 a * res7 c) % 7) }

/-- One H16 accumulation (R102, R104): exact product, one rounded addition. -/
def accStepH16 (e : Acc) (a w : Nat) : Acc :=
  let p := (bf16.decodeFtz a).mul (bf16.decodeFtz w)
  let r := fp32.pack (p.add (fp32.decode e.val.toNat))
  { e with val := BitVec.ofNat 32 r, clamp := e.clamp || decide (fp32.inf ≤ r % fp32.sign) }

/-- An entry at the start of a MAC: from the bias, as it stands, or zero (R104, R107, R115). H16 leaves the residue lane
as it stands. [DEDUCED: assumption 219] -/
def accInit (m : SMap Byte) (c : KilnCmd) (e : Acc) (ch : Nat) : Acc :=
  if c.isBias then
    let b := m.readLe (c.bias + 4 * ch) 4
    { val := BitVec.ofNat 32 b, clamp := false
      lane := if c.mode = 3 then e.lane else BitVec.ofNat 3 (res7 (s32 b)) }
  else if c.isCont then e
  else { val := 0, clamp := false, lane := if c.mode = 3 then e.lane else 0 }

/-- The weight code or bf16 bits of term `t` for tile channel `ch` (R113). -/
def weightCode (m : SMap Byte) (c : KilnCmd) (t ch : Nat) : Nat :=
  let a := c.wAddr + 32 * t
  if c.mode = 1 then
    let b := m.readLe (a + ch / 2) 1
    if ch % 2 = 0 then b % 16 else b / 16
  else if c.mode = 2 then m.readLe (a + ch) 1
  else m.readLe (a + 2 * ch) 2

/-- The expanded activation of a tap in T4 and E8 (R97, R159). -/
def Tap.expand (acb : List Int) : Tap → Int
  | .code k zp => acb.getD k 0 - zp
  | .value a => a
  | .bf _ => 0
  | .zero => 0

/-- One term into one entry: tap of the entry's PE row, weight of its channel. -/
def macTerm (m : SMap Byte) (c : KilnCmd) (wcb acb : List Int) (e : Acc) (t ch : Nat) (tap : Tap) :
    Acc :=
  if c.mode = 3 then
    (match tap with
     | .bf x => accStepH16 e x (weightCode m c t ch)
     | _ => e)
  else accStep e (tap.expand acb) (wcb.getD (weightCode m c t ch) 0)

/-- The terms of one entry in term-index order, from term `t` (R103). -/
def macFold (m : SMap Byte) (c : KilnCmd) (wcb acb : List Int) (ch : Nat) : Nat → List Tap → Acc → Acc
  | _, [], e => e
  | t, tap :: rest, e => macFold m c wcb acb ch (t + 1) rest (macTerm m c wcb acb e t ch tap)

/-- The residue comparison of R116: it passes on a clamped entry, and on an H16 entry. -/
def residueOk (mode : Nat) (e : Acc) : Bool :=
  mode == 3 || e.clamp || res7 e.val.toInt == e.lane.toNat

/-- The (PE row, tile channel) pairs of a tile. -/
def tileCells (mode : Nat) : List (Nat × Nat) :=
  (List.range 16).flatMap fun r => (List.range (modeChannels mode)).map fun ch => (r, ch)

/-- Apply `f` to every entry of a slot. -/
def mapSlot (acc : SMap Acc) (mode slot : Nat) (f : Nat → Nat → Acc → Acc) : SMap Acc :=
  (tileCells mode).foldl
    (fun m (r, ch) => SMap.modify accZero m (accIndex mode slot r ch) (f r ch)) acc

/-- Whether every entry of a slot passes the residue comparison. -/
def slotResidueOk (acc : SMap Acc) (mode slot : Nat) : Bool :=
  (tileCells mode).all fun (r, ch) => residueOk mode (acc.look accZero (accIndex mode slot r ch))

/-- The slot's saturation flag (R104). -/
def slotSat (acc : SMap Acc) (mode slot : Nat) : Bool :=
  (tileCells mode).any fun (r, ch) => (acc.look accZero (accIndex mode slot r ch)).clamp

/-- A run of MAC terms from term `t0`: the taps of row r are `taps r`. -/
def macRun (m : SMap Byte) (c : KilnCmd) (wcb acb : List Int) (t0 : Nat) (taps : Nat → List Tap)
    (acc : SMap Acc) : SMap Acc :=
  mapSlot acc c.mode c.slot fun r ch e => macFold m c wcb acb ch t0 (taps r) e

/-- A MAC (R100 to R104, R115, R116): accumulators after it, and whether every residue comparison passed;
the comparison is made after the 2,048th term and at completion. `terms` gives the taps of each term. -/
def macResult (m : SMap Byte) (c : KilnCmd) (terms : List (List Tap)) (acc : SMap Acc) :
    SMap Acc × Bool :=
  let wcb := ((readCodebook m c.wcb).map Prod.snd).getD []
  let acb := ((readCodebook m c.acb).map Prod.snd).getD []
  let col (ts : List (List Tap)) (r : Nat) : List Tap := ts.map fun t => t.getD r .zero
  let a0 := mapSlot acc c.mode c.slot fun _ ch e => accInit m c e ch
  let a1 := macRun m c wcb acb 0 (col (terms.take 2048)) a0
  if !slotResidueOk a1 c.mode c.slot then (a1, false)
  else
    let a2 := macRun m c wcb acb 2048 (col (terms.drop 2048)) a1
    (a2, slotResidueOk a2 c.mode c.slot)

/-- A MERGE (R105, R118): exact weighted sum, one rounding shift, one clamp. -/
def mergeResult (m : SMap Byte) (c : KilnCmd) (acc : SMap Acc) : SMap Acc :=
  let tab := (readMergeTable m c.wAddr c.sources).getD []
  mapSlot acc c.mode c.slot fun r ch _ =>
    let v := (tab.map fun (s, mj) =>
      (acc.look accZero (accIndex c.mode s r ch)).val.toInt * (mj : Int)).sum
    let w := rshiftRne v c.shift
    { val := BitVec.ofInt 32 (sat32 w), clamp := decide (sat32 w ≠ w)
      lane := BitVec.ofNat 3 (res7 (sat32 w)) }

/-- A CLEAR: the slot and its flags are zero (R107). -/
def clearResult (c : KilnCmd) (acc : SMap Acc) : SMap Acc :=
  mapSlot acc c.mode c.slot fun _ _ _ => {}

/-- The cause code of a failed check (R123). -/
def kilnCause : KilnCheck → Nat
  | .none => 0 | .residue => 1 | .tableParity => 2 | .weightParity => 3
  | .codebookParity => 4 | .h16Check => 5 | .mergeCheck => 6

/-- CLK_A cycles of a command without stalls, and the stall cycles that the bound allows (R121). -/
def kilnCycles (c : KilnCmd) : Nat × Nat :=
  if c.op = 1 then (c.terms + (if c.mode = 3 then 16 else 12), 8 * ((c.terms + 127) / 128))
  else if c.op = 2 then (modePer c.mode * c.sources + 12, 0)
  else (4, 0)

/-- The Kiln after a command: on `LAST` it hands over the slot `number` in the mode `mode` (R111). -/
def kilnHand (k : Kiln) (c : KilnCmd) (number mode : Nat) (acc : SMap Acc) : Kiln :=
  { k with acc := acc, mode := c.mode, busy := false
           held := if c.isLast then k.held ++ [{ slot := number, mode := mode, chBase := c.chBase }] else k.held }

/-- The Kiln after a MERGE, a CLEAR, or a MAC fed by a dense stream. -/
def kilnFinish (k : Kiln) (c : KilnCmd) (acc : SMap Acc) : Kiln := kilnHand k c c.slot c.mode acc

end Sys2Proof.Machine
end

