-- ==== Sys2Proof/Machine/Quench.lean ====
section
/-! DEFINITION. The Quench unit (R124 to R148): scale words, the four pipeline stages, scale tracks,
statistics, recovery, zero-range rows and the QUENCH command. Functions of a Hearth's store and Kilns. -/

namespace Sys2Proof.Machine

/-- A scale word (R125). -/
structure ScaleWord where
  mant : Nat
  exp  : Int
  zp   : Int
  recovered : Bool
  zeroRange : Bool
  rsv  : Nat
  deriving DecidableEq, Repr

/-- Read a scale word. -/
def readScale (m : SMap Byte) (a : Nat) : ScaleWord :=
  let x := m.readLe a 8
  let z : Nat := x / 2 ^ 40 % 4096
  { mant := x % 2 ^ 32, exp := s8 (x / 2 ^ 32), zp := if z < 2048 then z else (z : Int) - 4096
    recovered := (x / 2 ^ 52).testBit 0, zeroRange := (x / 2 ^ 53).testBit 0, rsv := x / 2 ^ 54 }

/-- A signed number as `n` bits. -/
def toBits (n : Nat) (v : Int) : Nat := (v % (2 ^ n : Nat)).toNat

/-- The 8 bytes of a scale word. -/
def ScaleWord.bits (w : ScaleWord) : Nat :=
  w.mant + toBits 8 w.exp * 2 ^ 32 + toBits 12 w.zp * 2 ^ 40 +
    (if w.recovered then 2 ^ 52 else 0) + (if w.zeroRange then 2 ^ 53 else 0)

/-- `mant` bit 31 set and `exp` within −96 to 0. -/
def ScaleWord.normal (w : ScaleWord) : Bool :=
  decide (2 ^ 31 ≤ w.mant) && decide (-96 ≤ w.exp) && decide (w.exp ≤ 0)

/-- A valid gain or initial-scale word (R134). -/
def ScaleWord.gainOk (w : ScaleWord) : Bool :=
  w.normal && w.zp == 0 && !w.recovered && !w.zeroRange && w.rsv == 0

/-- A magnitude float's value as (fraction × 2^exponent) (R133). -/
def mfValue (x : Nat) : Nat × Int :=
  if x / 256 % 256 = 0 then (0, 0) else (256 + x % 256, ((x / 256 % 256 : Nat) : Int) - 136)

/-- m × 2^e rounded to a magnitude float, ties to even, 0 below 2^-127 (R135). A value above the largest saturates at
it. [DEDUCED: assumption 11] -/
def mfRne (m : Nat) (e : Int) : Nat :=
  if m = 0 then 0
  else
    let top := (Nat.log2 m : Int) + e
    if top < -127 then 0
    else
      let unit := top - 8
      let q := if unit ≤ e then m * 2 ^ (e - unit).toNat else rshiftRneNat m (unit - e).toNat
      let (q, top) := if q = 512 then (256, top + 1) else (q, top)
      if 127 < top then 0xFFFF else (top + 128).toNat * 256 + (q - 256)

/-- `decay` of R135. -/
def mfDecay (x d : Nat) : Nat :=
  let (m, e) := mfValue x
  if m = 0 then 0 else mfRne (m * (if d = 0 then 256 else d)) (e - 8)

/-- m × 2^e as a 32-bit mantissa with ties to even (R134), clamped below to 2^-24 and above to the largest scale word.
[DEDUCED: assumption 73] -/
def sigmaOf (m : Nat) (e : Int) : Nat × Int :=
  let floor : Nat × Int := (2 ^ 31, -55)
  if m = 0 then floor
  else
    let top := (Nat.log2 m : Int) + e
    let unit := top - 31
    let q := if unit ≤ e then m * 2 ^ (e - unit).toNat else rshiftRneNat m (unit - e).toNat
    let (q, unit) := if q = 2 ^ 32 then (2 ^ 31, unit + 1) else (q, unit)
    if unit < -55 then floor
    else if 0 < unit then (2 ^ 32 - 1, 0)
    else (q, unit)

/-- A tensor parameter block (R144). -/
structure QParams where
  outFmt : Nat
  layout : Nat
  twist  : Nat
  options : Nat
  depth  : Nat
  decay  : Nat
  zpFixed : Nat
  rescale : Nat
  actAddr : Nat
  actX0  : Int
  actLs  : Nat
  rsv    : Nat
  thresh : Nat
  gain   : ScaleWord
  sigma0 : ScaleWord
  acb    : Nat
  out    : Nat
  rowStride : Nat
  planeStride : Nat
  hdr    : Nat
  tstat  : Nat
  deriving DecidableEq, Repr

def readParams (m : SMap Byte) (a : Nat) : QParams where
  outFmt := m.readLe a 1
  layout := m.readLe (a + 1) 1
  twist := m.readLe (a + 2) 1
  options := m.readLe (a + 3) 1
  depth := m.readLe (a + 4) 1
  decay := m.readLe (a + 5) 1
  zpFixed := m.readLe (a + 6) 2
  rescale := m.readLe (a + 8) 4
  actAddr := m.readLe (a + 12) 4
  actX0 := s32 (m.readLe (a + 16) 4)
  actLs := m.readLe (a + 20) 1
  rsv := m.readLe (a + 21) 1
  thresh := m.readLe (a + 22) 2
  gain := readScale m (a + 24)
  sigma0 := readScale m (a + 32)
  acb := m.readLe (a + 40) 4
  out := m.readLe (a + 44) 4
  rowStride := m.readLe (a + 48) 4
  planeStride := m.readLe (a + 52) 4
  hdr := m.readLe (a + 56) 4
  tstat := m.readLe (a + 60) 4

def QParams.act (p : QParams) : Bool := p.options.testBit 0
def QParams.recover (p : QParams) : Bool := p.options.testBit 1
def QParams.fixedZp (p : QParams) : Bool := p.options.testBit 2
def QParams.isMap (p : QParams) : Bool := p.layout == 0
def QParams.isBf16 (p : QParams) : Bool := p.outFmt == 3
/-- The Twist order n; 0 for none. -/
def QParams.order (p : QParams) : Nat :=
  if p.twist = 0 then 0 else if p.twist = 1 then 16 else if p.twist = 2 then 32 else 64

/-- A Quench command (R143). -/
structure QCmd where
  op     : Nat
  nslots : Nat
  flags  : Nat
  params : Nat
  list   : Nat
  inScale : Nat
  row0   : Nat
  x0     : Nat
  stats  : Nat
  track  : Nat
  rsv    : Nat
  deriving DecidableEq, Repr

def readQCmd (m : SMap Byte) (a : Nat) : QCmd where
  op := m.readLe a 1
  nslots := m.readLe (a + 1) 1
  flags := m.readLe (a + 2) 2
  params := m.readLe (a + 4) 4
  list := m.readLe (a + 8) 4
  inScale := m.readLe (a + 12) 4
  row0 := m.readLe (a + 16) 2
  x0 := m.readLe (a + 18) 2
  stats := m.readLe (a + 20) 4
  track := m.readLe (a + 24) 4
  rsv := m.readLe (a + 28) 4

def QCmd.first (c : QCmd) : Bool := c.flags.testBit 0
def QCmd.last (c : QCmd) : Bool := c.flags.testBit 1
def QCmd.bcast (c : QCmd) : Bool := c.flags.testBit 2

/-- A slot of a group: Kiln, slot, mode, first channel. -/
structure QTile where
  kiln : Nat
  slot : Nat
  mode : Nat
  ch0  : Nat
  deriving DecidableEq, Repr

/-- A value of a group after stages 1 to 3: position 0 to 15, channel, Kiln, y, forced-saturating. -/
structure QVal where
  pos    : Nat
  ch     : Nat
  kiln   : Nat
  y      : Int
  forced : Bool
  deriving DecidableEq, Repr

/-- Stage 1 in T4 and E8 (R127). -/
def rescaleInt (acc : Int) (entry : Nat) (sc : ScaleWord) : Int :=
  let m16 := rshiftRneNat sc.mant 16
  let p := acc * ((entry % 65536 : Nat) : Int) * (m16 : Int)
  let S : Int := ((entry / 65536 % 64 : Nat) : Int) - sc.exp - 32
  if 0 ≤ S then sat32 (rshiftRne p S.toNat) else sat32 (p * (2 ^ (-S).toNat : Nat))

/-- Stage 1 in H16 (R128): y and whether the value is forced-saturating. -/
def rescaleH16 (acc entry : Nat) : Int × Bool :=
  match fp32.decode acc with
  | .nan => (0, true)
  | .inf neg => (if neg then -2147483648 else 2147483647, true)
  | v => (sat32 ((v.mul (FVal.ofInt ((entry % 65536 : Nat) : Int))).roundScaled
      (16 - ((entry / 65536 % 64 : Nat) : Int))), false)

/-- Stage 2 (R129). -/
def activate (m : SMap Byte) (p : QParams) (y : Int) : Int :=
  let u := y - p.actX0
  let i := max 0 (min 255 (u / (2 ^ p.actLs : Nat)))
  let fr := u - i * (2 ^ p.actLs : Nat)
  let a := p.actAddr + 8 * i.toNat
  sat32 (s32 (m.readLe a 4) + rshiftRne (s32 (m.readLe (a + 4) 4) * fr) p.actLs)

/-- The sign of H_n[i][j] in Sylvester order: minus when the bits common to i and j are odd in number. -/
def hadamardSign (i j : Nat) : Int :=
  if ((List.range 6).map fun b => if (i.testBit b && j.testBit b) then 1 else 0).sum % 2 = 0 then 1 else -1

/-- Stage 3 (R130) on one block of n values. -/
def twistBlock (n : Nat) (ys : List Int) : List Int :=
  let t := if n = 16 then 2 else 3
  (List.range n).map fun i =>
    sat32 (rshiftRne ((List.range n).map fun j => hadamardSign i j * ys.getD j 0).sum t)

/-- Stage 3 on the values of one tile row, whose blocks begin at multiples of n. -/
def twistRow (n : Nat) (ys : List Int) : List Int :=
  if n = 0 then ys
  else (List.range (ys.length / n)).flatMap fun b => twistBlock n ((ys.drop (b * n)).take n)

/-- The values of one tile after stages 1 to 3, position by position. -/
def tileValues (m : SMap Byte) (c : QCmd) (p : QParams) (accOf : Nat → SMap Acc) (t : QTile) :
    List QVal :=
  (List.range 16).flatMap fun r =>
    let sc := readScale m (if c.bcast then c.inScale else c.inScale + 8 * r)
    let raw := (List.range (modeChannels t.mode)).map fun ch =>
      let e := ((accOf t.kiln).look accZero (accIndex t.mode t.slot r ch)).val
      let entry := m.readLe (p.rescale + 4 * (t.ch0 + ch)) 4
      if t.mode = 3 then rescaleH16 e.toNat entry else (rescaleInt e.toInt entry sc, false)
    let ys := raw.map fun v => if p.act then activate m p v.1 else v.1
    let zs := twistRow p.order ys
    (List.range (modeChannels t.mode)).map fun ch =>
      ⟨r, t.ch0 + ch, t.kiln, zs.getD ch 0, (raw.getD ch (0, false)).2⟩

/-- The levels v_k of a codebook for a zero point. -/
def levels (entries : List Int) (zp : Int) : List Int := entries.map fun e => e - zp

/-- Stage 4 (R131) against scaled levels: the code whose level is nearest to `num` / `den`; on a tie the
larger magnitude, then the lower code. Here the real value is num/den in units of one level. -/
def nearestCode (lv : List Int) (num : Int) (den : Nat) : Nat :=
  let better (a b : Nat) : Bool :=  -- whether code a is strictly preferred to code b
    let da := (num - lv.getD a 0 * (den : Int)).natAbs
    let db := (num - lv.getD b 0 * (den : Int)).natAbs
    decide (da < db) || (da == db && decide ((lv.getD b 0).natAbs < (lv.getD a 0).natAbs))
  (List.range lv.length).foldl (fun best k => if better k best then k else best) 0

/-- The largest and smallest level. -/
def levelMax (lv : List Int) : Int := lv.foldl max (lv.getD 0 0)
def levelMin (lv : List Int) : Int := lv.foldl min (lv.getD 0 0)
/-- V of R138: the largest level magnitude. -/
def levelMag (lv : List Int) : Nat := lv.foldl (fun a v => max a v.natAbs) 0

/-- t = (y × 2^-16) / σ as a fraction, for σ = mant × 2^exp (exp ≤ 0). -/
def tNum (y : Int) (e : Int) : Int := y * (2 ^ (-e).toNat : Nat)
def tDen (mant : Nat) : Nat := mant * 65536

/-- Whether t lies outside the levels (R131). -/
def saturates (lv : List Int) (num : Int) (den : Nat) : Bool :=
  decide (levelMax lv * (den : Int) < num) || decide (num < levelMin lv * (den : Int))

/-- fp32 accumulation of an exact square of s × 2^e, rounded once (R138). [DEDUCED: assumption 75] -/
def addSquare (x : Nat) (s : Int) (e : Int) : Nat :=
  fp32.pack ((fp32.decode x).add (.fin false (s.natAbs * s.natAbs) (2 * e)))

/-- The error y × 2^-16 − σ × v at exponent −112, exactly (exp of σ is at least −96). -/
def errScaled (y : Int) (mant : Nat) (e : Int) (v : Int) : Int :=
  y * (2 ^ 96 : Nat) - (mant : Int) * v * (2 ^ (112 + e).toNat : Nat)

/-- A row's statistics record (R137). -/
structure RowStat where
  sse  : Nat
  sat  : Nat
  maxLevel : Nat
  flags : Nat
  xlo  : Nat
  xhi  : Nat
  deriving DecidableEq, Repr

def readRowStat (m : SMap Byte) (a : Nat) : RowStat :=
  ⟨m.readLe a 4, m.readLe (a + 4) 4, m.readLe (a + 8) 2, m.readLe (a + 10) 2, m.readLe (a + 12) 2,
   m.readLe (a + 14) 2⟩

def writeRowStat (m : SMap Byte) (a : Nat) (r : RowStat) : SMap Byte :=
  ((((((m.writeLe a 4 r.sse).writeLe (a + 4) 4 r.sat).writeLe (a + 8) 2 r.maxLevel).writeLe
    (a + 10) 2 r.flags).writeLe (a + 12) 2 r.xlo).writeLe (a + 14) 2 r.xhi)

/-- The byte address and the half (for CODE4) of an element (R145). [DEDUCED: assumption 76] -/
def elemAddr (p : QParams) (row x ch : Nat) : Nat × Nat :=
  let i := if p.isMap then x else ch
  let base := if p.isMap then p.out + ch * p.planeStride + row * p.rowStride
    else p.out + row * p.rowStride
  if p.outFmt = 1 then (base + i / 2, i % 2)
  else if p.outFmt = 2 then (base + i, 0) else (base + 2 * i, 0)

/-- Store a code or bf16 value of an element. -/
def writeElem (m : SMap Byte) (p : QParams) (row x ch v : Nat) : SMap Byte :=
  let (a, half) := elemAddr p row x ch
  if p.outFmt = 1 then
    let old := m.readLe a 1
    m.writeLe a 1 (if half = 0 then old / 16 * 16 + v % 16 else old % 16 + 16 * (v % 16))
  else if p.outFmt = 2 then m.writeLe a 1 v else m.writeLe a 2 v

/-- Read back a code of an element. -/
def readElem (m : SMap Byte) (p : QParams) (row x ch : Nat) : Nat :=
  let (a, half) := elemAddr p row x ch
  if p.outFmt = 1 then (if half = 0 then m.readLe a 1 % 16 else m.readLe a 1 / 16)
  else m.readLe a 1

/-- What a QUENCH command adds to the Hearth's counters (R149). -/
structure QCounts where
  rows : Nat := 0
  sat  : Nat := 0
  recoveries : Nat := 0
  limited : Nat := 0
  underused : Nat := 0
  zeroRange : Nat := 0
  deriving DecidableEq, Repr

/-- σ of a row at `ROW_FIRST` (R134). -/
def rowSigma (m : SMap Byte) (p : QParams) (defaultK track : Nat) : Nat × Int :=
  let kk := if p.depth = 0 then defaultK else p.depth
  let best := ((List.range (min kk 8)).map fun j => mfValue (m.readLe (track + 2 * j) 2)).foldl
    (fun (a : Nat × Int) b => if b.1 = 0 then a else if a.1 = 0 then b else
      if a.2 < b.2 ∨ (a.2 = b.2 ∧ a.1 < b.1) then b else a) (0, 0)
  if best.1 = 0 then sigmaOf p.sigma0.mant p.sigma0.exp
  else sigmaOf (best.1 * p.gain.mant) (best.2 + p.gain.exp)

/-- The signed fixed zero point. -/
def QParams.zp (p : QParams) : Int :=
  if p.fixedZp then (if p.zpFixed % 4096 < 2048 then ((p.zpFixed % 4096 : Nat) : Int)
    else ((p.zpFixed % 4096 : Nat) : Int) - 4096) else 0

/-- Start a row at `ROW_FIRST`: header, running extremes, zeroed statistics (R134). -/
def startRow (m : SMap Byte) (c : QCmd) (p : QParams) (defaultK row : Nat) : SMap Byte :=
  let tr := c.track + 32 * row
  let (mant, e) := rowSigma m p defaultK tr
  let w : ScaleWord := ⟨mant, e, p.zp, false, false, 0⟩
  let m := m.writeLe (p.hdr + 8 * row) 8 w.bits
  let m := (m.writeLe (tr + 16) 4 (2 ^ 31)).writeLe (tr + 20) 4 (2 ^ 31 - 1)
  let x := if p.isMap then c.x0 else 0
  writeRowStat m (c.stats + 16 * row) ⟨0, 0, 0, 0, x, x⟩

/-- The least e ≥ 1, at most `lim`, at which no value saturates; else `lim` (R139). -/
def recoveryExp (lv : List Int) (vals : List QVal) (mant : Nat) (e0 : Int) (lim : Nat) : Nat :=
  (((List.range lim).map Nat.succ).find? fun (e : Nat) =>
    vals.all fun v => v.forced || !saturates lv (tNum v.y (e0 + (e : Int))) (tDen mant)).getD lim

/-- Re-code the positions of a row already emitted at σ × 2^e, and rebuild its record (R139 step 4). -/
def recodeRow (m : SMap Byte) (p : QParams) (lv : List Int) (row : Nat) (st : RowStat)
    (chans : List (Nat × Nat)) (mant : Nat) (e0 : Int) (e : Nat) : SMap Byte × RowStat :=
  let cells := (List.range (st.xhi - st.xlo)).flatMap fun i => chans.map fun ck => (st.xlo + i, ck)
  let step (a : SMap Byte × List (Nat × Nat) × Nat × Nat) (x : Nat) (ck : Nat × Nat) :=
    let (m, parts, sat, mx) := a
    let vOld := lv.getD (readElem m p row x ck.1) 0
    let code := nearestCode lv vOld (2 ^ e)
    let vNew := lv.getD code 0
    let err := (mant : Int) * (vOld - vNew * (2 ^ e : Nat))
    (writeElem m p row x ck.1 code,
     parts.map (fun q => if q.1 = ck.2 then (q.1, addSquare q.2 err e0) else q),
     sat + (if saturates lv vOld (2 ^ e) then 1 else 0), max mx vNew.natAbs)
  let (m, parts, sat, mx) := cells.foldl (fun a xc => step a xc.1 xc.2)
    (m, (List.range 4).map fun k => (k, 0), 0, 0)
  (m, { st with sse := parts.foldl (fun s q => f32add s q.2) 0, sat := sat, maxLevel := mx })

/-- Add `k` to a field of a tensor record (R137). -/
def addTstat (m : SMap Byte) (p : QParams) (off k : Nat) : SMap Byte :=
  m.writeLe (p.tstat + off) 4 (m.readLe (p.tstat + off) 4 + k)

/-- Emit one row's values of a group at the row header's scale, with recovery, which is counted at once: the store, and
whether the row was recovered (R131, R137 to R139). [DEDUCED: assumption 74] -/
def emitRow (m : SMap Byte) (c : QCmd) (p : QParams) (entries : List Int) (row : Nat)
    (vals : List QVal) : SMap Byte × Bool :=
  let ha := p.hdr + 8 * row
  let h := readScale m ha
  let lv := levels entries h.zp
  let tr := c.track + 32 * row
  let sa := c.stats + 16 * row
  let st := readRowStat m sa
  let hot := (vals.filter fun v => !v.forced && saturates lv (tNum v.y h.exp) (tDen h.mant)).length
  let thresh := if p.thresh = 0 then 256 else p.thresh
  let trigger := p.recover && decide (thresh * vals.length < hot * 65536)
  let again := trigger && (st.flags.testBit 2 || decide (0 ≤ h.exp))
  let doit := trigger && !again
  let lim := (-h.exp).toNat
  let e := if doit then recoveryExp lv vals h.mant h.exp lim else 0
  let chans := (vals.filter fun v => v.pos == (vals.headD ⟨0, 0, 0, 0, false⟩).pos).map
    fun v => (v.ch, v.kiln)
  let (m, st) := if doit && p.isMap then recodeRow m p lv row st chans h.mant h.exp e else (m, st)
  let st := if doit then { st with flags := st.flags ||| 4 } else st
  let st := if again then { st with flags := st.flags ||| 8 } else st
  let h' : ScaleWord := if doit then { h with exp := h.exp + e, recovered := true } else h
  let m := if doit then addTstat (m.writeLe ha 8 h'.bits) p 24 1 else m
  let step (a : SMap Byte × List (Nat × Nat) × Nat × Nat) (v : QVal) :=
    let (m, parts, sat, mx) := a
    let code := nearestCode lv (tNum v.y h'.exp) (tDen h'.mant)
    let l := lv.getD code 0
    (writeElem m p row (if p.isMap then c.x0 + v.pos else 0) v.ch code,
     parts.map (fun q => if q.1 = v.kiln then
       (q.1, addSquare q.2 (errScaled v.y h'.mant h'.exp l) (-112)) else q),
     sat + (if v.forced || saturates lv (tNum v.y h'.exp) (tDen h'.mant) then 1 else 0),
     max mx l.natAbs)
  let (m, parts, sat, mx) := vals.foldl step
    (m, (List.range 4).map fun k => (k, 0), 0, st.maxLevel)
  let st := { st with
    sse := parts.foldl (fun s q => f32add s q.2) st.sse
    sat := (st.sat + sat) % 2 ^ 32
    maxLevel := mx
    xhi := if p.isMap then c.x0 + 16 else st.xhi }
  let m := writeRowStat m sa st
  let hi := vals.foldl (fun a v => max a v.y) (s32 (m.readLe (tr + 16) 4))
  let lo := vals.foldl (fun a v => min a v.y) (s32 (m.readLe (tr + 20) 4))
  ((m.writeLe (tr + 16) 4 (toBits 32 hi)).writeLe (tr + 20) 4 (toBits 32 lo), doit)

/-- The lowest code with the smallest |entry| (R141). -/
def zeroCode (entries : List Int) : Nat :=
  (List.range entries.length).foldl
    (fun b k => if (entries.getD k 0).natAbs < (entries.getD b 0).natAbs then k else b) 0

/-- Recode a constant row exactly (R141). -/
def zeroRangeRow (m : SMap Byte) (c : QCmd) (p : QParams) (entries : List Int) (row : Nat) (cc : Int)
    (chans : List Nat) : SMap Byte :=
  let sa := c.stats + 16 * row
  let st := readRowStat m sa
  let z := zeroCode entries
  let (mant, e) := if cc = 0 then (2 ^ 31, (-55 : Int)) else sigmaOf cc.natAbs (-16)
  let zp := if cc = 0 then entries.getD z 0 else entries.getD z 0 - (if 0 < cc then 1 else -1)
  let m := m.writeLe (p.hdr + 8 * row) 8 (ScaleWord.bits ⟨mant, e, zp, false, true, 0⟩)
  let xs := if p.isMap then (List.range (st.xhi - st.xlo)).map (st.xlo + ·) else [0]
  let m := xs.foldl (fun m x => chans.foldl (fun m ch => writeElem m p row x ch z) m) m
  writeRowStat m sa { st with sse := 0, sat := 0, maxLevel := (entries.getD z 0 - zp).natAbs,
                              flags := st.flags ||| 2 }

/-- Commit a row at `ROW_LAST` (R135, R138, R141) and add it to the tensor record and the counters. -/
def commitRow (m : SMap Byte) (c : QCmd) (p : QParams) (entries : List Int) (row : Nat)
    (chans : List Nat) (n : QCounts) : SMap Byte × QCounts :=
  let tr := c.track + 32 * row
  let sa := c.stats + 16 * row
  let hi := s32 (m.readLe (tr + 16) 4)
  let lo := s32 (m.readLe (tr + 20) 4)
  let m := if hi = lo then zeroRangeRow m c p entries row hi chans else m
  let st := readRowStat m sa
  let v := levelMag (levels entries (readScale m (p.hdr + 8 * row)).zp)
  let under := decide (hi ≠ lo) && decide (16 * st.maxLevel < v)
  let st := if under then { st with flags := st.flags ||| 1 } else st
  let m := writeRowStat m sa st
  let hist := (List.range 8).map fun j => m.readLe (tr + 2 * j) 2
  let x := (max (max hi (-lo)) 0).toNat
  let hist' := mfRne x (-16) :: (hist.take 7).map fun h => mfDecay h p.decay
  let m := (List.range 8).foldl (fun m j => m.writeLe (tr + 2 * j) 2 (hist'.getD j 0)) m
  let m := m.writeLe (tr + 24) 4 (min (m.readLe (tr + 24) 4 + 1) (2 ^ 32 - 1))
  let add (m : SMap Byte) (off k : Nat) : SMap Byte := addTstat m p off k
  let bit (i : Nat) : Nat := if st.flags.testBit i then 1 else 0
  let m := m.writeLe p.tstat 4 (f32add (m.readLe p.tstat 4) st.sse)
  let m := add (add (add m 4 st.sat) 8 1) 12 (if st.sat = 0 then 0 else 1)
  let m := add (add (add m 16 (bit 0)) 20 (bit 1)) 28 (bit 3)
  (m, { n with
        rows := n.rows + 1, sat := n.sat + st.sat
        limited := n.limited + bit 3, underused := n.underused + bit 0
        zeroRange := n.zeroRange + bit 1 })

/-- Convert y × 2^-16 to bf16 (R132). -/
def toBf16 (y : Int) : Nat := bf16.encode (decide (y < 0)) y.natAbs (-16)

/-- The rows of a group with the values of each: one row for a map, 16 for tokens. Values of a row are in
ascending position, then ascending channel (R138). -/
def groupRows (c : QCmd) (p : QParams) (tiles : List (QTile × List QVal)) : List (Nat × List QVal) :=
  let sorted := tiles.mergeSort fun a b => decide (a.1.ch0 ≤ b.1.ch0)
  let at_ (r : Nat) : List QVal := sorted.flatMap fun t => t.2.filter fun v => v.pos == r
  if p.isMap then [(c.row0, (List.range 16).flatMap at_)]
  else (List.range 16).map fun r => (c.row0 + r, at_ r)

/-- Process a valid group: the store after it, and what it adds to the counters (R126 to R141). -/
def quenchGroup (m : SMap Byte) (c : QCmd) (p : QParams) (defaultK : Nat) (accOf : Nat → SMap Acc)
    (tiles : List QTile) : SMap Byte × QCounts :=
  let rows := groupRows c p (tiles.map fun t => (t, tileValues m c p accOf t))
  if p.isBf16 then
    (rows.foldl (fun m rv => rv.2.foldl (fun m v =>
      writeElem m p rv.1 (if p.isMap then c.x0 + v.pos else 0) v.ch (toBf16 v.y)) m) m, {})
  else
    let entries := ((readCodebook m p.acb).map Prod.snd).getD []
    let m := if c.first then rows.foldl (fun m rv => startRow m c p defaultK rv.1) m else m
    let a0 := rows.foldl (fun (a : SMap Byte × QCounts) rv =>
      let (m, rec) := emitRow a.1 c p entries rv.1 rv.2
      (m, if rec then { a.2 with recoveries := a.2.recoveries + 1 } else a.2)) (m, {})
    if c.last then
      rows.foldl (fun (a : SMap Byte × QCounts) rv =>
        commitRow a.1 c p entries rv.1 ((rv.2.map QVal.ch).eraseDups) a.2) a0
    else a0

/-- The slot list of a command: (Kiln, slot, first channel, reserved) (R143). -/
def readSlotList (m : SMap Byte) (c : QCmd) : List (Nat × Nat × Nat × Nat) :=
  (List.range (c.nslots % 64 + 1)).map fun i =>
    let w := m.readLe (c.list + 4 * i) 4
    (w % 4, w / 4 % 64, w / 65536, w / 256 % 256)

/-- The rows a group touches: the first and their number. -/
def groupSpan (c : QCmd) (p : QParams) : Nat := c.row0 + (if p.isMap then 1 else 16)

/-- A group's tiles are of a mode that the Twist allows, in whole blocks (R130). -/
def twistFits (p : QParams) (t : QTile) : Bool :=
  p.order == 0 || (decide (p.order ≤ modeChannels t.mode) && t.ch0 % p.order == 0)

/-- What R147 asks of a QUENCH command, its parameter block, its slot list and its output codebook. -/
def quenchFieldsOk (m : SMap Byte) (c : QCmd) : Bool :=
  let p := readParams m c.params
  let slots := readSlotList m c
  c.op == 0x10 && decide (c.nslots < 64) && decide (c.flags < 8) && c.rsv == 0 &&
  addrOk c.params 64 64 && addrOk c.list 4 (4 * (c.nslots + 1)) &&
  slots.all (fun e => e.2.2.2 == 0) && (slots.map fun e => (e.1, e.2.1)).Nodup &&
  decide (1 ≤ p.outFmt) && decide (p.outFmt ≤ 3) && decide (p.layout ≤ 1) && decide (p.twist ≤ 3) &&
  decide (p.options < 8) && decide (p.depth ≤ 8) && decide (p.zpFixed < 4096) && p.rsv == 0 &&
  decide (p.actLs ≤ 24) && (!p.act || addrOk p.actAddr 1 2048) && addrOk p.out 1 0 &&
  p.gain.gainOk && p.sigma0.gainOk && p.hdr % 8 == 0 && p.tstat % 32 == 0 && c.stats % 16 == 0 &&
  c.track % 32 == 0 &&
  (p.isBf16 ||
    (addrOk p.tstat 32 32 && ((readCodebook m p.acb).map Prod.fst == some (if p.outFmt = 1 then 3 else 4))))

/-- The groups of a map row come from `ROW_FIRST` to `ROW_LAST` in ascending position with no gap (R146): whether the
next one may come, and the rows in progress after it. [DEDUCED: assumption 220] -/
def mapOrderOk (rows : List (Nat × Nat × Nat)) (c : QCmd) : Bool :=
  match rows.find? fun e => e.1 == c.params && e.2.1 == c.row0 with
  | some e => !c.first && e.2.2 == c.x0
  | none => c.first
def mapRowsAfter (rows : List (Nat × Nat × Nat)) (c : QCmd) : List (Nat × Nat × Nat) :=
  let rest := rows.filter fun e => !(e.1 == c.params && e.2.1 == c.row0)
  if c.last then rest else (c.params, c.row0, c.x0 + 16) :: rest

/-- The rescale-table entries of a tile's channels keep their reserved bits at 0 (R127, R147). -/
def rescaleOk (m : SMap Byte) (p : QParams) (t : QTile) : Bool :=
  (List.range (modeChannels t.mode)).all fun i => decide (m.readLe (p.rescale + 4 * (t.ch0 + i)) 4 < 2 ^ 22)

/-- A QUENCH command may run on these tiles (R143 to R147); `rows` are the map rows in progress. -/
def quenchOk (m : SMap Byte) (rows : List (Nat × Nat × Nat)) (c : QCmd) (tiles : List QTile) : Bool :=
  let p := readParams m c.params
  let chans := (tiles.map fun t => modeChannels t.mode).sum
  let top := (tiles.map fun t => t.ch0 + modeChannels t.mode).foldl max 0
  let span := groupSpan c p
  let scaled := tiles.any fun t => t.mode != 3
  let nIn := if c.bcast then 1 else 16
  let (ea, _) := elemAddr p (span - 1) (c.x0 + 15) (top - 1)
  let width := if p.outFmt = 3 then 2 else 1
  quenchFieldsOk m c && tiles.all (twistFits p) && decide (chans ≤ 4096) &&
  addrOk p.rescale 1 (4 * top) && tiles.all (rescaleOk m p) &&
  (!scaled || (addrOk c.inScale 8 (8 * nIn) &&
    (List.range nIn).all fun i => (readScale m (c.inScale + 8 * i)).normal)) &&
  decide (ea + width ≤ storeSize) && (!p.isMap || mapOrderOk rows c) &&
  (p.isBf16 ||
    (addrOk p.hdr 8 (8 * span) && addrOk c.stats 16 (16 * span) && addrOk c.track 32 (32 * span)))

end Sys2Proof.Machine
end

