-- ==== Sys2Proof/Machine/Window.lean ====
section
/-! DEFINITION. The window unit (R150 to R182): window blocks, coordinates and padding, the terms of ROWS,
DIAG and DIAGMAX streams, the diagonal accumulation and fold, MTABLE, REGROUP and the rows of a SPLICE.
Functions of a Hearth store. -/

namespace Sys2Proof.Machine

/-- A window block (R156). -/
structure WinBlock where
  fmt    : Nat
  kh     : Nat
  kw     : Nat
  stride : Nat
  dx     : Nat
  dy     : Nat
  pads   : Nat
  s2d    : Nat
  padT   : Nat
  padB   : Nat
  padL   : Nat
  padR   : Nat
  width  : Nat
  height : Nat
  chans  : Nat
  groups : Nat
  inAddr : Nat
  rowStride : Nat
  planeStride : Nat
  hdr    : Nat
  rowFirst : Nat
  rowCount : Nat
  haloAddr : Nat
  haloBytes : Nat
  haloRows : Nat
  parity : Nat
  haloHitch : Nat
  padConst : Nat
  rsv    : Nat
  deriving DecidableEq, Repr

def readBlock (m : SMap Byte) (a : Nat) : WinBlock where
  fmt := m.readLe a 1
  kh := m.readLe (a + 1) 1
  kw := m.readLe (a + 2) 1
  stride := m.readLe (a + 3) 1
  dx := m.readLe (a + 4) 1
  dy := m.readLe (a + 5) 1
  pads := m.readLe (a + 6) 1
  s2d := m.readLe (a + 7) 1
  padT := m.readLe (a + 8) 2
  padB := m.readLe (a + 10) 2
  padL := m.readLe (a + 12) 2
  padR := m.readLe (a + 14) 2
  width := m.readLe (a + 16) 2
  height := m.readLe (a + 18) 2
  chans := m.readLe (a + 20) 2
  groups := m.readLe (a + 22) 2
  inAddr := m.readLe (a + 24) 4
  rowStride := m.readLe (a + 28) 4
  planeStride := m.readLe (a + 32) 4
  hdr := m.readLe (a + 36) 4
  rowFirst := m.readLe (a + 40) 2
  rowCount := m.readLe (a + 42) 2
  haloAddr := m.readLe (a + 44) 4
  haloBytes := m.readLe (a + 48) 4
  haloRows := m.readLe (a + 52) 1
  parity := m.readLe (a + 53) 1
  haloHitch := m.readLe (a + 54) 2
  padConst := m.readLe (a + 56) 4
  rsv := m.readLe (a + 60) 4

def WinBlock.sx (b : WinBlock) : Nat := b.stride % 4 + 1
def WinBlock.sy (b : WinBlock) : Nat := b.stride / 4 % 4 + 1
/-- Padding modes: 0 zero, 1 constant, 2 mirror, 3 repeat-edge. -/
def WinBlock.modeT (b : WinBlock) : Nat := b.pads % 4
def WinBlock.modeB (b : WinBlock) : Nat := b.pads / 4 % 4
def WinBlock.modeL (b : WinBlock) : Nat := b.pads / 16 % 4
def WinBlock.modeR (b : WinBlock) : Nat := b.pads / 64 % 4
/-- The space-to-depth factor, 1 when there is no view. -/
def WinBlock.fac (b : WinBlock) : Nat := if b.s2d = 0 then 1 else b.s2d
def WinBlock.wv (b : WinBlock) : Nat := b.width / b.fac
def WinBlock.hv (b : WinBlock) : Nat := b.height / b.fac

/-- Output extent along one axis (R157); 0 stands for less than 1. -/
def outExtent (n p q k d s : Nat) : Nat :=
  if n + p + q < (k - 1) * d + 1 then 0 else (n + p + q - ((k - 1) * d + 1)) / s + 1
def WinBlock.ow (b : WinBlock) : Nat := outExtent b.wv b.padL b.padR b.kw b.dx b.sx
def WinBlock.oh (b : WinBlock) : Nat := outExtent b.hv b.padT b.padB b.kh b.dy b.sy

/-- Bytes of a map row, and of a line in the line buffer (R150, R153). -/
def WinBlock.rowBytes (b : WinBlock) : Nat :=
  if b.fmt = 1 then (b.width + 1) / 2 else if b.fmt = 2 then b.width else 2 * b.width
def WinBlock.lineBytes (b : WinBlock) : Nat := (b.rowBytes + 63) / 64 * 64
/-- Vertical span and ring mode (R163). -/
def WinBlock.span (b : WinBlock) : Nat := (b.kh - 1) * b.dy + 1
def WinBlock.ring (b : WinBlock) : Bool :=
  decide (b.span ≤ 64) && decide (b.span * b.chans * b.lineBytes ≤ 262144)

/-- A window block is valid (R156, R157, R181). -/
def WinBlock.ok (b : WinBlock) : Bool :=
  decide (1 ≤ b.fmt) && decide (b.fmt ≤ 3) && decide (1 ≤ b.kh) && decide (b.kh ≤ 31) &&
  decide (1 ≤ b.kw) && decide (b.kw ≤ 31) && decide (b.stride < 16) && decide (1 ≤ b.dx) &&
  decide (b.dx ≤ 32) && decide (1 ≤ b.dy) && decide (b.dy ≤ 32) &&
  (b.s2d == 0 || b.s2d == 2 || b.s2d == 4) && b.width % b.fac == 0 && b.height % b.fac == 0 &&
  decide (1 ≤ b.chans) && decide (b.chans ≤ 4096) && decide (1 ≤ b.groups) && b.chans % b.groups == 0 &&
  decide (b.rowBytes ≤ 4096) && decide (b.haloRows ≤ 63) && decide (b.parity ≤ 1) && b.rsv == 0 &&
  decide (1 ≤ b.ow) && decide (1 ≤ b.oh)

/-- The name of a window block and parity whose halos are present or awaited (R178): the block's 64-byte aligned address
with the parity in its low bits. [DEDUCED: assumption 79] -/
def haloId (params : Nat) (b : WinBlock) : Nat := params + b.parity
def haloBlock (id : Nat) : Nat := id / 64 * 64

/-- A window command (R161). -/
structure WinCmd where
  op     : Nat
  stream : Nat
  oy     : Nat
  ox0    : Nat
  ky0    : Nat
  nky    : Nat
  kx0    : Nat
  nkx    : Nat
  c0     : Nat
  nc     : Nat
  sub    : Nat
  flags  : Nat
  params : Nat
  aux    : Nat
  aux2   : Nat
  slot0  : Nat
  rsv    : Nat
  deriving DecidableEq, Repr

def readWinCmd (m : SMap Byte) (a : Nat) : WinCmd where
  op := m.readLe a 1
  stream := m.readLe (a + 1) 1
  oy := m.readLe (a + 2) 2
  ox0 := m.readLe (a + 4) 2
  ky0 := m.readLe (a + 6) 1
  nky := m.readLe (a + 7) 1
  kx0 := m.readLe (a + 8) 1
  nkx := m.readLe (a + 9) 1
  c0 := m.readLe (a + 10) 2
  nc := m.readLe (a + 12) 2
  sub := m.readLe (a + 14) 1
  flags := m.readLe (a + 15) 1
  params := m.readLe (a + 16) 4
  aux := m.readLe (a + 20) 4
  aux2 := m.readLe (a + 24) 4
  slot0 := m.readLe (a + 28) 1
  rsv := m.readLe (a + 29) 3

/-- A coordinate resolved against its extent: in range, or `none` for PAD (R158). -/
def resolve (i : Int) (n mode : Nat) : Option Nat :=
  if 0 ≤ i ∧ i < n then some i.toNat
  else if mode ≤ 1 then none
  else if mode = 3 then some (max 0 (min i ((n : Int) - 1))).toNat
  else if n = 1 then some 0
  else
    let p : Int := 2 * ((n : Int) - 1)
    let j := i % p
    some (if j ≤ (n : Int) - 1 then j else p - j).toNat

/-- The virtual row coordinate of kernel row `ky` and its mode's side (R157, R158). -/
def WinBlock.iy (b : WinBlock) (oy ky : Nat) : Int := (oy * b.sy + ky * b.dy : Nat) - (b.padT : Int)
def WinBlock.ix (b : WinBlock) (ox kx : Nat) : Int := (ox * b.sx + kx * b.dx : Nat) - (b.padL : Int)
def WinBlock.rowMode (b : WinBlock) (i : Int) : Nat := if i < 0 then b.modeT else b.modeB
def WinBlock.colMode (b : WinBlock) (i : Int) : Nat := if i < 0 then b.modeL else b.modeR

/-- The real row whose header a segment takes (R159): the row read, or the row at the clamped virtual row. -/
def WinBlock.headerRow (b : WinBlock) (iy : Int) (sub : Nat) : Nat :=
  match resolve iy b.hv (b.rowMode iy) with
  | some v => v * b.fac + sub
  | none => (max 0 (min iy ((b.hv : Int) - 1))).toNat * b.fac + sub

/-- Where a real row lies: `none` if in neither the stripe nor a halo; else the side (0 top, 1 bottom, 2 the
stripe) (R175). -/
def WinBlock.rowSide (b : WinBlock) (n : Nat) : Option Nat :=
  if b.rowFirst ≤ n ∧ n < b.rowFirst + b.rowCount then some 2
  else if n < b.rowFirst ∧ b.rowFirst ≤ n + b.haloRows then some 0
  else if b.rowFirst + b.rowCount ≤ n ∧ n < b.rowFirst + b.rowCount + b.haloRows then some 1
  else none

def WinBlock.buffer (b : WinBlock) (side : Nat) : Nat :=
  b.haloAddr + (2 * b.parity + side) * b.haloBytes

/-- The store address of (real row, channel), and of the row's header. -/
def WinBlock.rowAddr (b : WinBlock) (n ch : Nat) : Nat :=
  match b.rowSide n with
  | some 2 => b.inAddr + (n - b.rowFirst) * b.rowStride + ch * b.planeStride
  | some s =>
    let i := if s = 0 then n + b.haloRows - b.rowFirst else n - (b.rowFirst + b.rowCount)
    b.buffer s + (ch * b.haloRows + i) * b.rowStride
  | none => 0
def WinBlock.hdrAddr (b : WinBlock) (n : Nat) : Nat :=
  match b.rowSide n with
  | some 2 => b.hdr + 8 * (n - b.rowFirst)
  | some s =>
    let i := if s = 0 then n + b.haloRows - b.rowFirst else n - (b.rowFirst + b.rowCount)
    b.buffer s + b.chans * b.haloRows * b.rowStride + 8 * i
  | none => 0

/-- The code or bf16 bits of position x in a row at address `a`. -/
def mapElem (m : SMap Byte) (fmt a x : Nat) : Nat :=
  if fmt = 1 then (if x % 2 = 0 then m.readLe (a + x / 2) 1 % 16 else m.readLe (a + x / 2) 1 / 16)
  else if fmt = 2 then m.readLe (a + x) 1 else m.readLe (a + 2 * x) 2

/-- The code or bf16 bits of position x in a line of the line buffer. -/
def lineElem (bs : List Byte) (fmt x : Nat) : Nat :=
  if fmt = 1 then (if x % 2 = 0 then (bs.getD (x / 2) 0).toNat % 16 else (bs.getD (x / 2) 0).toNat / 16)
  else if fmt = 2 then (bs.getD x 0).toNat else (bs.getD (2 * x) 0).toNat + 256 * (bs.getD (2 * x + 1) 0).toNat

/-- A constant-padding tap (R159): bf16 as it stands, or the expanded activation at scale σ. -/
def constTap (m : SMap Byte) (b : WinBlock) (ch : Nat) (sc : ScaleWord) : Tap :=
  let x := m.readLe (b.padConst + 2 * ch) 2
  if b.fmt = 3 then .bf x
  else match bf16.decode x with
    | .nan => .value 0
    | .inf neg => .value (if sc.mant = 0 then 0 else if neg then -2175 else 2175)
    | .fin neg k e =>
      if sc.mant = 0 then .value 0
      else
        let v := FVal.div (.fin neg k e) (.fin false sc.mant sc.exp)
        .value (max (-2175) (min 2175 (v.roundScaled 0)))

/-- The tap that output position (ox, oy) reads for kernel tap (kx, ky), input channel `ch`, sub-row `sub`
and sub-column `dxs` (R157 to R159). `line` is the resident line of a real row and channel (R155). -/
def tapAt (m : SMap Byte) (line : Nat → Nat → List Byte) (b : WinBlock) (oy ox ky kx ch sub dxs : Nat) : Tap :=
  let iy := b.iy oy ky
  let ix := b.ix ox kx
  let hr := b.headerRow iy sub
  let sc := readScale m (b.hdrAddr hr)
  match resolve iy b.hv (b.rowMode iy), resolve ix b.wv (b.colMode ix) with
  | some vy, some vx =>
    let x := lineElem (line (vy * b.fac + sub) ch) b.fmt (vx * b.fac + dxs)
    if b.fmt = 3 then .bf x else .code x sc.zp
  | none, _ => if b.rowMode iy = 0 then .zero else constTap m b ch sc
  | some _, none => if b.colMode ix = 0 then .zero else constTap m b ch sc

/-- The terms of a ROWS stream in the order of R162. -/
def rowsTerms (m : SMap Byte) (line : Nat → Nat → List Byte) (b : WinBlock) (c : WinCmd) : List (List Tap) :=
  (List.range c.nc).flatMap fun ci => (List.range b.fac).flatMap fun dxs =>
    (List.range c.nkx).map fun k => (List.range 16).map fun r =>
      tapAt m line b c.oy (c.ox0 + r) c.ky0 (c.kx0 + k) (c.c0 + ci) c.sub dxs

/-- The terms of a diagonal stream: kernel rows outer, taps inner; the tap of PE row r and channel column c
is at 16r + c (R168). -/
def diagTerms (m : SMap Byte) (line : Nat → Nat → List Byte) (b : WinBlock) (c : WinCmd) : List (List Tap) :=
  (List.range c.nky).flatMap fun ky => (List.range c.nkx).map fun k =>
    (List.range 16).flatMap fun r => (List.range 16).map fun ch =>
      if ch < c.nc then tapAt m line b c.oy (c.ox0 + r) (c.ky0 + ky) (c.kx0 + k) (c.c0 + ch) 0 0 else .zero

/-- The larger of two scales. -/
def maxScale (a b : ScaleWord) : ScaleWord :=
  if (FVal.fin false a.mant a.exp).lt (.fin false b.mant b.exp) then b else a

/-- The scale of kernel row `ky`, sub-row `sub` (R159). -/
def WinBlock.rowScale (b : WinBlock) (m : SMap Byte) (oy ky sub : Nat) : ScaleWord :=
  readScale m (b.hdrAddr (b.headerRow (b.iy oy ky) sub))

/-- σ_ref: the largest σ over every row of the whole kernel (R164). -/
def WinBlock.sigmaRef (b : WinBlock) (m : SMap Byte) (oy : Nat) : ScaleWord :=
  let all := (List.range b.kh).flatMap fun ky => (List.range b.fac).map fun s => b.rowScale m oy ky s
  let s := all.foldl maxScale ⟨0, 0, 0, false, false, 0⟩
  { s with zp := 0, recovered := false, zeroRange := false, rsv := 0 }

/-- m_j := round_te(σ_j / σ_ref × 2^15) (R142). -/
def mergeMult (sj ref : ScaleWord) : Nat :=
  ((FVal.div (.fin false sj.mant sj.exp) (.fin false ref.mant ref.exp)).roundScaled 15).toNat

/-- The real rows whose headers kernel rows and sub-rows take (R159). -/
def headerRows (b : WinBlock) (oy : Nat) (kys subs : List Nat) : List Nat :=
  kys.flatMap fun ky => subs.map fun s => b.headerRow (b.iy oy ky) s

/-- The real rows that kernel rows and sub-rows read after R158: none where the row resolves to PAD. -/
def dataRows (b : WinBlock) (oy : Nat) (kys subs : List Nat) : List Nat :=
  kys.flatMap fun ky =>
    match resolve (b.iy oy ky) b.hv (b.rowMode (b.iy oy ky)) with
    | some v => subs.map fun s => v * b.fac + s
    | none => []

/-- The halo sides (0 top, 1 bottom) among rows. -/
def haloSides (b : WinBlock) (rows : List Nat) : List Nat :=
  ([0, 1] : List Nat).filter fun s => rows.any fun n => b.rowSide n == some s

/-- The rows whose data a window command reads: ROWS its one row, DIAG and DIAGMAX their kernel rows, MTABLE none. -/
def cmdData (b : WinBlock) (c : WinCmd) : List Nat :=
  if c.op = 0x20 then dataRows b c.oy [c.ky0] [c.sub]
  else if c.op = 0x23 then []
  else dataRows b c.oy ((List.range c.nky).map (c.ky0 + ·)) [0]

/-- The rows whose headers a window command reads: none on a BF16 map; ROWS its segment's; DIAG, DIAGMAX and MTABLE
those of the whole kernel, for σ_ref (R164, R169). -/
def cmdHeaders (b : WinBlock) (c : WinCmd) : List Nat :=
  if b.fmt = 3 then []
  else if c.op = 0x20 then headerRows b c.oy [c.ky0] [c.sub]
  else headerRows b c.oy (List.range b.kh) (List.range b.fac)

/-- The rows whose data or headers a window command reads (R178, R181). -/
def cmdRows (b : WinBlock) (c : WinCmd) : List Nat := cmdData b c ++ cmdHeaders b c

/-- Whether some tap of a stream is constant padding (R158, R159). -/
def WinBlock.padsConst (b : WinBlock) (c : WinCmd) : Bool :=
  let kys := if c.op = 0x20 then [c.ky0] else (List.range c.nky).map (c.ky0 + ·)
  let rowPads (ky : Nat) : Bool := (resolve (b.iy c.oy ky) b.hv (b.rowMode (b.iy c.oy ky))).isNone
  (kys.any fun ky => rowPads ky && b.rowMode (b.iy c.oy ky) == 1) ||
    (kys.any (fun ky => !rowPads ky) && (List.range c.nkx).any fun k => (List.range 16).any fun r =>
      let i := b.ix (c.ox0 + r) (c.kx0 + k)
      (resolve i b.wv (b.colMode i)).isNone && b.colMode i == 1)

/-- The lines of a command, (real row, channel): in ring mode of the rows it reads; in per-tap fetch mode b rows for
each channel and kernel row, whatever sub-row it takes (R163). [DESIGN CHOICE: assumption 221] -/
def cmdLines (b : WinBlock) (c : WinCmd) : List (Nat × Nat) :=
  let rows := if c.op = 0x20 ∧ !b.ring then dataRows b c.oy [c.ky0] (List.range b.fac) else (cmdData b c).eraseDups
  rows.flatMap fun r => (List.range c.nc).map fun i => (r, c.c0 + i)

/-- Bytes of the lines of one command (R163). -/
def cmdLineBytes (b : WinBlock) (c : WinCmd) : Nat :=
  (if c.op = 0x20 then c.nc * b.fac else c.nc * c.nky) * b.lineBytes

/-- A window command other than SPLICE and RELEASE is valid (R156 to R167, R181). -/
def winCmdOk (m : SMap Byte) (c : WinCmd) : Bool :=
  let b := readBlock m c.params
  let base := addrOk c.params 64 64 && b.ok && c.rsv == 0 && decide (c.stream < 16) &&
    decide (c.oy < b.oh)
  let taps := decide (1 ≤ c.nkx) && decide (c.nkx ≤ 7) && decide (c.kx0 + c.nkx ≤ b.kw) &&
    decide (c.ky0 + c.nky ≤ b.kh) && decide (1 ≤ c.nc) && decide (c.c0 + c.nc ≤ b.chans)
  if c.op = 0x20 then
    base && taps && c.nky == 1 && decide (c.nc * c.nkx * b.fac ≤ 4096) && decide (c.sub < b.fac) &&
    c.flags == 0 && c.aux2 == 0 && decide (cmdLineBytes b c ≤ 131072)
  else if c.op = 0x21 ∨ c.op = 0x22 then
    base && taps && decide (1 ≤ c.nky) && decide (c.nky ≤ 4) && decide (c.nc ≤ 16) && b.s2d == 0 &&
    c.sub == 0 && decide (c.flags < 2) && c.aux2 == 0 && decide (cmdLineBytes b c ≤ 131072) &&
    (c.flags == 0 || (addrOk c.aux 8 8 && b.fmt != 3))
  else if c.op = 0x23 then
    base && c.stream == 0 && decide (1 ≤ c.nkx) && decide (c.nkx ≤ 7) && decide (c.sub < b.fac) &&
    decide (1 ≤ c.nky) && decide (c.nky ≤ 16) && decide (c.ky0 + c.nky ≤ b.kh) &&
    b.fmt != 3 && decide (c.nky * b.fac ≤ 16) && decide (c.slot0 + c.nky * b.fac ≤ 64) &&
    c.flags == 0 && addrOk c.aux 4 (4 * (c.nky * b.fac)) && addrOk c.aux2 8 8
  else false

/-- Whether every row a command reads is in the stripe or a halo buffer; if not, the cause is ROW_RANGE. -/
def rowsInRange (b : WinBlock) (c : WinCmd) : Bool :=
  (cmdRows b c).all fun n => (b.rowSide n).isSome

/-- The store after an MTABLE (R164): merge table at `aux`, σ_ref at `aux2`. -/
def mtableWrite (m : SMap Byte) (c : WinCmd) : SMap Byte :=
  let b := readBlock m c.params
  let ref := b.sigmaRef m c.oy
  let segs := (List.range c.nky).flatMap fun k => (List.range b.fac).map fun s => (c.ky0 + k, s)
  let m1 := (List.range segs.length).foldl (fun acc j =>
    let ks := segs.getD j (0, 0)
    acc.writeLe (c.aux + 4 * j) 4
      ((c.slot0 + j) + mergeMult (b.rowScale m c.oy ks.1 ks.2) ref * 65536)) m
  m1.writeLe c.aux2 8 ref.bits

/-- The fold multipliers of a diagonal command (R169). -/
def diagMults (m : SMap Byte) (b : WinBlock) (c : WinCmd) : List Nat :=
  if b.fmt = 3 then []
  else
    let ref := b.sigmaRef m c.oy
    (List.range c.nky).map fun k => mergeMult (b.rowScale m c.oy (c.ky0 + k) 0) ref

/-- Write one element of a map row. -/
def putMapElem (m : SMap Byte) (fmt a x v : Nat) : SMap Byte :=
  if fmt = 1 then
    let old := m.readLe (a + x / 2) 1
    m.writeLe (a + x / 2) 1 (if x % 2 = 0 then old / 16 * 16 + v % 16 else old % 16 + 16 * (v % 16))
  else if fmt = 2 then m.writeLe (a + x) 1 v else m.writeLe (a + 2 * x) 2 v

/-- Whether a REGROUP is valid (R167, R181), and its factor and direction: `some (b, true)` for
depth-to-space, `some (b, false)` for space-to-depth. -/
def regroupKind (m : SMap Byte) (c : WinCmd) : Option (Nat × Bool) :=
  let i := readBlock m c.params
  let o := readBlock m c.aux
  let ok := addrOk c.params 64 64 && addrOk c.aux 64 64 && i.ok && o.ok && c.stream == 0 && c.rsv == 0 &&
    c.aux2 == 0 && c.flags == 0 && i.fmt == o.fmt && i.s2d == 0 && o.s2d == 0
  if !ok then none
  else
    let dts (b : Nat) : Bool := i.chans == o.chans * b * b && o.width == i.width * b &&
      o.height == i.height * b
    let std (b : Nat) : Bool := o.chans == i.chans * b * b && i.width == o.width * b &&
      i.height == o.height * b && i.fmt == 3
    if dts 2 then some (2, true) else if dts 4 then some (4, true)
    else if std 2 then some (2, false) else if std 4 then some (4, false) else none

/-- The store after a REGROUP (R167). -/
def regroupWrite (m : SMap Byte) (c : WinCmd) (f : Nat) (toSpace : Bool) : SMap Byte :=
  let i := readBlock m c.params
  let o := readBlock m c.aux
  if toSpace then
    let rows := (List.range f).map (c.oy + ·)
    let m1 := rows.foldl (fun acc yo =>
      (List.range o.chans).foldl (fun acc ch =>
        (List.range (15 * f + 1)).foldl (fun acc k =>
          let xo := c.ox0 + k
          if xo < o.width then
            putMapElem acc o.fmt (o.rowAddr yo ch) xo
              (mapElem m i.fmt (i.rowAddr (yo / f) (ch * f * f + yo % f * f + xo % f)) (xo / f))
          else acc) acc) acc) m
    if i.fmt = 3 then m1
    else rows.foldl (fun acc yo => acc.writeLe (o.hdrAddr yo) 8 (m.readLe (i.hdrAddr (yo / f)) 8)) m1
  else
    (List.range o.chans).foldl (fun acc ch =>
      (List.range (15 * f + 1)).foldl (fun acc k =>
        let xo := c.ox0 + k
        if xo < o.width then
          let dy := ch % (f * f) / f
          putMapElem acc o.fmt (o.rowAddr c.oy ch) xo
            (mapElem m i.fmt (i.rowAddr (c.oy * f + dy) (ch / (f * f))) (xo * f + ch % f))
        else acc) acc) m

/-- The rows that a REGROUP reads and writes lie in the stripes or halos. -/
def regroupInRange (m : SMap Byte) (c : WinCmd) (f : Nat) (toSpace : Bool) : Bool :=
  let i := readBlock m c.params
  let o := readBlock m c.aux
  if toSpace then
    (List.range f).all fun d => (i.rowSide ((c.oy + d) / f)).isSome && o.rowSide (c.oy + d) == some 2
  else (o.rowSide c.oy == some 2) && (List.range f).all fun dy => (i.rowSide (c.oy * f + dy)).isSome

/-- A SPLICE command (R177). -/
structure SpliceCmd where
  flags  : Nat
  row0   : Nat
  nrows  : Nat
  parity : Nat
  hitch  : Nat
  params : Nat
  dst    : Nat
  rsv    : Nat
  dstHalo : Nat
  rsv2   : Nat
  deriving DecidableEq, Repr

def readSplice (m : SMap Byte) (a : Nat) : SpliceCmd where
  flags := m.readLe (a + 1) 1
  row0 := m.readLe (a + 2) 2
  nrows := m.readLe (a + 4) 1
  parity := m.readLe (a + 5) 1
  hitch := m.readLe (a + 6) 2
  params := m.readLe (a + 8) 4
  dst := m.readLe (a + 12) 2
  rsv := m.readLe (a + 14) 2
  dstHalo := m.readLe (a + 16) 4
  rsv2 := m.readLe (a + 20) 8 + m.readLe (a + 28) 4

/-- The receiving side: bottom (1) when sending to the upper neighbour, top (0) to the lower. -/
def SpliceCmd.side (c : SpliceCmd) : Nat := if c.flags % 2 = 0 then 1 else 0

/-- A SPLICE is valid but for the Cord of its destination (R177, R181). -/
def spliceOk (m : SMap Byte) (c : SpliceCmd) : Bool :=
  let b := readBlock m c.params
  addrOk c.params 64 64 && b.ok && decide (c.flags < 2) && decide (1 ≤ c.nrows) &&
  c.nrows == b.haloRows && decide (c.parity ≤ 1) && c.rsv == 0 && c.rsv2 == 0 && decide (c.dst < 48) &&
  decide (c.dstHalo + 4 * b.haloBytes ≤ storeSize)

/-- Whether the rows sent lie in the sender's stripe or halos. -/
def spliceInRange (m : SMap Byte) (c : SpliceCmd) : Bool :=
  let b := readBlock m c.params
  (List.range c.nrows).all fun i => (b.rowSide (c.row0 + i)).isSome

/-- The destination's store after the writes of a SPLICE (R175, R177). -/
def spliceWrite (src dst : SMap Byte) (c : SpliceCmd) : SMap Byte :=
  let b := readBlock src c.params
  let buf := c.dstHalo + (2 * c.parity + c.side) * b.haloBytes
  let d1 := (List.range b.chans).foldl (fun acc ch =>
    (List.range c.nrows).foldl (fun acc i =>
      acc.putList zeroByte (buf + (ch * b.haloRows + i) * b.rowStride)
        (src.lookList zeroByte (b.rowAddr (c.row0 + i) ch) b.rowStride)) acc) dst
  if b.fmt = 3 then d1
  else (List.range c.nrows).foldl (fun acc i =>
    acc.writeLe (buf + b.chans * b.haloRows * b.rowStride + 8 * i) 8
      (src.readLe (b.hdrAddr (c.row0 + i)) 8)) d1

/-- Bytes that a SPLICE writes. -/
def spliceBytes (m : SMap Byte) (c : SpliceCmd) : Nat :=
  let b := readBlock m c.params
  b.chans * c.nrows * b.rowStride + (if b.fmt = 3 then 0 else 8 * c.nrows)

/-! ### The diagonal form in a Kiln -/

/-- The taps of one PE: row `r`, column `c`, kernel row `ky` of a diagonal stream. -/
def diagTaps (s : Stream) (r c ky : Nat) : List Tap :=
  (List.range s.nkx).map fun k => (s.terms.getD (ky * s.nkx + k) []).getD (16 * r + c) .zero

/-- Sum `L` lane products at a time into an entry (R169). -/
def diagSum (L : Nat) : Nat → List (Int × Int) → Acc → Acc
  | 0, _, e => e
  | n + 1, ps, e =>
    let now := ps.take L
    let v := e.val.toInt + (now.map fun p => p.1 * p.2).sum
    let lane := (e.lane.toNat + (now.map fun p => res7 p.1 * res7 p.2).sum) % 7
    diagSum L n (ps.drop L)
      { val := BitVec.ofInt 32 (sat32 v), clamp := e.clamp || decide (sat32 v ≠ v)
        lane := BitVec.ofNat 3 lane }

/-- The maximum of a list of integers, if any. -/
def maxInt? : List Int → Option Int
  | [] => none
  | x :: xs => some (xs.foldl max x)

/-- The maximum of bf16 taps as fp32 bits, with NaN taking precedence; `none` if there is no tap. -/
def maxBf? (ts : List Tap) : Option Nat :=
  let xs := ts.filterMap fun t => match t with
    | .bf x => some (bf16.decodeFtz x)
    | _ => none
  match xs with
  | [] => none
  | x :: rest => some (fp32.pack (rest.foldl (fun a b =>
      if a = .nan ∨ b = .nan then .nan else if a.lt b then b else a) x))

/-- The partial sum of kernel row `ky` on one PE in T4 and E8: by addition (R169), or by maximum, whose lane follows the
selected operand (R172). Column `ch` takes the weight of code position `ch` of each term. -/
def diagPart (m : SMap Byte) (c : KilnCmd) (s : Stream) (wcb acb : List Int) (init : Acc) (r ch ky : Nat) : Acc :=
  let per := modePer c.mode
  if s.diag = 2 then
    match maxInt? (((diagTaps s r ch ky).filter fun t => t != .zero).map fun t => t.expand acb) with
    | some v => { val := BitVec.ofInt 32 v, lane := BitVec.ofNat 3 (res7 v) }
    | none => {}
  else
    diagSum per (s.nkx / per + 1)
      ((List.range s.nkx).map fun k =>
        (((diagTaps s r ch ky).getD k .zero).expand acb, wcb.getD (weightCode m c (ky * s.nkx + k) ch) 0)) init

/-- The fold of the partial sums of one PE in T4 and E8 (R169, R172): it is checked as a MERGE, whose lane it sets
(R118, R171). -/
def diagFold (s : Stream) (parts : List Acc) (r ch : Nat) : Acc :=
  let prod (ky : Nat) : Int := (parts.getD ky {}).val.toInt * (s.mults.getD ky 0 : Int)
  let rows := (List.range s.nky).filter fun ky => (diagTaps s r ch ky).any fun t => t != .zero
  let v := if s.diag = 2 then (maxInt? (rows.map prod)).getD 0 else ((List.range s.nky).map prod).sum
  let w := rshiftRne v 15
  { val := BitVec.ofInt 32 (sat32 w)
    clamp := decide (sat32 w ≠ w) || (s.diag != 2 && (parts.take s.nky).any Acc.clamp)
    lane := BitVec.ofNat 3 (res7 (sat32 w)) }

/-- The entries of one PE when the fold begins in T4 and E8: the partial sums, and as they stand those that no kernel
row uses. -/
def diagParts (m : SMap Byte) (c : KilnCmd) (s : Stream) (wcb acb : List Int) (init : Nat → Acc) (r ch : Nat) : List Acc :=
  (List.range (modePer c.mode)).map fun j => if j < s.nky then diagPart m c s wcb acb (init j) r ch j else init j

/-- The entry of one PE in H16: the sum of R102, or the maximum of the taps (R172). -/
def diagH16 (m : SMap Byte) (c : KilnCmd) (s : Stream) (init : Acc) (r ch : Nat) : Acc :=
    if s.diag = 2 then
      let v := (maxBf? ((List.range s.nky).flatMap fun ky => diagTaps s r ch ky)).getD 0
      { val := BitVec.ofNat 32 v, clamp := decide (fp32.inf ≤ v % fp32.sign), lane := init.lane }
    else
      (List.range s.nky).foldl (fun e ky =>
        (List.range s.nkx).foldl (fun e k =>
          match (diagTaps s r ch ky).getD k .zero with
          | .bf x => accStepH16 e x (weightCode m c (ky * s.nkx + k) ch)
          | _ => e) e) init

/-- A MAC fed by a diagonal stream (R168 to R172): the accumulators after it, and whether every residue comparison at
its completion passed (R116, R171). Columns that the stream leaves idle keep the entries that the MAC began with. -/
def diagResult (m : SMap Byte) (c : KilnCmd) (s : Stream) (acc : SMap Acc) : SMap Acc × Bool :=
  let wcb := ((readCodebook m c.wcb).map Prod.snd).getD []
  let acb := ((readCodebook m c.acb).map Prod.snd).getD []
  let per := modePer c.mode
  let c0 : KilnCmd := if s.diag = 2 then { c with flags := c.flags / 2 * 2 } else c
  let old (r ch j : Nat) : Acc :=
    accInit m c0 (acc.look accZero (accIndex c.mode c.slot r (per * ch + j))) (per * ch + j)
  let pe (r ch : Nat) : List Acc :=
    if s.nc ≤ ch then (List.range per).map (old r ch)
    else if c.mode = 3 then [diagH16 m c s (old r ch 0) r ch]
    else diagParts m c s wcb acb (old r ch) r ch
  let pes := (List.range 256).map fun i => pe (i / 16) (i % 16)
  let out := (List.range 256).map fun i =>
    let parts := pes.getD i []
    if s.nc ≤ i % 16 ∨ c.mode = 3 then parts
    else diagFold s parts (i / 16) (i % 16) :: List.replicate (per - 1) {}
  (mapSlot acc c.mode c.slot fun r cj _ => (out.getD (16 * r + cj / per) []).getD (cj % per) {},
   pes.all fun es => es.all (residueOk c.mode))

/-- The number that a diagonal result is held under, an H16 slot's, and its mode: 4 is a 16-channel integer tile
(R170). -/
def diagSlot (mode slot : Nat) : Nat := modePer mode * slot
def diagMode (mode : Nat) : Nat := if mode = 3 then 3 else 4

/-- A diagonal command fits the Kiln's mode: T4 with CODE4, E8 with CODE8 and at most 2 kernel rows, H16 with
BF16 (R168, R169). -/
def diagFits (mode : Nat) (s : Stream) : Bool :=
  mode == s.fmt && (mode != 2 || decide (s.nky ≤ 2))

end Sys2Proof.Machine
end

