-- ==== Sys2Proof/Machine/Sched.lean ====
section
/-! DEFINITION. What every job shares (chapters 8, 14 and 15): session descriptors, Hitch operations on the
machine, completion records, history commit, track write-back, and the end of a job. -/

namespace Sys2Proof.Machine

/-! ### Job statuses (R523) -/

def stOk : Nat := 0
def stBeforeAbort : Nat := 1
def stAborted : Nat := 2
def stTorn : Nat := 3
def stRefusedFit : Nat := 5
def stDeadlineMiss : Nat := 6
def stPoisoned : Nat := 7

/-- OK, COMPLETED_BEFORE_ABORT and DEADLINE_MISS: the job's results are valid. -/
def stGood (st : Nat) : Bool := st == 0 || st == 1 || st == 6
/-- The statuses of a job that reaches its retirement point (R359, R384, R415): the good ones, CORRUPT, TE_LOST and
BATCH_SHORT. -/
def stRetires (st : Nat) : Bool := stGood st || st == 0x08 || st == 0x0C || st == 0x86
/-- The statuses counted as torn down (R421). -/
def stTornCount (st : Nat) : Bool := st == 2 || st == 3 || st == 7

/-! ### Jobs -/

def State.job? (s : State) (sub : Nat) : Option Job := s.jobs.find? fun j => j.sub == sub
def State.modJob (s : State) (sub : Nat) (f : Job → Job) : State :=
  { s with jobs := s.jobs.map fun j => if j.sub == sub then f j else j }

def Job.chained (j : Job) : Bool := j.flags.testBit 0
def Job.feedFrame (j : Job) : Bool := j.flags.testBit 1
def Job.startEn (j : Job) : Bool := j.flags.testBit 2
def Job.doneEn (j : Job) : Bool := j.flags.testBit 3
def Job.ingest (j : Job) : Bool := j.histFlags.testBit 0
def Job.cut (j : Job) : Bool := j.histFlags.testBit 1
def Job.keepPrefix (j : Job) : Bool := j.histFlags.testBit 2
def Job.lastChunk (j : Job) : Bool := j.histFlags.testBit 3
/-- NET, RASTER and FILL run on Hearths. -/
def Job.onHearths (j : Job) : Bool := j.kind == 1 || j.kind == 2 || j.kind == 6
/-- The Cord-relative address in `ARG0` and `ARG1`. -/
def Job.argAddr (j : Job) : Nat := j.arg0.toNat + j.arg1.toNat * 2 ^ 32
/-- The queue a job stands in: LC until its budget timer has expired (R404, R416). -/
def Job.inLc (j : Job) : Bool := j.lc && !j.demoted
def Job.queued (j : Job) : Bool := j.phase == 0 || j.phase == 5
/-- The job has its Hearths or engines: running, loading, stopping, being saved or restored. -/
def Job.resident (j : Job) : Bool := !j.queued

/-! ### Session descriptors (R394) -/

/-- The Cord-relative address of byte `off` of session `i`'s descriptor. -/
def CordCfg.sessAddr (c : CordCfg) (i off : Nat) : Nat := c.regionBase 1 + (i - c.sessionBase) * 256 + off
def State.sessLe (s : State) (c : CordCfg) (i off n : Nat) : Nat := s.cordLe c (c.sessAddr i off) n
def State.putSessLe (s : State) (c : CordCfg) (i off n x : Nat) : State :=
  s.putCordLe c (c.sessAddr i off) n x
/-- Whether a session number lies in the Cord's range. -/
def CordCfg.hasSession (c : CordCfg) (i : Nat) : Bool :=
  decide (c.sessionBase ≤ i) && decide (i < c.sessionBase + c.sessionCount)

/-- Addresses of the areas of a Hearth store (R40). -/
def CordCfg.historyAt (c : CordCfg) : Nat := c.weightShare
def CordCfg.haloAt (c : CordCfg) : Nat := c.historyAt + c.historyBytes
def CordCfg.scaleAt (c : CordCfg) : Nat := c.haloAt + c.haloBytes
def CordCfg.tileAt (c : CordCfg) : Nat := c.scaleAt + c.scaleBytes
def CordCfg.workAt (c : CordCfg) : Nat := c.tileAt + c.tileBytes

/-- Latent frame size F, block size B and block count (R220, R221). The count of members is the Lay's. -/
def CordCfg.memberCount (c : CordCfg) : Nat := ((List.range 48).filter fun h => c.hearths.getLsbD h).length
def CordCfg.frame (c : CordCfg) : Nat := c.historyBytes / 8
def CordCfg.block (c : CordCfg) : Nat := c.memberCount * c.historySteps * c.frame
def CordCfg.blocks (c : CordCfg) : Nat := if c.block = 0 then 0 else min (c.regionSize 3 / c.block) 4096

/-! ### Cores, windows and Splices on a grant -/

/-- The key of register `o` of core c of Hearth h (R215): 8 `KC_RETIRED`, 12 `KC_DUAL`, 16 `KC_MEM_STALL`, 20
`KC_CMD_STALL`, 24 `KC_HITCH_WAIT`, 28 `KC_BLOCKS`. -/
def kcKey (o h c : Nat) : Nat := hKey (0xB000 + h * 0x40 + c * 0x20 + o)

/-- Count a retired instruction of core c, and where it may have issued as the second of a pair, perhaps the pair (R191,
R215). -/
def State.retireInstr (s : State) (h c : Nat) (pair : Bool) : State :=
  let t := s.bump (kcKey 8 h c) 1
  if pair then t.cycles (kcKey 12 h c) 1 else t

/-- The uncorrectable word that the writes of a Splice of Hearth `h` meet, as a Hearth and a byte address: one that
its rows are read from, or one of the destination that they need (R439). -/
def State.spliceUe (s : State) (h : Nat) (c : SpliceCmd) : Option (Nat × Nat) :=
  let v := s.hearth h
  let d := s.hearth c.dst
  match v.storeUe.find? fun w => spliceWrite (flipWord v.store w) d.store c != spliceWrite v.store d.store c with
  | some w => some (h, 8 * w)
  | none => (d.needs fun m => spliceWrite v.store m c).map fun w => (c.dst, 8 * w)

/-- Write the halo rows of the Splice at the head of the queue into its destination: it has started (R177 step 2). -/
def State.spliceRows (s : State) (h : Nat) : State :=
  let v := s.hearth h
  match v.win.splice with
  | some sp =>
    let c := readSplice (cmdMem sp.cmd) 0
    let ue := s.spliceUe h c
    let s1 := if ue.isSome then s
      else s.setHearth c.dst ((s.hearth c.dst).change fun m => spliceWrite v.store m c)
    let v1 := s1.hearth h
    let q := (v1.queues.look (fun _ => []) 4).drop 1
    (s1.setHearth h { v1 with queues := v1.queues.put (fun _ => []) 4 q
                              win := { v1.win with splice := some { sp with written := true, ue := ue } } }).bump
      (hKey (0xA018 + h * 0x20)) (if ue.isSome then 0 else spliceBytes v.store c)
  | none => s

/-- A grant reaches an agent that has waited (R427): a WAIT completes, a halo is present, or a Splice may write; the
wait is counted (R182, R215). -/
def State.grant (s : State) (k : Nat) (a : Agent) : State :=
  match a with
  | .core h c =>
    let r := s.core h c
    if r.waitsOn = some k then
      ((s.setCore h c { r with waitsOn := none, state := 1, pc := pcAdd r.pc 4, blkPending := false }).retireInstr
        h c r.mayPair).anyCycles (kcKey 24 h c)
    else s
  | .window h side =>
    let v := s.hearth h
    match v.win.waiting.find? fun e => e.2 == side with
    | some e => (s.setHearth h { v with win := { v.win with
        waiting := v.win.waiting.filter fun x => x != e, present := e :: v.win.present } }).anyCycles
        (hKey (0xA010 + h * 0x20))
    | none => s
  | .splice h => (s.spliceRows h).anyCycles (hKey (0xA014 + h * 0x20))
  | _ => s

def State.grantAll (s : State) (k : Nat) (as : List Agent) : State := as.foldl (fun t a => t.grant k a) s

/-- A binning unit tries its pass wait (R426). -/
def State.tryPass (s : State) (k : Nat) (j : Job) : State :=
  let (h, ok) := (s.hitch k).tryWait (leNat ((j.desc.drop 62).take 2))
  if ok then (s.setHitch k h).modJob j.sub fun x => { x with
    pass := { x.pass with waited := true, waitsOn := none } } else s

/-- The binning units and the dispatch unit repeat their TRYWAITs on Hitch `k` (R426). -/
def State.retryStarts (s : State) (k : Nat) : State :=
  let s := (s.jobs.filter fun j => j.resident && j.pass.waitsOn == some k).foldl (fun t j => t.tryPass k j) s
  (s.jobs.filter fun j => j.phase == 0 && j.startEn && !j.waitOk && j.startHitch == k).foldl (fun t j =>
    let (h, ok) := (t.hitch k).tryWait j.startCount
    if ok then (t.setHitch k h).modJob j.sub fun x => { x with waitOk := true } else t) s

/-- SIGNAL(n) performed at Hitch `k` (R426 to R428). The overflow of a Hitch of no Cord is reported to the owner host.
[DEDUCED: assumption 129] -/
def State.hitchSignal (s : State) (k n : Nat) : State :=
  let h := s.hitch k
  let (h1, g) := h.signal n
  let s1 := (s.setHitch k h1).grantAll k g
  let s2 := if h1.ovf && !h.ovf then
      (match s.cordOfHitch k with
       | some c => s1.eventCord c 0x0F01 0x00 k
       | none => s1.eventOwner 0x0F01 0x00 k)
    else s1
  s2.retryStarts k

/-- A set performed at Hitch `k`. -/
def State.hitchSet (s : State) (k v : Nat) : State :=
  let (h1, g) := (s.hitch k).set v
  ((s.setHitch k h1).grantAll k g).retryStarts k

/-- A cancel of an agent's entry (R431). -/
def State.hitchCancel (s : State) (k : Nat) (a : Agent) : State :=
  let (h1, g) := (s.hitch k).cancel a
  (s.setHitch k h1).grantAll k g

/-- A job's signal is remembered, up to the 64 most recent distinct Hitches (R417). -/
def State.noteSignal (s : State) (sub k : Nat) : State :=
  s.modJob sub fun j => { j with signalled := (k :: j.signalled.filter fun x => x != k).take 64 }

/-! ### Stopping the engines of a Hearth -/

/-- Withdraw every Hitch entry of a Hearth's cores, window unit and Splice engine (R431). -/
def State.withdraw (s : State) (h : Nat) : State :=
  let s1 := ([0, 1] : List Nat).foldl (fun t c =>
    match (t.core h c).waitsOn with
    | some k => let t1 := t.hitchCancel k (.core h c)
                t1.setCore h c { t1.core h c with waitsOn := none }
    | none => t) s
  let v := s1.hearth h
  let s2 := v.win.waiting.foldl (fun t e =>
    t.hitchCancel ((readBlock v.store (haloBlock e.1)).haloHitch + e.2) (.window h e.2)) s1
  match v.win.splice with
  | some sp =>
    if sp.written then s2
    else
      let c := readSplice (cmdMem sp.cmd) 0
      s2.hitchCancel (c.hitch + 2 + c.side) (.splice h)
  | none => s2

/-- The engines of a Hearth after their job has ended: queues empty, streams closed, cores halted. A teardown leaves the
store to be zeroed (R417 step 4). [DESIGN CHOICE: assumption 127] -/
def State.clearHearth (s : State) (h : Nat) (bad : Bool) : State :=
  let s0 := s.withdraw h
  let v := s0.hearth h
  let stop (k : Core) : Core :=
    { k with state := if k.state = 0 then 0 else 3, stopReq := false, stopped := false, issued := [],
             waitsOn := none, blkPending := false }
  let cores := ([0, 1] : List Nat).foldl (fun (m : SMap Core) c => m.modify (fun _ => {}) c stop) v.cores
  let kilns := ([0, 1, 2, 3] : List Nat).foldl
    (fun (m : SMap Kiln) k => m.modify (fun _ => {}) k fun x => { x with held := [], busy := false }) v.kilns
  let s1 := s0.setHearth h { v with
    cores := cores, kilns := kilns, queues := [], mapRows := [], job := none, zeroing := v.zeroing || bad
    win := { v.win with streams := [], splice := none, present := [], waiting := [], lines := [] }
    hist := { v.hist with p := 0, q := 0, record := [] } }
  let p := s1.physOf h
  s1.setPhy p { s1.phy p with idleSince := s1.time }

/-! ### History (R222 to R238) -/

/-- Clear every area tag of a session (R225, R235, R238). -/
def State.clearTags (s : State) (i : Nat) : State :=
  (List.range 48).foldl (fun t h =>
    let v := t.hearth h
    match v.hist.tag with
    | some (x, _, _) => if x = i then t.setHearth h { v with hist := { v.hist with tag := none } } else t
    | none => t) s

/-- Set a failure cause in a Cord's `HIST_STATUS` (R247). -/
def State.histCause (s : State) (n cause : Nat) : State :=
  s.setReg (cordAddr n 0xC000) (BitVec.ofNat 32 ((s.reg (cordAddr n 0xC000)).toNat % 256 + cause * 256))

/-- Whether all stretches of a job made the same appends (R234). -/
def State.appendsMatch (s : State) (j : Job) : Bool :=
  match j.hearths with
  | [] => true
  | h0 :: rest => rest.all fun h => (s.hearth h).hist.p == (s.hearth h0).hist.p &&
      (s.hearth h).hist.q == (s.hearth h0).hist.q

/-- Commit a job's appends (R234). -/
def State.histCommit (s : State) (c : CordCfg) (j : Job) : State :=
  let i := j.session
  if s.sessLe c i 0x44 2 = 0 ∨ !j.onHearths then s
  else
    let hs := (s.hearth (j.hearths.headD 0)).hist
    let pl := s.sessLe c i 0x46 2 + hs.q
    let cap := c.historySteps - pl
    let len := min (s.sessLe c i 0x48 4 + hs.p) cap
    let head := if cap = 0 then 0 else (s.sessLe c i 0x4C 4 + hs.p) % cap
    let steps := min (s.sessLe c i 0x50 8 + hs.p) (2 ^ 64 - 1)
    let fl := s.sessLe c i 0x5C 2
    let fl := if j.lastChunk then fl / 2 * 2 else fl
    let s1 := ((((s.putSessLe c i 0x46 2 pl).putSessLe c i 0x48 4 len).putSessLe c i 0x4C 4 head).putSessLe
      c i 0x50 8 steps).putSessLe c i 0x5C 2 fl
    (List.range j.hearths.length).foldl (fun t k =>
      let h := j.hearths.getD k 0
      let v := t.hearth h
      t.setHearth h { v with hist := { v.hist with tag := some (i, k, steps) } }) s1

/-- Ring appends that a job has made: those of its Hearths, or of its save records while they hold it (R236). -/
def State.appendsOf (s : State) (j : Job) : Nat :=
  let made := if j.phase = 5 ∨ j.phase = 6 then
      j.records.map fun r => (s.saved.look (fun _ => {}) (j.cord * 65536 + r)).hist.p
    else if j.phase = 0 ∨ !j.onHearths then []
    else j.hearths.map fun h => (s.hearth h).hist.p
  made.foldl max 0

/-- Discard a job's appends and clear its session's area tags (R225, R235). -/
def State.histDiscard (s : State) (c : CordCfg) (j : Job) : State :=
  let i := j.session
  if s.sessLe c i 0x44 2 = 0 then s
  else
    let p := s.appendsOf j
    let cap := c.historySteps - s.sessLe c i 0x46 2
    let len := s.sessLe c i 0x48 4
    let len' := min len (cap - p)
    let s1 := s.clearTags i
    if len' = len then s1
    else
      let fl := s1.sessLe c i 0x5C 2
      let fl := if fl.testBit 1 then fl else fl + 2
      (((s1.putSessLe c i 0x48 4 len').putSessLe c i 0x5C 2 fl).bump (cordAddr j.cord 0xC020)
        (len - len')).eventCordBlock j.cord 0x0803 (len - len')

/-- Write a job's track records back to the session's track block (R136). -/
def State.trackWriteBack (s : State) (c : CordCfg) (j : Job) : State :=
  let bytes := s.sessLe c j.session 0x28 4
  let base := s.sessLe c j.session 0x20 8
  (List.range j.hearths.length).foldl (fun t k =>
    t.putCordBytes c (base + k * bytes)
      ((t.hearth (j.hearths.getD k 0)).store.lookList zeroByte c.scaleAt bytes)) s

/-- Load a job's track records for stretch k (R136). -/
def State.trackLoad (s : State) (c : CordCfg) (j : Job) (k : Nat) : State :=
  let bytes := s.sessLe c j.session 0x28 4
  let base := s.sessLe c j.session 0x20 8
  let h := j.hearths.getD k 0
  s.setHearth h ((s.hearth h).write c.scaleAt (s.cordBytes c (base + k * bytes) bytes))

/-! ### Completion records and counts (R420, R421) -/

/-- Queue CQ_LEVEL when the unread records reach the threshold, after a record. -/
def State.cqLevel (s : State) (n : Nat) : State :=
  let unread := ((s.cordRt n).cqWr + 2 ^ 32 - (s.reg (cordAddr n 0x24)).toNat) % 2 ^ 32
  let th := (s.reg (cordAddr n 0x2C)).toNat % 2 ^ 20
  if th ≠ 0 ∧ unread = th then s.eventCordBlock n 0x0E01 unread else s

/-- The 32 bytes of a completion record. -/
def completionBytes (time sub : Nat) (j : Job) (status flags : Nat) : List Byte :=
  natLe time 8 ++ natLe sub 4 ++ natLe j.tag.toNat 4 ++ natLe j.session 4 ++ natLe j.kind 1 ++
    natLe status 1 ++ natLe flags 1 ++ natLe 0 1 ++ natLe (min (j.residentNs / 1000) 0xFFFFFFFF) 4 ++
    natLe (min j.preempts 0xFFFF) 2 ++ natLe 0 2

/-- Write a completion record of Cord n (R420). -/
def State.complete (s : State) (n sub : Nat) (j : Job) (status flags : Nat) : State :=
  match s.cordCfg n with
  | none => s
  | some c =>
    let size := (s.reg (cordAddr n 0x1C)).toNat
    if size = 0 then s
    else
      let r := s.cordRt n
      let base := (s.reg (cordAddr n 0x18)).toNat % 2 ^ 20 * 65536
      let full := decide (size ≤ (r.cqWr + 2 ^ 32 - (s.reg (cordAddr n 0x24)).toNat) % 2 ^ 32)
      let a := base + r.cqWr % size * 32
      let s1 := if a + 32 ≤ c.size then s.putCordBytes c a (completionBytes s.time sub j status flags) else s
      let s2 := if full then s1.bump (cordAddr n 0x28) 1 else s1
      (s2.setCordRt n { s2.cordRt n with cqWr := (r.cqWr + 1) % 2 ^ 32 }).cqLevel n

/-- Count an accepted (0), finished (1) or torn-down (2) job of a Cord and its host. -/
def State.countJob (s : State) (n host which : Nat) : State :=
  let r := s.cordRt n
  let r' := if which = 0 then { r with accepted := r.accepted + 1 }
    else if which = 1 then { r with finished := r.finished + 1 } else { r with torn := r.torn + 1 }
  let s1 := s.setCordRt n r'
  { s1 with hostCounts := s1.hostCounts.modify (fun _ => 0) (host * 4 + which) fun x => (x + 1) % 2 ^ 48 }

/-! ### The ingestion hold (R242) -/

/-- HOLD of `HIST_STATUS`. -/
def State.holdOn (s : State) (n : Nat) : Bool := (s.reg (cordAddr n 0xC000)).getLsbD 1
def State.setHold (s : State) (n : Nat) (b : Bool) : State :=
  let w := (s.reg (cordAddr n 0xC000)).toNat
  s.setReg (cordAddr n 0xC000) (BitVec.ofNat 32 (if s.holdOn n = b then w else if b then w + 2 else w - 2))

/-- Whether a latency-critical job of a session with history runs or is queued in a Cord. -/
def State.holdNeeded (s : State) (c : CordCfg) : Bool :=
  s.jobs.any fun j => j.cord == c.cord && j.inLc && s.sessLe c j.session 0x44 2 != 0

/-- Count up to now the time during which a job has waited only because of the hold. -/
def State.countHeld (s : State) (n : Nat) : State :=
  match (s.cordRt n).heldSince with
  | some t => (s.setCordRt n { s.cordRt n with heldSince := some s.time }).bumpUnits (cordAddr n 0xC00C) 1000 (s.time - t)
  | none => s

/-- A hold ends. -/
def State.endHold (s : State) (n : Nat) : State :=
  let t := s.countHeld n
  (t.setCordRt n { t.cordRt n with heldSince := none, heldSent := false }).setHold n false

/-- A hold ends when no job that it serves remains. -/
def State.checkHold (s : State) (c : CordCfg) : State :=
  if s.holdOn c.cord && !s.holdNeeded c then s.endHold c.cord else s

/-- The scan finds an ingestion job that waits only because of the hold: its time runs from now, and the first one of a
hold is reported. [DESIGN CHOICE: assumption 92] -/
def State.noteHeld (s : State) (j : Job) : State :=
  let r := s.cordRt j.cord
  let t := s.setCordRt j.cord { r with heldSince := some (r.heldSince.getD s.time), heldSent := true }
  if r.heldSent then t else t.eventCordBlock j.cord 0x0801 j.session

/-! ### Sessions that close (R396) -/

/-- Unbind the data ports of a session. -/
def State.unbind (s : State) (c : CordCfg) (i : Nat) : State :=
  (List.range 16).foldl (fun t p =>
    let dp := t.port c.ownerHost p
    if dp.bound && dp.cord == c.cord && dp.session == i then t.setPort c.ownerHost p {} else t) s

/-- When a closing session's last job has retired: ports unbound, block freed, `state` 0, event (R396). -/
def State.finishClose (s : State) (n i : Nat) : State :=
  match s.cordCfg n with
  | none => s
  | some c =>
    if c.hasSession i && s.sessLe c i 0 1 == 2 && !(s.jobs.any fun j => j.cord == n && j.session == i) then
      (((s.unbind c i).putSessLe c i 0x40 4 0xFFFFFFFF).putSessLe c i 0 1 0).eventCordBlock n 0x0E03 i
    else s

/-! ### Slots (R265 to R271) -/

def State.fillRt (s : State) (n : Nat) : FillRt := s.fills.look (fun _ => {}) n
def State.setFillRt (s : State) (n : Nat) (v : FillRt) : State :=
  { s with fills := s.fills.put (fun _ => {}) n v }

/-- The address of slot record number r, if the ring still holds it (R271, R272). -/
def State.recordAddr (s : State) (n r : Nat) : Option Nat :=
  let f := s.fillRt n
  if f.size ≠ 0 ∧ r < f.wr ∧ f.wr ≤ r + f.size then
    some ((s.reg (cordAddr n 0xD008)).toNat % 2 ^ 20 * 65536 + r % f.size * 64)
  else none

/-- Set or clear bit b of the fill entry's `state` (R254). -/
def State.fillFlag (s : State) (c : CordCfg) (i b : Nat) (v : Bool) : State :=
  let x := s.sessLe c i (0x80 + 54) 1
  s.putSessLe c i (0x80 + 54) 1 (if x.testBit b = v then x else if v then x + 2 ^ b else x - 2 ^ b)

/-- A feed input frame of a session completes (R258). -/
def State.feedFrame (s : State) (c : CordCfg) (i : Nat) : State :=
  s.putSessLe c i (0x80 + 44) 2 (s.sessLe c i (0x80 + 44) 2 + 1)

/-- A slot completes with content at this moment (R266, R269, R271). -/
def State.slotDone (s : State) (c : CordCfg) (sl : SlotRt) (status seq : Nat) : State :=
  let late := decide (sl.deadline < s.time)
  let s1 := match sl.record.bind fun r => s.recordAddr sl.cord r with
    | some a => ((s.putCordLe c (a + 16) 8 s.time).putCordLe c (a + 60) 4 seq).putCordLe c (a + 56) 2
        (status + 256 * (1 + (if late then 2 else 0) + (if sl.anchor then 4 else 0)))
    | none => s
  let s2 := if stGood status then s1.fillFlag c sl.session 1 true else s1
  let s3 := if late then (s2.bump (cordAddr sl.cord 0xD034) 1).eventCordBlock sl.cord 0x0902 sl.session else s2
  let kind := s3.sessLe c sl.session 0x80 1
  let s4 := if kind = 3 ∧ stGood status then s3.feedFrame c (s3.sessLe c sl.session (0x80 + 40) 4 % 2 ^ 20)
    else s3
  { s4 with slots := s4.slots.filter fun x => !(x.cord == sl.cord && x.session == sl.session && x.k == sl.k) }

/-- A queued job of the session's tail, chained to what stands before it, that belongs to no slot yet. -/
def State.tailJob (s : State) (c : CordCfg) (i : Nat) : Option Nat :=
  (s.jobs.find? fun q => q.cord == c.cord && q.session == i && q.chained && q.queued &&
    !(s.slots.any fun x => x.cord == c.cord && x.subs.contains q.sub)).map Job.sub

/-- A job of a slot's chain has ended (R265, R266): a good end passes the slot to a chained job that is queued behind
it, or ends the chain. OUTSTANDING stays while a later chain of the session runs. [DEDUCED: assumptions 107, 108] -/
def State.slotJobEnded (s : State) (c : CordCfg) (j : Job) (status : Nat) : State :=
  match s.slots.find? fun x => x.subs.contains j.sub && x.cord == j.cord with
  | none => s
  | some sl =>
    let next := s.tailJob c j.session
    let later := s.slots.any fun x => x != sl && x.cord == j.cord && x.session == j.session && x.chain.isNone &&
      x.subs != [] && !x.committed
    let upd (f : SlotRt → SlotRt) : State :=
      { s with slots := s.slots.map fun x => if x = sl then f x else x }
    if stGood status ∧ j.sub ≠ sl.last then s
    else if stGood status ∧ next.isSome then
      let q := next.getD 0
      upd fun x => { x with last := q, subs := q :: x.subs }
    else
      let s1 := if later then s else s.fillFlag c j.session 0 false
      let ok := status == 0 || status == 1
      let s1 := if ok && (sl.mode == 1 || sl.mode == 2) then
          s1.setSess j.session { s1.sess j.session with okSlot := some sl.k } else s1
      let s2 := if ok && sl.anchor then s1.fillFlag c j.session 2 true else s1
      if sl.committed then { s2 with slots := s2.slots.filter fun x => x != sl }
      else if stGood status ∧ sl.panel.isSome then
        { s2 with slots := s2.slots.map fun x => if x = sl then { x with chain := some status } else x }
      else s2.slotDone c sl status 0

/-! ### The end of a job (R415 to R421, R460) -/

/-- Sum of `lc_reserve_mw` over the Cords. -/
def State.reserveSum (s : State) : Nat :=
  match s.lay with
  | some l => (l.cords.map CordCfg.reserveMw).sum
  | none => 0

/-- The effective reserve R'_c in mW (R457). -/
def State.effReserve (s : State) (c : CordCfg) : Nat :=
  if s.reserveSum ≤ s.drg.target - 15000 then c.reserveMw
  else c.reserveMw * (s.drg.target - 15000) / s.reserveSum

/-- The capacities C_c and C_B in nJ (R458). [DESIGN CHOICE: assumption 183] -/
def State.capA (s : State) (c : CordCfg) : Int := (s.effReserve c * 2000 : Nat)
def State.capB (s : State) : Int := ((s.drg.capW - 15) * 2000000 : Nat)

/-- Credit what the job did not use to the account it drew from (R460). -/
def State.refund (s : State) (c : CordCfg) (j : Job) : State :=
  if j.energyNj ≤ j.usedNj then s
  else
    let x : Int := (j.energyNj - j.usedNj : Nat)
    let d := s.drg
    let capB : Int := s.capB
    if j.lc then
      let capA : Int := s.capA c
      let a := d.accounts.look (fun _ => 0) j.cord + x
      let surplus := max 0 (a - capA)
      { s with drg := { d with accounts := d.accounts.put (fun _ => 0) j.cord (min a capA)
                               pool := min capB (d.pool + surplus) } }
    else { s with drg := { d with pool := min capB (d.pool + x) } }

/-- The key of a port's `DP_STALL_US`. -/
def stallKey (d p : Nat) : Nat := regKey d (0x10010 + p * 256)

/-- A wait on a port's ring ends: its length counts in `DP_STALL_US`, and what is short of a microsecond counts with the
next wait. [DESIGN CHOICE: assumption 175] -/
def State.ringResume (s : State) (d p : Nat) : State :=
  let x := s.port d p
  match x.waiter with
  | some (sub, _) =>
    ((s.setPort d p { x with waiter := none }).modJob sub fun j => { j with ringWait := false }).bumpUnits (stallKey d p)
      1000 (s.time - x.uncounted)
  | none => s

/-- A job waits on no ring of its host any more. -/
def State.dropWaits (s : State) (host sub : Nat) : State :=
  (List.range 16).foldl (fun t p =>
    if (t.port host p).waiter.map Prod.fst == some sub then t.ringResume host p else t) s

/-- What a job leaves for a job chained to it (R399, R405). -/
def Job.chainLink (j : Job) (status : Nat) : ChainLink :=
  let r : ChainLink := (if j.chained then j.chain else none).getD { status := 0 }
  if j.kind = 2 then
    { status := status, hearths := j.hearths, cuts := j.cuts, rows := j.rows, rasterCuts := j.cuts
      rasterRows := j.rows }
  else
    { status := status, hearths := j.hearths, cuts := j.cuts, rows := j.rows, rasterCuts := r.rasterCuts
      rasterRows := r.rasterRows }

/-- Everything that the end of a job does but the poisoning of Hitches. [DEDUCED: assumption 119] -/
def State.endJobBase (s : State) (sub status : Nat) : State :=
  match s.job? sub with
  | none => s
  | some j0 =>
    let n := j0.cord
    let running := j0.resident
    let j := if running then { j0 with residentNs := j0.residentNs + (s.time - j0.resumed) } else j0
    match s.cordCfg n with
    | none => { s with jobs := s.jobs.filter fun x => x.sub != sub }
    | some c =>
      let good := stGood status
      let s1 := if good then
          (if running then (let t := s.histCommit c j
                           if j.onHearths then t.trackWriteBack c j else t)
           else s)
        else if running || j.phase == 5 || stTornCount status then s.histDiscard c j
        else s
      let s2 := if running then j.hearths.foldl (fun t h => t.clearHearth h (stTornCount status)) s1 else s1
      let s2 := if running then s2.dropWaits c.ownerHost sub else s2
      let s3 := { s2 with
        jobs := s2.jobs.filter fun x => x.sub != sub
        ended := (sub, n) :: s2.ended
        drg := { s2.drg with queue := s2.drg.queue.filter fun q => q.sub != sub
                             granted := s2.drg.granted.filter fun q => q != sub } }
      let s4 := s3.setCordRt n { s3.cordRt n with
        records := (s3.cordRt n).records.filter fun r => r.2 != sub }
      let s4 := { s4 with saved := j.records.foldl (fun (m : SMap Hearth) r => m.drop (n * 65536 + r)) s4.saved }
      let s5 := if j.firstStart.isSome || j.slot.isSome || s.drg.granted.contains sub then s4.refund c j else s4
      let s6 := s5.countJob n j.host (if stTornCount status then 2 else 1)
      let s7 := s6.putSessLe c j.session 0xC0 8 (s6.sessLe c j.session 0xC0 8 + 1)
      let link := j.chainLink status
      let s7 := { s7 with jobs := s7.jobs.map fun (q : Job) => if q.cord == n && q.prev == sub then
        { q with chain := some link
                 usedNj := if j.slot.isSome && q.slot = j.slot then q.usedNj + j.usedNj else q.usedNj } else q }
      let r := s7.sess j.session
      let s8 := s7.setSess j.session { r with
        last := if s7.sessLe c j.session 0xC8 4 = sub then some link else r.last
        fillHearths := if j.kind = 6 && j.hearths != [] then j.hearths else r.fillHearths }
      let s9 := s8.complete n sub j status ((if j.demoted then 2 else 0) + (if j.preempts = 0 then 0 else 4))
      let s9 := if j.intake.failures = [] then s9 else s9.eventCordBlock n 0x0C02 j.intake.failures.length
      let s10 := if j.feedFrame && (status == 0 || status == 1) then s9.feedFrame c j.session else s9
      let s11 := s10.slotJobEnded c j status
      let s12 := if stRetires status && j.doneEn then s11.hitchSignal j.doneHitch 1 else s11
      (s12.checkHold c).finishClose n j.session

/-- The job whose core, window unit or Splice engine an agent is. -/
def State.agentJob (s : State) : Agent → Option Nat
  | .core h _ => (s.hearth h).job
  | .window h _ => (s.hearth h).job
  | .splice h => (s.hearth h).job
  | .binner sub => some sub
  | .dispatch sub => some sub
  | _ => none

/-- Poison a Hitch (R429): waiters' jobs and queued jobs whose start wait names it end with POISONED. -/
def State.poisonHitch (s : State) (k : Nat) : State :=
  let h := s.hitch k
  let (h1, as) := h.poisoned
  let s1 := s.setHitch k h1
  let s2 := if h.poison then s1
    else (match s.cordOfHitch k with
          | some c => s1.eventCord c 0x0F02 0x00 k
          | none => s1)
  let starts := (s2.jobs.filter fun j => j.phase == 0 && j.startEn && !j.waitOk && j.startHitch == k).map
    Job.sub
  ((as.filterMap s2.agentJob) ++ starts).eraseDups.foldl (fun t sub => t.endJobBase sub stPoisoned) s2

/-- End a job (R415, R417, R419): TORN_DOWN_FAULT and ABORTED poison `done_hitch` and the Hitches that the
job signalled. -/
def State.endJob (s : State) (sub status : Nat) : State :=
  match s.job? sub with
  | none => s
  | some j =>
    let s1 := s.endJobBase sub status
    if status = stTorn ∨ status = stAborted then
      ((if j.doneEn then [j.doneHitch] else []) ++ j.signalled).foldl State.poisonHitch s1
    else s1

/-- The time for which a resident job's budget timer has run (R414, R416). -/
def Job.budgetUsed (j : Job) (time : Nat) : Nat := j.residentNs + (time - j.resumed)

/-- The status of a job that retires with its work done (R416, R419). -/
def Job.doneStatus (j : Job) (time : Nat) : Nat :=
  if j.aborting then stAborted
  else if j.lc && (j.demoted || decide (j.budgetNs < j.budgetUsed time) || decide (j.deadline < time)) then stDeadlineMiss
  else stOk

/-- A job reaches its retirement point (R415). -/
def State.retireJob (s : State) (sub : Nat) : State :=
  match s.job? sub with
  | some j => s.endJob sub (j.doneStatus s.time)
  | none => s

/-- `be_slice_us` in ns (R32). -/
def State.sliceNs (s : State) : Nat :=
  match s.lay with
  | some l => (if l.beSlice = 0 then 2000 else l.beSlice) * 1000
  | none => 2000000

/-- The jobs of a chain whose slot is late go on as best-effort (R266); one that has not started keeps the grant of its
chain. -/
def State.demoteLate (s : State) : State :=
  let late := (s.slots.filter fun x => decide (x.deadline < s.time) && x.chain.isNone && !x.committed).flatMap SlotRt.subs
  let hit := s.jobs.filter fun j => j.inLc && late.contains j.sub
  hit.foldl (fun t j =>
    let left := t.sliceNs
    let u := t.modJob j.sub fun x => { x with
      demoted := true, asked := true, sliceStart := t.time, sliceLeft := left }
    let v : State := if j.firstStart.isNone then { u with drg := { u.drg with granted := j.sub :: u.drg.granted } } else u
    match v.cordCfg j.cord with
    | some c => v.checkHold c
    | none => v) s

/-- Whether a job's engine may go on: the job runs, or it stops and is not at a pre-emption point (R409). -/
def Job.mayWork (j : Job) (boundary : Bool) : Bool := j.phase == 2 || (j.phase == 3 && !boundary)

/-- A commit of panel port p with content marks is performed (R266): the slots whose chain has ended well, or whose
own chain's job `sub` commits and ends with `st`, complete with its sequence number. -/
def State.slotCommit (s : State) (p content seq sub st : Nat) : State :=
  let hit (x : SlotRt) : Bool := !x.committed && (x.chain.isSome || x.subs.contains sub) && (match x.panel with
    | some (q, r) => q == p && content.testBit r
    | none => false)
  (s.slots.filter hit).foldl (fun t x =>
    match t.cordCfg x.cord with
    | none => t
    | some c =>
      let u := t.slotDone c x (x.chain.getD st) seq
      if x.chain.isSome then u else { u with slots := { x with committed := true } :: u.slots }) s

/-- The job of a Hearth is torn down by a fault (R417). -/
def State.tearHearth (s : State) (h : Nat) : State :=
  match (s.hearth h).job with
  | some sub => s.endJob sub stTorn
  | none => s

end Sys2Proof.Machine
end

