-- ==== Sys2Proof/Machine/Admit.lean ====
section
/-! DEFINITION. Sessions and submissions (R80, R254, R255, R394 to R403): data-port binding, open and close,
the admission checks and the job of an accepted submission. -/

namespace Sys2Proof.Machine

/-! ### Data ports (R80) -/

/-- `DP_STATUS.LEVEL`: free words of an inbound ring, held words of an outbound one. -/
def DataPort.level (p : DataPort) : Nat := if p.outbound then p.held else p.size - p.held

/-- Queue DATA_PORT_LEVEL where LEVEL has risen from below `DP_THRESH` to it or above. -/
def State.levelEvent (s : State) (d p old : Nat) : State :=
  let th := (s.reg (regKey d (0x10000 + p * 256 + 8))).toNat % 2 ^ 24
  if th ≠ 0 ∧ old < th ∧ th ≤ (s.port d p).level then s.event d 0x0101 0x01 p else s

/-- Bind a port to a session's ring; binding counts as a rise of LEVEL from 0. [DEDUCED: assumption 65] -/
def State.bindPort (s : State) (c : CordCfg) (i p : Nat) (out : Bool) (base size : Nat) : State :=
  (s.setPort c.ownerHost p { bound := true, outbound := out, cord := c.cord, session := i, base := base,
                             size := size }).levelEvent c.ownerHost p 0

/-! ### Session descriptors (R394, R254, R255) -/

/-- (port, outbound, ring base, ring words) of each enabled port of a session descriptor. -/
def State.sessPorts (s : State) (c : CordCfg) (i : Nat) : List (Nat × Bool × Nat × Nat) :=
  let p := s.sessLe c i 2 2
  (if p.testBit 8 then [(p % 16, false, s.sessLe c i 8 8, s.sessLe c i 4 4)] else []) ++
  (if p.testBit 9 then [(p / 16 % 16, true, s.sessLe c i 0x18 8, s.sessLe c i 0x10 4)] else [])

/-- The timing entry of a model for a mode, a scale and a Hearth count (R48). -/
def ModelCfg.entry (m : ModelCfg) (mode scale h : Nat) : Option Timing :=
  m.timing.find? fun t => t.mode == mode && t.scale == scale && t.hearths == h

/-- Whether a byte of a preference list is well formed: mode 0 to 4, a U scale code exactly on U. [DEDUCED: assumption
95] -/
def prefOk (b : Nat) : Bool :=
  let mode := b % 8
  let scale := b / 16 % 8
  decide (mode ≤ 4) && !b.testBit 3 && !b.testBit 7 && decide (scale ≤ 4) && ((mode == 2) == decide (scale ≠ 0))

/-- The entries of a preference list, up to the first 0 (R254). -/
def State.prefs (s : State) (c : CordCfg) (i : Nat) : List Nat :=
  ((List.range 4).map fun j => s.sessLe c i (0x84 + j) 1).takeWhile fun b => b % 8 != 0

/-- Whether the fill entry of a session is within range (R254, R255). [DEDUCED: assumption 96] -/
def State.fillEntryOk (s : State) (c : CordCfg) (i : Nat) : Bool :=
  let f (o n : Nat) := s.sessLe c i (0x80 + o) n
  let kind := f 0 1
  if kind = 0 then true
  else
    let src := f 1 1
    let tgt := f 2 2
    let cfg := f 9 1
    let prefs := s.prefs c i
    let stretches := s.sessLe c i 0x44 2
    let ports := s.sessLe c i 2 2
    decide (kind ≤ 3) && decide (src ≤ 1) && f 11 1 == 0 && decide (cfg < 32) && decide (tgt < 256) &&
    decide (1 ≤ f 8 1) && decide (f 8 1 ≤ 7) &&
    (if kind = 1 then decide (1 ≤ f 10 1) && decide (f 10 1 ≤ 16) && f 28 4 == 0 && f 32 8 == 0 &&
        decide (tgt % 16 < 2) && s.unitOwner (13 + tgt % 16) == c.cord && f 40 4 == 0
     else if kind = 2 then f 10 1 == 0 && decide (tgt < 16) && f 40 4 == 0 && ports.testBit 9 &&
        ports / 16 % 16 == tgt && decide (f 28 4 ≠ 0)
     else f 10 1 == 0 && tgt == 0 && c.hasSession (f 40 4) && f 40 4 != i && s.sessLe c (f 40 4) 0x81 1 == 1 &&
       decide (f 28 4 ≠ 0)) &&
    !(cfg.testBit 0 && src == 1) && decide (2 ≤ cfg / 2 % 8) && decide (cfg / 2 % 8 ≤ 4) &&
    (if src = 1 then f 16 4 == 0xFFFFFFFF
     else match s.model c.cord (f 16 4) with
      | some m => m.cls == 2
      | none => false) &&
    !prefs.isEmpty && (List.range 4).all (fun j => prefOk (f (4 + j) 1)) && decide (prefs.Nodup) &&
    prefs.all fun b => match s.model c.cord (f 12 4) with
      | some m => (m.entry (b % 8) (b / 16 % 8) stretches).isSome
      | none => false

/-- Whether the host's fields of a session descriptor are within range (R395 RANGE). -/
def State.sessFieldsOk (s : State) (c : CordCfg) (i : Nat) : Bool :=
  let f (o n : Nat) := s.sessLe c i o n
  let st := f 0x44 2
  let m := (s.members c.cord).length
  let ports := s.sessPorts c i
  f 1 1 == 0 && decide (f 2 2 < 1024) && f 0x14 4 == 0 && f 0x2C 20 == 0 && f 0xCC 52 == 0 &&
  ports.all (fun (_, _, base, words) => decide (16 ≤ words) && decide (words < 2 ^ 24) && base % 64 == 0 &&
    decide (base + 4 * words ≤ c.size)) &&
  (match ports with
   | [a, b] => a.1 != b.1
   | _ => true) &&
  f 0x20 8 % 64 == 0 && f 0x28 4 % 32 == 0 &&
  decide (f 0x20 8 + (if st = 0 then m else st) * f 0x28 4 ≤ c.size) && decide (st ≤ m) &&
  (f 0x60 32 == 0 || (f 0x70 16 == 0 && decide (1 ≤ f 0x68 4) && decide (f 0x68 4 ≤ 268435456) &&
    decide (1 ≤ f 0x6C 4) && decide (f 0x6C 4 ≤ 1073741824))) &&
  s.fillEntryOk c i

/-- History blocks held by the open sessions of a Cord (R223). -/
def State.blocksHeld (s : State) (c : CordCfg) : List Nat :=
  ((List.range c.sessionCount).filter fun k => s.sessLe c (c.sessionBase + k) 0 1 != 0).map fun k =>
    s.sessLe c (c.sessionBase + k) 0x40 4

/-- The lowest-numbered free history block. -/
def State.freeBlock (s : State) (c : CordCfg) : Option Nat :=
  let held := s.blocksHeld c
  (List.range c.blocks).find? fun b => !held.contains b

/-- The result word of an open or a close (R395). -/
def State.sessResult (s : State) (n i r : Nat) : State :=
  s.setCordRt n { s.cordRt n with sessResult := BitVec.ofNat 32 (i + r * 2 ^ 24) }

/-- Zero the fields that the YN960 writes, but `stretches`, and give the session its block (R395). -/
def State.clearSession (s : State) (c : CordCfg) (i block : Nat) : State :=
  ((((s.putSessLe c i 0x40 4 block).putSessLe c i 0x46 26 0).putSessLe c i (0x80 + 44) 20 0).putSessLe
    c i 0xC0 12 0).putSessLe c i 0 1 1

/-- DISP_SESS_OPEN (R395). [DESIGN CHOICE: assumption 93; DEDUCED: assumption 94] -/
def State.openSession (s : State) (c : CordCfg) (i : Nat) : State :=
  let n := c.cord
  let ports := s.sessPorts c i
  if !c.hasSession i || !s.sessFieldsOk c i then s.sessResult n i 1
  else if s.sessLe c i 0 1 ≠ 0 then s.sessResult n i 2
  else if ports.any fun p => (s.port c.ownerHost p.1).bound then s.sessResult n i 3
  else if c.scaleBytes < s.sessLe c i 0x28 4 then s.sessResult n i 4
  else
    let need := decide (s.sessLe c i 0x44 2 ≠ 0)
    match (if need then s.freeBlock c else some 0xFFFFFFFF) with
    | none => (s.sessResult n i 4).eventCordBlock n 0x0802 i
    | some b =>
      let s1 := s.clearSession c i b
      let s2 := ports.foldl (fun t (p, out, base, words) => t.bindPort c i p out base words) s1
      (s2.setSess i { opened := s2.time }).sessResult n i 0

/-! ### Jobs from descriptors (R398) -/

/-- The job that 64 descriptor bytes spell. -/
def readJob (n host : Nat) (lc : Bool) (bs : List Byte) : Job :=
  let f (o k : Nat) : Nat := leNat ((bs.drop o).take k)
  { sub := 0, cord := n, host := host, lc := lc, kind := f 0 1, flags := f 1 1, nHearths := f 2 1
    histFlags := f 3 1, session := f 4 4 % 2 ^ 20, modelId := f 8 4, entry0 := f 12 2, entry1 := f 14 2
    arg0 := BitVec.ofNat 32 (f 16 4), arg1 := BitVec.ofNat 32 (f 20 4), deadline := f 24 8, budgetNs := f 32 4
    wcNs := f 36 4, energyUj := f 40 4, npBoundUs := f 44 2, rows := f 46 2, tag := BitVec.ofNat 32 (f 48 4)
    startHitch := f 52 2, startCount := f 54 2, doneHitch := f 56 2 }

/-- The fill entry's model fields apply when the session has a fill entry. -/
def State.hasFill (s : State) (c : CordCfg) (i : Nat) : Bool := s.sessLe c i 0x80 1 != 0

/-- The model that a job on Hearths uses (R398), as a model_id. -/
def State.jobModelId (s : State) (c : CordCfg) (j : Job) : Nat :=
  if j.kind = 6 then s.sessLe c j.session (0x80 + 12) 4
  else if j.kind = 2 ∧ s.hasFill c j.session then s.sessLe c j.session (0x80 + 16) 4
  else j.modelId

def State.jobModel (s : State) (c : CordCfg) (j : Job) : Option ModelCfg := s.model c.cord (s.jobModelId c j)

/-- The first admission check: reserved fields, ranges, entries, Hitches and history flags (R201, R237, R398). -/
def State.descriptorOk (s : State) (c : CordCfg) (j : Job) (bs : List Byte) : Bool :=
  let hk := j.onHearths
  let st := if c.hasSession j.session then s.sessLe c j.session 0x44 2 else 0
  let model := s.jobModel c j
  let sigs := match model with
    | some m => m.sigs.2 / 8
    | none => 0
  let entryOk (e : Nat) : Bool := e == 0xFFFF || decide (e < sigs)
  decide (1 ≤ j.kind) && decide (j.kind ≤ 8) && decide (j.flags < 16) &&
  decide (leNat ((bs.drop 4).take 4) < 2 ^ 20) && leNat ((bs.drop 58).take 6) == 0 &&
  (if hk then decide (1 ≤ j.nHearths) && decide (j.nHearths ≤ c.memberCount) && (st == 0 || j.nHearths == st)
   else j.nHearths == 0) &&
  (if j.kind = 1 ∨ j.kind = 6 then decide (j.histFlags < 16) && (j.ingest || decide (j.histFlags < 2))
   else j.histFlags == 0) &&
  (if j.kind = 1 ∨ (j.kind = 2 ∧ !s.hasFill c j.session) then model.isSome else j.modelId == 0) &&
  (if hk then entryOk j.entry0 && entryOk j.entry1 else j.entry0 == 0 && j.entry1 == 0) &&
  (if j.lc then decide (j.budgetNs ≠ 0) else j.deadline == 0 && j.budgetNs == 0) &&
  (!hk || (j.wcNs == 0 && j.energyUj == 0)) &&
  (if j.kind = 2 ∨ j.kind = 3 then decide (j.npBoundUs ≠ 0) else j.npBoundUs == 0) &&
  (if hk then decide (j.rows ≠ 0) else j.rows == 0) &&
  (if j.startEn then decide (j.startCount ≠ 0) && s.hitchIn c.cord j.startHitch else j.startCount == 0) &&
  (!j.doneEn || s.hitchIn c.cord j.doneHitch)

/-- The units that a kind needs at least one of (R401, R35). -/
def kindUnits (kind : Nat) : List Nat :=
  if kind = 2 then [0, 1, 2, 3]
  else if kind = 4 then [4, 5, 6, 7, 8, 9, 10, 11]
  else if kind = 5 then [12]
  else if kind = 7 then [13, 14]
  else if kind = 3 then [15, 16, 17, 18, 19]
  else []

/-- The ways that a Cord still has (R445, R484). -/
def State.waysOf (s : State) (c : CordCfg) : List Nat :=
  (List.range 16).filter fun w => c.ways.getLsbD w && !s.flt.retiredWays.contains w

/-- Whether a model's spill image fits the spill window: images in ascending index at 64 KiB steps (R244). -/
def State.spillFits (s : State) (c : CordCfg) (m : ModelCfg) : Bool :=
  if m.need ≤ c.weightShare then true
  else if s.waysOf c = [] then false
  else
    let earlier : List ModelCfg := match s.lay with
      | some l => l.models.filter fun (x : ModelCfg) => x.cord == c.cord && decide (x.index < m.index) &&
          decide (c.weightShare < x.need)
      | none => []
    let start := earlier.foldl (fun a (x : ModelCfg) => a + (x.need - c.weightShare + 65535) / 65536 * 65536) 0
    decide (start + (m.need - c.weightShare) ≤ c.regionSize 5)

/-- Mode and scale of the timing entry that a job uses (R245, R264, R398). -/
def Job.modeScale (j : Job) : Nat × Nat :=
  if j.kind = 6 then (j.arg0.toNat % 8, j.arg0.toNat / 16 % 8) else (0, 0)

/-- 100 × the host link's rate in GB/s (R65); 0 while it is down. -/
def linkRate (r : Nat) : Nat :=
  if r = 1 then 4 else if r = 2 then 40 else if r = 3 then 80 else if r = 4 then 100
  else if r = 5 then 200 else 0

/-- A COPY into the session's outbound ring (R400). -/
def State.copiesToRing (s : State) (c : CordCfg) (j : Job) : Bool :=
  j.kind == 8 && s.cordLe c (j.arg0.toNat + j.arg1.toNat * 2 ^ 32 + 1) 1 == 3

/-- t_adm and the energy in nJ of a job (R245, R401), `none` where no usable figure exists (R246). [DEDUCED: assumption
115] -/
def State.admFigures (s : State) (c : CordCfg) (j : Job) : Option (Nat × Nat) :=
  if j.onHearths then
    match s.jobModel c j with
    | some m =>
      let (mode, scale) := j.modeScale
      match m.entry mode scale j.nHearths with
      | some t =>
        if t.wcNs = 2 ^ 64 - 1 ∨ !s.spillFits c m ∨ (s.members c.cord).length < j.nHearths then none
        else some (t.wcNs + (if c.weightShare < m.need then t.spillNs * (if j.ingest then 64 else 1) else 0),
                   t.energy)
      | none => none
    | none => none
  else if j.lc && s.copiesToRing c j then
    let r := linkRate (s.host c.ownerHost).rate
    if r = 0 then none else some ((j.wcNs * 200 + r - 1) / r, j.energyUj * 1000)
  else some (j.wcNs, j.energyUj * 1000)

/-- The fit check (REFUSED_FIT): the session's Hearth count (R246), its track block in the scale area (R136), and the
times of R401. -/
def State.fits (s : State) (c : CordCfg) (j : Job) : Bool :=
  decide (s.sessLe c j.session 0x44 2 ≤ (s.members c.cord).length) &&
  (!j.onHearths || decide (s.sessLe c j.session 0x28 4 ≤ c.scaleBytes)) &&
  (match s.admFigures c j with
   | some (t, _) => !j.lc || (decide (t ≤ j.budgetNs) && decide (s.time + t ≤ j.deadline))
   | none => false)

/-- The budget check of R401 (BUDGET_REFUSED): energy in nJ against mW × ns in pJ. -/
def State.budgetFits (s : State) (c : CordCfg) (j : Job) : Bool :=
  match s.admFigures c j with
  | some (_, e) => !j.lc || decide (e * 1000 ≤ c.reserveMw * j.budgetNs)
  | none => false

/-- Jobs in a queue. -/
def State.depth (s : State) (n : Nat) (lc : Bool) : Nat :=
  (s.jobs.filter fun j => j.cord == n && j.inLc == lc && j.queued).length

/-- The status that admission gives a submission (R401) behind `ahead` others of its chain, `none` where it is accepted.
[DEDUCED: assumption 113] -/
def State.admissionBehind (s : State) (c : CordCfg) (j : Job) (bs : List Byte) (ahead : Nat) : Option Nat :=
  if !s.descriptorOk c j bs then some 0x8C
  else if kindUnits j.kind ≠ [] ∧ !(kindUnits j.kind).any (s.unitUsable c.cord) then some 0x0A
  else if !c.hasSession j.session || s.sessLe c j.session 0 1 ≠ 1 then some 0x8E
  else if 4096 ≤ s.depth c.cord j.lc + ahead then some 0x8D
  else if !s.fits c j then some 0x05
  else if !s.budgetFits c j then some 0x0B
  else none

/-- The status that admission gives a submission of its own (R401). -/
def State.admission (s : State) (c : CordCfg) (j : Job) (bs : List Byte) : Option Nat := s.admissionBehind c j bs 0

/-- Entries of the session cache (R34, R484). -/
def State.scEntries (s : State) : Nat :=
  let n := ((List.range 16).filter fun w => s.flt.retiredWays.contains w && (match s.lay with
    | some l => l.scWays.getLsbD w
    | none => false)).length
  if n = 0 then 8192 else 2816 * (3 - n)

/-- The session cache takes a descriptor (R397): a hit, a miss that evicts the least recently used unpinned
entry, or nothing where every entry is pinned. -/
def State.cacheSession (s : State) (i : Nat) : State :=
  if s.sessCache.contains i then
    ({ s with sessCache := i :: s.sessCache.filter fun x => x != i } : State).bump 0x210000 1
  else
    let pinned (x : Nat) : Bool := s.jobs.any fun j => j.session == x
    let keep := if s.sessCache.length < s.scEntries then some s.sessCache
      else (s.sessCache.reverse.find? fun x => !pinned x).map fun x => s.sessCache.filter fun y => y != x
    match keep with
    | some l => ({ s with sessCache := i :: l } : State).bump 0x210004 1
    | none => s

/-- Whether an apply has stopped a Cord's submissions (R58). [DESIGN CHOICE: assumption 51] -/
def State.draining (s : State) (n : Nat) : Bool :=
  (s.loader.state == 4 || s.loader.state == 5) && s.loader.affected.getLsbD n

/-- The first try of a start wait (R398, R426); a poisoned start Hitch ends the job (R429). -/
def State.startWait (s : State) (j : Job) : State :=
  if !j.startEn then s.modJob j.sub fun x => { x with waitOk := true }
  else if (s.hitch j.startHitch).poison then s.endJob j.sub stPoisoned
  else
    let (h, ok) := (s.hitch j.startHitch).tryWait j.startCount
    if ok then (s.setHitch j.startHitch h).modJob j.sub fun x => { x with waitOk := true } else s

/-- Accept a job (R402): its number, counts, descriptor fields and queue position. -/
def State.accept (s : State) (c : CordCfg) (j : Job) : State :=
  let sub := s.nextSub
  let e := ((s.admFigures c j).map Prod.snd).getD 0
  let prev : Nat := s.sessLe c j.session 0xC8 4
  let chain := if prev = 0 ∨ (s.job? prev).isSome then none else (s.sess j.session).last
  let j1 := { j with sub := sub, energyNj := e, prev := prev, chain := chain }
  let s1 := { s with nextSub := if sub = 2 ^ 32 - 1 then 1 else sub + 1, jobs := s.jobs ++ [j1] }
  (((s1.countJob c.cord c.ownerHost 0).putSessLe c j.session 0xC8 4 sub).cacheSession j.session).startWait j1

/-- An ingestion job has the class that its model gives, whichever window it came through (R240). [DEDUCED: assumption
222] -/
def State.classOf (s : State) (c : CordCfg) (j : Job) : Job :=
  if (j.kind = 1 ∨ j.kind = 6) ∧ j.ingest then
    match s.jobModel c j with
    | some m => { j with lc := m.flags.testBit 0 }
    | none => j
  else j

/-- Submit a descriptor to a queue (R401). Answers the number of the accepted job. -/
def State.submit (s : State) (c : CordCfg) (lc : Bool) (bs : List Byte) : State × Option Nat :=
  if s.draining c.cord then (s, none)
  else
    let j := s.classOf c (readJob c.cord c.ownerHost lc bs)
    match s.admission c j bs with
    | some st => (s.complete c.cord 0 j st 1, none)
    | none => (s.accept c j, some s.nextSub)

/-- Repeat the LC fit check of a Cord's queued jobs that have not started (R403). -/
def State.recheckFit (s : State) (n : Nat) (only : Job → Bool) : State :=
  match s.cordCfg n with
  | none => s
  | some c =>
    (s.jobs.filter fun j => j.cord == n && j.lc && j.phase == 0 && only j).foldl (fun t j =>
      if t.fits c j then t else t.endJob j.sub stRefusedFit) s

/-- DISP_SESS_CLOSE (R396). -/
def State.closeSession (s : State) (c : CordCfg) (i : Nat) : State :=
  let n := c.cord
  if !c.hasSession i || s.sessLe c i 0 1 ≠ 1 then s.sessResult n i 5
  else
    let s1 := (s.sessResult n i 0).putSessLe c i 0 1 2
    let s2 := (s1.jobs.filter fun j => j.cord == n && j.session == i && j.queued).foldl
      (fun t j => t.endJob j.sub 0x8E) s1
    s2.finishClose n i

end Sys2Proof.Machine
end

