-- ==== Sys2Proof/Machine/Service.lean ====
section
/-! DEFINITION. Service states of the physical Hearths (R472 to R475, R478, R481, R482): spares, suspected faults,
quarantine and stand-ins. -/

namespace Sys2Proof.Machine

/-- The Lay role of a logical Hearth: 0 ordinary, 1 spare, 2 reserved or none (R32). -/
def State.roleOf (s : State) (h : Nat) : Nat :=
  match s.lay with
  | some l => l.roles.getD h 2
  | none => 2

/-- Whether a logical Hearth is powered off, with its banks: the active Lay reserves it (R33, R440). -/
def State.poweredOff (s : State) (h : Nat) : Bool := s.lay.isSome && s.roleOf h == 2

/-- Whether physical Hearth `p` is under a structural test (R476, R479, R481). -/
def State.underTest (s : State) (p : Nat) : Bool :=
  (match s.flt.slot with
   | some sl => sl.hearth == p
   | none => false) || s.flt.alone.any fun e => e.1 == p

/-- Whether a migration holds the job of logical Hearth `h`: its state is being copied (R476, R477). [DEDUCED:
assumption 192] -/
def State.paused (s : State) (h : Nat) : Bool :=
  match s.flt.slot with
  | some sl => (sl.phase == 0 || (sl.phase == 2 && decide (sl.start + 1780000 ≤ s.time))) && sl.moved.map Prod.fst == some h
  | none => false

/-- The available spares: IN_SERVICE, past their start-up test, hosting no other logical Hearth and not under
test (R476, R482). -/
def State.spares (s : State) : List Nat :=
  (List.range 48).filter fun p =>
    (s.phy p).service == 0 && (s.phy p).started && !s.underTest p &&
    (match s.logicalOf p with
     | some h => s.roleOf h == 1
     | none => false)

/-! ### CLK_A dividers (R20, R21, R461) -/

/-- The divider imposed on physical Hearth `p` (R461): the governor's choice, or ÷16. -/
def State.imposed (s : State) (p : Nat) : Nat :=
  if s.pwr.holdSince.isSome || s.drg.limit || s.drg.clampSince.isSome then 16 else (s.phy p).gov

/-- Request the divider that is imposed on physical Hearth `p`; DIVIDER_CHANGE puts it in force (R21). -/
def State.askDivider (s : State) (p : Nat) : State :=
  let v := s.phy p
  let d := s.imposed p
  s.setPhy p { v with divReq := if d = v.div then none else some d }

/-- Request the imposed dividers of every Hearth. -/
def State.askDividers (s : State) : State := (List.range 48).foldl State.askDivider s

/-- A logical Hearth that is given a job takes the divider of its class (R463). -/
def State.takeDivider (s : State) (h : Nat) (lc : Bool) : State :=
  let p := s.physOf h
  let v := s.phy p
  (s.setPhy p { v with gov := if lc then 8 else s.drg.beDiv }).askDivider p

/-- An event of physical Hearth `p`: to the owner host, and to the owner host of the Cord of the logical
Hearth it hosts (R491). -/
def State.hearthEvent (s : State) (p code arg : Nat) : State :=
  let s1 := s.eventOwner code 0x28 arg
  match (s.logicalOf p).bind fun h => s.lay.bind fun l => l.cords.find? fun (c : CordCfg) => c.hearths.getLsbD h with
  | some c => if c.ownerHost = s.owner then s1 else s1.event c.ownerHost code 0x28 arg
  | none => s1

/-- Move a physical Hearth to a service state: HEARTH_STATE is logged (R489), and a move to IN_SERVICE clears
the FAULTED bits (R473). -/
def State.setHearthState (s : State) (p new : Nat) : State :=
  let v := s.phy p
  let h := (s.logicalOf p).getD p
  let s1 := s.logFault (originHearth p) 0x04 (p + h * 256) v.service new
  let lost : SMap Nat := ([0, 1, 2, 3] : List Nat).map fun k => (k, 2)
  let s2 := s1.setPhy p { v with service := new, kilns := if new = 3 then lost else v.kilns
                                 testing := if new = 3 then 0 else v.testing }
  if new = 0 then
    let w := s2.hearth h
    let kilns := ([0, 1, 2, 3] : List Nat).foldl
      (fun (m : SMap Kiln) k => m.modify (fun _ => {}) k fun x => { x with faulted := false }) w.kilns
    let cores := ([0, 1] : List Nat).foldl
      (fun (m : SMap Core) k => m.modify (fun _ => {}) k fun x => { x with faulted := false }) w.cores
    s2.setHearth h { w with kilns := kilns, cores := cores }
  else s2

/-- SPARES_EXHAUSTED is queued when the last available spare goes (R491). -/
def State.spareGone (s : State) (had : Bool) : State :=
  if had && s.spares.isEmpty then s.eventOwner 0x1108 0x28 0 else s

/-- Exchange the places of two logical Hearths (R472). -/
def State.swapPlaces (s : State) (a b : Nat) : State :=
  let pa := s.physOf a
  let pb := s.physOf b
  { s with place := (s.place.put id a pb).put id b pa }

/-- A spare takes over a logical Hearth for good: STAND_IN is logged and queued (R482, R489). The contents of
the quarantined Hearth stay with it, and the tag of the new one names nothing (R217). -/
def State.standIn (s : State) (p h q : Nat) : State :=
  let spare := (s.logicalOf q).getD q
  let a := s.hearth h
  let b := s.hearth spare
  let s1 := (s.setHearth h { b with tag := none }).setHearth spare a
  ((s1.swapPlaces h spare).logFault (originHearth p) 0x05 p h q).hearthEvent q 0x1104 (p + q * 256)

/-- End the saved jobs whose context a logical Hearth holds (R411). -/
def State.endSaved (s : State) (h : Nat) : State :=
  (s.jobs.filter fun j => j.phase == 5 && j.hearths.contains h).foldl (fun t j => t.endJob j.sub stTorn) s

/-- Quarantine physical Hearth `p` (R482): its job is torn down, and a spare stands in, or its Cord shrinks. [DEDUCED:
assumption 193] -/
def State.quarantine (s : State) (p : Nat) : State :=
  if (s.phy p).service = 3 then s
  else
    let had := !s.spares.isEmpty
    let h := (s.logicalOf p).getD p
    let s1 := (s.tearHearth h).endSaved h
    let s2 := (s1.setHearthState p 3).hearthEvent p 0x1102 p
    if s.roleOf h = 0 then
      match s2.spares.head? with
      | some q => (s2.standIn p h q).spareGone had
      | none =>
        let s3 := s2.setService 0
        match s.cordOfHearth h with
        | some n => s3.recheckFit n fun j => j.onHearths
        | none => s3
    else s2.spareGone had

/-- One hour of device time. -/
def hourNs : Nat := 3600000000000

/-- Whether physical Hearth `p` hosts the migrated logical Hearth `h` in the rotation slot in progress (R476). -/
def State.hosting (s : State) (h p : Nat) : Bool :=
  match s.flt.slot with
  | some sl => decide (sl.moved = some (h, p))
  | none => false

/-- A suspected fault of part `part` of logical Hearth `h` (R481): 0 to 3 a Kiln, 4 and 5 a core, 6 the
divider. A second one in the same part within an hour quarantines the Hearth. A Kiln fault makes the Hearth
RECOVERING, but the host spare of a migrated job SUSPECT, as every fault there does (R478). -/
def State.suspect (s : State) (h part : Nat) : State :=
  let p := s.physOf h
  let v := s.phy p
  let again := v.suspects.any fun e => e.1 == part && decide (s.time ≤ e.2 + hourNs)
  let s1 := s.setPhy p { v with suspects := (part, s.time) :: v.suspects }
  if again then s1.quarantine p
  else
    let w := s1.phy p
    let s2 := if part < 4 then s1.setPhy p { w with kilns := w.kilns.put (fun _ => 0) part 2 } else s1
    if part < 4 ∧ s1.hosting h p = false then (if w.service = 1 then s2 else s2.setHearthState p 1)
    else if v.service = 2 then s2
    else (s2.setHearthState p 2).hearthEvent p 0x1101 p

end Sys2Proof.Machine
end

