-- ==== Sys2Proof/WellFormed.lean ====
section
/-! DEFINITION. Which commands name units that the module has (chapters 1, 3, 13, 15 and 20): the numbers of Hearths,
cores, Kilns, host domains, ports, Cords, Hitches, channels, links, clocks and output lands. -/

namespace Sys2Proof

/-- Hearths 0 to 47 (R11). -/
def hearthOk (h : Nat) : Bool := decide (h < 48)
/-- Kindling cores C0 and C1 of a Hearth (R11). -/
def coreOk (h c : Nat) : Bool := decide (h < 48) && decide (c < 2)
/-- Kilns K0 to K3 of a Hearth (R11). -/
def kilnOk (h k : Nat) : Bool := decide (h < 48) && decide (k < 4)
/-- Host domains 0 to 3, one for each USB port (R62). -/
def hostOk (d : Nat) : Bool := decide (d < 4)
/-- Data ports 0 to 15 of a host domain (R80). -/
def portOk (d p : Nat) : Bool := decide (d < 4) && decide (p < 16)
/-- Panel ports P0 and P1 (R366). -/
def panelOk (p : Nat) : Bool := decide (p < 2)
/-- Cord numbers 0 to 15 (R37). -/
def cordOk (n : Nat) : Bool := decide (n < 16)
/-- The 65,536 Hitches (R425). -/
def hitchOk (k : Nat) : Bool := decide (k < 65536)
/-- The 32 DRAM channels (R14). -/
def channelOk (ch : Nat) : Bool := decide (ch < 32)
/-- Link codes (R489): n for the link east of Hearth n, 0x100 + n for the link south of it, 0x200 + i for
the link of edge stop i. -/
def linkOk (l : Nat) : Bool :=
  (decide (l < 48) && decide (l % 8 < 7)) || (decide (0x100 ≤ l) && decide (l < 0x128)) ||
    (decide (0x200 ≤ l) && decide (l < 0x21C))
/-- Nodes of the Braid: physical Hearths, and 48 + i for edge stop i. -/
def nodeOk (x : Nat) : Bool := decide (x < 76)
/-- A flit of a direction and nodes that exist. -/
def flitOk (f : Flit) : Bool := decide (f.dir < 2) && nodeOk f.src && nodeOk f.dst
/-- Clock codes (R489). -/
def clockOk (k : Nat) : Bool := decide (k < 8) || (decide (0x100 ≤ k) && decide (k < 0x130))
/-- Output lands as group code and signal index (R529, R539): PANEL_RST_N and PANEL_PWR_EN of each port,
SYNC_OUT, SVC_REQ_N and ALERT_N. -/
def outputOk (g i : Nat) : Bool :=
  ((g == 0x20 || g == 0x21) && (i == 6 || i == 7)) || (g == 0x30 && i == 1) || (g == 0x31 && decide (i < 2))
/-- An agent that exists. -/
def agentOk : Agent → Bool
  | .core h c => coreOk h c
  | .window h side => hearthOk h && decide (side < 2)
  | .splice h => hearthOk h
  | .dispatch _ => true
  | .binner _ => true
  | .unit e => decide (e < 28)
  | .host d => hostOk d

/-- Whether every unit that a command names exists. -/
def Instr.wf : Instr → Bool
  | .powerUp => true
  | .moduleResetEnd => true
  | .fwStart => true
  | .resetNAssert => true
  | .resetNRelease => true
  | .fuseTrip => true
  | .fuseRetry _ => true
  | .vinOvervoltage => true
  | .vinOvervoltageClear => true
  | .brownoutEnter _ => true
  | .supplyRecover => true
  | .holdEnd => true
  | .supplyReset => true
  | .supplyFault rail _ _ => decide (rail < 3)
  | .clockMonitorWindow clock _ => clockOk clock
  | .pllRelock => true
  | .relockTimeout => true
  | .dividerChange h => hearthOk h
  | .flitReceive link cls f _ => linkOk link && decide (cls < 3) && flitOk f
  | .sensorSample _ _ => true
  | .draughtEpoch _ => true
  | .correctionUpdate _ => true
  | .targetPowerUpdate => true
  | .inputClamp _ => true
  | .clampRelease => true
  | .drgCap d _ => hostOk d
  | .writeInc d _ => hostOk d
  | .writeFix d _ => hostOk d
  | .readInc d _ => hostOk d
  | .readFix d _ => hostOk d
  | .set d _ => hostOk d
  | .ztClear d _ => hostOk d
  | .ztFence d _ => hostOk d
  | .fenceComplete d => hostOk d
  | .ztNop d _ _ => hostOk d
  | .tsyncExchange d _ _ => hostOk d
  | .framingError x => hostOk x.d
  | .eventTransfer d => hostOk d
  | .usbLinkUp d rate _ => hostOk d && decide (1 ≤ rate) && decide (rate ≤ 5)
  | .usbLinkDown d => hostOk d
  | .ccOpenTimeout d => hostOk d
  | .dpDataWrite d p _ => portOk d p
  | .dpDataRead d p _ => portOk d p
  | .outboundRingResume d p => portOk d p
  | .dataPortStall d p => portOk d p
  | .tsyncReset d => hostOk d
  | .registerWrite d _ _ => hostOk d
  | .readClear d _ => hostOk d
  | .loRead d _ => hostOk d
  | .setAliasWrite d _ _ => hostOk d
  | .clearAliasWrite d _ _ => hostOk d
  | .layOpen d => hostOk d
  | .layData d _ => hostOk d
  | .layVerify d => hostOk d
  | .verifyDone => true
  | .layApply d _ => hostOk d
  | .layCancel d => hostOk d
  | .layDrainTimeout => true
  | .drainEnd => true
  | .applyComplete _ => true
  | .mac h k _ => kilnOk h k
  | .merge h k _ => kilnOk h k
  | .kilnClear h k => kilnOk h k
  | .quench h _ => hearthOk h
  | .rows h => hearthOk h
  | .diag h => hearthOk h
  | .diagmax h => hearthOk h
  | .mtable h => hearthOk h
  | .regroup h => hearthOk h
  | .splice h => hearthOk h
  | .spliceAcked h _ => hearthOk h
  | .release h => hearthOk h
  | .streamOpen h stream => hearthOk h && decide (stream < 4)
  | .add h c _ _ _ => coreOk h c
  | .sub h c _ _ _ => coreOk h c
  | .and h c _ _ _ => coreOk h c
  | .or h c _ _ _ => coreOk h c
  | .xor h c _ _ _ => coreOk h c
  | .sll h c _ _ _ => coreOk h c
  | .srl h c _ _ _ => coreOk h c
  | .sra h c _ _ _ => coreOk h c
  | .slt h c _ _ _ => coreOk h c
  | .sltu h c _ _ _ => coreOk h c
  | .min h c _ _ _ => coreOk h c
  | .max h c _ _ _ => coreOk h c
  | .minu h c _ _ _ => coreOk h c
  | .maxu h c _ _ _ => coreOk h c
  | .mul h c _ _ _ => coreOk h c
  | .mulh h c _ _ _ => coreOk h c
  | .mulhu h c _ _ _ => coreOk h c
  | .div h c _ _ _ => coreOk h c
  | .divu h c _ _ _ => coreOk h c
  | .rem h c _ _ _ => coreOk h c
  | .remu h c _ _ _ => coreOk h c
  | .addi h c _ _ _ => coreOk h c
  | .andi h c _ _ _ => coreOk h c
  | .ori h c _ _ _ => coreOk h c
  | .xori h c _ _ _ => coreOk h c
  | .slli h c _ _ _ => coreOk h c
  | .srli h c _ _ _ => coreOk h c
  | .srai h c _ _ _ => coreOk h c
  | .slti h c _ _ _ => coreOk h c
  | .sltiu h c _ _ _ => coreOk h c
  | .lui h c _ _ _ => coreOk h c
  | .jalr h c _ _ _ => coreOk h c
  | .csrr h c _ _ _ => coreOk h c
  | .csrw h c _ _ _ => coreOk h c
  | .lb h c _ _ _ => coreOk h c
  | .lbu h c _ _ _ => coreOk h c
  | .lh h c _ _ _ => coreOk h c
  | .lhu h c _ _ _ => coreOk h c
  | .lw h c _ _ _ => coreOk h c
  | .lwu h c _ _ _ => coreOk h c
  | .ld h c _ _ _ => coreOk h c
  | .sb h c _ _ _ => coreOk h c
  | .sh h c _ _ _ => coreOk h c
  | .sw h c _ _ _ => coreOk h c
  | .sd h c _ _ _ => coreOk h c
  | .vld h c _ _ _ => coreOk h c
  | .vst h c _ _ _ => coreOk h c
  | .setw h c _ _ _ => coreOk h c
  | .clrw h c _ _ _ => coreOk h c
  | .beq h c _ _ _ => coreOk h c
  | .bne h c _ _ _ => coreOk h c
  | .blt h c _ _ _ => coreOk h c
  | .bge h c _ _ _ => coreOk h c
  | .bltu h c _ _ _ => coreOk h c
  | .bgeu h c _ _ _ => coreOk h c
  | .jal h c _ _ => coreOk h c
  | .bpany h c _ _ => coreOk h c
  | .bpnone h c _ _ => coreOk h c
  | .vadd h c _ _ _ _ _ => coreOk h c
  | .vsub h c _ _ _ _ _ => coreOk h c
  | .vadds h c _ _ _ _ _ => coreOk h c
  | .vmul h c _ _ _ _ _ => coreOk h c
  | .vmulh h c _ _ _ _ _ => coreOk h c
  | .vmac h c _ _ _ _ _ => coreOk h c
  | .vmacw h c _ _ _ _ _ => coreOk h c
  | .vrshr h c _ _ _ _ _ => coreOk h c
  | .vrshrw h c _ _ _ _ _ => coreOk h c
  | .vsll h c _ _ _ _ _ => coreOk h c
  | .vsra h c _ _ _ _ _ => coreOk h c
  | .vsrl h c _ _ _ _ _ => coreOk h c
  | .vand h c _ _ _ _ _ => coreOk h c
  | .vor h c _ _ _ _ _ => coreOk h c
  | .vxor h c _ _ _ _ _ => coreOk h c
  | .vmin h c _ _ _ _ _ => coreOk h c
  | .vmax h c _ _ _ _ _ => coreOk h c
  | .vminu h c _ _ _ _ _ => coreOk h c
  | .vmaxu h c _ _ _ _ _ => coreOk h c
  | .vlut h c _ _ _ _ _ => coreOk h c
  | .vcmpeq h c _ _ _ _ _ => coreOk h c
  | .vcmplt h c _ _ _ _ _ => coreOk h c
  | .vcmpltu h c _ _ _ _ _ => coreOk h c
  | .vsel h c _ _ _ _ _ => coreOk h c
  | .vfadd h c _ _ _ _ _ => coreOk h c
  | .vfsub h c _ _ _ _ _ => coreOk h c
  | .vfmul h c _ _ _ _ _ => coreOk h c
  | .vfma h c _ _ _ _ _ => coreOk h c
  | .vfmin h c _ _ _ _ _ => coreOk h c
  | .vfmax h c _ _ _ _ _ => coreOk h c
  | .vfcmplt h c _ _ _ _ _ => coreOk h c
  | .vfcmpeq h c _ _ _ _ _ => coreOk h c
  | .vcvtif h c _ _ _ _ _ => coreOk h c
  | .vcvtfi h c _ _ _ _ _ => coreOk h c
  | .vcvtfb h c _ _ _ _ _ => coreOk h c
  | .vcvtbf h c _ _ _ _ _ => coreOk h c
  | .vcvtfh h c _ _ _ _ _ => coreOk h c
  | .vcvthf h c _ _ _ _ _ => coreOk h c
  | .vbcast h c _ _ _ _ _ => coreOk h c
  | .vmvx h c _ _ _ _ _ => coreOk h c
  | .vredadd h c _ _ _ _ _ => coreOk h c
  | .vfredadd h c _ _ _ _ _ => coreOk h c
  | .vredmax h c _ _ _ _ _ => coreOk h c
  | .pand h c _ _ _ _ _ => coreOk h c
  | .por h c _ _ _ _ _ => coreOk h c
  | .pxor h c _ _ _ _ _ => coreOk h c
  | .pnot h c _ _ _ _ _ => coreOk h c
  | .psetn h c _ _ _ _ _ => coreOk h c
  | .vtex h c _ _ _ _ _ => coreOk h c
  | .kissue h c _ _ _ => coreOk h c
  | .kwait h c _ => coreOk h c
  | .kpoll h c _ _ => coreOk h c
  | .signal h c _ _ => coreOk h c
  | .wait h c _ _ => coreOk h c
  | .trywait h c _ _ _ => coreOk h c
  | .arm h c _ _ => coreOk h c
  | .nop h c => coreOk h c
  | .halt h c => coreOk h c
  | .fence h c => coreOk h c
  | .ppoint h c => coreOk h c
  | .trap h c _ => coreOk h c
  | .setd h c _ => coreOk h c
  | .blk h c _ _ _ => coreOk h c
  | .hinfo h => hearthOk h
  | .hread h => hearthOk h
  | .happend h => hearthOk h
  | .wfetch h => hearthOk h
  | .rtuNext h => hearthOk h
  | .rtuRetire h => hearthOk h
  | .rtuVdone h => hearthOk h
  | .drawAssembly _ => true
  | .tileRender _ _ => true
  | .visionTile _ => true
  | .postJob _ => true
  | .inputRecord _ => true
  | .jpegDecode decoder => decide (decoder < 2)
  | .augmentation => true
  | .cacheStoreComplete n _ => cordOk n
  | .batchTrailer _ => true
  | .dictLoad _ => true
  | .sensorRecord _ => true
  | .bundleEmit _ => true
  | .intakeWindowEnd n => cordOk n
  | .intCacheCfg d n _ => hostOk d && cordOk n
  | .cacheReset d n _ => hostOk d && cordOk n
  | .ppCommit d p _ => hostOk d && panelOk p
  | .teEvent p => panelOk p
  | .syntheticTe p => panelOk p
  | .commitLine p => panelOk p
  | .pushEnd p => panelOk p
  | .teLost p => panelOk p
  | .ppModeReq d p _ => hostOk d && panelOk p
  | .modeChangeLp11 p => panelOk p
  | .modeChangeReprogram p => panelOk p
  | .modeChangeHsEntry p => panelOk p
  | .bringup d p _ => hostOk d && panelOk p
  | .portDisable d p _ => hostOk d && panelOk p
  | .dcsReadResponse p _ => panelOk p
  | .bringupReadTimeout p => panelOk p
  | .bringupRetry p => panelOk p
  | .panelContention p => panelOk p
  | .ppDcs d p _ => hostOk d && panelOk p
  | .ppPanel d p _ => hostOk d && panelOk p
  | .panelOutputDeferred p output => panelOk p && decide (output < 2)
  | .fsgSplit d _ => hostOk d
  | .pushBandWrite _ => true
  | .copyJob _ => true
  | .sessionOpen d n _ => hostOk d && cordOk n
  | .sessionClose d n _ => hostOk d && cordOk n
  | .submitLc d n _ => hostOk d && cordOk n
  | .submitBe d n _ => hostOk d && cordOk n
  | .dispAbort d n _ => hostOk d && cordOk n
  | .dispCqSize d n _ => hostOk d && cordOk n
  | .jobDispatch n => cordOk n
  | .weightShareLoaded _ h => hearthOk h
  | .sliceEnd _ => true
  | .budgetExpiry _ => true
  | .jobSave _ _ _ => true
  | .saveEnd _ => true
  | .restore _ => true
  | .swap n => cordOk n
  | .jobRetire _ => true
  | .teardownZeroDone h => hearthOk h
  | .histWindowEnd n _ => cordOk n
  | .slotDecision n _ => cordOk n
  | .fillForce d n _ => hostOk d && cordOk n
  | .fillRecSize d n _ => hostOk d && cordOk n
  | .fillWindowEnd n => cordOk n
  | .hitchOperationArrival k src _ => hitchOk k && agentOk src
  | .hitchCancel k src => hitchOk k && agentOk src
  | .hitchCount d k _ => hostOk d && hitchOk k
  | .hitchSignal d k _ => hostOk d && hitchOk k
  | .hitchTry d k _ => hostOk d && hitchOk k
  | .hitchPoisonClear d k => hostOk d && hitchOk k
  | .bankWake h bank => hearthOk h && decide (bank < 16)
  | .regionTest => true
  | .regionTestDone _ => true
  | .scrubLine ch _ => channelOk ch
  | .rotationSlot => true
  | .migrationCopyDone => true
  | .structuralTestDone h _ _ => hearthOk h
  | .copyBackDone => true
  | .idleTest h => hearthOk h
  | .kilnTestDone h k _ _ => kilnOk h k
  | .coreTest h c _ => coreOk h c
  | .fltLogSel d _ => hostOk d
  | .trustChgSel d _ => hostOk d
  | .attReq d => hostOk d
  | .attestReady => true
  | .trustAttNonce d i _ => hostOk d && decide (i < 8)
  | .ownOpen d => hostOk d
  | .trustOwnData d _ => hostOk d
  | .ownVerify d => hostOk d
  | .ownVerifyDone => true
  | .ownCommit d => hostOk d
  | .ownerRecordCurrent _ => true
  | .ownCancel d => hostOk d
  | .recOpen d => hostOk d
  | .trustRecData d _ => hostOk d
  | .recVerify d => hostOk d
  | .recVerifyDone => true
  | .recBoot d => hostOk d
  | .recProgram d => hostOk d
  | .recOwner d => hostOk d
  | .outputFault g i _ => outputOk g i
  | .outputRetry g i _ => outputOk g i
  | .syncOutPulse => true
  | .smbReadStatus => true
  | .smbReadResetCause => true
  | .smbReadService => true
  | .smbReadTj => true
  | .smbReadVoltage => true
  | .smbReadCurrent => true
  | .smbReadPower => true
  | .smbReadLogSequences => true
  | .smbReadFaultEntry => true
  | .smbReadChangeEntry => true
  | .smbReadInterfaceFaults => true
  | .smbTimeout => true
  | .illegalInstruction h c _ => coreOk h c
  | .railReturn => true
  | .recProgramDone _ => true

end Sys2Proof
end

