-- ==== Sys2Proof/Machine/Kindling.lean ====
section
/-! DEFINITION. What every Kindling instruction shares (R183 to R214): when a core executes, how it stops, and
the forms in which an instruction advances the core. -/

namespace Sys2Proof.Machine

/-- Submission number of the job that holds a Hearth, 0 for none. -/
def State.jobOf (s : State) (h : Nat) : Nat := ((s.hearth h).job).getD 0

/-- A core stops with a cause (R214): 1 SIGNATURE, 2 ILLEGAL, 3 MISALIGNED, 4 ADDRESS, 5 HITCH_RANGE, 6 VPATH_ISSUE, 7
IMEM_ECC, 8 TRAP, 9 COMMAND; `pc` is the instruction that it stops at. The other core stops, and the job is torn down.
-/
def State.coreStopAt (s : State) (h c pc cause : Nat) : State :=
  let k := s.core h c
  let hw := cause == 1 || cause == 7
  let s1 := s.setCore h c { k with
    state := 3, cause := cause, faultPc := pc, faulted := k.faulted || hw, waitsOn := none }
  let o := s1.core h (1 - c)
  let s2 := s1.setCore h (1 - c) { o with state := if o.state = 0 then 0 else 3 }
  let s3 := if hw then
      (s2.logFault (originHearth (s.physOf h)) 0x02 (s.physOf h + c * 256) (s.jobOf h) cause).suspect h (4 + c)
    else s2
  if (s3.hearth h).job = (s.hearth h).job then s3.tearHearth h else s3

/-- A core stops at the instruction at its pc. -/
def State.coreStop (s : State) (h c cause : Nat) : State := s.coreStopAt h c (s.core h c).pc cause

/-- A core that executes: running or stalled, not stopped for a pre-emption, and not queued on a Hitch. -/
def Core.runs (k : Core) : Bool := (k.state == 1 || k.state == 2) && !k.stopped && k.waitsOn.isNone

/-- A core executes the instruction at its pc (R190, R205, R206). `w` is the encoding of the row's
instruction and `mask` the bits that its encoding fixes; a core that stands at another instruction does not
execute this one (assumption 10). -/
def State.coreStep (s : State) (h c : Nat) (w mask : Word) (body : State → State) : State :=
  let k := s.core h c
  if !k.runs || s.paused h then s
  else if k.imemUe.contains (k.pc / 8) then (s.noteImemUe h c k.pc).coreStop h c 7
  else if k.fetch &&& mask ≠ w &&& mask then s
  else if k.blkPending && !isBlk k.fetch then s.coreStop h c 1
  else if !legalWord k.fetch then s.coreStop h c 2
  else body s

/-- The core after `f`, at the next instruction. -/
def Core.next (k : Core) (f : Core → Core) : Core :=
  { f k with pc := pcAdd k.pc 4, state := 1, blkPending := false }

/-- The instruction completes: `f` acts on the core, the pc advances, and the instruction is counted (R215). -/
def State.coreNext (s : State) (h c : Nat) (f : Core → Core) : State :=
  (s.setCore h c ((s.core h c).next f)).retireInstr h c (s.core h c).mayPair

/-- A jump to `target`: `f` acts on the core (R188, R205). -/
def State.coreJump (s : State) (h c target : Nat) (f : Core → Core) : State :=
  (s.setCore h c { f (s.core h c) with pc := target, state := 1, blkPending := true }).retireInstr h c
    (s.core h c).mayPair

/-- A conditional branch (R188). -/
def State.coreBranch (s : State) (h c target : Nat) (taken : Bool) : State :=
  if taken then s.coreJump h c target id else s.coreNext h c id

/-- A register operation: x[rd] := `v`. -/
def State.coreX (s : State) (h c : Nat) (rd : BitVec 5) (v : Core → DWord) : State :=
  s.coreNext h c fun k => k.writeX rd (v k)

/-- A vector operation under a predicate (R184): the lanes of v[vd] become `f core lane`. -/
def State.coreV (s : State) (h c : Nat) (vd : BitVec 5) (pr : BitVec 3) (w16 : Bool) (f : Core → Nat → Nat) :
    State :=
  s.coreNext h c fun k => k.writeV vd (maskLanes w16 (k.readP pr) (k.readV vd) (f k))

/-- A vector comparison into a predicate (R184, R188). -/
def State.coreCmp (s : State) (h c : Nat) (pd pr : BitVec 3) (w16 : Bool) (f : Core → Nat → Bool) : State :=
  s.coreNext h c fun k => k.writeP pd (cmpPred w16 (k.readP pr) (f k))

/-- A predicate operation (R188). -/
def State.coreP (s : State) (h c : Nat) (pd : BitVec 3) (v : Core → Word) : State :=
  s.coreNext h c fun k => k.writeP pd (v k)

/-- The weight share that stores must not touch (R193): that of the job's Cord. -/
def State.storeFloor (s : State) (h c : Nat) : Nat :=
  match s.cordCfg (s.core h c).cord with
  | some g => g.weightShare
  | none => 0

/-- A job on a Hearth met an uncorrectable word of its store: it is torn down (R439). -/
def State.storeUeStop (s : State) (h a n : Nat) : State :=
  (s.noteSramUe h ((s.hearth h).ueAt a n)).tearHearth h

/-- An engine changes its Hearth's store by `f` and goes on with `body`; a change that needs an uncorrectable word is
not made and ends the job (R439). -/
def State.engineStore (s : State) (h : Nat) (f : SMap Byte → SMap Byte) (body : State → State) : State :=
  match (s.hearth h).needs f with
  | some w => s.storeUeStop h (8 * w) 8
  | none => body (s.setHearth h ((s.hearth h).change f))

/-- An access of core c to [a, a + n) of its store (R194, R440): it wakes banks, and may wait for one. -/
def State.coreAccess (s : State) (h c a n : Nat) : State := (s.touch h a n).cycles (kcKey 16 h c) 24

/-- A load of `n` bytes at `a` (R193, R439): `f` takes the bytes read. -/
def State.coreLoad (s : State) (h c a n : Nat) (f : Nat → Core → Core) : State :=
  if a % n ≠ 0 then s.coreStop h c 3
  else if storeSize ≤ a then s.coreStop h c 4
  else if (s.hearth h).meetsUe a n then s.storeUeStop h a n
  else (s.coreAccess h c a n).coreNext h c (f ((s.hearth h).store.readLe a n))

/-- A store of `n` bytes at `a` (R193, R439): `f` of the old value is written. -/
def State.coreStore (s : State) (h c a n : Nat) (f : Core → Nat → Nat) : State :=
  if a % n ≠ 0 then s.coreStop h c 3
  else if storeSize ≤ a ∨ a < s.storeFloor h c then s.coreStop h c 4
  else if (s.hearth h).partUe a n then s.storeUeStop h a n
  else
    let v := s.hearth h
    let x := f (s.core h c) (v.store.readLe a n)
    let t := s.coreAccess h c a n
    (t.setHearth h ((t.hearth h).write a (natLe x n))).coreNext h c id

end Sys2Proof.Machine
end

