-- ==== Sys2Proof/Machine/Engines.lean ====
section
/-! DEFINITION. The engines of a Hearth on the machine: command queues, Kilns, Quench unit, window unit and Splice
engine (R100 to R121, R143 to R149, R154 to R181, R197 to R199, R542). -/

namespace Sys2Proof.Machine

/-! ### Queues -/

/-- A command that core `core` issued to target `t` has completed (R198). -/
def State.cmdDone (s : State) (h t core : Nat) : State :=
  let k := s.core h core
  s.setCore h core { k with issued := k.issued.modify (fun _ => 0) t (· - 1) }

/-- The head of a target queue leaves it. -/
def State.popQueue (s : State) (h t : Nat) : State := s.setQueueOf h t ((s.queueOf h t).drop 1)

/-- A target refuses a command as invalid (R109, R147, R181, R199): it records `cause`, and the issuing core
stops with COMMAND at the KISSUE. -/
def State.refuseCmd (s : State) (h t : Nat) (e : QEntry) (cause : Nat) : State :=
  let v := s.hearth h
  let s1 := if t < 4 then s.setKiln h t { s.kiln h t with cause := cause }
    else if t = 4 then s.setHearth h { v with win := { v.win with cause := cause } }
    else if t = 5 then s.setHearth h { v with quenchCause := cause }
    else if t = 6 then s.histCause ((s.core h e.core).cord) cause
    else s
  s1.coreStopAt h e.core e.pc 9

/-- The job that holds a Hearth, as it runs. -/
def State.hearthJob (s : State) (h : Nat) : Option Job := ((s.hearth h).job).bind s.job?

/-- Whether the head of target `t` may start (R208, R476): the job runs, or it stops and is a RASTER job, whose cores
run on to the next boundary (R303), or the command is a MAC that consumes an open stream. -/
def State.mayStart (s : State) (h t : Nat) (e : QEntry) : Bool :=
  match s.hearthJob h with
  | some j => (!s.paused h && (j.phase == 2 || (j.phase == 3 && j.kind == 2))) ||
    ((j.phase == 2 || j.phase == 3) && decide (t < 4) && (e.cmd.getD 0 0).toNat == 1 &&
      ((s.hearth h).win.streams.look (fun _ => {}) ((e.cmd.getD 24 0).toNat)).phase == 2)
  | none => false

/-- Run `body` on the head of target `t`, if it may start and its `op` is `op`. -/
def State.onHead (s : State) (h t op : Nat) (body : QEntry → State) : State :=
  match s.queueOf h t with
  | e :: _ => if s.mayStart h t e && (e.cmd.getD 0 0).toNat == op then body e else s
  | [] => s

/-- The reads of an engine command meet an uncorrectable word (R439). -/
def State.readsUe (s : State) (h : Nat) (reads : List (Nat × Nat)) : Option (Nat × Nat) :=
  reads.find? fun r => (s.hearth h).meetsUe r.1 r.2

/-- `body`, unless one of the reads meets an uncorrectable word, which tears the job down. -/
def State.unlessUe (s : State) (h : Nat) (reads : List (Nat × Nat)) (body : State) : State :=
  match s.readsUe h reads with
  | some r => s.storeUeStop h r.1 r.2
  | none => body

/-- Do `body` after the reads, which wake their banks; a read of an uncorrectable word tears the job down. -/
def State.afterReads (s : State) (h : Nat) (reads : List (Nat × Nat)) (body : State → State) : State :=
  s.unlessUe h reads (body (reads.foldl (fun t r => t.touch h r.1 r.2) s))

/-! ### Kilns -/

/-- A Kiln check fails (R120, R542): FAULTED and the cause are set, KILN_FAULT is logged, the Kiln is
quarantined (R481), and the job is torn down. -/
def State.kilnFault (s : State) (h k cause : Nat) : State :=
  let p := s.physOf h
  let s1 := s.setKiln h k { s.kiln h k with faulted := true, cause := cause }
  let s2 := (s1.logFault (originHearth p) 0x01 (p + k * 256) (s.jobOf h) cause).suspect h k
  if (s2.hearth h).job = (s.hearth h).job then s2.tearHearth h else s2

/-- A Kiln command whose check fails has begun: `MODE` names it (R123). -/
def State.kilnFailed (s : State) (h k mode cause : Nat) : State :=
  (s.setKiln h k { s.kiln h k with mode := mode }).kilnFault h k cause

/-- Whether a Kiln is READY (R475). -/
def State.kilnReady (s : State) (h k : Nat) : Bool := (s.phy (s.physOf h)).kilns.look (fun _ => 0) k == 0

/-- The bytes that a Kiln command reads. -/
def kilnReads (m : SMap Byte) (c : KilnCmd) : List (Nat × Nat) :=
  let book (a : Nat) : Nat × Nat := (a, 16 + m.readLe (a + 2) 2)
  if c.op = 1 then
    [(c.wAddr, 32 * c.terms)] ++ (if c.isBias then [(c.bias, 4 * modeChannels c.mode)] else []) ++
      (if c.mode = 3 then [] else [book c.wcb, book c.acb])
  else if c.op = 2 then [(c.wAddr, 4 * c.sources)]
  else []

/-- The key of register `o` of Kiln k (R123): 4 `KILN_SAT_TILES`, 8 `KILN_ACTIVE`, 12 `KILN_STALL`. -/
def kilnKey (o h k : Nat) : Nat := hKey (0x8000 + h * 0x40 + k * 0x10 + o)

/-- A command of Kiln `k` completes with `kiln` as the Kiln's new state: it leaves the queue, and a slot that it
hands over with its saturation flag set is counted (R111, R123). It took at most `most.1` cycles and as many stalls as
`most.2` (R121, R171). -/
def State.kilnDone (s : State) (h k : Nat) (e : QEntry) (c : KilnCmd) (kiln : Kiln) (most : Nat × Nat) : State :=
  let s1 := ((s.setKiln h k kiln).popQueue h k).cmdDone h k e.core
  let s2 := (s1.cycles (kilnKey 8 h k) (most.1 + most.2)).cycles (kilnKey 12 h k) most.2
  if c.isLast && slotSat kiln.acc c.mode c.slot then s2.bump (kilnKey 4 h k) 1 else s2

/-- A started command of Kiln `k` waits for the Quench unit (R111): `BUSY` and `MODE` show it, and its cycles count. -/
def State.kilnWait (s : State) (h k : Nat) (c : KilnCmd) : State :=
  ((s.setKiln h k { s.kiln h k with busy := true, mode := c.mode }).anyCycles (kilnKey 8 h k)).anyCycles (kilnKey 12 h k)

/-- A command waits in the queue of a Kiln that is not READY (R475). -/
def State.kilnUnready (s : State) (h k : Nat) : State := s.anyCycles (kilnKey 12 h k)

/-- The terms of a stream that are not skipped (R160). [DEDUCED: assumption 77] -/
def Stream.skipped (st : Stream) : Nat := (st.terms.filter fun t => t.all fun x => x == .zero).length

/-- Kiln `k` has taken the last term of a stream: the stream ends when every receiving Kiln has (R154). -/
def State.streamTaken (s : State) (h k st : Nat) : State :=
  let v := s.hearth h
  let x := v.win.streams.look (fun _ => {}) st
  let taken := k :: x.taken
  if x.fanout ≤ taken.length then
    let v1 := { v with win := { v.win with streams := v.win.streams.put (fun _ => {}) st {}
                                           lines := v.win.lines.filter fun x => x.owner != some st } }
    let skip := if x.diag = 0 then x.skipped else 0
    (((s.setHearth h v1).bump (hKey (0xA004 + h * 0x20)) (x.terms.length - skip)).bump
      (hKey (0xA008 + h * 0x20)) skip).cmdDone h 4 x.core
  else
    let streams := v.win.streams.put (fun _ => {}) st { x with taken := taken }
    s.setHearth h { v with win := { v.win with streams := streams } }

/-- The command that opened a stream, as it was queued. -/
def Stream.entry (st : Stream) : QEntry := ⟨st.cmd, st.core, st.pc⟩

/-- The cycles of a MAC fed by a diagonal stream, and its stalls (R171). -/
def diagCycles (mode : Nat) (st : Stream) : Nat × Nat :=
  let lanes := modePer mode
  (st.nky * ((st.nkx + lanes - 1) / lanes) + (if mode = 1 then st.nky * st.nkx else 0) + 16, 0)

/-- A MAC at the head of Kiln `k`'s queue (R100 to R121): it waits for a READY Kiln, for its open stream and for held
slots; an invalid one is refused; a failed check faults the Kiln. [DESIGN CHOICE: assumption 78] -/
def State.macHead (s : State) (h k : Nat) (chk : KilnCheck) (e : QEntry) : State :=
  let v := s.hearth h
  let c := readKilnCmd (cmdMem e.cmd) 0
  let st := v.win.streams.look (fun _ => {}) c.stream
  let kiln := s.kiln h k
  if !s.kilnReady h k then s.kilnUnready h k
  else if st.phase != 2 || st.taken.contains k then s
  else if st.diag ≠ 0 ∧ !diagFits c.mode st then s.refuseCmd h 4 st.entry 1
  else s.unlessUe h (kilnReads v.store c) <|
  if !kilnCmdOk v.store c st.fmt then s.refuseCmd h k e 7
  else if st.terms.length ≠ c.terms then s.refuseCmd h 4 st.entry 1
  else if meetsHeld kiln.held c.mode c.slot then s.kilnWait h k c
  else s.afterReads h (kilnReads v.store c) fun s =>
    let fed := { kiln with weights := weightRefill v.store c kiln.weights }
    if chk ≠ .none then s.kilnFailed h k c.mode (kilnCause chk)
    else if st.diag = 0 then
      let (acc, ok) := macResult v.store c st.terms kiln.acc
      if ok then (s.kilnDone h k e c (kilnFinish fed c acc) (kilnCycles c)).streamTaken h k c.stream
      else s.kilnFailed h k c.mode 1
    else
      let (acc, ok) := diagResult v.store c st kiln.acc
      if ok then
        (s.kilnDone h k e c (kilnHand fed c (diagSlot c.mode c.slot) (diagMode c.mode) acc)
          (diagCycles c.mode st)).streamTaken h k c.stream
      else s.kilnFailed h k c.mode 1

/-- A MERGE at the head of Kiln `k`'s queue (R105, R106, R118). -/
def State.mergeHead (s : State) (h k : Nat) (chk : KilnCheck) (e : QEntry) : State :=
  let v := s.hearth h
  let c := readKilnCmd (cmdMem e.cmd) 0
  let kiln := s.kiln h k
  if !s.kilnReady h k then s.kilnUnready h k
  else s.unlessUe h (kilnReads v.store c) <|
  if !kilnCmdOk v.store c 0 then s.refuseCmd h k e 7
  else if (kilnCmdSlots v.store c).any fun x => meetsHeld kiln.held c.mode x then s.kilnWait h k c
  else s.afterReads h (kilnReads v.store c) fun s =>
    if chk ≠ .none then s.kilnFailed h k c.mode (kilnCause chk)
    else s.kilnDone h k e c (kilnFinish kiln c (mergeResult v.store c kiln.acc)) (kilnCycles c)

/-- A CLEAR at the head of Kiln `k`'s queue (R107). -/
def State.clearHead (s : State) (h k : Nat) (e : QEntry) : State :=
  let v := s.hearth h
  let c := readKilnCmd (cmdMem e.cmd) 0
  let kiln := s.kiln h k
  if !s.kilnReady h k then s.kilnUnready h k
  else if !kilnCmdOk v.store c 0 then s.refuseCmd h k e 7
  else if meetsHeld kiln.held c.mode c.slot then s.kilnWait h k c
  else s.kilnDone h k e c (kilnFinish kiln c (clearResult c kiln.acc)) (kilnCycles c)

/-! ### Quench unit -/

/-- Whether the openings of a stream that the next MACs of Kiln `k` may take are diagonal: the stream itself, unless the
Kiln has taken it, and those of the window commands queued for it. -/
def State.streamKinds (s : State) (h k st : Nat) : List Bool :=
  let x := (s.hearth h).win.streams.look (fun _ => {}) st
  (if x.phase ≠ 0 ∧ !x.taken.contains k then [x.diag != 0] else []) ++
    (s.queueOf h 4).filterMap fun e =>
      let op := (e.cmd.getD 0 0).toNat
      if 0x20 ≤ op ∧ op ≤ 0x22 ∧ (e.cmd.getD 1 0).toNat % 4 = st then some (op != 0x20) else none

/-- Whether a command queued in Kiln `k` will hand over slot number `slot` (R111, R146, R170). While no opening of a
MAC's stream is known it may be of either form. [DEDUCED: assumption 80] -/
def State.willHand (s : State) (h k slot : Nat) : Bool :=
  (s.queueOf h k).any fun e =>
    let c := readKilnCmd (cmdMem e.cmd) 0
    let kinds := if c.op = 1 then s.streamKinds h k c.stream else [false]
    c.isLast && (((kinds.contains false || kinds == []) && c.slot == slot) ||
      ((kinds.contains true || kinds == []) && diagSlot c.mode c.slot == slot))

/-- The held tile that a slot-list entry names. -/
def State.heldTile (s : State) (h : Nat) (x : Nat × Nat × Nat × Nat) : Option QTile :=
  ((s.kiln h x.1).held.find? fun e => e.slot == x.2.1).map fun e =>
    { kiln := x.1, slot := x.2.1, mode := e.mode, ch0 := x.2.2.1 }

/-- The slot-list entries of a QUENCH command whose slots are not held. -/
def State.notHeld (s : State) (h : Nat) (c : QCmd) : List (Nat × Nat × Nat × Nat) :=
  (readSlotList (s.hearth h).store c).filter fun x => (s.heldTile h x).isNone

/-- A QUENCH command has reached the head of the Quench queue: it is invalid if it names a slot that is not held and
that no command will hand over (R147). -/
def State.quenchReach (s : State) (h : Nat) : State :=
  match s.queueOf h 5 with
  | e :: _ =>
    if (s.notHeld h (readQCmd (cmdMem e.cmd) 0)).any fun x => !s.willHand h x.1 x.2.1 then s.refuseCmd h 5 e 1 else s
  | [] => s

/-- Add a QUENCH command's counts to the Hearth's registers (R149). -/
def State.quenchCounts (s : State) (h : Nat) (n : QCounts) : State :=
  let r := 0x9000 + h * 0x20
  (((((s.bump (hKey (r + 4)) n.rows).bump (hKey (r + 8)) n.sat).bump (hKey (r + 12)) n.recoveries).bump
    (hKey (r + 16)) n.limited).bump (hKey (r + 20)) n.underused).bump (hKey (r + 24)) n.zeroRange

/-- A QUENCH at the head of the Quench queue (R143 to R148, R542): it waits for slots whose `LAST` command is
queued, and an invalid one is refused. A command that starts runs whole, and nothing pre-empts it (R148). -/
def State.quenchHead (s : State) (h : Nat) (chk : QuenchCheck) (e : QEntry) : State :=
  let v := s.hearth h
  let c := readQCmd (cmdMem e.cmd) 0
  let slots := readSlotList v.store c
  let missing := s.notHeld h c
  s.unlessUe h [(c.params, 64), (c.list, 4 * (c.nslots + 1))] <|
  if !quenchFieldsOk v.store c ∨ missing.any fun x => !s.willHand h x.1 x.2.1 then s.refuseCmd h 5 e 1
  else if missing ≠ [] then s
  else if !quenchOk v.store v.mapRows c (slots.filterMap (s.heldTile h)) then s.refuseCmd h 5 e 1
  else s.afterReads h [(c.params, 64), (c.list, 4 * (c.nslots + 1))] fun s =>
    match chk with
    | .rescale k => (s.setHearth h { s.hearth h with quenchCause := 2 }).kilnFault h k 8
    | .tableParity k => (s.setHearth h { s.hearth h with quenchCause := 3 }).kilnFault h k 9
    | .none =>
      let p := readParams v.store c.params
      let dk := match (s.hearthJob h).bind fun j => (s.cordCfg j.cord).bind fun g => s.jobModel g j with
        | some m => m.scaleK
        | none => 1
      let group (m : SMap Byte) := quenchGroup m c p dk (fun k => (s.kiln h k).acc) (slots.filterMap (s.heldTile h))
      let free (m : SMap Kiln) (x : Nat × Nat × Nat × Nat) : SMap Kiln :=
        m.modify (fun _ => {}) x.1 fun q => { q with held := q.held.filter fun y => y.slot != x.2.1 }
      s.engineStore h (fun m => (group m).1) fun s =>
        let w := s.hearth h
        let rows := if p.isMap then mapRowsAfter w.mapRows c else w.mapRows
        ((((s.setHearth h { w with kilns := slots.foldl free w.kilns, mapRows := rows }).quenchCounts h
          (group v.store).2).popQueue h 5).cmdDone h 5 e.core).quenchReach h

/-! ### Window unit -/

/-- The halo sides that a window command still waits for. -/
def haloMissing (w : Window) (id : Nat) (sides : List Nat) : List Nat :=
  sides.filter fun x => !w.present.contains (id, x)

/-- wait(1) on the Hearth's own FULL Hitch of a side (R178, R180): the side is present at once, or it waits. -/
def State.haloWait (s : State) (h id side : Nat) : State :=
  let v := s.hearth h
  let k := (readBlock v.store (haloBlock id)).haloHitch + side
  if v.win.present.contains (id, side) || v.win.waiting.contains (id, side) then s
  else if (s.hitch k).poison then s.endJob (s.jobOf h) stPoisoned
  else
    let (x, g) := (s.hitch k).wait (.window h side) 1
    let now := g.contains (.window h side)
    let w := if now then { v.win with present := (id, side) :: v.win.present }
      else { v.win with waiting := v.win.waiting ++ [(id, side)] }
    let s1 := ((s.setHearth h { v with win := w }).setHitch k x).grantAll k (g.filter fun a => a != .window h side)
    if now then s1 else s1.anyCycles (hKey (0xA010 + h * 0x20))

/-- The halo waits of a command, one side after the other, while its job goes on (R178, R180). -/
def State.haloWaits (s : State) (h id : Nat) (sides : List Nat) : State :=
  sides.foldl (fun t side => if (t.hearth h).job = (s.hearth h).job then t.haloWait h id side else t) s

/-- The fan-out of a stream byte. -/
def fanoutOf (b : Nat) : Nat := b / 4 % 4 + 1

/-- Set up a stream: its halo waits begin (R155, R178). -/
def State.streamSetup (s : State) (h : Nat) (e : QEntry) (diag : Nat) : State :=
  let v := s.hearth h
  let c := readWinCmd (cmdMem e.cmd) 0
  let b := readBlock v.store c.params
  let id := c.stream % 4
  s.unlessUe h [(c.params, 64)] <|
  if !winCmdOk v.store c then s.refuseCmd h 4 e 1
  else if !rowsInRange b c then s.refuseCmd h 4 e 2
  else if (v.win.streams.look (fun _ => {}) id).phase ≠ 0 then s
  else s.afterReads h [(c.params, 64)] fun s =>
    let st : Stream := { phase := 1, cmd := e.cmd, core := e.core, pc := e.pc, fmt := b.fmt, fanout := fanoutOf c.stream
                         diag := diag, nky := c.nky, nkx := c.nkx, nc := c.nc }
    let s1 := (s.setHearth h { v with win := { v.win with
      streams := v.win.streams.put (fun _ => {}) id st } }).popQueue h 4
    s1.haloWaits h (haloId c.params b) (haloSides b (cmdRows b c))

/-! ### The line buffer -/

/-- The line of a real row and channel of a window block, fetched from the store (R153). -/
def fetchLine (m : SMap Byte) (b : WinBlock) (id : Nat) (owner : Option Nat) (x : Nat × Nat) : Line :=
  { block := id, row := x.1, chan := x.2, size := b.lineBytes, owner := owner
    bytes := if (b.rowSide x.1).isSome then m.lookList zeroByte (b.rowAddr x.1 x.2) b.rowBytes else [] }

/-- Whether a resident line is one of those. -/
def Line.isOf (x : Line) (id : Nat) (owner : Option Nat) (ls : List (Nat × Nat)) : Bool :=
  x.block == id && x.owner == owner && ls.contains (x.row, x.chan)

/-- Whether an open stream reads a resident line. -/
def Window.pins (w : Window) (m : SMap Byte) (x : Line) : Bool :=
  w.streams.any fun (id, st) =>
    let c := readWinCmd (cmdMem st.cmd) 0
    let b := readBlock m c.params
    st.phase == 2 && x.isOf (haloId c.params b) (if b.ring then none else some id) (cmdLines b c)

/-- The bytes that lines occupy. -/
def lineRoom (ls : List Line) : Nat := (ls.map Line.size).sum

/-- Drop lines until the rest and `fresh` fit: first those that `old` allows, the rows of output rows that are done,
then the oldest that `free` allows. [DESIGN CHOICE: assumption 221] -/
def makeRoom (old free : Line → Bool) (fresh : Nat) (ls : List Line) : List Line :=
  let drop (ok : Line → Bool) (a : List Line) : List Line :=
    (a.filter ok).foldl (fun r x => if lineRoom r + fresh ≤ 262144 then r else r.filter fun y => y != x) a
  drop free (drop (fun x => old x && free x) ls)

/-- The bytes that a window command reads from the store: of the lines `ls`, of the row headers, and of the padding
constants of its channels if some tap of it is constant padding. -/
def winReads (b : WinBlock) (c : WinCmd) (ls : List (Nat × Nat)) : List (Nat × Nat) :=
  ((ls.filter fun x => (b.rowSide x.1).isSome).map fun x => (b.rowAddr x.1 x.2, b.rowBytes)) ++
    ((cmdHeaders b c).map fun n => (b.hdrAddr n, 8)) ++
    (if b.padsConst c then [(b.padConst + 2 * c.c0, 2 * c.nc)] else [])

/-! ### Streams -/

/-- Whether a queued command is a MAC that names a stream. -/
def QEntry.macOn (e : QEntry) (st : Nat) : Bool := (e.cmd.getD 0 0).toNat == 1 && (e.cmd.getD 24 0).toNat == st

/-- The Kilns whose next command is a MAC on a stream, and those that have taken it or hold such a MAC in their queue.
-/
def State.macHeads (s : State) (h st : Nat) : List Nat :=
  ([0, 1, 2, 3] : List Nat).filter fun k => ((s.queueOf h k).take 1).any fun e => e.macOn st
def State.consumers (s : State) (h id : Nat) (st : Stream) : List Nat :=
  ([0, 1, 2, 3] : List Nat).filter fun k => st.taken.contains k || (s.queueOf h k).any fun e => e.macOn id

/-- Whether a core issues nothing more while the window unit has a command in progress: it has halted, or stands at a
KWAIT for one of its own. -/
def Core.issuesNoMore (k : Core) : Bool :=
  k.state == 0 || k.state == 3 ||
    (k.fetch.toNat / 2 ^ 26 == 0x39 && k.fetch.toNat / 2 ^ 13 % 8 == 4 && k.issued.look (fun _ => 0) 4 != 0)

/-- A stream's `fanout` does not match the number of its MACs (R154, R181): more Kilns stand at one than it feeds, or
no core can issue what it still lacks. [DESIGN CHOICE: assumption 78] -/
def State.fanoutBad (s : State) (h id : Nat) (st : Stream) : Bool :=
  (st.phase == 1 && decide (st.fanout < (s.macHeads h id).length)) ||
    (decide ((s.consumers h id st).length < st.fanout) && (s.core h 0).issuesNoMore && (s.core h 1).issuesNoMore)

/-- Whose lines a stream reads: those of its block in ring mode, its own in per-tap fetch. -/
def WinBlock.lineOwner (b : WinBlock) (id : Nat) : Option Nat := if b.ring then none else some id

/-- The lines that stay in the line buffer when stream `id` opens, and those that it fetches; one in ring mode is
fetched again only if the store has changed (R153, R163). [DESIGN CHOICE: assumption 221] -/
def State.streamLines (s : State) (h id : Nat) : List Line × List Line :=
  let v := s.hearth h
  let c := readWinCmd (cmdMem (v.win.streams.look (fun _ => {}) id).cmd) 0
  let b := readBlock v.store c.params
  let name := haloId c.params b
  let owner := b.lineOwner id
  let need := cmdLines b c
  let want := need.map (fetchLine v.store b name owner)
  let fresh := want.filter fun x => !v.win.lines.contains x
  let old := v.win.lines.filter fun x => !x.isOf name owner need || want.contains x
  let low := (cmdRows b c).foldl min b.height
  (makeRoom (fun x => x.block == name && decide (x.row < low))
    (fun x => !want.contains x && !v.win.pins v.store x) (lineRoom fresh) old, fresh)

/-- The bytes of the line of a real row and channel. -/
def lineOf (ls : List Line) (name : Nat) (owner : Option Nat) (r ch : Nat) : List Byte :=
  ((ls.find? fun x => x.isOf name owner [(r, ch)]).map Line.bytes).getD []

/-- Open a stream whose halos are present and whose lines fit beside those of the open ones (R155, R160, R163). Its taps
come from the lines. -/
def State.streamStart (s : State) (h id : Nat) : State :=
  let v := s.hearth h
  let st := v.win.streams.look (fun _ => {}) id
  let c := readWinCmd (cmdMem st.cmd) 0
  let b := readBlock v.store c.params
  let name := haloId c.params b
  let (kept, fresh) := s.streamLines h id
  if st.phase = 0 then s
  else if s.fanoutBad h id st then s.refuseCmd h 4 st.entry 1
  else if st.phase ≠ 1 ∨ haloMissing v.win name (haloSides b (cmdRows b c)) ≠ [] ∨
      262144 < lineRoom kept + lineRoom fresh then s
  else s.afterReads h (winReads b c (fresh.map fun x => (x.row, x.chan))) fun s =>
    let lines := kept ++ fresh
    let line := lineOf lines name (b.lineOwner id)
    let st1 : Stream := { st with
      phase := 2
      terms := if st.diag = 0 then rowsTerms v.store line b c else diagTerms v.store line b c
      mults := if st.diag = 0 then [] else diagMults v.store b c }
    let w := s.hearth h
    let w := if st.diag ≠ 0 ∧ c.flags.testBit 0 then w.write c.aux (natLe (b.sigmaRef v.store c.oy).bits 8) else w
    let s1 := s.setHearth h { w with win := { w.win with
      streams := w.win.streams.put (fun _ => {}) id st1, lines := lines } }
    let s2 := s1.bump (hKey (0xA00C + h * 0x20)) (fresh.length * (b.lineBytes / 64))
    if b.ring then s2 else s2.bump (hKey (0xA01C + h * 0x20)) 1

/-- MTABLE (R164): it waits for the halos whose headers it reads, then writes the merge table. -/
def State.mtableHead (s : State) (h : Nat) (e : QEntry) : State :=
  let v := s.hearth h
  let c := readWinCmd (cmdMem e.cmd) 0
  let b := readBlock v.store c.params
  let sides := haloSides b (cmdRows b c)
  s.unlessUe h [(c.params, 64)] <|
  if !winCmdOk v.store c then s.refuseCmd h 4 e 1
  else if !rowsInRange b c then s.refuseCmd h 4 e 2
  else if haloMissing v.win (haloId c.params b) sides ≠ [] then s.haloWaits h (haloId c.params b) sides
  else s.afterReads h ((cmdRows b c).map fun n => (b.hdrAddr n, 8)) fun s =>
    s.engineStore h (fun m => mtableWrite m c) fun s => (s.popQueue h 4).cmdDone h 4 e.core

/-- REGROUP (R167). -/
def State.regroupHead (s : State) (h : Nat) (e : QEntry) : State :=
  let v := s.hearth h
  let c := readWinCmd (cmdMem e.cmd) 0
  let reads := [(c.params, 64), (c.aux, 64)]
  s.unlessUe h reads <|
  match regroupKind v.store c with
  | none => s.refuseCmd h 4 e 1
  | some (f, toSpace) =>
    if !regroupInRange v.store c f toSpace then s.refuseCmd h 4 e 2
    else s.afterReads h reads fun s => s.engineStore h (fun m => regroupWrite m c f toSpace) fun s =>
      (s.popQueue h 4).cmdDone h 4 e.core

/-- SPLICE (R177, R180, R181): the wait on the destination's FREE Hitch; the grant writes the rows. -/
def State.spliceHead (s : State) (h : Nat) (e : QEntry) : State :=
  let v := s.hearth h
  let c := readSplice (cmdMem e.cmd) 0
  let cord := (s.core h e.core).cord
  let k := c.hitch + 2 + c.side
  s.unlessUe h [(c.params, 64)] <|
  if !spliceOk v.store c || !(s.members cord).contains c.dst then s.refuseCmd h 4 e 1
  else if !spliceInRange v.store c then s.refuseCmd h 4 e 2
  else if v.win.splice.isSome then s
  else if (s.hitch k).poison then s.endJob (s.jobOf h) stPoisoned
  else s.afterReads h [(c.params, 64)] fun s =>
    let s1 := s.setHearth h { v with win := { v.win with
      splice := some { cmd := e.cmd, core := e.core, written := false } } }
    let (x, g) := (s1.hitch k).wait (.splice h) 1
    let s2 := (s1.setHitch k x).grantAll k (g.filter fun a => a != .splice h)
    if g.contains (.splice h) then s2.spliceRows h else s2.anyCycles (hKey (0xA014 + h * 0x20))

/-- A job's engine signals a Hitch: the job remembers it (R417). -/
def State.engineSignal (s : State) (h k : Nat) : State := (s.noteSignal (s.jobOf h) k).hitchSignal k 1

/-- The acknowledgement of every Splice write, or its failure (R177 step 3, R180). -/
def State.spliceEnd (s : State) (h : Nat) (ok : Bool) : State :=
  let v := s.hearth h
  match v.win.splice with
  | some sp =>
    let c := readSplice (cmdMem sp.cmd) 0
    if !sp.written then s
    else if let some (g, a) := sp.ue then (s.noteSramUe g a).tearHearth h
    else if ok then
      ((s.setHearth h { v with win := { v.win with splice := none } }).cmdDone h 4 sp.core).engineSignal h
        (c.hitch + c.side)
    else
      ((s.setHearth h { v with win := { v.win with cause := 3 } }).logFault (originHearth (s.physOf h)) 0x06
        (s.physOf h) c.dst (s.jobOf h)).tearHearth h
  | none => s

/-- RELEASE (R178), in the layout of a SPLICE (R161): +1 on the Hearth's own FREE Hitch of a side, and the
side's presence ends. -/
def State.releaseHead (s : State) (h : Nat) (e : QEntry) : State :=
  let v := s.hearth h
  let c := readSplice (cmdMem e.cmd) 0
  let b := readBlock v.store c.params
  let side := c.flags % 2
  let zero := decide (c.flags < 2) && c.row0 == 0 && c.nrows == 0 && c.parity == 0 && c.hitch == 0 && c.dst == 0 &&
    c.rsv == 0 && c.dstHalo == 0 && c.rsv2 == 0
  s.unlessUe h [(c.params, 64)] <|
  if !zero || !addrOk c.params 64 64 || !b.ok then s.refuseCmd h 4 e 1
  else s.afterReads h [(c.params, 64)] fun s =>
    (((s.setHearth h { v with win := { v.win with
      present := v.win.present.filter fun x => x != (haloId c.params b, side) } }).popQueue h 4).cmdDone h 4
      e.core).engineSignal h (b.haloHitch + 2 + side)

/-! ### The rows -/

/-- MAC (R100). -/
def execMac (h k : Nat) (chk : KilnCheck) (s : State) : Out :=
  withUnit (kilnOk h k) (s.onHead h k 1 (s.macHead h k chk))

/-- MERGE (R105). -/
def execMerge (h k : Nat) (chk : KilnCheck) (s : State) : Out :=
  withUnit (kilnOk h k) (s.onHead h k 2 (s.mergeHead h k chk))

/-- CLEAR (R107). -/
def execKilnClear (h k : Nat) (s : State) : Out := withUnit (kilnOk h k) (s.onHead h k 3 (s.clearHead h k))

/-- QUENCH (R143). -/
def execQuench (h : Nat) (chk : QuenchCheck) (s : State) : Out :=
  withUnit (hearthOk h) (s.onHead h 5 0x10 (s.quenchHead h chk))

/-- ROWS (R162). -/
def execRows (h : Nat) (s : State) : Out :=
  withUnit (hearthOk h) (s.onHead h 4 0x20 fun e => s.streamSetup h e 0)

/-- DIAG (R168). -/
def execDiag (h : Nat) (s : State) : Out :=
  withUnit (hearthOk h) (s.onHead h 4 0x21 fun e => s.streamSetup h e 1)

/-- DIAGMAX (R172). -/
def execDiagmax (h : Nat) (s : State) : Out :=
  withUnit (hearthOk h) (s.onHead h 4 0x22 fun e => s.streamSetup h e 2)

/-- MTABLE (R164). -/
def execMtable (h : Nat) (s : State) : Out := withUnit (hearthOk h) (s.onHead h 4 0x23 (s.mtableHead h))

/-- REGROUP (R167). -/
def execRegroup (h : Nat) (s : State) : Out := withUnit (hearthOk h) (s.onHead h 4 0x24 (s.regroupHead h))

/-- SPLICE (R177). -/
def execSplice (h : Nat) (s : State) : Out := withUnit (hearthOk h) (s.onHead h 4 0x25 (s.spliceHead h))

/-- SPLICE_ACKED (R177). -/
def execSpliceAcked (h : Nat) (ok : Bool) (s : State) : Out := withUnit (hearthOk h) (s.spliceEnd h ok)

/-- RELEASE (R178). -/
def execRelease (h : Nat) (s : State) : Out := withUnit (hearthOk h) (s.onHead h 4 0x26 (s.releaseHead h))

/-- STREAM_OPEN (R155). -/
def execStreamOpen (h stream : Nat) (s : State) : Out :=
  withUnit (hearthOk h && decide (stream < 4)) (s.streamStart h stream)

end Sys2Proof.Machine
end

