-- ==== Sys2Proof/Machine/Memory.lean ====
section
/-! DEFINITION. Errors of DRAM, background test, spare rows and patrol scrub, and the loss of channels and
ways (R59, R439 to R449, R484). -/

namespace Sys2Proof.Machine

/-! ### A Cord that loses its resources (R59, R484) -/

/-- A panel port held in reset (R36): its state and its registers return to their reset values. -/
def State.resetPanel (s : State) (p : Nat) : State :=
  { s with panels := s.panels.drop p, regs := s.regs.wipe (hKey (0x6000 + p * 0x800)) 0x800 }

/-- End every job of a Cord with a status. -/
def State.endCordJobs (s : State) (n status : Nat) : State :=
  (s.jobs.filter fun j => j.cord == n).foldl (fun t j => t.endJob j.sub status) s

/-- Close every session of a Cord whose jobs have ended (R396). -/
def State.closeAll (s : State) (c : CordCfg) : State :=
  (List.range c.sessionCount).foldl (fun t k =>
    let i := c.sessionBase + k
    if t.sessLe c i 0 1 = 0 then t else (t.putSessLe c i 0 1 2).finishClose c.cord i) s

/-- A Cord that holds no resources: it is in the active Lay no more, and its units are unassigned. [DEDUCED: assumption
53] -/
def State.dropCord (s : State) (n : Nat) : State :=
  match s.lay with
  | none => s
  | some l =>
    let ports := ([0, 1] : List Nat).filter fun p => l.units.getD (13 + p) 0xFF == n
    let l1 : LayCfg := { l with
      cords := l.cords.filter fun (c : CordCfg) => c.cord != n
      models := l.models.filter fun (m : ModelCfg) => m.cord != n
      units := l.units.map fun u => if u = n then 0xFF else u }
    ports.foldl State.resetPanel { s with lay := some l1, cords := s.cords.drop n, fills := s.fills.drop n }

/-! ### Channels and ways (R484) -/

def State.channel (s : State) (ch : Nat) : Channel := s.mem.channels.look (fun _ => {}) ch
def State.setChannel (s : State) (ch : Nat) (v : Channel) : State :=
  { s with mem := { s.mem with channels := s.mem.channels.put (fun _ => {}) ch v } }

/-- 24 hours of device time. -/
def dayNs : Nat := 86400000000000

/-- The Cord that owns a channel. -/
def State.cordOfChannel (s : State) (ch : Nat) : Option CordCfg :=
  s.lay.bind fun l => l.cords.find? fun (c : CordCfg) => c.channels.getLsbD ch

/-- Retire a DRAM channel: the owning Cord's jobs are torn down, its sessions close, and it holds nothing. -/
def State.retireChannel (s : State) (ch : Nat) : State :=
  if s.flt.retiredCh.contains ch then s
  else
    let owner := s.cordOfChannel ch
    let s1 := s.logFault (originStop (ch / 2)) 0x15 ch (match owner with
      | some c => c.cord
      | none => 0) 0
    let s2 := { s1 with flt := { s1.flt with retiredCh := ch :: s1.flt.retiredCh } }
    let s3 := match owner with
      | some c => (((s2.endCordJobs c.cord stTorn).closeAll c).dropCord c.cord)
      | none => s2
    s3.setService 2

/-- A read met the uncorrectable word at byte `off` of channel `ch` (R447): it is counted, logged and queued, and a
channel with such words in four 64 KiB blocks within 24 h is retired. [DESIGN CHOICE: assumption 198] -/
def State.dramUeAt (s : State) (ch off : Nat) : State :=
  let arg := ch + off / 8 % 2 ^ 27 * 32
  let v := s.channel ch
  let ue := (off / 65536, s.time) :: v.ueBlocks
  let s1 := s.setChannel ch { v with uncorrectable := v.uncorrectable + 1, ueBlocks := ue }
  let s2 := ((s1.logFault (originStop (ch / 2)) 0x13 arg 0 0).bump 0x2A0020 1).eventOwner 0x0F05 0x2A arg
  let recent := ((ue.filter fun e => decide (s.time ≤ e.2 + dayNs)).map Prod.fst).eraseDups
  if 4 ≤ recent.length then s2.retireChannel ch else s2

/-- The uncorrectable words (byte address div 8) that [a, a + n) of a Cord region meets. -/
def State.cordUeWords (s : State) (c : CordCfg) (a n : Nat) : List Nat :=
  s.dramUe.filter fun w => (List.range ((n + 7) / 8 + 1)).any fun i =>
    c.dramAddr (a / 8 * 8 + 8 * i) / 8 == w && decide (a / 8 * 8 + 8 * i < a + n)

/-- Account for the first uncorrectable word of a range that a read met. -/
def State.noteCordUe (s : State) (c : CordCfg) (a n : Nat) : State :=
  match s.cordUeWords c a n with
  | w :: _ => s.dramUeAt (8 * w / chBytes) (8 * w % chBytes)
  | [] => s

/-- Whether a write of [a, a + n) of a Cord region covers only part of an uncorrectable word (R447). [DEDUCED:
assumption 197] -/
def State.cordPartUe (s : State) (c : CordCfg) (a n : Nat) : Bool :=
  (if a % 8 = 0 then false else s.cordUe c a 1) ||
    (if (a + n) % 8 = 0 || n = 0 then false else s.cordUe c (a + n - 1) 1)

/-- A job reads [a, a + n) of its Cord region and goes on with `body`; an uncorrectable word ends it (R447). -/
def State.jobRead (s : State) (sub : Nat) (c : CordCfg) (a n : Nat) (body : State → State) : State :=
  if s.cordUe c a n then (s.noteCordUe c a n).endJob sub stTorn else body s

/-- A job writes bytes to its Cord region and goes on with `body`; a write that covers only part of an
uncorrectable word ends it (R447). -/
def State.jobWrite (s : State) (sub : Nat) (c : CordCfg) (a : Nat) (bs : List Byte) (body : State → State) :
    State :=
  if s.cordPartUe c a bs.length then (s.noteCordUe c a bs.length).endJob sub stTorn
  else body (s.putCordBytes c a bs)

/-- `n` free bytes, one draw each. -/
def State.drawBytes (s : State) : Nat → List Byte × State
  | 0 => ([], s)
  | n + 1 =>
    let (v, t) := s.draw
    let (bs, u) := t.drawBytes n
    (v.truncate 8 :: bs, u)

/-- Bytes of a Cord region whose contents the manual leaves to an engine: free values (assumption 2). -/
def State.putFree (s : State) (c : CordCfg) (a n : Nat) : State :=
  let (bs, t) := s.drawBytes n
  t.putCordBytes c a bs

/-- Retire a cache way (R484). -/
def State.retireWay (s : State) (way : Nat) : State :=
  if s.flt.retiredWays.contains way then s
  else
    let owner := match s.lay.bind fun l => l.cords.find? fun (c : CordCfg) => c.ways.getLsbD way with
      | some c => c.cord
      | none => 0xFE
    let s1 := s.logFault (originStop way) 0x16 way owner 0
    ({ s1 with flt := { s1.flt with retiredWays := way :: s1.flt.retiredWays } } : State).setService 6

/-- Uncorrectable errors in three sets of a way within an hour retire it; a Cord goes on with its other ways. -/
def State.wayError (s : State) (way set : Nat) : State :=
  if s.flt.retiredWays.contains way then s
  else
    let es := (way, set, s.time) :: s.mem.wayErrors
    let s1 := { s with mem := { s.mem with wayErrors := es } }
    let recent := ((es.filter fun e => e.1 == way && decide (s.time ≤ e.2.2 + hourNs)).map fun e => e.2.1).eraseDups
    if recent.length < 3 then s1 else s1.retireWay way

/-- The way that holds the line at byte `off` of a channel, if its Cord has ways (R42, R445). [DEDUCED: assumption 12]
-/
def State.wayOfLine (s : State) (ch off : Nat) : Option Nat :=
  match s.cordOfChannel ch with
  | none => none
  | some c =>
    let chans := c.chans
    let k := chans.findIdx (· == ch)
    let a := ((off - devBytes) / 4096 * chans.length + k) * 4096 + off % 4096
    let ws := s.waysOf c
    if off < devBytes then none else ws[a / 64 % ws.length]?

/-! ### Banks and spare rows (R440, R441) -/

/-- BANK_WAKE (R440): an access to a bank in retention; the Draught governor counts it. -/
def State.wakeBank (s : State) (h bank : Nat) : State :=
  let p := s.physOf h
  let v := s.phy p
  if v.retention.look (fun _ => 0) bank = 1 then
    (s.setPhy p { v with retention := v.retention.put (fun _ => 0) bank 0
                         bankUse := v.bankUse.put (fun _ => 0) bank s.time }).bump 0x27002C 1
  else s

/-- A failing row of a bank of physical Hearth `p` takes a spare; with none left it stays in service (R441). [DEDUCED:
assumption 194] -/
def State.replaceRow (s : State) (p bank : Nat) : State :=
  let v := s.phy p
  let n := v.spareRows.look (fun _ => 0) bank
  if n < 8 then
    (s.setPhy p { v with spareRows := v.spareRows.put (fun _ => 0) bank (n + 1) }).logFault (originHearth p) 0x12
      (p + bank * 256) n (n + 1)
  else (s.eventOwner 0x0F06 0x2A (p + bank * 256)).setService 1

/-! ### Background test (R442 to R444) -/

/-- The first region of the memory instance that holds region `r` (R24, R442). -/
def memInstance (r : Nat) : Nat :=
  if r < 49152 then r / 1024 * 1024
  else if r < 52224 then 49152 + (r - 49152) / 64 * 64
  else if r < 55296 then 52224 + (r - 52224) / 16 * 16
  else if r < 61440 then 55296
  else if r < 64256 then 61440 + (r - 61440) / 176 * 176
  else if r < 65024 then 64256 + (r - 64256) / 8 * 8
  else if r < 65280 then 65024 + (r - 65024) / 32 * 32
  else if r < 65408 then 65280
  else 65408

/-- Whether a region's slot passes unused: an off bank (R33), or a memory whose test has stopped. -/
def State.regionSkipped (s : State) (r : Nat) : Bool :=
  s.mem.stopped.contains (memInstance r) ||
    (decide (r < 49152) && (match s.logicalOf (r / 1024) with
      | some h => s.poweredOff h
      | none => true))

/-- After the slot of region `r`: a pass ends with the last region. -/
def MemSys.slotEnded (m : MemSys) (r : Nat) : MemSys :=
  if r = 65535 then { m with passes := m.passes + 1, rowErrors := [] } else m

/-- A read of word `w` of region `r` finds a correctable error: it is corrected and counted, and the second in one row
of a Hearth store within one pass takes a spare row (R439, R441). -/
def State.sramCorrected (s : State) (r w : Nat) : State :=
  let s1 := s.bump 0x2A0010 1
  if r < 49152 then
    let a := r % 1024 * 4096 + 8 * w
    let row := (r / 1024, bankOf a, a / 16384)
    let s2 := { s1 with mem := { s1.mem with rowErrors := row :: s1.mem.rowErrors } }
    if s1.mem.rowErrors.count row = 1 then s2.replaceRow (r / 1024) (bankOf a) else s2
  else s1

/-- The logical Hearth and the core whose instruction memory holds region `r`. -/
def State.imemAt (s : State) (r : Nat) : Option (Nat × Nat) :=
  if 64256 ≤ r ∧ r < 65024 then (s.logicalOf ((r - 64256) / 16)).map fun h => (h, (r - 64256) / 8 % 2) else none

/-- The uncorrectable words of a region that the machine knows of: those of Hearth stores and of instruction memories.
-/
def State.regionUe (s : State) (r : Nat) : List Nat :=
  if r < 49152 then
    match s.logicalOf (r / 1024) with
    | some h => ((s.hearth h).storeUe.filter fun w => w / 512 == r % 1024).map (· % 512)
    | none => []
  else
    match s.imemAt r with
    | some (h, c) => ((s.core h c).imemUe.filter fun w => w / 512 == r % 8).map (· % 512)
    | none => []

/-- Word `w` of a region becomes uncorrectable. -/
def State.setRegionUe (s : State) (r w : Nat) : State :=
  if r < 49152 then
    match s.logicalOf (r / 1024) with
    | some h => s.setHearth h { s.hearth h with storeUe := (r % 1024 * 512 + w) :: (s.hearth h).storeUe }
    | none => s
  else
    match s.imemAt r with
    | some (h, c) => s.setCore h c { s.core h c with imemUe := (r % 8 * 512 + w) :: (s.core h c).imemUe }
    | none => s

/-- The origin of a fault of region `r`'s memory: its Hearth, or the edge stop at which it lies (R24, R442). -/
def regionOrigin (r : Nat) : Nat :=
  if r < 49152 then originHearth (r / 1024)
  else if r < 52224 then originHearth ((r - 49152) / 64)
  else if r < 55296 then originHearth ((r - 52224) / 64)
  else if r < 61440 then originStop 22
  else if r < 64256 then originStop ((r - 61440) / 176)
  else if r < 65024 then originHearth ((r - 64256) / 16)
  else if r < 65280 then originStop (if (r - 65024) / 32 < 4 then 25 else 26)
  else originStop 20

/-- The copy of a region reads its words (R439, R443): `errors` are those, 0 to 511, in which it finds an error. [DESIGN
CHOICE: assumption 196] -/
def State.regionRead (s : State) (r : Nat) (errors : WordErrors) : State :=
  let known := s.regionUe r
  let bad := (known ++ errors.uncorrectable.map (· % 512)).eraseDups
  let s1 := (bad.filter fun w => !known.contains w).foldl (fun t w => t.setRegionUe r w) s
  let s2 := bad.foldl (fun t w => t.noteRegionUe (regionOrigin r) r w) s1
  ((errors.corrected.map (· % 512)).eraseDups.filter fun w => !bad.contains w).foldl (fun t w => t.sramCorrected r w) s2

/-- The slot of the next region begins. -/
def State.regionTest (s : State) : State :=
  let r := s.mem.region
  let m := { s.mem with region := (r + 1) % 65536 }
  if s.regionSkipped r then { s with mem := m.slotEnded r }
  else
    let s1 : State := { s with mem := { m with running := some r } }
    if r < 49152 then
      match s1.logicalOf (r / 1024) with
      | some h => (List.range 16).foldl (fun t b => t.wakeBank h b) s1
      | none => s1
    else s1

/-- REGION_TEST (R442, R443): every 15 µs of device time. -/
def execRegionTest (s : State) : Out :=
  withUnit true
    (if !s.live || !(s.reg 0x2A0004).getLsbD 0 || s.mem.running.isSome then s else s.each 4 15000 State.regionTest)

/-- REGION_TEST_DONE (R443, R444): the errors that the copies meet count first, then the test's failing banks or rows.
-/
def execRegionTestDone (x : RegionResult) (s : State) : Out :=
  withUnit true
    (match s.mem.running with
     | none => s
     | some r =>
      let failing := x.failing
      let s0 := s.regionRead r x.errors
      let s1 := { s0 with mem := { s0.mem with running := none }.slotEnded r }
      if failing = [] then s1
      else
        let keep := decide (49152 ≤ r)
        let s2 := ((s1.bump 0x2A0018 1).logFault (regionOrigin r) 0x11 r failing.length (if keep then 1 else 0)).eventOwner
          0x0F03 0x2A r
        if keep then
          ({ s2 with mem := { s2.mem with stopped := memInstance r :: s2.mem.stopped
                                          redirected := r :: s2.mem.redirected } } : State).setService 5
        else (failing.map (· % 16)).foldl (fun t b => t.replaceRow (r / 1024) b) s2)

/-- BANK_WAKE (R440). -/
def execBankWake (h bank : Nat) (s : State) : Out :=
  withUnit (hearthOk h && decide (bank < 16)) (s.wakeBank h bank)

/-! ### Patrol scrub (R446 to R448) -/

/-- Lines of a channel. -/
def chLines : Nat := chBytes / 64

/-- A correctable word at word index `w` of a channel: it is corrected and counted, and the third address of a
64 KiB block in one pass remaps the block (R446). -/
def State.dramCorrected (s : State) (ch w : Nat) : State :=
  let v := s.channel ch
  let block := w / 8192
  let seen := if v.seen.contains (block, w) then v.seen else (block, w) :: v.seen
  let v1 := { v with corrected := v.corrected + 1, seen := seen }
  let s1 := (s.setChannel ch v1).bump 0x2A001C 1
  if (seen.filter fun e => e.1 == block).length = 3 ∧ !v.seen.contains (block, w) ∧ !v.remapped.contains block then
    if v.remapped.length < 512 then
      let s2 := (s1.logFault (originStop (ch / 2)) 0x14 ch block v.remapped.length).setChannel ch
        { v1 with remapped := v1.remapped ++ [block] }
      if v.remapped.length = 511 then s2.retireChannel ch else s2
    else s1.retireChannel ch
  else s1

/-- Nanoseconds from one line of a channel to the next: 1,792 MiB in 14,400 s (R448). -/
def scrubGap : Nat := 14400000000000 / chLines

/-- SCRUB_LINE (R448), at the channel's pace: the next line is read. [DEDUCED: assumption 195] -/
def execScrubLine (ch : Nat) (x : LineErrors) (s : State) : Out :=
  withUnit (channelOk ch)
    (if !s.live || !(s.reg 0x2A0004).getLsbD 1 || s.flt.retiredCh.contains ch ||
        decide (s.time < (s.channel ch).scrubFrom) then s
     else
      let line := (s.channel ch).scrubLine
      let known := (List.range 8).filter fun i => s.dramUe.contains (ch * (chBytes / 8) + line * 8 + i)
      let bad := (known ++ x.words.uncorrectable.map (· % 8)).eraseDups
      let s1 := { s with dramUe := s.dramUe ++ (bad.filter fun i => !known.contains i).map fun i =>
        ch * (chBytes / 8) + line * 8 + i }
      let v := s1.channel ch
      let wrap := decide (line + 1 = chLines)
      let s2 := s1.setChannel ch { v with scrubLine := if wrap then 0 else line + 1
                                          scrubFrom := s.time + scrubGap
                                          passes := if wrap then v.passes + 1 else v.passes }
      let s3 := ((x.words.corrected.map (· % 8)).eraseDups.filter fun i => !bad.contains i).foldl
        (fun t i => t.dramCorrected ch (line * 8 + i)) s2
      let s4 := bad.foldl (fun t i => t.dramUeAt ch (line * 64 + 8 * i)) s3
      let s5 := if wrap then s4.setChannel ch { s4.channel ch with seen := [] } else s4
      let s5 := if x.link = 0 then s5 else s5.bump 0x2A0024 x.link
      match x.waySet, s5.wayOfLine ch (line * 64) with
      | some set, some way => s5.wayError way set
      | _, _ => s5)

end Sys2Proof.Machine
end

