-- ==== Sys2Proof/Machine/Raster.lean ====
section
/-! DEFINITION. The arithmetic of the raster pipeline (R278, R281, R284 to R286, R292 to R295): formats,
draw and pass fields, clipping, coverage, barycentrics, blending and block compression. -/

namespace Sys2Proof.Machine

/-! ### Byte lists -/

/-- The `n`-byte little-endian number at byte `o` of a list. -/
def leAt (bs : List Byte) (o n : Nat) : Nat := leNat ((bs.drop o).take n)

/-- Whether bytes [o, o + n) of a list are all zero. -/
def zeroAt (bs : List Byte) (o n : Nat) : Bool := ((bs.drop o).take n).all fun b => b == 0

/-! ### Formats (R278, R294, R301) -/

/-- Bytes per texel of a format code. -/
def fmtBytes (f : Nat) : Nat :=
  if f = 1 then 1 else if f = 2 ∨ f = 4 ∨ f = 7 then 2 else if f = 6 then 8 else 4

/-- Channels of a format and the bits of each. -/
def fmtChannels (f : Nat) : Nat :=
  if f = 2 ∨ f = 5 then 2 else if f = 3 ∨ f = 6 then 4 else 1
def fmtBits (f : Nat) : Nat := fmtBytes f * 8 / fmtChannels f

def fmtColour (f : Nat) : Bool := decide (1 ≤ f) && decide (f ≤ 6)
def fmtDepth (f : Nat) : Bool := f == 7 || f == 8

/-- fp32 constants. -/
def f32one : Nat := 0x3F800000
def f32half : Nat := 0x3F000000

/-- `clamp(v, 0, 1)` in fp32. -/
def f32sat01 (v : Nat) : Nat := if f32lt v 0 then 0 else if f32lt f32one v then f32one else v

/-- An fp32 value as a channel of `n` bits: UNORM for formats 1 to 3 and 7, fp16 for 4 to 6, fp32 for 8. A NaN
becomes 0 (R294). -/
def toChannel (f v : Nat) : Nat :=
  if f32isNan v then 0
  else if f = 8 then v
  else if 4 ≤ f ∧ f ≤ 6 then cvtFmt fp32 fp16 v
  else
    let scale := if f = 7 then 65535 else 255
    ((fp32.decode (f32mul (f32sat01 v) (f32ofInt scale))).roundScaled 0).toNat

/-- A channel as fp32 (R301). -/
def ofChannel (f x : Nat) : Nat :=
  if f = 8 then x
  else if 4 ≤ f ∧ f ≤ 6 then cvtFmt fp16 fp32 x
  else f32div (f32ofInt x) (f32ofInt (if f = 7 then 65535 else 255))

/-- Channel `i` of a texel code. -/
def channelOf (f code i : Nat) : Nat := code / 2 ^ (fmtBits f * i) % 2 ^ fmtBits f

/-- The four fp32 components of a texel: missing channels read as 0, alpha as 1 (R301). -/
def texelOf (f code : Nat) : List Nat :=
  (List.range 4).map fun i =>
    if i < fmtChannels f then ofChannel f (channelOf f code i) else if i = 3 then f32one else 0

/-- The texel code of four fp32 components. -/
def codeOf (f : Nat) (v : List Nat) : Nat :=
  ((List.range (fmtChannels f)).map fun i => toChannel f (v.getD i 0) % 2 ^ fmtBits f * 2 ^ (fmtBits f * i)).sum

/-- Blending of one component (R294): mode, source, destination and source alpha. -/
def blend1 (mode s d a : Nat) : Nat :=
  let ia := f32sub f32one a
  if mode = 0 then s
  else if mode = 1 then f32add (f32mul s a) (f32mul d ia)
  else if mode = 2 then f32add s d
  else f32add s (f32mul d ia)

/-- Blend four components over a texel and convert the result. -/
def blendTexel (f mode : Nat) (s : List Nat) (dst : Nat) : Nat :=
  let d := texelOf f dst
  codeOf f ((List.range 4).map fun i => blend1 mode (s.getD i 0) (d.getD i 0) (s.getD 3 0))

/-! ### Depth (R281, R291) -/

/-- A fragment's depth as the attachment holds it, as fp32; without a D16 attachment it is fp32 already. [DEDUCED:
assumption 132] -/
def depthKept (f z : Nat) : Nat := if f = 7 then ofChannel 7 (toChannel 7 z) else z

/-- The depth test of a draw's `depth` byte. -/
def depthPass (dtest z d : Nat) : Bool :=
  let t := dtest % 8
  if t = 0 then false
  else if t = 1 then f32lt z d
  else if t = 2 then f32lt z d || f32eq z d
  else if t = 3 then f32eq z d
  else if t = 4 then f32lt d z
  else if t = 5 then f32lt d z || f32eq z d
  else if t = 6 then !f32eq z d
  else true

/-- Whether a primitive is of the opaque class (R281), and whether its program may discard. -/
def Prim.isOpaque (p : Prim) : Bool := p.blend == 0 && !p.rast.testBit 3
def Prim.discards (p : Prim) : Bool := p.rast.testBit 3
/-- Whether its depth is written. -/
def Prim.writesDepth (p : Prim) : Bool := p.dtest.testBit 3 && p.mask.testBit 0

/-! ### Clipping and projection (R284) -/

/-- A vertex in clip space: sixteen fp32 values, x, y, z, w and 12 varyings. -/
abbrev ClipVertex := List Nat

/-- 2^-20 and the guard band of 16,384 pixels in fp32. -/
def f32minW : Nat := 0x35800000
def f32guard : Nat := 0x46800000

/-- The signed distance of a vertex to a clip plane: 0 is w − 2^-20, and 1 to 4 keep ±x and ±y, scaled to
pixels from the target's centre, within the guard band. -/
def clipDist (width height plane : Nat) (v : ClipVertex) : Nat :=
  let w := v.getD 3 0
  let half (n : Nat) : Nat := f32mul (f32ofInt n) f32half
  let g := f32mul w f32guard
  let x := f32mul (v.getD 0 0) (half width)
  let y := f32mul (v.getD 1 0) (half height)
  if plane = 0 then f32sub w f32minW
  else if plane = 1 then f32sub g x
  else if plane = 2 then f32add g x
  else if plane = 3 then f32sub g y
  else f32add g y

/-- A new vertex at parameter t between two, every value interpolated linearly. -/
def clipMix (a b : ClipVertex) (t : Nat) : ClipVertex :=
  (List.range 16).map fun i => f32add (a.getD i 0) (f32mul t (f32sub (b.getD i 0) (a.getD i 0)))

/-- A vertex of a polygon in the making: its values and, when it is an input vertex, its address. -/
abbrev PolyVertex := ClipVertex × Option Nat

/-- Clip a polygon against one plane, edge by edge in order. [DESIGN CHOICE: assumption 20; DEDUCED: assumption 131] -/
def clipPlane (width height plane : Nat) (poly : List PolyVertex) : List PolyVertex :=
  (List.range poly.length).flatMap fun i =>
    let a := poly.getD i ([], none)
    let b := poly.getD ((i + 1) % poly.length) ([], none)
    let da := clipDist width height plane a.1
    let db := clipDist width height plane b.1
    let ina := !f32lt da 0 && !f32isNan da
    let inb := !f32lt db 0 && !f32isNan db
    let cut : PolyVertex := (clipMix a.1 b.1 (f32div da (f32sub da db)), none)
    (if ina then [a] else []) ++ (if ina == inb then [] else [cut])

/-- Clip a triangle against the five planes. -/
def clipTriangle (width height : Nat) (tri : List PolyVertex) : List PolyVertex :=
  (List.range 5).foldl (fun poly plane => clipPlane width height plane poly) tri

/-- The snapped screen position of a clipped vertex, in 1/256 pixel; a coordinate that is not finite is a free value,
draw `free` or the next (assumption 20). -/
def snapped (width height : Nat) (v : ClipVertex) (free : Nat) : Int × Int :=
  let w := v.getD 3 0
  let xs := f32mul (f32mul (f32add (f32div (v.getD 0 0) w) f32one) (f32ofInt width)) f32half
  let ys := f32mul (f32mul (f32sub f32one (f32div (v.getD 1 0) w)) (f32ofInt height)) f32half
  let unit (x k : Nat) : Int := match fp32.decode x with
    | .fin a m e => (FVal.fin a m e).roundScaled 8
    | _ => ((Config.freeValue (free + k)).truncate 32 : Word).toInt
  (unit xs 0, unit ys 1)

/-- Twice the signed area of a snapped triangle; positive is clockwise on the screen, whose y runs down. -/
def area2 (p : List (Int × Int)) : Int :=
  let a := p.getD 0 (0, 0)
  let b := p.getD 1 (0, 0)
  let c := p.getD 2 (0, 0)
  (b.1 - a.1) * (c.2 - a.2) - (c.1 - a.1) * (b.2 - a.2)

/-- Whether culling keeps a triangle: nonzero area, and the facing that `raster` wants. -/
def keepTriangle (rast : Nat) (p : List (Int × Int)) : Bool :=
  let a := area2 p
  let front := decide (0 < a) == rast.testBit 2
  decide (a ≠ 0) && (rast % 4 == 0 || (rast % 4 == 1 && front) || (rast % 4 == 2 && !front))

/-! ### Coverage (R292) -/

/-- The value at a pixel centre of the edge function opposite vertex i of a triangle turned to positive area,
and whether a centre on that edge counts (a top or left edge). -/
def edgeAt (p : List (Int × Int)) (i : Nat) (x y : Nat) : Int × Bool :=
  let pos := decide (0 < area2 p)
  let j := (i + 1) % 3
  let k := (i + 2) % 3
  let a := p.getD (if pos then j else k) (0, 0)
  let b := p.getD (if pos then k else j) (0, 0)
  let px : Int := 256 * x + 128
  let py : Int := 256 * y + 128
  let dx := b.1 - a.1
  let dy := b.2 - a.2
  (dx * (py - a.2) - dy * (px - a.1), decide (dy < 0) || (decide (dy = 0) && decide (0 < dx)))

/-- Whether a triangle covers pixel (x, y). -/
def covers (p : List (Int × Int)) (x y : Nat) : Bool :=
  (List.range 3).all fun i =>
    let (e, tl) := edgeAt p i x y
    decide (0 < e) || (e == 0 && tl)

/-- λ_i at a pixel centre, in fp32. -/
def lambda (p : List (Int × Int)) (i x y : Nat) : Nat :=
  f32div (f32ofInt (edgeAt p i x y).1) (f32ofInt (area2 p).natAbs)

/-- Depth at a pixel centre. -/
def Prim.depthAt (q : Prim) (x y : Nat) : Nat :=
  let t (i : Nat) : Nat := f32mul (lambda q.pos i x y) (q.z.getD i 0)
  f32add (f32add (t 0) (t 1)) (t 2)

/-- The perspective-correct barycentrics b1 and b2 at a pixel centre. -/
def Prim.bary (q : Prim) (x y : Nat) : Nat × Nat :=
  let r (i : Nat) : Nat := f32div (lambda q.pos i x y) (q.w.getD i 0)
  let sum := f32add (f32add (r 0) (r 1)) (r 2)
  (f32div (r 1) sum, f32div (r 2) sum)

/-- Pixel of lane l in block b of a tile (R293), within the tile. -/
def lanePixel (b l : Nat) : Nat × Nat :=
  (b % 8 * 4 + 2 * (l / 4 % 2) + l % 4 % 2, b / 8 * 4 + 2 * (l / 4 / 2) + l % 4 / 2)

/-- Whether the snapped bounding box of a primitive overlaps a tile (R286). -/
def Prim.meetsTile (q : Prim) (tx ty : Nat) : Bool :=
  let xs := q.pos.map Prod.fst
  let ys := q.pos.map Prod.snd
  let lo (l : List Int) : Int := l.foldl min (l.headD 0)
  let hi (l : List Int) : Int := l.foldl max (l.headD 0)
  decide (lo xs < 8192 * ((tx : Int) + 1)) && decide ((8192 : Int) * tx < hi xs) &&
    decide (lo ys < 8192 * ((ty : Int) + 1)) && decide ((8192 : Int) * ty < hi ys)

/-! ### Blocks (R295) -/

/-- The signed deltas of channel i of 64 pixels. -/
def blockDeltas (f : Nat) (px : List Nat) (i : Nat) : List Int :=
  (List.range 63).map fun k =>
    let n := k + 1
    let pred := if n % 8 = 0 then px.getD (n - 8) 0 else px.getD (n - 1) 0
    let c := fmtBits f
    let d := (channelOf f (px.getD n 0) i + 2 ^ c - channelOf f pred i) % 2 ^ c
    if d < 2 ^ (c - 1) then (d : Int) else (d : Int) - (2 ^ c : Nat)

/-- The least width, up to `c`, at which every delta fits; 0 if all are 0. -/
def deltaWidth (ds : List Int) : Nat → Nat
  | 0 => 0
  | c + 1 =>
    let w := deltaWidth ds c
    if w ≤ c ∧ ds.all (fun d => if w = 0 then d == 0 else
        decide (-(2 ^ (w - 1) : Nat) ≤ d) && decide (d < (2 ^ (w - 1) : Nat))) then w
    else c + 1

/-- Pack values side by side, least significant bit first, as a number. -/
def packBits : List (Nat × Nat) → Nat
  | [] => 0
  | (w, v) :: rest => v % 2 ^ w + 2 ^ w * packBits rest

/-- The compressed payload of 64 texel codes. -/
def blockPayload (f : Nat) (px : List Nat) : List Byte :=
  let chans := List.range (fmtChannels f)
  let ds := chans.map (blockDeltas f px)
  let ws := ds.map fun d => deltaWidth d (fmtBits f)
  let bits := (List.range (fmtChannels f)).flatMap fun i =>
    (ds.getD i []).map fun d => (ws.getD i 0, bitsOf (fmtBits f) d)
  (ws.map fun w => BitVec.ofNat 8 w) ++
    (chans.flatMap fun i => natLe (channelOf f (px.getD 0 0) i) (fmtBits f / 8)) ++
    natLe (packBits bits) ((63 * ws.sum + 7) / 8)

/-- `units` and the stored bytes of a block of 64 texel codes with clear code `clear` (R295). -/
def encodeBlock (f clear : Nat) (px : List Nat) : Nat × List Byte :=
  let raw := 64 * fmtBytes f
  if px.all fun x => x == clear then (0, [])
  else
    let pay := blockPayload f px
    let u := (pay.length * 8 + raw - 1) / raw
    if 8 ≤ u then (8, px.flatMap fun x => natLe x (fmtBytes f))
    else (u, pay ++ List.replicate (u * raw / 8 - pay.length) 0)

/-- The values of one channel from its first value and its deltas. -/
def undelta (c first : Nat) (ds : List Nat) : List Nat :=
  ds.foldl (fun vs d =>
    let n := vs.length
    let pred := if n % 8 = 0 then vs.getD (n - 8) 0 else vs.getD (n - 1) 0
    vs ++ [(pred + d) % 2 ^ c]) [first]

/-- The 64 texel codes of a stored block. -/
def decodeBlock (f clear units : Nat) (bs : List Byte) : List Nat :=
  if units = 0 then List.replicate 64 clear
  else if 8 ≤ units then (List.range 64).map fun i => leAt bs (i * fmtBytes f) (fmtBytes f)
  else
    let c := fmtBits f
    let n := fmtChannels f
    let ws := (List.range n).map fun i => min (leAt bs i 1) c
    let all := leNat (bs.drop (n + n * c / 8))
    let start (i : Nat) : Nat := 63 * (ws.take i).sum
    let chans := (List.range n).map fun i =>
      let w := ws.getD i 0
      let ds := (List.range 63).map fun k =>
        let d := all / 2 ^ (start i + k * w) % 2 ^ w
        if w = 0 ∨ d < 2 ^ (w - 1) then d else d + 2 ^ c - 2 ^ w
      undelta c (leAt bs (n + i * c / 8) (c / 8)) ds
    (List.range 64).map fun k => ((List.range n).map fun i => (chans.getD i []).getD k 0 * 2 ^ (c * i)).sum

/-! ### Pass descriptors (R277 to R279) -/

/-- Fields of a pass descriptor's bytes. -/
def passWidth (d : List Byte) : Nat := leAt d 0 2
def passHeight (d : List Byte) : Nat := leAt d 2 2
def passTW (d : List Byte) : Nat := (passWidth d + 31) / 32
def passTH (d : List Byte) : Nat := (passHeight d + 31) / 32
def passSlots (d : List Byte) : Nat := leAt d 6 2
def passDraws (d : List Byte) : Nat := leAt d 8 4
def passBatch (d : List Byte) : Nat := leAt d 12 4
def passList (d : List Byte) : Nat := leAt d 24 8
def passListBytes (d : List Byte) : Nat := leAt d 32 4

/-- Attachment i: format, destination, load, store address, clear code, DRAM base and header base. -/
def attFmt (d : List Byte) (i : Nat) : Nat := leAt d (64 + 32 * i) 1
def attDest (d : List Byte) (i : Nat) : Nat := leAt d (65 + 32 * i) 1
def attLoad (d : List Byte) (i : Nat) : Nat := leAt d (66 + 32 * i) 1
def attAddr (d : List Byte) (i : Nat) : Nat := leAt d (68 + 32 * i) 4
def attClear (d : List Byte) (i : Nat) : Nat := leAt d (72 + 32 * i) 8 % 2 ^ (8 * fmtBytes (attFmt d i))
def attData (d : List Byte) (i : Nat) : Nat := leAt d (80 + 32 * i) 8
def attHdr (d : List Byte) (i : Nat) : Nat := leAt d (88 + 32 * i) 8
/-- Row pitch of a HEARTH attachment. -/
def attPitch (d : List Byte) (i : Nat) : Nat := (passWidth d * fmtBytes (attFmt d i) + 63) / 64 * 64

/-- Blocks of the whole target. -/
def passBlocks (d : List Byte) : Nat := (passWidth d + 7) / 8 * ((passHeight d + 7) / 8)

/-- Bytes of a flush record (R289). -/
def flushRecord (d : List Byte) : Nat :=
  ((List.range 5).map fun i => if attDest d i = 1 then 1024 * fmtBytes (attFmt d i) + 128 else 0).sum

/-- Offset of attachment i in a flush record. -/
def flushOffset (d : List Byte) (i : Nat) : Nat :=
  ((List.range i).map fun k => if attDest d k = 1 then 1024 * fmtBytes (attFmt d k) + 128 else 0).sum

/-- Whether an attachment is well formed (R278, R279); `rows` is the largest stripe and `size` the Cord region's. -/
def attOk (c : CordCfg) (d : List Byte) (rows size i : Nat) : Bool :=
  let f := attFmt d i
  if attDest d i = 0 then zeroAt d (64 + 32 * i) 32
  else
    decide (attDest d i ≤ 2) && (if i = 0 then fmtDepth f else fmtColour f) && decide (attLoad d i ≤ 2) &&
    zeroAt d (67 + 32 * i) 1 &&
    (if attDest d i = 1 then
      attAddr d i % 64 == 0 && decide (c.tileAt ≤ attAddr d i) &&
        decide (attAddr d i + rows * attPitch d i ≤ c.workAt)
     else
      attAddr d i == 0 && attData d i % 64 == 0 && attHdr d i % 8 == 0 &&
        decide (attData d i + passBlocks d * 64 * fmtBytes f ≤ size) &&
        decide (attHdr d i + passBlocks d * 8 ≤ size))

/-! ### Draw records (R281) -/

/-- Whether a draw record is valid; `sigs` is the number of the shader set's entries and `size` the Cord
region's. -/
def drawOk (b : List Byte) (sigs size : Nat) : Bool :=
  let f (o n : Nat) : Nat := leAt b o n
  decide (1 ≤ f 0 1) && decide (f 0 1 ≤ 2) && decide (f 1 1 ≤ 2) && decide (f 2 1 ≤ 3) && decide (f 3 1 < 16) &&
  decide (f 4 1 < 16) && decide (f 4 1 % 4 ≤ 2) && f 5 1 == 0 && decide (f 6 2 < sigs) && decide (f 8 2 < sigs) &&
  decide (4 ≤ f 10 2) && decide (f 10 2 ≤ 256) && f 10 2 % 4 == 0 && decide (1 ≤ f 12 4) &&
  decide (f 12 4 ≤ 16777216) && (if f 0 1 = 1 then f 16 4 % 3 == 0 else decide (3 ≤ f 16 4)) &&
  decide (f 20 2 ≤ 512) && f 20 2 % 16 == 0 && f 22 2 == 0 &&
  (if f 1 1 = 0 then f 32 8 == 0 else decide (f 32 8 + f 16 4 * (2 * f 1 1) ≤ size)) &&
  decide (f 24 8 + f 12 4 * f 10 2 ≤ size) && decide (f 40 8 + f 20 2 ≤ size) &&
  decide (f 48 2 < 32) && zeroAt b 50 14

/-- The element positions of triangle i of a list (1) or strip (2) (R284). -/
def triElems (prim i : Nat) : List Nat :=
  if prim = 1 then [3 * i, 3 * i + 1, 3 * i + 2]
  else if i % 2 = 0 then [i, i + 1, i + 2] else [i + 1, i, i + 2]
def triCount (prim n : Nat) : Nat := if prim = 1 then n / 3 else n - 2

end Sys2Proof.Machine
end

