-- ==== Sys2Proof/Machine/RasterUnit.lean ====
section
/-! DEFINITION. The binning units, raster tile units and blend units at work on a pass (R276 to R306). -/

namespace Sys2Proof.Machine

/-! ### Failures and list memory -/

/-- A RASTER job ends with a program error (R304): cause 1 PASS_INVALID, 2 DRAW_INVALID, 3 TEXTURE_INVALID,
4 TILE_LIST_EXHAUSTED. -/
def State.failRaster (s : State) (j : Job) (cause : Nat) : State :=
  (s.setReg (cordAddr j.cord 0xE000) (BitVec.ofNat 32 (cause * 256))).endJob j.sub
    (if cause = 4 then 0x09 else 0x7F + cause)

def State.modPass (s : State) (sub : Nat) (f : Pass → Pass) : State :=
  s.modJob sub fun j => { j with pass := f j.pass }

/-- Apply `f` to stretch k of a pass. -/
def Pass.modStretch (p : Pass) (k : Nat) (f : Stretch → Stretch) : Pass :=
  { p with stretches := p.stretches.set k (f (p.stretches.getD k {})) }

def State.modStretch (s : State) (sub k : Nat) (f : Stretch → Stretch) : State :=
  s.modPass sub fun p => p.modStretch k f

/-- `RAS_LIST_PEAK`: the largest list memory of one segment since the last read, in 64 KiB units (R305). -/
def State.listPeak (s : State) (n bytes : Nat) : State :=
  let k := cordAddr n 0xE01C
  s.setReg k (BitVec.ofNat 32 (max (s.reg k).toNat ((bytes + 65535) / 65536)))

/-- The stretch index of a Hearth in a job. -/
def Job.stretchOf (j : Job) (h : Nat) : Nat := j.hearths.findIdx (· == h)

/-- First row of stretch k. -/
def Job.rowFirst (j : Job) (k : Nat) : Nat := j.cuts.getD k 0

/-! ### Stored blocks (R289, R295, R296) -/

/-- Write a block of a DRAM target unless a later pass has written it: header and payload together. -/
def State.putBlock (s : State) (j : Job) (c : CordCfg) (hdr data f clear : Nat) (px : List Nat) : State :=
  s.jobRead j.sub c hdr 8 fun s =>
    let later := (s.cordLe c (hdr + 4) 4 + 2 ^ 32 - j.sub) % 2 ^ 32
    if 1 ≤ later ∧ later < 2 ^ 31 then s
    else
      let (units, pay) := encodeBlock f clear px
      s.jobWrite j.sub c data pay fun s => s.jobWrite j.sub c hdr (natLe (units + j.sub * 2 ^ 32) 8) id

/-- Whether a read of a stored block meets an uncorrectable word. -/
def State.blockUe (s : State) (c : CordCfg) (hdr data f : Nat) : Bool :=
  s.cordUe c hdr 8 || s.cordUe c data ((s.cordLe c hdr 1 % 16) * 8 * fmtBytes f)

/-- The 64 texel codes of a stored block. -/
def State.getBlock (s : State) (c : CordCfg) (hdr data f clear : Nat) : List Nat :=
  let units := s.cordLe c hdr 1 % 16
  decodeBlock f clear units (s.cordBytes c data (min units 8 * 8 * fmtBytes f))

/-- Index of pixel (x, y) of a tile in its 1,024. -/
def tilePixel (x y : Nat) : Nat := y * 32 + x

/-- The 64 codes of block b (0 to 15) of a tile; pixels beyond the target are 0. -/
def tileBlock (d : List Byte) (t : TileRt) (i b : Nat) : List Nat :=
  (List.range 64).map fun k =>
    let x := b % 4 * 8 + k % 8
    let y := b / 4 * 8 + k / 8
    if t.tx * 32 + x < passWidth d ∧ t.ty * 32 + y < passHeight d then
      (t.pix.getD i []).getD (tilePixel x y) 0
    else 0

/-- The blocks of a tile that lie in the target, with the block number of R295. -/
def tileBlocks (d : List Byte) (tx ty : Nat) : List (Nat × Nat) :=
  (List.range 16).filterMap fun b =>
    let bx := tx * 4 + b % 4
    let by' := ty * 4 + b / 4
    if bx < (passWidth d + 7) / 8 ∧ by' < (passHeight d + 7) / 8 then
      some (b, by' * ((passWidth d + 7) / 8) + bx)
    else none

/-- A tile's codes from its sixteen blocks. -/
def fromBlocks (blocks : List (Nat × List Nat)) : List Nat :=
  (List.range 1024).map fun p =>
    let x := p % 32
    let y := p / 32
    match blocks.find? fun e => e.1 == y / 8 * 4 + x / 8 with
    | some e => e.2.getD (y % 8 * 8 + x % 8) 0
    | none => 0

/-! ### Loading and resolving a tile (R291) -/

/-- Where block b of attachment i of a tile stands in DRAM: header and payload. A HEARTH attachment stands in
the flush area. -/
def blockPlace (d : List Byte) (tx ty i : Nat) (b : Nat × Nat) : Nat × Nat :=
  let r := 64 * fmtBytes (attFmt d i)
  if attDest d i = 2 then (attHdr d i + 8 * b.2, attData d i + b.2 * r)
  else
    let base := leAt d 40 8 + (ty * passTW d + tx) * flushRecord d + flushOffset d i
    (base + 8 * b.1, base + 128 + b.1 * r)

/-- Address in the Hearth store of pixel (x, y) of the target (R279). -/
def attPixel (d : List Byte) (first i x y : Nat) : Nat :=
  attAddr d i + (y - first) * attPitch d i + x * fmtBytes (attFmt d i)

/-- The codes of attachment i as a Hearth store holds them. -/
def storeTile (m : SMap Byte) (d : List Byte) (first i tx ty : Nat) : List Nat :=
  (List.range 1024).map fun p =>
    let x := tx * 32 + p % 32
    let y := ty * 32 + p / 32
    if x < passWidth d ∧ y < passHeight d then m.readLe (attPixel d first i x y) (fmtBytes (attFmt d i)) else 0

/-- Free texel codes. [DESIGN CHOICE: assumption 133] -/
def State.freeTexels (s : State) (f : Nat) : Nat → List Nat × State
  | 0 => ([], s)
  | n + 1 =>
    let (v, t) := s.draw
    let (r, u) := t.freeTexels f n
    (v.toNat % 2 ^ (8 * fmtBytes f) :: r, u)

/-- The rows of a tile in the Hearth store, as (address, bytes). -/
def tileRanges (d : List Byte) (first i tx ty : Nat) : List (Nat × Nat) :=
  (List.range (min 32 (passHeight d - ty * 32))).map fun r =>
    (attPixel d first i (tx * 32) (ty * 32 + r), (min 32 (passWidth d - tx * 32)) * fmtBytes (attFmt d i))

/-- How attachment i of a tile gets its first contents: 0 clear, 1 from the store, 2 from DRAM blocks, 3 open. -/
def loadKind (d : List Byte) (again : Bool) (i : Nat) : Nat :=
  if again then 2
  else if attLoad d i = 0 then 0
  else if attLoad d i = 1 then attDest d i
  else 3

/-- Load attachment i of a tile (R287, R291). -/
def State.loadAtt (s : State) (j : Job) (c : CordCfg) (h tx ty : Nat) (again : Bool) (i : Nat) :
    List Nat × State :=
  let d := j.desc
  let k := loadKind d again i
  if attDest d i = 0 then ([], s)
  else if k = 0 then (List.replicate 1024 (attClear d i), s)
  else if k = 1 then (storeTile (s.hearth h).store d (j.rowFirst (j.stretchOf h)) i tx ty, s)
  else if k = 2 then
    (fromBlocks ((tileBlocks d tx ty).map fun b =>
      let (hdr, data) := blockPlace d tx ty i b
      (b.1, s.getBlock c hdr data (attFmt d i) (attClear d i))), s)
  else s.freeTexels (attFmt d i) 1024

/-- Load all attachments, and the running depth of each pixel as fp32; without a depth attachment it is open. -/
def State.loadTile (s : State) (j : Job) (c : CordCfg) (h tx ty : Nat) : TileRt × State :=
  let again := j.pass.rendered.contains (ty * passTW j.desc + tx)
  let (pix, s1) := (List.range 5).foldl (fun (a : List (List Nat) × State) i =>
    let (p, t) := a.2.loadAtt j c h tx ty again i
    (a.1 ++ [p], t)) ([], s)
  let f := attFmt j.desc 0
  let (depth, s2) := if attDest j.desc 0 = 0 then s1.freeTexels 8 1024
    else ((pix.getD 0 []).map fun x => ofChannel f x, s1)
  ({ tx := tx, ty := ty, pix := pix, depth := depth }, s2)

/-- The reads of a tile's load: Hearth store ranges, and whether a DRAM block is uncorrectable. -/
def tileLoadReads (j : Job) (h tx ty : Nat) : List (Nat × Nat) :=
  let again := j.pass.rendered.contains (ty * passTW j.desc + tx)
  (List.range 5).flatMap fun i =>
    if attDest j.desc i ≠ 0 ∧ loadKind j.desc again i = 1 then
      tileRanges j.desc (j.rowFirst (j.stretchOf h)) i tx ty
    else []

def State.tileLoadUe (s : State) (j : Job) (c : CordCfg) (tx ty : Nat) : Option (Nat × Nat) :=
  let again := j.pass.rendered.contains (ty * passTW j.desc + tx)
  ((List.range 5).flatMap fun i =>
    if attDest j.desc i ≠ 0 ∧ loadKind j.desc again i = 2 then
      ((tileBlocks j.desc tx ty).map fun b => blockPlace j.desc tx ty i b).filter fun e =>
        s.blockUe c e.1 e.2 (attFmt j.desc i)
    else []).head?

/-- The codes of attachment 0 after the tile: the running depth in its format, where it has changed. -/
def TileRt.finalPix (t : TileRt) (d : List Byte) : List (List Nat) :=
  let f := attFmt d 0
  if attDest d 0 = 0 then t.pix
  else t.pix.set 0 (List.zipWith (fun z x => if ofChannel f x = z then x else toChannel f z) t.depth (t.pix.getD 0 []))

/-- Write a tile's texels in place into its Hearth store. -/
def storeResolve (m : SMap Byte) (d : List Byte) (first : Nat) (t : TileRt) (i : Nat) : SMap Byte :=
  (List.range 1024).foldl (fun m p =>
    let x := t.tx * 32 + p % 32
    let y := t.ty * 32 + p / 32
    if x < passWidth d ∧ y < passHeight d then
      m.writeLe (attPixel d first i x y) (fmtBytes (attFmt d i)) ((t.pix.getD i []).getD p 0)
    else m) m

/-- After the last tile of a segment: the next segment, or the end of the pass (R282, R287). -/
def Pass.segmentOver (p : Pass) : Bool :=
  p.phase == 2 && p.stretches.all fun x => x.tiles.isEmpty && x.tile.isNone

/-- Resolve a tile (R291 step 5): in place, as blocks to DRAM, and before a flush also the HEARTH attachments to the
flush area (R287 step 3); both cores of the Hearth get a boundary (R297). [DEDUCED: assumption 135] -/
def State.resolveTile (s : State) (j : Job) (c : CordCfg) (h : Nat) (t0 : TileRt) : State :=
  let d := j.desc
  let k := j.stretchOf h
  let t := { t0 with pix := t0.finalPix d }
  let v := s.hearth h
  let store := (List.range 5).foldl (fun m i =>
    if attDest d i = 1 then storeResolve m d (j.rowFirst k) t i else m) v.store
  let s1 := s.setHearth h { v with store := store }
  let s2 := (List.range 5).foldl (fun u i =>
    if attDest d i = 2 ∨ (attDest d i = 1 ∧ j.pass.flush) then
      (tileBlocks d t.tx t.ty).foldl (fun w b =>
        let (hdr, data) := blockPlace d t.tx t.ty i b
        if attDest d i = 2 then w.putBlock j c hdr data (attFmt d i) (attClear d i) (tileBlock d t i b.1)
        else
          let (units, pay) := encodeBlock (attFmt d i) (attClear d i) (tileBlock d t i b.1)
          (w.putCordBytes c data pay).putCordBytes c hdr (natLe (units + j.sub * 2 ^ 32) 8)) u
    else u) s1
  s2.modPass j.sub fun p =>
    { p.modStretch k fun x => { x with tile := none, bound := [1, 1] } with
      rendered := (t.ty * passTW d + t.tx) :: p.rendered }

/-! ### Fragments (R291 to R294) -/

/-- The lanes of block b that a primitive covers and `f` accepts, as a mask. -/
def laneMask (f : Nat → Nat → Bool) (b : Nat) : Nat :=
  ((List.range 16).map fun l =>
    let (x, y) := lanePixel b l
    if f x y then 2 ^ l else 0).sum

/-- The batches of a primitive over a tile. -/
def primBatches (q : Prim) (f : Nat → Nat → Bool) : List Batch :=
  (List.range 64).filterMap fun b =>
    let m := laneMask f b
    if m = 0 then none else some { item := q.seq, block := b, mask := m }

/-- Whether a primitive covers pixel (x, y) of a tile inside the target. -/
def Prim.coversIn (q : Prim) (d : List Byte) (t : TileRt) (x y : Nat) : Bool :=
  decide (t.tx * 32 + x < passWidth d) && decide (t.ty * 32 + y < passHeight d) &&
    covers q.pos (t.tx * 32 + x) (t.ty * 32 + y)

/-- The depth of a primitive at a pixel of a tile, as the attachment holds it. -/
def Prim.tileDepth (q : Prim) (d : List Byte) (t : TileRt) (x y : Nat) : Nat :=
  depthKept (attFmt d 0) (q.depthAt (t.tx * 32 + x) (t.ty * 32 + y))

/-- The depth pass of one opaque primitive: running depth and winners. -/
def depthOne (d : List Byte) (t : TileRt) (a : List Nat × List (Option Nat)) (q : Prim) :
    List Nat × List (Option Nat) :=
  (List.range 1024).foldl (fun (a : List Nat × List (Option Nat)) p =>
    let x := p % 32
    let y := p / 32
    let z := q.tileDepth d t x y
    if q.coversIn d t x y && depthPass q.dtest z (a.1.getD p 0) then
      (if q.writesDepth then a.1.set p z else a.1, a.2.set p (some q.seq))
    else a) a

/-- Rasterise the translucent primitives of a tile up to the next one that has fragments (R291 step 4). [DEDUCED:
assumption 136] -/
def TileRt.advance (d : List Byte) (t : TileRt) : List Prim → TileRt
  | [] => { t with later := [] }
  | q :: rest =>
    let pass (x y : Nat) : Bool := q.coversIn d t x y &&
      (q.discards || depthPass q.dtest (q.tileDepth d t x y) (t.depth.getD (tilePixel x y) 0))
    let bs := primBatches q pass
    let depth := if q.writesDepth && !q.discards then
        (List.range 1024).map fun p => if pass (p % 32) (p / 32) then q.tileDepth d t (p % 32) (p / 32)
          else t.depth.getD p 0
      else t.depth
    let t1 := { t with depth := depth, later := rest, todo := bs }
    if bs = [] then t1.advance d rest else t1

/-- Steps 2 to 4 of a tile as far as batches are known: the opaque ones, or else the first translucent ones. -/
def TileRt.rasterise (d : List Byte) (t : TileRt) (prims : List Prim) : TileRt :=
  let here := prims.filter fun q => q.meetsTile t.tx t.ty
  let op := here.filter Prim.isOpaque
  let (depth, win) := op.foldl (depthOne d t) (t.depth, List.replicate 1024 none)
  let todo := op.flatMap fun q =>
    primBatches q fun x y => win.getD (tilePixel x y) none == some q.seq
  let later := here.filter fun q => !q.isOpaque
  let t1 := { t with depth := depth, todo := todo, later := later }
  if todo = [] then t1.advance d later else t1

/-- A tile with nothing left to shade. -/
def TileRt.finished (t : TileRt) : Bool := t.todo.isEmpty && t.out.isEmpty && t.later.isEmpty

/-- Blend one lane of a retired batch into a tile (R294); `col k` is the lane's four components for attachment
k, `z` and `disc` its depth and discard word. -/
def TileRt.blendLane (d : List Byte) (t : TileRt) (q : Prim) (x y : Nat) (col : Nat → List Nat) (z disc : Nat) :
    TileRt :=
  let p := tilePixel x y
  let zk := depthKept (attFmt d 0) z
  if q.discards && (disc != 0 || !depthPass q.dtest zk (t.depth.getD p 0)) then t
  else
    let depth := if q.discards && q.writesDepth then t.depth.set p zk else t.depth
    let pix := (List.range 4).foldl (fun (px : List (List Nat)) k =>
      let i := k + 1
      if attDest d i ≠ 0 ∧ q.mask.testBit i then
        let old := px.getD i []
        px.set i (old.set p (blendTexel (attFmt d i) q.blend (col i) (old.getD p 0)))
      else px) t.pix
    { t with depth := depth, pix := pix }

/-! ### Draws and binning (R282 to R288) -/

/-- Begin a segment's rendering: the tiles with entries, and in the last segment every tile not yet rendered. -/
def Pass.beginRender (p : Pass) (j : Job) (flush : Bool) : Pass :=
  let d := j.desc
  let tw := passTW d
  let th := passTH d
  let n := j.hearths.length
  let want (t : Nat) : Bool := decide (0 < p.counts.look (fun _ => 0) t) || (!flush && !p.rendered.contains t)
  let all := (List.range (tw * th)).filter want
  { p with phase := 2, flush := flush, segment := p.segment
           stretches := (List.range n).map fun k =>
             { p.stretches.getD k {} with tiles := all.filter fun t => t / tw * n / th == k } }

/-- List memory is full (R287): the current draw is discarded, and the segment before it is rendered and flushed; with
nothing before it, or with too small a flush area, the job ends (R288, R289). [DEDUCED: assumption 139] -/
def State.listFull (s : State) (j : Job) : State :=
  let p := j.pass
  let need := passTW j.desc * passTH j.desc * flushRecord j.desc
  if p.draw = p.segFirst ∨ leAt j.desc 36 4 < need then s.failRaster j 4
  else
    let s1 := s.bump (cordAddr j.cord 0xE00C) 1
    let s2 := if p.flushSent then s1 else s1.eventCordBlock j.cord 0x0A01 j.session
    s2.modPass j.sub fun p =>
      ({ p with listUsed := p.usedBefore, flushSent := true } : Pass).beginRender j true

/-- The record of draw i. -/
def State.drawRecord (s : State) (c : CordCfg) (j : Job) (i : Nat) : List Byte :=
  s.cordBytes c (leAt j.desc 16 8 + 64 * i) 64

/-- The number of signature entries of the job's shader set. -/
def State.shaderSigs (s : State) (c : CordCfg) (j : Job) : Nat :=
  match s.jobModel c j with
  | some m => m.sigs.2 / 8
  | none => 0

/-- Begin the current draw (R283): its vertices are allocated and cut into batches of 16 for the Hearths in turn. -/
def State.startDraw (s : State) (c : CordCfg) (j : Job) : State :=
  let p := j.pass
  s.jobRead j.sub c (leAt j.desc 16 8 + 64 * p.draw) 64 fun s =>
    let b := s.drawRecord c j p.draw
    let n := leAt b 12 4
    if !drawOk b (s.shaderSigs c j) c.size then s.failRaster j 2
    else if passListBytes j.desc < p.listUsed + 64 * n then
      s.listFull { j with pass := { p with usedBefore := p.listUsed } }
    else
      let hs := j.hearths.length
      let batch (i : Nat) : Batch := { item := 16 * i, mask := min 16 (n - 16 * i) }
      let batches (k : Nat) : List Batch := ((List.range ((n + 15) / 16)).filter fun i => i % hs == k).map batch
      s.modPass j.sub fun p =>
        let give (k : Nat) : Stretch := { p.stretches.getD k {} with todo := batches k }
        { p with phase := 1, begun := false, usedBefore := p.listUsed, listUsed := p.listUsed + 64 * n
                 vtxBase := passList j.desc + p.listUsed, stretches := (List.range hs).map give }

/-- Whether a pass descriptor is valid for the job (R277 to R279, R290). -/
def State.passOk (s : State) (c : CordCfg) (j : Job) : Bool :=
  let d := j.desc
  let f (o n : Nat) : Nat := leAt d o n
  let n := j.hearths.length
  let rows := ((List.range n).map fun k =>
    (if k + 1 < n then min (j.rowFirst (k + 1)) (passHeight d) else passHeight d) - j.rowFirst k).foldl max 0
  j.argAddr % 64 == 0 && decide (1 ≤ passWidth d) && decide (passWidth d ≤ 4096) && decide (1 ≤ passHeight d) &&
  decide (passHeight d ≤ 4096) && decide (f 4 1 < 4) && s.unitOwner (f 4 1) == c.cord && decide (f 5 1 < 4) &&
  decide (2 ≤ passSlots d) && decide (passSlots d ≤ 16) && decide (1 ≤ passDraws d) &&
  decide (passDraws d ≤ 1048576) && passBatch d % 64 == 0 && decide (c.workAt ≤ passBatch d) &&
  decide (passBatch d + 8192 * passSlots d ≤ storeSize) && f 16 8 % 64 == 0 &&
  decide (f 16 8 + 64 * passDraws d ≤ c.size) && passList d % 65536 == 0 && passListBytes d % 65536 == 0 &&
  decide (65536 ≤ passListBytes d) && decide (c.regionBase 4 ≤ passList d) &&
  decide (passList d + passListBytes d ≤ c.regionBase 4 + c.regionSize 4) && f 40 8 % 65536 == 0 &&
  decide (f 40 8 + f 36 4 ≤ c.size) && f 48 8 % 32 == 0 && decide (f 56 2 ≤ 4096) &&
  decide (f 48 8 + 32 * f 56 2 ≤ c.size) &&
  (!(f 5 1).testBit 0 || (decide (1 ≤ f 62 2) && s.hitchIn c.cord (f 58 2))) &&
  (!(f 5 1).testBit 1 || s.hitchIn c.cord (f 60 2)) && zeroAt d 224 32 && j.rows == passHeight d &&
  (List.range 5).all fun i => attOk c d rows c.size i

/-- A RASTER job begins its pass: the binning unit tries its wait on `wait_hitch`, and the first draw starts. -/
def State.passBegin (s : State) (c : CordCfg) (j : Job) : State :=
  if !s.passOk c j then s.failRaster j 1
  else
    let wait := (leAt j.desc 5 1).testBit 0
    let k := leAt j.desc 58 2
    let p : Pass := { phase := 1, waited := !wait, waitsOn := if wait then some k else none
                      stretches := List.replicate j.hearths.length {} }
    let s1 := s.modPass j.sub fun _ => p
    let s2 := if wait then s1.tryPass k j else s1
    s2.startDraw c { j with pass := p }

/-- A vertex index of the draw (R281). -/
def State.elemIndex (s : State) (c : CordCfg) (b : List Byte) (i : Nat) : Nat :=
  let w := leAt b 1 1
  if w = 0 then i else s.cordLe c (leAt b 32 8 + i * 2 * w) (2 * w)

/-- A transformed vertex in list memory as 16 fp32 values. -/
def State.readVertex (s : State) (c : CordCfg) (a : Nat) : ClipVertex :=
  (List.range 16).map fun i => s.cordLe c (a + 4 * i) 4

/-- What assembly has made of a draw so far: new vertices with their addresses, primitives (newest first), tile
counts, the next number, and list memory in use. -/
structure Binned where
  verts  : List (Nat × ClipVertex) := []
  prims  : List Prim := []
  counts : SMap Nat := []
  /-- Each tile's newest chunk, and the words written to chunks, newest first, as (address, value). -/
  chunks : SMap Nat := []
  words  : List (Nat × Nat) := []
  seq    : Nat
  used   : Nat

/-- A tile's list takes an entry for the primitive whose record stands at `a` (R286): the record's index is its place
in 64-byte units of list memory; an entry that no chunk has room for opens one, to which the last one links. [DESIGN
CHOICE: assumption 138] -/
def Binned.listEntry (base a : Nat) (r : Binned) (t : Nat) : Binned :=
  let n := r.counts.look (fun _ => 0) t
  let old := r.chunks.look (fun _ => 0) t
  let index (x : Nat) : Nat := (x - base) / 64
  let counts := r.counts.put (fun _ => 0) t (n + 1)
  if n % 15 = 0 then
    let new := base + r.used
    { r with counts := counts, used := r.used + 64, chunks := r.chunks.put (fun _ => 0) t new
             words := (new, index a) :: (if n = 0 then [] else [(old + 60, index new)]) ++ r.words }
  else { r with counts := counts, words := (old + 4 * (n % 15), index a) :: r.words }

/-- Bin one triangle of a clipped polygon: `vs` are its three vertices. A position or a depth that is not a number is
one of the draws from `free` on (assumption 20). -/
def binTriangle (j : Job) (b : List Byte) (free : Nat) (r : Binned) (vs : List PolyVertex) : Binned :=
  let d := j.desc
  let w := passWidth d
  let ht := passHeight d
  let pos := vs.zipIdx.map fun v => snapped w ht v.1.1 (free + 4 * v.2)
  if !keepTriangle (leAt b 4 1) pos then r
  else
    let z := vs.zipIdx.map fun v =>
      let x := f32div (v.1.1.getD 2 0) (v.1.1.getD 3 0)
      if f32isNan x then (Config.freeValue (free + 4 * v.2 + 2)).toNat % 2 ^ 32 else f32sat01 x
    let q : Prim := { seq := r.seq, draw := j.pass.draw, pos := pos, z := z, w := vs.map fun v => v.1.getD 3 0
                      vtx := vs.map fun v => v.2.getD 0, blend := leAt b 2 1, dtest := leAt b 3 1
                      rast := leAt b 4 1, mask := leAt b 48 2, recAt := passList d + r.used }
    let tiles := (List.range (passTW d * passTH d)).filter fun t => q.meetsTile (t % passTW d) (t / passTW d)
    tiles.foldl (Binned.listEntry (passList d) q.recAt)
      { r with prims := q :: r.prims, seq := r.seq + 1, used := r.used + 64 }

/-- Assemble one triangle (R284): clip it, allocate the new vertices, and bin the fan of its polygon. -/
def State.binElem (s : State) (c : CordCfg) (j : Job) (b : List Byte) (r : Binned) (i : Nat) : Binned :=
  let tri : List PolyVertex := (triElems (leAt b 0 1) i).map fun e =>
    let a := j.pass.vtxBase + 64 * s.elemIndex c b e
    (s.readVertex c a, some a)
  let poly := clipTriangle (passWidth j.desc) (passHeight j.desc) tri
  let placed := poly.foldl (fun (a : List PolyVertex × List (Nat × ClipVertex) × Nat) v =>
    match v.2 with
    | some _ => (a.1 ++ [v], a.2)
    | none =>
      let at' := passList j.desc + a.2.2
      (a.1 ++ [(v.1, some at')], (at', v.1) :: a.2.1, a.2.2 + 64)) ([], r.verts, r.used)
  let r1 := { r with verts := placed.2.1, used := placed.2.2 }
  let p := placed.1
  (List.range (p.length - 2)).foldl (fun r k =>
    binTriangle j b (s.draws + 128 * i + 16 * k) r [p.getD 0 ([], none), p.getD (k + 1) ([], none), p.getD (k + 2) ([], none)]) r1

/-- Write the bytes of list memory that a draw allocated: clip-generated vertices and list chunks; the manual leaves the
bytes of a primitive record open. [DESIGN CHOICE: assumption 138] -/
def State.writeList (s : State) (c : CordCfg) (j : Job) (r : Binned) : State :=
  let from' := j.pass.listUsed
  let s1 := s.putFree c (passList j.desc + from') (r.used - from')
  let s2 := r.verts.foldl (fun t v => t.putCordBytes c v.1 (v.2.flatMap fun x => natLe x 4)) s1
  r.words.foldr (fun w t => t.putCordLe c w.1 4 w.2) s2

/-- Every core of the job has a boundary to take (R297). -/
def Pass.drawBoundary (p : Pass) : Pass :=
  { p with stretches := p.stretches.map fun x => { x with bound := [1, 1] } }

/-- All vertices of the current draw are shaded: assemble, clip, cull, number and bin (R283 to R287). -/
def State.assemble (s : State) (c : CordCfg) (j : Job) : State :=
  let p := j.pass
  let b := s.drawRecord c j p.draw
  let n := leAt b 16 4
  let idxBytes := n * 2 * leAt b 1 1
  s.jobRead j.sub c (leAt b 32 8) idxBytes fun s =>
    if (List.range n).any fun i => decide (leAt b 12 4 ≤ s.elemIndex c b i) then s.failRaster j 2
    else s.jobRead j.sub c p.vtxBase (64 * leAt b 12 4) fun s =>
      let r0 : Binned := { counts := p.counts, chunks := p.chunks, seq := p.nextSeq, used := p.listUsed }
      let r := (List.range (triCount (leAt b 0 1) n)).foldl (s.binElem c j b) r0
      if 4294967295 < r.seq then s.failRaster j 2
      else if passListBytes j.desc < r.used then s.listFull j
      else
        let s1 := ((({ s with draws := s.draws + 2 ^ 40 } : State).writeList c j r).bump (cordAddr j.cord 0xE008)
          r.prims.length).listPeak j.cord r.used
        let last := decide (p.draw + 1 = passDraws j.desc)
        let q : Pass := { p with draw := p.draw + 1, nextSeq := r.seq, listUsed := r.used, counts := r.counts
                                 chunks := r.chunks, prims := p.prims ++ r.prims.reverse }
        let q := q.drawBoundary
        if last then s1.modPass j.sub fun _ => q.beginRender j false
        else (s1.modPass j.sub fun _ => q).startDraw c { j with pass := q }

/-- The last tile of a segment is resolved: begin the next segment, or end the pass (R282, R287). -/
def State.segmentEnd (s : State) (c : CordCfg) (sub : Nat) : State :=
  match s.job? sub with
  | none => s
  | some j =>
    if !j.pass.segmentOver then s
    else if j.pass.flush then
      let p : Pass := { j.pass with prims := [], counts := [], chunks := [], listUsed := 0, segment := j.pass.segment + 1
                                    segFirst := j.pass.draw, flush := false }
      (s.modPass sub fun _ => p).startDraw c { j with pass := p }
    else
      let s1 := (s.modPass sub fun p => { p with phase := 3 }).bump (cordAddr j.cord 0xE004) 1
      if (leAt j.desc 5 1).testBit 1 then (s1.noteSignal sub (leAt j.desc 60 2)).hitchSignal (leAt j.desc 60 2) 1
      else s1

/-! ### The rows -/

/-- A running or stopping RASTER job and its Cord. -/
def State.rasterJob (s : State) (sub : Nat) : Option (Job × CordCfg) :=
  match s.job? sub with
  | some j => if j.kind == 2 && (j.phase == 2 || j.phase == 3) then (s.cordCfg j.cord).map fun c => (j, c)
    else none
  | none => none

/-- DRAW_ASSEMBLY (R284): it waits for the shaded vertices, and for `wait_hitch` (R282). -/
def execDrawAssembly (sub : Nat) (s : State) : Out :=
  withUnit true
    (match s.rasterJob sub with
     | some (j, c) =>
      if j.pass.phase == 1 && j.pass.waited && j.pass.stretches.all fun x => x.todo.isEmpty && x.out.isEmpty then
        (let s1 := s.assemble c j
         s1.segmentEnd c sub)
      else s
     | none => s)

/-- Start the next tile of stretch k (R291): load, depth pass, and the batches of its shading; a tile without
fragments is resolved at once. -/
def State.renderTile (s : State) (j : Job) (c : CordCfg) (k : Nat) : State :=
  let x := j.pass.stretches.getD k {}
  let h := j.hearths.getD k 0
  match x.tiles with
  | [] => s
  | t :: rest =>
    let tx := t % passTW j.desc
    let ty := t / passTW j.desc
    match s.tileLoadUe j c tx ty with
    | some e => (s.noteCordUe c e.1 (e.2 + 1 - e.1)).endJob j.sub stTorn
    | none => s.afterReads h (tileLoadReads j h tx ty) fun s =>
      let (t0, s1) := s.loadTile j c h tx ty
      let tile := t0.rasterise j.desc j.pass.prims
      let s2 := s1.modStretch j.sub k fun x => { x with tiles := rest, tile := some tile }
      if tile.finished then (s2.resolveTile j c h tile).segmentEnd c j.sub else s2

/-- Whether a core of stretch k's Hearth still has a boundary to take; a halted core takes none. -/
def State.owesBoundary (s : State) (j : Job) (k : Nat) : Bool :=
  let x := j.pass.stretches.getD k {}
  ([0, 1] : List Nat).any fun c => x.bound.getD c 0 != 0 && (s.core (j.hearths.getD k 0) c).state != 3

/-- TILE_RENDER (R291): a tile starts once the cores have taken the boundary of the last one, and not while the job
stops (R303). -/
def execTileRender (sub k : Nat) (s : State) : Out :=
  withUnit true
    (match s.rasterJob sub with
     | some (j, c) =>
      let x := j.pass.stretches.getD k {}
      if j.phase == 2 && j.pass.phase == 2 && x.tile.isNone && !s.owesBoundary j k && decide (k < j.hearths.length) &&
          !s.paused (j.hearths.getD k 0) then
        s.renderTile j c k
      else s
     | none => s)

/-- Whether a RASTER job is between two draws or between two tiles (R303). -/
def Pass.atBoundary (p : Pass) : Bool :=
  if p.phase = 1 then !p.begun && p.stretches.all fun x => x.out.isEmpty
  else p.stretches.all fun x => x.tile.isNone

/-- Whether stretch k of a RASTER job that stops has nothing more to do before the stop: the current draw has not begun,
or it has no tile. -/
def Pass.stretchIdle (p : Pass) (k : Nat) : Bool :=
  if p.phase = 1 then !p.begun else (p.stretches.getD k {}).tile.isNone

/-- The lowest batch slot that is not handed out. -/
def Stretch.freeSlot (x : Stretch) (n : Nat) : Option Nat :=
  let used := (x.out ++ (match x.tile with
    | some t => t.out
    | none => [])).map Batch.slot
  (List.range n).find? fun i => !used.contains i

/-- A raster tile unit command completes and leaves the queue. -/
def State.rtuDone (s : State) (h : Nat) (e : QEntry) : State :=
  (s.setQueueOf h 7 ((s.queueOf h 7).erase e)).cmdDone h 7 e.core

/-- The command at the head of a raster tile unit's queue, behind the NEXTs that have started and wait for work: the two
cores share the queue, and commands start in its order (R197, R297). [DEDUCED: assumption 137] -/
def State.onRtu (s : State) (h op : Nat) (body : QEntry → State) : State :=
  match (s.queueOf h 7).dropWhile fun e => (e.cmd.getD 0 0).toNat == 0x40 with
  | e :: _ => if s.mayStart h 7 e && (e.cmd.getD 0 0).toNat == op then body e else s
  | [] => s

/-- Reply to a NEXT (R297): slot address and kind. -/
def State.replyNext (s : State) (h : Nat) (e : QEntry) (slotAddr kind : Nat) : State :=
  let a := leAt e.cmd 4 4
  let v := s.hearth h
  let s1 := s.setHearth h (v.write a (natLe (slotAddr + kind * 2 ^ 32) 8))
  s1.rtuDone h e

/-- Fill a vertex batch slot (R298). -/
def State.fillVertex (s : State) (c : CordCfg) (j : Job) (h : Nat) (e : QEntry) (b : Batch) : State :=
  let r := s.drawRecord c j j.pass.draw
  let stride := leAt r 10 2
  let src := leAt r 24 8 + b.item * stride
  let a := passBatch j.desc + 8192 * b.slot
  let k := j.stretchOf h
  s.jobRead j.sub c (leAt r 40 8) (leAt r 20 2) fun s => s.jobRead j.sub c src (b.mask * stride) fun s =>
    let hd := natLe j.pass.draw 4 ++ natLe b.item 4 ++ natLe b.mask 2 ++ natLe stride 2 ++ List.replicate 52 0
    let v := ((s.hearth h).write a (hd ++ s.cordBytes c (leAt r 40 8) (leAt r 20 2))).write (a + 576)
      (s.cordBytes c src (b.mask * stride))
    (((s.setHearth h v).modStretch j.sub k fun x => { x with
      todo := x.todo.drop 1, out := b :: x.out }).modPass j.sub fun p => { p with begun := true }).replyNext h e a 0

/-- Fill a fragment batch slot (R298). -/
def State.fillFragment (s : State) (c : CordCfg) (j : Job) (h : Nat) (e : QEntry) (t : TileRt) (b : Batch) : State :=
  match j.pass.prims.find? fun q => q.seq == b.item with
  | none => s
  | some q =>
    let r := s.drawRecord c j q.draw
    let a := passBatch j.desc + 8192 * b.slot
    let k := j.stretchOf h
    let ue := q.vtx.find? fun x => s.cordUe c x 64
    match ue with
    | some x => (s.noteCordUe c x 64).endJob j.sub stTorn
    | none => s.jobRead j.sub c (leAt r 40 8) (leAt r 20 2) fun s =>
      let bary := (List.range 16).map fun l =>
        let (x, y) := lanePixel b.block l
        q.bary (t.tx * 32 + x) (t.ty * 32 + y)
      let hd := natLe b.item 4 ++ natLe (b.mask + t.tx % 256 * 65536 + t.ty % 256 * 2 ^ 24) 4 ++ natLe b.block 2 ++
        natLe q.draw 2 ++ List.replicate 52 0
      let body := (bary.flatMap fun x => natLe x.1 4) ++ (bary.flatMap fun x => natLe x.2 4) ++
        (q.vtx.flatMap fun x => s.cordBytes c x 64)
      let v := ((s.hearth h).write a (hd ++ s.cordBytes c (leAt r 40 8) (leAt r 20 2))).write (a + 576) body
      ((s.setHearth h v).modStretch j.sub k fun x => { x with tile := some { t with
        todo := t.todo.drop 1, out := b :: t.out } }).replyNext h e a 1

/-- The pass of the job that holds a Hearth. -/
def State.hearthPass (s : State) (h : Nat) : Option (Job × CordCfg) := ((s.hearth h).job).bind s.rasterJob

/-- The reply to a NEXT (R297), `none` while it waits for work. While the job stops, a core between draws or tiles
gets a boundary (R303). [DEDUCED: assumption 137] -/
def State.nextReply (s : State) (h : Nat) (e : QEntry) : Option State :=
  match s.hearthPass h with
  | none => some (s.refuseCmd h 7 e 1)
  | some (j, c) =>
    let k := j.stretchOf h
    let x := j.pass.stretches.getD k {}
    if x.bound.getD e.core 0 ≠ 0 then
      some ((s.modStretch j.sub k fun x => { x with bound := x.bound.set e.core 0 }).replyNext h e 0 2)
    else if j.pass.phase = 3 then some (s.replyNext h e 0 3)
    else if j.phase = 3 ∧ j.pass.stretchIdle k then some (s.replyNext h e 0 2)
    else
      match x.freeSlot (passSlots j.desc), x.todo, x.tile with
      | some i, b :: _, _ => some (s.fillVertex c j h e { b with slot := i })
      | some i, [], some t =>
        (match t.todo with
         | b :: _ => some (s.fillFragment c j h e t { b with slot := i })
         | [] => none)
      | _, _, _ => none

/-- The first of the NEXTs at the head of the queue whose core has work is answered. -/
def State.nextHead (s : State) (h : Nat) : State :=
  let waiting := (s.queueOf h 7).takeWhile fun e => (e.cmd.getD 0 0).toNat == 0x40
  match (waiting.filter (s.mayStart h 7)).filterMap (s.nextReply h) with
  | t :: _ => t
  | [] => s

/-- NEXT. -/
def execRtuNext (h : Nat) (s : State) : Out := withUnit (hearthOk h) (s.nextHead h)

/-- VDONE at the head of the queue (R283, R297): 16 transformed vertices go to list memory. -/
def State.vdoneHead (s : State) (h : Nat) (e : QEntry) : State :=
  match s.hearthPass h with
  | none => s.refuseCmd h 7 e 1
  | some (j, c) =>
    let k := j.stretchOf h
    let x := j.pass.stretches.getD k {}
    let a := leAt e.cmd 4 4
    match x.out.find? fun b => passBatch j.desc + 8192 * b.slot == a with
    | none => s.refuseCmd h 7 e 1
    | some b => s.afterReads h [(a + 4672, 64 * b.mask)] fun s =>
      let bs := (s.hearth h).store.lookList zeroByte (a + 4672) (64 * b.mask)
      let s1 := s.putCordBytes c (j.pass.vtxBase + 64 * b.item) bs
      (s1.modStretch j.sub k fun x => { x with out := x.out.filter fun y => y.slot != b.slot }).rtuDone h e

/-- VDONE. -/
def execRtuVdone (h : Nat) (s : State) : Out := withUnit (hearthOk h) (s.onRtu h 0x42 (s.vdoneHead h))

/-- Blend a retired batch (R293, R294): lanes in ascending number; the output of lane l for attachment k is 16 bytes at
4,672 + 256 (k − 1) + 16 l, and its depth and discard word are the 8 bytes at 5,696 + 8 l. [DEDUCED: assumption 134] -/
def TileRt.blendBatch (d : List Byte) (m : SMap Byte) (t : TileRt) (q : Prim) (b : Batch) (a : Nat) : TileRt :=
  (List.range 16).foldl (fun (t : TileRt) l =>
    if b.mask.testBit l then
      let (x, y) := lanePixel b.block l
      let col (k : Nat) : List Nat := (List.range 4).map fun i =>
        m.readLe (a + 4672 + 256 * (k - 1) + 16 * l + 4 * i) 4
      t.blendLane d q x y col (m.readLe (a + 5696 + 8 * l) 4) (m.readLe (a + 5700 + 8 * l) 4)
    else t) t

/-- RETIRE at the head of the queue (R297): when the last batch of a tile has retired, the tile is resolved. -/
def State.retireHead (s : State) (h : Nat) (e : QEntry) : State :=
  match s.hearthPass h with
  | none => s.refuseCmd h 7 e 1
  | some (j, c) =>
    let k := j.stretchOf h
    let a := leAt e.cmd 4 4
    match (j.pass.stretches.getD k {}).tile with
    | none => s.refuseCmd h 7 e 1
    | some t =>
      match t.out.find? fun b => passBatch j.desc + 8192 * b.slot == a with
      | none => s.refuseCmd h 7 e 1
      | some b => s.afterReads h [(a + 4672, 1152)] fun s =>
        let q := j.pass.prims.find? fun q => q.seq == b.item
        let t1 := match q with
          | some q => t.blendBatch j.desc (s.hearth h).store q b a
          | none => t
        let t2 := { t1 with out := t1.out.filter fun y => y.slot != b.slot }
        let t3 := if t2.todo.isEmpty && t2.out.isEmpty then t2.advance j.desc t2.later else t2
        let shaded := ((List.range 16).filter fun l => b.mask.testBit l).length
        let s1 := ((s.modStretch j.sub k fun x => { x with tile := some t3 }).rtuDone h e).bump (cordAddr j.cord 0xE010)
          shaded
        if t3.finished then (s1.resolveTile j c h t3).segmentEnd c j.sub else s1

/-- RETIRE. -/
def execRtuRetire (h : Nat) (s : State) : Out := withUnit (hearthOk h) (s.onRtu h 0x41 (s.retireHead h))

end Sys2Proof.Machine
end

