-- ==== Sys2Proof/Machine/Regs.lean ====
section
/-! DEFINITION. The register map (chapter 19 and the register tables of the other chapters): blocks and views, what
each register reads, the RW fields, and a write by a host with its change-log entry. -/

namespace Sys2Proof.Machine

/-! ### The address map and views (R66, R508 to R511) -/

/-- The address behind a set or clear alias. -/
def plainAddr (a : Nat) : Nat := if 0x10000000 ≤ a ∧ a < 0x30000000 then a % 0x10000000 else a

/-- The block, as base and size, that holds an address below the aliases or in the DRAM window. -/
def plainBlock (a : Nat) : Option (Nat × Nat) :=
  if a < 0x3000 then some (a / 0x1000 * 0x1000, 0x1000)
  else if 0x10000 ≤ a ∧ a < 0x11000 then some (0x10000, 0x1000)
  else if 0x100000 ≤ a ∧ a < 0x2B0000 then some (a / 65536 * 65536, 65536)
  else if 0x1000000 ≤ a ∧ a < 0x1100000 then some (0x1000000, 0x100000)
  else if 0x4000000 ≤ a ∧ a < 0x10000000 then some (a / 4194304 * 4194304, 4194304)
  else if 0x80000000 ≤ a ∧ a < 0x100000000 then some (0x80000000, 0x80000000)
  else none

/-- The block of an address; an alias of a block is a block of its own. -/
def blockOf (a : Nat) : Option (Nat × Nat) :=
  (plainBlock (plainAddr a)).map fun b => (b.1 + (a - plainAddr a), b.2)

/-- Whether domain `d` owns Cord `n` under the active Lay. -/
def State.ownsCord (s : State) (d n : Nat) : Bool :=
  match s.cordCfg n with
  | some c => c.ownerHost == d
  | none => false

/-- The blocks that every domain sees at all times. -/
def openBlock (a : Nat) : Bool := decide (a < 0x3000)

/-- Whether domain `d` sees address `a`, for a write or a read. [DEDUCED: assumption 26] -/
def State.sees (s : State) (d a : Nat) (write : Bool) : Bool :=
  let p := plainAddr a
  if s.trust.boot = 0 then openBlock p
  else if s.trust.boot = 1 then d == 0 && (openBlock p || p / 65536 == 0x29)
  else if openBlock p then true
  else
    match plainBlock p with
    | none => false
    | some (0x10000, _) => true
    | some (0x80000000, _) =>
      let w := (s.reg (regKey d 0x1008)).toNat
      w.testBit 4 && s.ownsCord d (w % 16)
    | some (0x1000000, _) =>
      (match s.cordOfHitch ((p - 0x1000000) / 16) with
       | some n => s.ownsCord d n
       | none => s.owner == d)
    | some _ =>
      if p < 0x200000 then s.ownsCord d ((p - 0x100000) / 65536)
      else if p < 0x1000000 then s.owner == d
      else
        match s.cordOfHearth ((p - 0x4000000) / 4194304) with
        | none => false
        | some n => s.ownsCord d n && (!write || (match s.cordCfg n with
          | some c => decide (c.weightShare ≤ p % 4194304)
          | none => false))

/-! ### Values that registers read -/

def bit (b : Bool) (i : Nat) : Nat := if b then 2 ^ i else 0

/-- A signed number as 16 and as 32 bits. -/
def s16bits (x : Int) : Nat := (x % 65536).toNat
def s32bits (x : Int) : Nat := (x % 4294967296).toNat

/-- Word `i` of a byte string. -/
def wordAt (bs : List Byte) (i : Nat) : Nat := leNat ((bs.drop (4 * i)).take 4)

/-- The bytes of a 384-bit hash, in ascending order. -/
def hashBytes (h : BitVec 384) : List Byte := (natLe h.toNat 48).reverse

/-- The bytes of a log entry. -/
def LogEntry.bytes (e : LogEntry) : List Byte :=
  logBytes e.time e.origin e.kind e.addr e.old e.new e.seq ++ natLe e.check.toNat 4

/-- `FLT_LOG_SEL_STATUS` of a log (R490): 1 VALID, 2 OVERWRITTEN, 4 FUTURE. -/
def Log.selStatus (l : Log) (sel : Nat) : Nat :=
  let d := (l.next + 2 ^ 32 - sel) % 2 ^ 32
  let held := min 16384 l.written
  if d = 0 ∨ 2 ^ 31 < d then 4 else if d ≤ held then 1 else 2

/-- Word `i` of the entry that the last selection copied. -/
def Log.dataWord (l : Log) (i : Nat) : Nat :=
  match l.copied with
  | some e => wordAt e.bytes i
  | none => 0

/-- P_100 in mW: the mean of the last ten epochs (R454). -/
def Draught.p100 (g : Draught) : Nat := g.recent.sum / 10

/-- Tj and the lowest sensor that reads it (R453, R469). -/
def Draught.tj (g : Draught) : Int × Nat :=
  (List.range 64).foldl (fun (a : Int × Nat) i =>
    let x := g.sensors.getD i 0
    if i = 0 ∨ a.1 < x then (x, i) else a) (0, 0)

/-- Whether the Tether clamp is in effect. -/
def Draught.clamped (g : Draught) : Bool := g.clampSince.isSome

def State.identityRead (s : State) (a : Nat) : Nat :=
  if a = 0x00 then 0x09600040
  else if a = 0x04 then 0x0110
  else if a = 0x08 then 0x09602E5A
  else if 0x10 ≤ a ∧ a < 0x20 then wordAt s.trust.serial ((a - 0x10) / 4)
  else if a = 0x20 then 48 + 16 * 256 + 32 * 65536 + 16 * 2 ^ 24
  else if a = 0x24 then 4 + 2 * 16 + 4 * 256 + 4 * 4096 + 4 * 65536 + 2 * 2 ^ 20
  else if a = 0x28 then 65536
  else if a = 0x2C then 1048576
  else if a = 0x30 then 57344
  else if a = 0x34 then 25000 + 8000 * 65536
  else if a = 0x38 then 1 + 65536
  else if a = 0x3C then Config.romVersion.toNat
  else 0

/-- The complete exchange of least delay, the earliest on ties (R90). -/
def leastDelay : List Exchange → Option Exchange
  | [] => none
  | e :: rest =>
    match leastDelay rest with
    | none => some e
    | some b => if b.delay < e.delay then some b else some e

def State.manual (s : State) (d : Nat) : Bool := (s.reg (regKey d 0x1018)).getLsbD 0

def State.hostRead (s : State) (d a : Nat) : Nat :=
  let h := s.host d
  if a = 0x00 then d + bit (s.owner == d) 2 +
    ((List.range 16).map fun n => bit (s.ownsCord d n) (16 + n)).sum
  else if a = 0x04 then h.rate + bit h.flip 3 + h.downs * 65536
  else if a = 0x1C then h.exchanges.length + bit (h.mapped || s.manual d) 5 + bit (h.exchanges.length == 16) 6
  else if a = 0x28 then s32bits h.ratePpb
  else if a = 0x34 then
    match leastDelay h.exchanges with
    | some e => min e.delay.toNat 0xFFFFFFFF
    | none => 0
  else (s.reg (regKey d (0x1000 + a))).toNat

/-- The active Lay's sequence and hash as registers show them (R52, R59). -/
def State.layShown (s : State) : Nat × BitVec 384 :=
  match s.lay with
  | some l => (l.seq, l.hash)
  | none => (0, 0)

/-- The device status block at offset a (R518). -/
def State.devRead (s : State) (a : Nat) : Nat :=
  if a = 0x00 then
    s.trust.boot + bit s.lay.isSome 2 + bit (s.flt.service != 0) 3 + bit s.pwr.holdSince.isSome 4 +
    bit s.drg.warn 5 + bit s.drg.limit 6 + bit s.drg.overCap 7 + s.owner * 256 +
    bit (s.trust.boot != 0 && s.trust.owner.isDefault) 10 + bit s.trust.identityOk 11 +
    bit (s.loader.state == 4 || s.loader.state == 5) 12
  else if a = 0x04 then s.pwr.cause
  else if a = 0x08 then s.flt.service
  else if a = 0x14 then s16bits s.drg.tj.1
  else if a = 0x18 then s.drg.p100 % 2 ^ 20
  else if a = 0x1C then s.drg.capW + s.pwr.strapCapW * 256
  else if a = 0x28 then s.trust.fwVersion
  else if a = 0x2C then
    let ps := List.range 48
    (ps.filter fun p => decide ((s.phy p).service ≤ 1)).length + s.spares.length * 256 +
      (ps.filter fun p => (s.phy p).service == 3).length * 65536
  else if a = 0x30 then (s.flt.retiredCh.map fun c => 2 ^ c).sum
  else 0

def State.portRead (s : State) (d a : Nat) : Nat :=
  let p := s.port d (a / 256)
  if a % 256 = 0x04 then p.level + bit p.bound 24 + bit p.outbound 25 + p.cord * 2 ^ 28
  else if a % 256 = 0x00 then 0
  else (s.reg (regKey d (0x10000 + a))).toNat

/-- CLK_B cycles of one line of a panel port, its lines, and its line counter (R376). -/
def State.panel (s : State) (p : Nat) : Panel := s.panels.look (fun _ => {}) p
def State.setPanel (s : State) (p : Nat) (v : Panel) : State :=
  { s with panels := s.panels.put (fun _ => {}) p v }
/-- The active value of a panel register. -/
def Panel.act (v : Panel) (off : Nat) : Word := v.active.look panelReset off
def Panel.lineCyc (v : Panel) : Nat :=
  if (v.act 0x10).toNat % 65536 = 0 then Config.lineCycOfZero else (v.act 0x10).toNat % 65536
def Panel.lines (v : Panel) : Nat := (v.act 0x10).toNat / 65536
/-- Lines since the counter was last 0. -/
def State.linesSince (s : State) (p : Nat) : Nat :=
  (((s.time : Int) - (s.panel p).lineBase) / (2 * (s.panel p).lineCyc : Nat)).toNat
/-- The line counter, which wraps at `LINES`. -/
def State.panelLine (s : State) (p : Nat) : Nat :=
  if (s.panel p).state < 2 then 0 else s.linesSince p % max 1 (s.panel p).lines

/-- Index and word of an entry of `PP_TAKE_LOG` (R379, R392). -/
def Panel.takeWord (v : Panel) (i : Nat) : Nat :=
  match v.log.find? fun e => e.1 % 16 == i / 3 with
  | some e => (if i % 3 = 0 then e.1 else if i % 3 = 1 then e.2.1 else e.2.2) % 2 ^ 32
  | none => 0

def State.panelRead (s : State) (p o : Nat) : Nat :=
  let v := s.panel p
  if o = 0x00 then
    v.state + bit v.pushing 2 + bit v.teLost 3 + v.laneRev % 16 * 16 + bit v.latchErr 8 + bit v.modeErr 9 +
      bit v.fault 10 + bit v.dcsOvf 11
  else if o = 0x20 then v.seq
  else if o = 0x24 then v.taken
  else if o = 0x28 then v.pushes % 2 ^ 32
  else if o = 0x38 then s.panelLine p
  else if 0x300 ≤ o ∧ o < 0x3C0 then v.takeWord ((o - 0x300) / 4)
  else (s.reg (hKey (0x6000 + p * 0x800 + o))).toNat

/-- Resident jobs of a Cord of a kind. -/
def State.residents (s : State) (n kind : Nat) : List Job :=
  s.jobs.filter fun j => j.cord == n && j.kind == kind && j.resident

/-- Bits of the units lo to hi that a Cord's jobs of a kind hold. -/
def State.busyUnits (s : State) (n kind lo hi : Nat) : Nat :=
  ((List.range (hi - lo)).map fun i =>
    bit ((s.residents n kind).any fun j => j.units.contains (lo + i)) i).sum

/-! ### Intake units (R343, R351) -/

/-- The INTAKE jobs that hold their units. -/
def State.intakeJobs (s : State) : List Job := s.jobs.filter fun j => j.kind == 3 && (j.phase == 2 || j.phase == 3)

/-- The first sample that `ok` admits: the first to become ready; ties go to the lower Cord, then to the earlier job and
record (R351). -/
def State.readySample (s : State) (ok : Job → Sample → Bool) : Option (Job × Sample) :=
  let all := s.intakeJobs.flatMap fun j => (j.intake.samples.filter (ok j)).map fun x => (j, x)
  all.foldl (fun (b : Option (Job × Sample)) e =>
    match b with
    | none => some e
    | some q => if e.2.ready < q.2.ready ∨ (e.2.ready = q.2.ready ∧ e.1.cord < q.1.cord) then some e else b) none

/-- The sample that a JPEG decoder decodes, and its job. -/
def State.decodes (s : State) (n : Nat) : Option (Job × Sample) :=
  s.readySample fun _ x => x.stage == 0 && x.decoder == some n

/-- The lower-numbered free decoder that a Cord owns (R343). -/
def State.freeDecoder (s : State) (n : Nat) : Option Nat :=
  [0, 1].find? fun i => s.unitOwner (15 + i) == n && (s.decodes i).isNone

/-- The first sample that waits for a decoder and whose Cord has a free one goes to it. -/
def State.assignOne (s : State) : State :=
  match s.readySample fun j x => x.stage == 0 && x.decoder.isNone && (s.freeDecoder j.cord).isSome with
  | some (j, x) => s.modJob j.sub fun q => { q with intake := { q.intake with
      samples := q.intake.samples.map fun y => if y.order = x.order then { y with decoder := s.freeDecoder j.cord } else y } }
  | none => s

/-- Samples that wait go to the free decoders. -/
def State.assignDecoders (s : State) : State := s.assignOne.assignOne

/-- The sample that the augmentation unit serves. -/
def State.augments (s : State) : Option (Job × Sample) :=
  s.readySample fun j x => x.stage == 2 && s.unitUsable j.cord 18

/-- Every decoder that a Cord owns is decoding. -/
def State.decodersFull (s : State) (n : Nat) : Bool :=
  let own := [0, 1].filter fun i => s.unitOwner (15 + i) == n
  own != [] && own.all fun i => (s.decodes i).isSome

/-- Count ns of device time in `INT_DEC_BUSY` and in `INTG_AUG_WAIT`, whose unit is a CLK_B cycle of 2 ns (R368,
R369). [DESIGN CHOICE: assumption 226] -/
def State.countIntake (s : State) (ns : Nat) : State :=
  let full := ((s.intakeJobs.map Job.cord).eraseDups).filter s.decodersFull
  let s1 := full.foldl (fun t n =>
    (t.bumpUnits (cordAddr n 0x7018) 2 ns).setCordRt n { t.cordRt n with decNs := (t.cordRt n).decNs + ns }) s
  let ready := s.intakeJobs.flatMap fun j => j.intake.samples.filter fun x => x.stage == 2
  if 1 < ready.length then s1.bumpUnits 0x240008 2 ns else s1

/-! ### Register values -/

/-- Records of a Cord's save area (R412). -/
def CordCfg.saveRecords (c : CordCfg) : Nat := c.regionSize 2 / 4784128

def State.hearthRegs (s : State) (a : Nat) : Nat :=
  if a < 0x9000 then
    let h := (a - 0x8000) / 64
    let k := a / 16 % 4
    if a % 16 = 0 then
      let x := s.kiln h k
      x.mode + bit x.busy 2 + bit x.faulted 3 + x.cause * 256
    else (s.reg (hKey a)).toNat
  else if a < 0xA000 then
    if a % 32 = 0 then (s.hearth ((a - 0x9000) / 32)).quenchCause * 16 else (s.reg (hKey a)).toNat
  else if a < 0xB000 then
    if a % 32 = 0 then
      let w := (s.hearth ((a - 0xA000) / 32)).win
      ((List.range 4).map fun i => bit ((w.streams.look (fun _ => {}) i).phase == 2) i).sum +
        bit w.splice.isSome 4 + w.cause * 256
    else (s.reg (hKey a)).toNat
  else
    let h := (a - 0xB000) / 64
    let k := s.core h (a / 32 % 2)
    if a % 32 = 0 then k.state + bit k.vpath 2 + bit k.faulted 3 + k.cause * 256 + k.trapCode * 4096
    else if a % 32 = 4 then k.faultPc
    else (s.reg (hKey a)).toNat

/-- The logical Hearth of a per-Hearth offset. -/
def offHearth (a : Nat) : Nat :=
  if a < 0x9000 then (a - 0x8000) / 64
  else if a < 0xA000 then (a - 0x9000) / 32
  else if a < 0xB000 then (a - 0xA000) / 32
  else (a - 0xB000) / 64

/-- Whether a Cord-block offset shows a unit of the Cord (R391, R510). -/
def State.offShown (s : State) (n a : Nat) : Bool :=
  if 0x6000 ≤ a ∧ a < 0x7000 then s.unitOwner (13 + (a - 0x6000) / 0x800) == n
  else if 0x8000 ≤ a ∧ a < 0xC000 then (s.members n).contains (offHearth a)
  else true

def State.cordRead (s : State) (n a : Nat) : Nat :=
  let plain := (s.reg (cordAddr n a)).toNat
  let r := s.cordRt n
  if !s.offShown n a then 0
  else if 0x6000 ≤ a ∧ a < 0x7000 then s.panelRead ((a - 0x6000) / 0x800) (a % 0x800)
  else if 0x8000 ≤ a ∧ a < 0xC000 then s.hearthRegs a
  else if a = 0x000 then
    ((s.jobs.filter fun j => j.cord == n && j.resident).map fun j => j.hearths.length).sum + bit r.swapPending 13
  else if a = 0x00C then r.sessResult.toNat
  else if a = 0x014 then r.abortResult
  else if a = 0x020 then r.cqWr
  else if a = 0x030 then s.depth n true
  else if a = 0x034 then s.depth n false
  else if a = 0x044 then
    match s.cordCfg n with
    | some c => c.saveRecords - r.records.length
    | none => 0
  else if a = 0x060 then (s.jobs.filter fun j => j.cord == n).length
  else if a = 0x7000 then
    let busy (i : Nat) : Bool := (s.decodes i).any fun e => e.1.cord == n
    plain + bit (busy 0) 0 + bit (busy 1) 1 + bit (s.augments.any fun e => e.1.cord == n) 3 +
      bit ((s.residents n 3).any fun j => j.units.contains 19) 4 + bit r.saturated 5
  else if a = 0x7028 then (r.arena * 64 + 65535) / 65536
  else if a = 0x702C then r.entries
  else if a = 0xC024 then
    match s.cordCfg n with
    | some c => c.blocks - ((s.blocksHeld c).filter fun b => decide (b < c.blocks)).eraseDups.length
    | none => 0
  else if a = 0xD000 then bit ((s.fillRt n).size != 0) 0 + bit (s.fillRt n).saturated 1
  else if a = 0xD00C then (s.fillRt n).size
  else if a = 0xD010 then (s.fillRt n).wr % 2 ^ 32
  else if a = 0xE000 then plain + s.busyUnits n 2 0 4
  else if a = 0xF000 then
    plain + s.busyUnits n 4 4 8 + s.busyUnits n 4 8 12 * 16 + bit (!(s.residents n 5).isEmpty) 8
  else plain

def State.layRead (s : State) (a : Nat) : Nat :=
  let l := s.loader
  if a = 0x04 then l.state + l.result * 256 + bit (l.state == 2 || l.state == 4 || l.state == 5) 16
  else if a = 0x0C then l.count
  else if a = 0x10 then l.errOffset.toNat
  else if a = 0x14 then l.affected.toNat
  else if 0x40 ≤ a ∧ a < 0x70 then wordAt (hashBytes s.layShown.2) ((a - 0x40) / 4)
  else (s.reg (0x200000 + a)).toNat

/-- The bits of `DRG_DIV` for a divider. -/
def divCode (d : Nat) : Nat := if d = 8 then 0 else if d = 10 then 1 else if d = 12 then 2 else 3

def State.draughtRead (s : State) (a : Nat) : Nat :=
  let g := s.drg
  if a = 0x00 then
    bit g.overCap 0 + bit g.warn 1 + bit g.limit 2 + bit s.pwr.holdSince.isSome 3 + bit g.reserveShort 4 +
      bit g.clamped 5 + bit ((List.range 48).any fun p => !(s.phy p).retention.isEmpty) 6
  else if a = 0x04 then g.capW
  else if a = 0x08 then s.pwr.strapCapW
  else if a = 0x0C then g.p100 % 2 ^ 20
  else if a = 0x10 then g.target % 2 ^ 20
  else if a = 0x14 then s.pwr.vinMv % 65536 + s.pwr.iinMa % 65536 * 65536
  else if a = 0x18 then s16bits g.tj.1 + g.tj.2 * 65536
  else if a = 0x1C then g.k
  else if a = 0x20 then s32bits (g.pool.tdiv 1000)
  else if 0x40 ≤ a ∧ a < 0x80 then s32bits ((g.accounts.look (fun _ => 0) ((a - 0x40) / 4)).tdiv 1000)
  else if 0x80 ≤ a ∧ a < 0x8C then
    ((List.range 16).map fun i => divCode (s.phy (s.physOf ((a - 0x80) / 4 * 16 + i))).div * 4 ^ i).sum
  else if 0x100 ≤ a ∧ a < 0x200 then s16bits (g.sensors.getD ((a - 0x100) / 4) 0)
  else (s.reg (0x270000 + a)).toNat

/-- Whether the rotation of R476 runs: enabled, with an available spare or a slot in progress. -/
def State.rotating (s : State) : Bool :=
  (s.reg 0x280004).getLsbD 1 && (!s.spares.isEmpty || s.flt.slot.isSome)

/-- The conditions of the Hearth-logic row of R471. -/
def State.conditionsMet (s : State) : Bool :=
  !s.drg.limit && (s.reg 0x2A0004).toNat % 4 == 3 && (s.reg 0x280004).toNat % 4 == 3 && !s.spares.isEmpty

def State.fltHearth (s : State) (p : Nat) : Nat :=
  let v := s.phy p
  let l := if v.service = 3 then p else (s.logicalOf p).getD p
  let role := if v.service = 3 then 2 else s.roleOf l
  v.service + role * 4 + l * 16 + bit (l != p) 10 +
    ((List.range 4).map fun k => v.kilns.look (fun _ => 0) k * 4 ^ k).sum * 65536 +
    min (v.suspects.filter fun e => decide (s.time ≤ e.2 + hourNs)).length 255 * 2 ^ 24

def State.fltRead (s : State) (a : Nat) : Nat :=
  let f := s.flt
  if a = 0x00 then
    bit s.rotating 0 + bit (!s.spares.isEmpty) 1 + bit s.conditionsMet 2 + bit (f.service != 0) 3
  else if a = 0x08 then f.service
  else if a = 0x0C then f.log.next
  else if a = 0x10 then f.log.sel.toNat
  else if a = 0x14 then f.log.selStatus f.log.sel.toNat
  else if 0x20 ≤ a ∧ a < 0x40 then f.log.dataWord ((a - 0x20) / 4)
  else if a = 0x40 then f.rotPeriod
  else if a = 0x44 then
    match f.slot with
    | some x => x.hearth + 64
    | none => 0
  else if a = 0x54 then
    (s.links.filter fun l => l.2.halves == 1).length + (s.links.filter fun l => l.2.halves == 0).length * 256
  else if 0x100 ≤ a ∧ a < 0x1C0 then s.fltHearth ((a - 0x100) / 4)
  else if 0x200 ≤ a ∧ a < 0x2C0 then
    match (s.phy (s.physOf ((a - 0x200) / 4))).tested with
    | some t => min ((s.time - t) / 1000000) 0xFFFFFFFF
    | none => 0xFFFFFFFF
  else (s.reg (0x280000 + a)).toNat

def State.trustRead (s : State) (a : Nat) : Nat :=
  let t := s.trust
  if a = 0x00 then
    t.boot + bit t.recovered 2 + bit t.identityOk 3 + bit t.attBusy 4 + bit t.attValid 5 + bit t.attFailed 6 +
      t.ownState * 256 + t.ownResult * 65536
  else if a = 0x08 then t.fwVersion
  else if a = 0x0C then t.owner.minFw
  else if a = 0x10 then t.owner.seq
  else if a = 0x18 then t.ownStaged.length
  else if a = 0x20 then t.chg.next
  else if a = 0x24 then t.chg.sel.toNat
  else if a = 0x28 then t.chg.selStatus t.chg.sel.toNat
  else if 0x40 ≤ a ∧ a < 0x60 then t.chg.dataWord ((a - 0x40) / 4)
  else if 0x80 ≤ a ∧ a < 0xB0 then wordAt (hashBytes t.fwHash) ((a - 0x80) / 4)
  else if 0x100 ≤ a ∧ a < 0x2B0 then (if t.attValid then wordAt t.quote ((a - 0x100) / 4) else 0)
  else if a = 0x308 then (if t.boot = 2 then 0 else t.recResult + bit t.recBusy 8)
  else if 0x400 ≤ a ∧ a < 0xFE0 then leNat (s.flash.lookList erasedByte (0x2020000 + (a - 0x400)) 4)
  else (s.reg (0x290000 + a)).toNat

/-- State of bank b of logical Hearth h: 0 off, 1 on, 2 in retention. -/
def State.bankState (s : State) (h b : Nat) : Nat :=
  if s.poweredOff h then 0
  else if (s.phy (s.physOf h)).retention.look (fun _ => 0) b = 1 then 2 else 1

/-- The memory block at offset a (R449). [DEDUCED: assumption 230] -/
def State.memRead (s : State) (a : Nat) : Nat :=
  let m := s.mem
  if a = 0x00 then
    bit m.running.isSome 0 +
      bit ((s.reg 0x2A0004).getLsbD 1 && m.channels.any fun e => e.2.scrubLine != 0 || e.2.passes != 0) 1 +
      bit ((List.range 48).any fun p => (s.phy p).spareRows.any fun e => decide (8 ≤ e.2)) 2 +
      bit (!m.stopped.isEmpty) 3
  else if a = 0x08 then m.passes % 2 ^ 32
  else if a = 0x0C then m.region
  else if a = 0x28 then
    (((List.range 32).filter fun c => !s.flt.retiredCh.contains c).map fun c => (s.channel c).passes).foldl min
      (s.channel (((List.range 32).find? fun c => !s.flt.retiredCh.contains c).getD 0)).passes % 2 ^ 32
  else if a = 0x2C then (s.flt.retiredCh.map fun c => 2 ^ c).sum
  else if a = 0x30 then (s.flt.retiredWays.map fun w => 2 ^ w).sum
  else if 0x100 ≤ a ∧ a < 0x1C0 then
    ((List.range 16).map fun b => s.bankState ((a - 0x100) / 4) b * 4 ^ b).sum
  else if 0x200 ≤ a ∧ a < 0x380 then
    let v := s.phy (s.physOf ((a - 0x200) / 8))
    ((List.range 8).map fun i => min (v.spareRows.look (fun _ => 0) (a / 4 % 2 * 8 + i)) 8 * 16 ^ i).sum
  else if 0x400 ≤ a ∧ a < 0x480 then
    let c := s.channel ((a - 0x400) / 4)
    min c.corrected 65535 + min c.remapped.length 512 * 65536 + min c.uncorrectable 63 * 2 ^ 26
  else (s.reg (0x2A0000 + a)).toNat

def State.hitchRead (s : State) (d k o : Nat) : Nat :=
  if o = 0 then (s.hitch k).count
  else if o = 12 then ((s.hitch k).status d).toNat
  else 0

/-- Owner bytes of four units (R521, R522). -/
def State.owners4 (s : State) (u : Nat) : Nat := ((List.range 4).map fun i => s.unitOwner (u + i) * 256 ^ i).sum

/-! ### 64-bit registers (R513) -/

/-- The value of a 64-bit register, at the address of its `_LO`. -/
def State.wide (s : State) (d a : Nat) : Option Nat :=
  let h := s.host d
  if a = 0x200C then some s.time
  else if a = 0x2020 ∨ a = 0x200020 then some s.layShown.1
  else if a = 0x1020 then some ((h.offset % (2 ^ 64 : Nat)).toNat)
  else if a = 0x102C then some h.refHost
  else if 0x10000 ≤ a ∧ a < 0x11000 ∧ a % 256 = 0x18 then some (s.port d ((a - 0x10000) / 256)).moved
  else if 0x100000 ≤ a ∧ a < 0x200000 then
    let r := s.cordRt ((a - 0x100000) / 65536)
    if a % 65536 = 0x48 then some r.accepted
    else if a % 65536 = 0x50 then some r.finished
    else if a % 65536 = 0x58 then some r.torn
    else none
  else if 0x210100 ≤ a ∧ a < 0x210180 ∧ a % 8 = 0 ∧ a % 32 < 24 then
    some (s.hostCounts.look (fun _ => 0) ((a - 0x210100) / 32 * 4 + a % 32 / 8))
  else none

/-- The distance from `_LO` to `_HI` is 4 for every pair. -/
def State.isHi (s : State) (d a : Nat) : Bool := decide (4 ≤ a) && (s.wide d (a - 4)).isSome

/-! ### Any address -/

/-- The value that a read of plain address `a` by domain `d` returns, without its side effects; a Hearth store or
DRAM word as it stands, and DP_DATA 0. -/
def State.peek (s : State) (d a : Nat) : Word :=
  BitVec.ofNat 32
    (match s.wide d a with
     | some v => v
     | none =>
      if s.isHi d a then ((s.host d).latches.look (fun _ => 0) (a - 4)).toNat
      else if a < 0x1000 then s.identityRead a
      else if a < 0x2000 then s.hostRead d (a - 0x1000)
      else if a < 0x3000 then s.devRead (a - 0x2000)
      else if a < 0x10000 then 0
      else if a < 0x11000 then s.portRead d (a - 0x10000)
      else if a < 0x100000 then 0
      else if a < 0x200000 then s.cordRead ((a - 0x100000) / 65536) (a % 65536)
      else if a < 0x210000 then s.layRead (a % 65536)
      else if a = 0x210008 then s.nextSub
      else if a = 0x250000 then s.owners4 0
      else if a = 0x260000 then s.owners4 4
      else if a = 0x260004 then s.owners4 8
      else if a = 0x260008 then s.unitOwner 12
      else if a < 0x270000 then (s.reg a).toNat
      else if a < 0x280000 then s.draughtRead (a % 65536)
      else if a < 0x290000 then s.fltRead (a % 65536)
      else if a < 0x2A0000 then s.trustRead (a % 65536)
      else if a < 0x2B0000 then s.memRead (a % 65536)
      else if 0x1000000 ≤ a ∧ a < 0x1100000 then s.hitchRead d ((a - 0x1000000) / 16) (a % 16)
      else if 0x4000000 ≤ a ∧ a < 0x10000000 then
        (s.hearth ((a - 0x4000000) / 4194304)).store.readLe (a % 4194304) 4
      else 0)

/-! ### RW fields (R5, R438) -/

/-- The RW and RWS bits of a panel register, less reserved ones. -/
def panelRw (o : Nat) : Nat :=
  if o = 0x004 ∨ o = 0x030 ∨ o = 0x018 then 3
  else if o = 0x008 then 0x1FFF
  else if o = 0x014 then 0xFFFF
  else if o = 0x00C ∨ o = 0x010 ∨ (0x50 ≤ o ∧ o < 0x90) ∨ (0xF0 ≤ o ∧ o < 0x170) then 0xFFFFFFFF
  else if 0x90 ≤ o ∧ o < 0xB0 then (if o % 8 = 0 then 0x8003FFFF else 0xFFFFFFFF)
  else if 0xB0 ≤ o ∧ o < 0xF0 then 0x80000000
  else if 0x400 ≤ o ∧ o < 0x800 ∧ o % 64 < 36 then 0xFFFFFFFF
  else 0

/-- The RW and RWS bits of a Cord-block register. -/
def cordRw (a : Nat) : Nat :=
  if 0x6000 ≤ a ∧ a < 0x7000 then panelRw (a % 0x800)
  else if a = 0x018 ∨ a = 0x01C ∨ a = 0x02C ∨ a = 0xD008 ∨ a = 0xD00C then 0xFFFFF
  else if a = 0x024 ∨ a = 0xD014 then 0xFFFFFFFF
  else if a = 0x7030 then 0xF
  else if a = 0xC004 then 0xFF
  else if a = 0xD01C then 0xFFFF
  else 0

/-- The RW and RWS bits of the register at plain address `a`; the registers of R514 have none. -/
def rwMask (a : Nat) : Nat :=
  if a = 0x1008 then 0x1F
  else if a = 0x100C then 0xFFFFF
  else if a = 0x1018 then 1
  else if a = 0x1020 ∨ a = 0x1024 ∨ a = 0x1028 ∨ a = 0x102C ∨ a = 0x1030 then 0xFFFFFFFF
  else if 0x10000 ≤ a ∧ a < 0x11000 ∧ a % 256 = 8 then 0xFFFFFF
  else if 0x100000 ≤ a ∧ a < 0x200000 then cordRw (a % 65536)
  else if a = 0x200018 ∨ a = 0x280010 ∨ a = 0x290024 then 0xFFFFFFFF
  else if a = 0x230000 then 0x1FF
  else if a = 0x270004 then 0xFF
  else if a = 0x280004 ∨ a = 0x2A0004 then 3
  else if 0x290060 ≤ a ∧ a < 0x290080 then 0xFFFFFFFF
  else if 0x1000000 ≤ a ∧ a < 0x1100000 ∧ a % 16 = 0 then 0xFFFFFFFF
  else 0

/-! ### The change log (R505, R516) -/

/-- The registers whose every write is logged. -/
def loggedReg (a : Nat) : Bool :=
  if 0x100000 ≤ a ∧ a < 0x200000 then
    let o := a % 65536
    o == 4 || o == 8 || o == 0x10 || o == 0x7030 || o == 0x7034 || o == 0xC004 || o == 0xD004 ||
      (decide (0x6000 ≤ o) && decide (o < 0x7000) && (o % 0x800 == 4 || o % 0x800 == 0x2C || o % 0x800 == 0x30))
  else a == 0x270004 || a == 0x280004 || a == 0x2A0004

/-- The REG_WRITE entry of a write of `w` to `a`, whose fields the state `t` shows after it. [DEDUCED: assumption 40] -/
def State.logWrite (s t : State) (d a : Nat) (w : Word) : State :=
  let m := BitVec.ofNat 32 (rwMask a)
  s.logChange (originHost d) 0x101 a (s.peek d a).toNat ((t.peek d a &&& m) ||| (w &&& ~~~m)).toNat

/-- A write of `w` to the register at plain address `a` with the effect `body`: a logged one is entered first. -/
def State.loggedWrite (s : State) (d a : Nat) (w : Word) (body : State → State) : State :=
  let n := (a - 0x100000) / 65536
  if loggedReg a && (decide (0x200000 ≤ a) || s.offShown n (a % 65536)) then body (s.logWrite (body s) d a w)
  else body s

/-- A host writes `w` to the register at plain address `a`, with the effect `body`, if its view holds it. -/
def State.hostWrite (s : State) (d a : Nat) (w : Word) (body : State → State) : State :=
  if s.live && s.sees d a true then s.loggedWrite d a w body else s

end Sys2Proof.Machine
end

