-- ==== Sys2Proof/Machine/HistoryMover.lean ====
section
/-! DEFINITION. Chapter 8: the history mover's commands and the ingestion hold (R217, R224, R225, R227 to R232,
R242, R244). -/

namespace Sys2Proof.Machine

/-! ### Frames (R220 to R225) -/

/-- Fields of the history record of a Hearth's job, as of its dispatch (R222, R230). -/
def History.prefixLen (x : History) : Nat := leAt x.record 6 2
def History.length (x : History) : Nat := leAt x.record 8 4
def History.head (x : History) : Nat := leAt x.record 12 4
def History.steps (x : History) : Nat := leAt x.record 16 8
/-- Ring capacity with the job's own prefix appends, and the visible length with its ring appends. [DEDUCED:
assumption 89] -/
def History.cap (x : History) (c : CordCfg) : Nat := c.historySteps - (x.prefixLen + x.q)
def History.visible (x : History) (c : CordCfg) : Nat := min (x.length + x.p) (x.cap c)

/-- The Cord-relative address of slot j of stretch k of block b (R221). -/
def CordCfg.frameAddr (c : CordCfg) (b k j : Nat) : Nat :=
  c.regionBase 3 + b * c.block + (k * c.historySteps + j) * c.frame

/-- The slot of ring index r, past the prefix frames that the job has appended, and the ring index of age a (R224).
[DEDUCED: assumption 89] -/
def History.ringSlot (x : History) (r : Nat) : Nat := x.prefixLen + x.q + r
def History.ringOfAge (x : History) (c : CordCfg) (a : Nat) : Nat :=
  (((x.head + x.p : Nat) : Int) - a) % (max 1 (x.cap c) : Nat) |>.toNat

/-- The Hearth store address of area slot i, and the area slot of age a (R225). -/
def CordCfg.areaAddr (c : CordCfg) (i : Nat) : Nat := c.historyAt + i * c.frame
def History.areaSlot (x : History) (a : Nat) : Nat := ((((x.steps + x.p : Nat) : Int) - a) % 8).toNat

/-- A job begins on a Hearth: the mover takes the session's record, and loads the history area unless its tag matches
(R225). -/
def State.areaLoad (s : State) (c : CordCfg) (j : Job) (k : Nat) : State :=
  let h := j.hearths.getD k 0
  let v := s.hearth h
  let x : History := { v.hist with
    p := 0, q := 0, stretch := k, record := s.cordBytes c (c.sessAddr j.session 0x40) 32 }
  let s1 := s.setHearth h { v with hist := x }
  if leAt x.record 4 2 = 0 ∨ x.tag = some (j.session, k, x.steps) then s1
  else
    let n := min 8 (x.visible c)
    let bytes (a : Nat) : List Byte :=
      s.cordBytes c (c.frameAddr (leAt x.record 0 4) k (x.ringSlot (x.ringOfAge c a))) c.frame
    let s2 := (List.range n).foldl (fun t i =>
      let w := t.hearth h
      t.setHearth h (w.write (c.areaAddr (x.areaSlot (i + 1))) (bytes (i + 1)))) s1
    let w := s2.hearth h
    (s2.setHearth h { w with hist := { w.hist with tag := some (j.session, k, x.steps) } }).bumpUnits
      (cordAddr j.cord 0xC010) 65536 (n * c.frame)

/-! ### Commands (R227, R232) -/

structure HistCmd where
  op     : Nat
  flags  : Nat
  count  : Nat
  first  : Nat
  addr   : Nat
  off    : Nat
  bytes  : Nat
  status : Nat
  rsv    : Nat
  deriving DecidableEq, Repr

def readHist (b : List Byte) : HistCmd :=
  { op := leAt b 0 1, flags := leAt b 1 1, count := leAt b 2 2, first := leAt b 4 4, addr := leAt b 8 4
    off := leAt b 12 4, bytes := leAt b 16 4, status := leAt b 20 4, rsv := leAt b 24 8 }

/-- A destination of n bytes in the Hearth store, outside the weight share. [DEDUCED: assumption 88] -/
def destOk (c : CordCfg) (a n : Nat) : Bool := decide (c.weightShare ≤ a) && decide (a + n ≤ 4194304)

/-- The checks of R232 on a command's fields, its ranges and its session's history. -/
def histFieldsOk (c : CordCfg) (x : History) (k : HistCmd) : Bool :=
  let ranged := k.op == 0x31 || k.op == 0x32
  k.rsv == 0 && k.addr % 64 == 0 && (k.flags == 0 || (ranged && k.flags == 1)) &&
  (if ranged then decide (1 ≤ k.count) && decide (k.count ≤ 64) && decide (k.count * c.frame ≤ 1048576)
   else k.count == 0) &&
  (k.op == 0x31 || (k.first == 0 && k.status == 0)) && (k.op == 0x33 || (k.off == 0 && k.bytes == 0)) &&
  (k.op == 0x33 || leAt x.record 4 2 != 0) &&
  (if k.op = 0x30 then destOk c k.addr 64
   else if k.op = 0x31 then destOk c k.addr (k.count * c.frame) && k.status % 4 == 0 && destOk c k.status 4
   else if k.op = 0x32 then decide (k.addr + k.count * c.frame ≤ 4194304)
   else k.off % 64 == 0 && k.bytes % 64 == 0 && decide (64 ≤ k.bytes) && decide (k.bytes ≤ 1048576) &&
     destOk c k.addr k.bytes)

/-- The checks of R232 but for those of the spill image. -/
def histCmdOk (c : CordCfg) (j : Job) (x : History) (k : HistCmd) : Bool :=
  histFieldsOk c x k &&
  (k.op != 0x32 ||
    (if k.flags = 1 then j.cut && x.p == 0 && decide (x.prefixLen + x.q + k.count ≤ 256) &&
        decide (x.prefixLen + x.q + k.count < c.historySteps)
      else decide (x.p + k.count ≤ (if j.ingest then 64 else 1))))

/-- The command at the head of a Hearth's history-mover queue, once its checks have passed. -/
def State.histHead (s : State) (h op : Nat) (body : State → QEntry → Job → CordCfg → HistCmd → State) : State :=
  s.onHead h 6 op fun e =>
    match s.hearthJob h with
    | none => s
    | some j =>
      match s.cordCfg j.cord with
      | none => s
      | some c =>
        let k := readHist e.cmd
        if histCmdOk c j (s.hearth h).hist k then body s e j c k else s.refuseCmd h 6 e 1

/-- The command completes. -/
def State.histDone (s : State) (h : Nat) (e : QEntry) : State := (s.popQueue h 6).cmdDone h 6 e.core

/-- Write bytes at addresses of a Hearth store, waking their banks, and go on with `body`; a write of part of an
uncorrectable word ends the job (R439). -/
def State.moverWrite (s : State) (h : Nat) (ws : List (Nat × List Byte)) (body : State → State) : State :=
  match ws.find? fun x => (s.hearth h).partUe x.1 x.2.length with
  | some x => s.storeUeStop h x.1 x.2.length
  | none => body (ws.foldl (fun t x =>
      let u := t.touch h x.1 x.2.length
      u.setHearth h ((u.hearth h).write x.1 x.2)) s)

/-- HINFO (R230). -/
def State.hinfo (s : State) (h : Nat) (e : QEntry) (c : CordCfg) (k : HistCmd) : State :=
  let x := (s.hearth h).hist
  let bytes := x.record ++ natLe x.stretch 4 ++ natLe c.frame 4 ++ natLe c.historyAt 4 ++
    natLe (if x.visible c = 0 then 0xFFFFFFFF else x.areaSlot 1) 4 ++ natLe x.p 4 ++ natLe x.q 4 ++ natLe 0 8
  s.moverWrite h [(k.addr, bytes)] fun s => s.histDone h e

/-- HINFO (R230). -/
def execHinfo (h : Nat) (s : State) : Out :=
  withUnit (hearthOk h) (s.histHead h 0x30 fun s e _ c k => s.hinfo h e c k)

/-- Where frame i of an HREAD comes from: `none` for one that does not exist, the history area, or the history
block. -/
def HistCmd.source (k : HistCmd) (c : CordCfg) (x : History) (i : Nat) : Option (Nat ⊕ Nat) :=
  let a := k.first + i
  let b := leAt x.record 0 4
  if k.flags = 1 then
    if a < x.prefixLen then some (.inr (c.frameAddr b x.stretch a)) else none
  else if a = 0 ∨ x.visible c < a then none
  else if a ≤ 8 then some (.inl (c.areaAddr (x.areaSlot a)))
  else some (.inr (c.frameAddr b x.stretch (x.ringSlot (x.ringOfAge c a))))

/-- HREAD (R228). -/
def State.hread (s : State) (h : Nat) (e : QEntry) (j : Job) (c : CordCfg) (k : HistCmd) : State :=
  let x := (s.hearth h).hist
  let srcs := (List.range k.count).map (k.source c x)
  let spans : List (Nat × Nat) := srcs.filterMap fun y => match y with
    | some (.inl a) => some (a, c.frame)
    | _ => none
  let far := srcs.filterMap fun y => match y with
    | some (.inr a) => some a
    | _ => none
  let missing := (srcs.filter Option.isNone).length
  s.afterReads h spans fun s =>
    match far.find? fun a => s.cordUe c a c.frame with
    | some a => (s.noteCordUe c a c.frame).endJob j.sub stTorn
    | none =>
      let bytes := srcs.flatMap fun y => match y with
        | some (.inl a) => (s.hearth h).store.lookList zeroByte a c.frame
        | some (.inr a) => s.cordBytes c a c.frame
        | none => List.replicate c.frame 0
      s.moverWrite h [(k.addr, bytes), (k.status, natLe missing 4)] fun s =>
        (s.bumpUnits (cordAddr j.cord 0xC010) 65536 (far.length * c.frame)).histDone h e

/-- HREAD (R228). -/
def execHread (h : Nat) (s : State) : Out :=
  withUnit (hearthOk h) (s.histHead h 0x31 fun s e j c k => s.hread h e j c k)

/-- HAPPEND (R229). [DEDUCED: assumption 89] -/
def State.happend (s : State) (h : Nat) (e : QEntry) (j : Job) (c : CordCfg) (k : HistCmd) : State :=
  let x := (s.hearth h).hist
  let b := leAt x.record 0 4
  s.afterReads h [(k.addr, k.count * c.frame)] fun s =>
    let src (i : Nat) : List Byte := (s.hearth h).store.lookList zeroByte (k.addr + i * c.frame) c.frame
    let slot (i : Nat) : Nat := if k.flags = 1 then x.prefixLen + x.q + i
      else x.ringSlot ((x.head + x.p + i) % max 1 (x.cap c))
    let area := if k.flags = 1 then [] else (List.range k.count).map fun i =>
      (c.areaAddr ((x.steps + x.p + i) % 8), src i)
    s.moverWrite h area fun s =>
    let s1 := (List.range k.count).foldl (fun t i =>
      t.putCordBytes c (c.frameAddr b x.stretch (slot i)) (src i)) s
    let v := s1.hearth h
    let y := if k.flags = 1 then { v.hist with q := x.q + k.count } else { v.hist with p := x.p + k.count }
    ((s1.setHearth h { v with hist := y }).bumpUnits (cordAddr j.cord 0xC014) 65536 (k.count * c.frame)).histDone h e

/-- HAPPEND (R229). -/
def execHappend (h : Nat) (s : State) : Out :=
  withUnit (hearthOk h) (s.histHead h 0x32 fun s e j c k => s.happend h e j c k)

/-- Bytes of a model's spill image, and its start in the spill window (R244). -/
def spillBytes (c : CordCfg) (m : ModelCfg) : Nat := m.need - c.weightShare
def State.spillStart (s : State) (c : CordCfg) (m : ModelCfg) : Nat :=
  let earlier : List ModelCfg := match s.lay with
    | some l => l.models.filter fun (x : ModelCfg) => x.cord == c.cord && decide (x.index < m.index) &&
        decide (c.weightShare < x.need)
    | none => []
  earlier.foldl (fun a (x : ModelCfg) => a + (spillBytes c x + 65535) / 65536 * 65536) 0

/-- WFETCH (R231). [DEDUCED: assumption 90] -/
def State.wfetch (s : State) (h : Nat) (e : QEntry) (j : Job) (c : CordCfg) (k : HistCmd) : State :=
  match s.jobModel c j with
  | none => s.refuseCmd h 6 e 3
  | some m =>
    if spillBytes c m < k.off + k.bytes then s.refuseCmd h 6 e 3
    else
      let a := c.regionBase 5 + s.spillStart c m + k.off
      s.jobRead j.sub c a k.bytes fun s =>
        s.moverWrite h [(k.addr, s.cordBytes c a k.bytes)] fun s =>
          (s.bumpUnits (cordAddr j.cord 0xC01C) 65536 k.bytes).histDone h e

/-- WFETCH (R231). -/
def execWfetch (h : Nat) (s : State) : Out :=
  withUnit (hearthOk h) (s.histHead h 0x33 fun s e j c k => s.wfetch h e j c k)

/-! ### The ingestion hold (R242) -/

/-- The end of a 100 µs window with the share of busy data cycles. [DESIGN CHOICE: assumption 92] -/
def State.histWindow (s : State) (c : CordCfg) (pct : Nat) : State :=
  let n := c.cord
  let hold := (s.reg (cordAddr n 0xC004)).toNat
  let s1 := s.setReg (cordAddr n 0xC008) (BitVec.ofNat 32 pct)
  if s.holdOn n then
    if pct + 10 < hold % 128 ∨ !s.holdNeeded c then s1.endHold n else s1
  else if hold % 128 ≤ pct ∧ hold / 128 % 2 = 0 ∧ s.holdNeeded c then s1.setHold n true
  else s1

/-- HIST_WINDOW_END (R242). -/
def execHistWindowEnd (n busyPct : Nat) (s : State) : Out :=
  withUnit (cordOk n)
    (match s.cordCfg n with
     | some c => s.each (0x300000 + n) 100000 fun t => t.histWindow c (min busyPct 100)
     | none => s)

end Sys2Proof.Machine
end

