-- ==== Sys2Proof/Machine/Image.lean ====
section
/-! DEFINITION. What the image engines share: fp32 helpers and bilinear sampling (R349), reads and writes of an
engine job in DRAM and in the Hearth stores of its chain (R309, R439, R447), and image references (R308). -/

namespace Sys2Proof.Machine

/-! ### fp32 helpers -/

/-- clamp(v, lo, hi) on fp32 values. -/
def f32clamp (v lo hi : Nat) : Nat := if f32lt v lo then lo else if f32lt hi v then hi else v

/-- ⌊v⌋ as an integer, and the fp32 of its fraction v − ⌊v⌋. -/
def f32floor (v : Nat) : Int := (fp32.decode v).floorScaled 0
def f32frac (v : Nat) : Nat := f32sub v (f32ofInt (f32floor v))

/-- round_te of an fp32 value as an integer. -/
def f32roundTe (v : Nat) : Int := (fp32.decode v).roundScaled 0

/-- (1 − fy) × ((1 − fx) p00 + fx p10) + fy × ((1 − fx) p01 + fx p11) in fp32, in that order (R349). -/
def f32bilinear (fx fy p00 p10 p01 p11 : Nat) : Nat :=
  let gx := f32sub f32one fx
  let gy := f32sub f32one fy
  f32add (f32mul gy (f32add (f32mul gx p00) (f32mul fx p10)))
    (f32mul fy (f32add (f32mul gx p01) (f32mul fx p11)))

/-! ### Spans: what an engine job reads and writes -/

/-- A byte range: of a Hearth store, or of the Cord region where no Hearth is named. -/
structure Span where
  hearth : Option Nat
  addr   : Nat
  len    : Nat
  deriving DecidableEq, Repr

def State.spanBytes (s : State) (c : CordCfg) (x : Span) : List Byte :=
  match x.hearth with
  | some h => (s.hearth h).store.lookList zeroByte x.addr x.len
  | none => s.cordBytes c x.addr x.len

/-- Whether a read of the span meets an uncorrectable word. -/
def State.spanUe (s : State) (c : CordCfg) (x : Span) : Bool :=
  match x.hearth with
  | some h => (s.hearth h).meetsUe x.addr x.len
  | none => s.cordUe c x.addr x.len

/-- Whether a write of the span covers only part of an uncorrectable word. -/
def State.spanPartUe (s : State) (c : CordCfg) (x : Span) : Bool :=
  match x.hearth with
  | some h => (s.hearth h).partUe x.addr x.len
  | none => s.cordPartUe c x.addr x.len

/-- Account for the uncorrectable word that a span meets. -/
def State.noteSpanUe (s : State) (c : CordCfg) (x : Span) : State :=
  match x.hearth with
  | some h => s.noteSramUe h ((s.hearth h).ueAt x.addr x.len)
  | none => s.noteCordUe c x.addr x.len

/-- A job reads spans and goes on with `body`; an uncorrectable word ends it (R439, R447). -/
def State.readSpans (s : State) (sub : Nat) (c : CordCfg) (xs : List Span) (body : State → State) : State :=
  match xs.find? (s.spanUe c) with
  | some x => (s.noteSpanUe c x).endJob sub stTorn
  | none => body (xs.foldl (fun t x =>
      match x.hearth with
      | some h => t.touch h x.addr x.len
      | none => t) s)

/-- A job writes bytes at spans and goes on with `body`; a write of part of an uncorrectable word ends it. -/
def State.writeSpans (s : State) (sub : Nat) (c : CordCfg) (xs : List (Span × List Byte)) (body : State → State) :
    State :=
  match xs.find? fun x => s.spanPartUe c x.1 with
  | some x => (s.noteSpanUe c x.1).endJob sub stTorn
  | none => body (xs.foldl (fun t x =>
      match x.1.hearth with
      | some h =>
        let u := t.touch h x.1.addr x.1.len
        u.setHearth h ((u.hearth h).write x.1.addr x.2)
      | none => t.putCordBytes c x.1.addr x.2) s)

/-! ### Image references (R308, R309) -/

structure ImgRef where
  fmt   : Nat
  loc   : Nat
  pitch : Nat
  addr  : Nat
  rsv   : Nat
  deriving DecidableEq, Repr

/-- The image reference at offset `o` of a descriptor. -/
def readImg (d : List Byte) (o : Nat) : ImgRef :=
  ⟨leAt d o 1, leAt d (o + 1) 1, leAt d (o + 4) 4, leAt d (o + 8) 8, leAt d (o + 2) 2⟩

/-- Bytes per pixel. -/
def ImgRef.bpp (r : ImgRef) : Nat := if r.fmt = 1 then 1 else if r.fmt = 2 then 3 else 4

/-- The stretch of a job whose rows hold row y. -/
def Job.stretchOfRow (j : Job) (y : Nat) : Nat :=
  ((List.range j.hearths.length).filter fun k => decide (j.cuts.getD k 0 ≤ y)).length - 1

/-- Where a row that starts at `addr` with pitch `pitch` in loc `loc` lies: in DRAM, or in its stripe's Hearth. -/
def Job.rowSpan (j : Job) (loc addr pitch y n : Nat) : Span :=
  if loc = 1 then
    let k := j.stretchOfRow y
    ⟨some (j.hearths.getD k 0), addr + (y - j.cuts.getD k 0) * pitch, n⟩
  else ⟨none, addr + y * pitch, n⟩

/-- Whether rows 0 to `h` − 1 of `n` bytes at a location lie inside the Cord region, or inside the Hearth stores of
the job's chain. -/
def Job.rowsFit (j : Job) (c : CordCfg) (loc addr pitch n h : Nat) : Bool :=
  if loc = 1 then
    j.chained && !j.hearths.isEmpty && decide (h ≤ j.rows) && decide (addr < 2 ^ 32) &&
    (List.range h).all fun y => decide ((j.rowSpan loc addr pitch y n).addr + n ≤ 4194304)
  else loc == 2 && decide (addr + (h - 1) * pitch + n ≤ c.size)

/-- Whether a reference to a W × H image is valid for a job (R308, R309). -/
def ImgRef.ok (r : ImgRef) (c : CordCfg) (j : Job) (w h : Nat) : Bool :=
  decide (1 ≤ r.fmt) && decide (r.fmt ≤ 3) && r.rsv == 0 && decide (w * r.bpp ≤ r.pitch) && r.pitch % 4 == 0 &&
  j.rowsFit c r.loc r.addr r.pitch (w * r.bpp) h

/-- The spans of rows y0 to y0 + n − 1 of an image of width w. -/
def ImgRef.spans (r : ImgRef) (j : Job) (w y0 n : Nat) : List Span :=
  (List.range n).map fun i => j.rowSpan r.loc r.addr r.pitch (y0 + i) (w * r.bpp)

/-- The bytes of row y. -/
def State.imgRow (s : State) (c : CordCfg) (j : Job) (r : ImgRef) (w y : Nat) : List Byte :=
  s.spanBytes c (j.rowSpan r.loc r.addr r.pitch y (w * r.bpp))

/-- The RGB bytes of pixel x of a row's bytes; Y8 gives its intensity. -/
def ImgRef.rgb (r : ImgRef) (row : List Byte) (x : Nat) : Nat × Nat × Nat :=
  let b (i : Nat) : Nat := (row.getD (x * r.bpp + i) 0).toNat
  if r.fmt = 1 then (b 0, b 0, b 0) else (b 0, b 1, b 2)

/-- The 8-bit intensity of pixel x of a row's bytes (R308). -/
def ImgRef.intensity (r : ImgRef) (row : List Byte) (x : Nat) : Nat :=
  let (a, g, b) := r.rgb row x
  if r.fmt = 1 then a else rshiftRneNat (77 * a + 150 * g + 29 * b) 8

end Sys2Proof.Machine
end

