-- ==== Sys2Proof/Machine/Jpeg.lean ====
section
/-! DEFINITION. The JPEG decoders (R338 to R342): markers, tables, entropy decoding, the exact IDCT, chroma
replication and colour conversion. A failure carries its trailer reason: 0x08 CORRUPT_INPUT or 0x8A UNSUPPORTED. -/

namespace Sys2Proof.Machine

def corrupt : Nat := 0x08
def unsupported : Nat := 0x8A

/-! ### Markers (R340, R341) -/

/-- A component of a frame: identifier, sampling factors and quantisation table. -/
structure JComp where
  id : Nat
  h  : Nat
  v  : Nat
  tq : Nat
  deriving DecidableEq, Repr

/-- A frame header. -/
structure JFrame where
  width  : Nat
  height : Nat
  comps  : List JComp
  deriving DecidableEq, Repr

/-- A Huffman table: (length, code, symbol) of each code. -/
abbrev JHuff := List (Nat × Nat × Nat)

/-- What the segments before the scan define. Table (class, number) of a Huffman table is at class × 4 + number. -/
structure JTables where
  frame : Option JFrame := none
  quant : SMap (List Nat) := []
  huff  : SMap JHuff := []
  dri   : Nat := 0
  deriving DecidableEq, Repr

/-- Big-endian 16 bits. -/
def beAt (bs : List Byte) (o : Nat) : Nat := (bs.getD o 0).toNat * 256 + (bs.getD (o + 1) 0).toNat
def u8At (bs : List Byte) (o : Nat) : Nat := (bs.getD o 0).toNat

/-- The codes of a table in canonical order: counts for lengths 1 to 16, and the symbols. -/
def huffCodes : Nat → Nat → List Nat → List Nat → JHuff
  | _, _, [], _ => []
  | len, code, n :: counts, syms =>
    ((List.range n).map fun i => (len, code + i, syms.getD i 0)) ++
      huffCodes (len + 1) (2 * (code + n)) counts (syms.drop n)

/-- The tables of a DHT segment. -/
def readDht : Nat → List Byte → SMap JHuff → Except Nat (SMap JHuff)
  | 0, _, m => .ok m
  | fuel + 1, bs, m =>
    if bs = [] then .ok m
    else
      let k := u8At bs 0
      let counts := (List.range 16).map fun i => u8At bs (1 + i)
      let n := counts.sum
      if bs.length < 17 + n ∨ 2 ≤ k / 16 ∨ 4 ≤ k % 16 then .error corrupt
      else
        let syms := (List.range n).map fun i => u8At bs (17 + i)
        readDht fuel (bs.drop (17 + n)) (m.put (fun _ => []) (k / 16 * 4 + k % 16) (huffCodes 1 0 counts syms))

/-- The tables of a DQT segment; one of 16-bit precision is outside the subset. -/
def readDqt : Nat → List Byte → SMap (List Nat) → Except Nat (SMap (List Nat))
  | 0, _, m => .ok m
  | fuel + 1, bs, m =>
    if bs = [] then .ok m
    else if u8At bs 0 / 16 = 1 then .error unsupported
    else if bs.length < 65 ∨ 4 ≤ u8At bs 0 then .error corrupt
    else readDqt fuel (bs.drop 65) (m.put (fun _ => []) (u8At bs 0) ((List.range 64).map fun i => u8At bs (1 + i)))

/-- A frame header of the accepted subset. -/
def readSof (bs : List Byte) : Except Nat JFrame :=
  let n := u8At bs 5
  if u8At bs 0 ≠ 8 then .error unsupported
  else if bs.length ≠ 6 + 3 * n then .error corrupt
  else
    let comps := (List.range n).map fun i =>
      let o := 6 + 3 * i
      ({ id := u8At bs o, h := u8At bs (o + 1) / 16, v := u8At bs (o + 1) % 16, tq := u8At bs (o + 2) } : JComp)
    let luma : Bool := match comps with
      | c :: _ => (c.h == 1 && c.v == 1) || (c.h == 2 && c.v == 1) || (c.h == 2 && c.v == 2)
      | [] => false
    if (n == 1 || n == 3) && luma && (comps.drop 1).all fun c => c.h == 1 && c.v == 1 then
      .ok { width := beAt bs 3, height := beAt bs 1, comps := comps }
    else .error unsupported

/-- One segment before the scan: the tables after it. -/
def JTables.segment (t : JTables) (marker : Nat) (bs : List Byte) : Except Nat JTables :=
  if marker = 0xC0 ∨ marker = 0xC1 then
    if t.frame.isSome then .error corrupt
    else (readSof bs).map fun f => { t with frame := some f }
  else if marker = 0xC4 then (readDht bs.length bs t.huff).map fun m => { t with huff := m }
  else if marker = 0xDB then (readDqt bs.length bs t.quant).map fun m => { t with quant := m }
  else if marker = 0xDD then (if bs.length = 2 then .ok { t with dri := beAt bs 0 } else .error corrupt)
  else if (0xE0 ≤ marker ∧ marker < 0xF0) ∨ marker = 0xFE then .ok t
  else if 0xC2 ≤ marker ∧ marker < 0xD0 then .error unsupported
  else .error corrupt

/-- Read segments up to the scan header: the tables, the scan header, and the bytes after it. With `frameOnly`, stop at
the frame header. [PRESUMED: assumption 153] -/
def readSegments (frameOnly : Bool) : Nat → List Byte → JTables → Except Nat (JTables × List Byte × List Byte)
  | 0, _, _ => .error corrupt
  | fuel + 1, bs, t =>
    if frameOnly && t.frame.isSome then .ok (t, [], [])
    else if u8At bs 0 ≠ 0xFF then .error corrupt
    else
      let m := u8At bs 1
      if m = 0xFF then readSegments frameOnly fuel (bs.drop 1) t
      else
        let len := beAt bs 2
        if bs.length < 4 ∨ len < 2 ∨ bs.length < 2 + len then .error corrupt
        else
          let seg := (bs.drop 4).take (len - 2)
          let rest := bs.drop (2 + len)
          if m = 0xDA then .ok (t, seg, rest)
          else (t.segment m seg).bind fun t1 => readSegments frameOnly fuel rest t1

/-- The tables up to the scan of a file. -/
def readHead (frameOnly : Bool) (bs : List Byte) : Except Nat (JTables × List Byte × List Byte) :=
  if u8At bs 0 = 0xFF ∧ u8At bs 1 = 0xD8 then readSegments frameOnly bs.length (bs.drop 2) {} else .error corrupt

/-- The frame header, as read before any memory is allocated (R338). -/
def jpegFrame (bs : List Byte) : Except Nat JFrame :=
  match readHead true bs with
  | .ok (t, _, _) => (match t.frame with
    | some f => .ok f
    | none => .error corrupt)
  | .error e => .error e

/-! ### The claimed block count (R339) -/

def JFrame.hMax (f : JFrame) : Nat := (f.comps.map JComp.h).foldl max 1
def JFrame.vMax (f : JFrame) : Nat := (f.comps.map JComp.v).foldl max 1
def JFrame.mcusX (f : JFrame) : Nat := (f.width + 8 * f.hMax - 1) / (8 * f.hMax)
def JFrame.mcus (f : JFrame) : Nat := f.mcusX * ((f.height + 8 * f.vMax - 1) / (8 * f.vMax))
def JFrame.claimed (f : JFrame) : Nat := f.mcus * (f.comps.map fun c => c.h * c.v).sum

/-! ### Entropy-coded data -/

/-- Split entropy-coded data at its restart markers: the segments without stuffing, each with the number of the
marker that ends it, and the bytes from the first other marker on. `none` where the data ends first. -/
def splitScan : List Byte → List Byte → List (List Byte × Nat) → Option (List (List Byte × Nat) × List Byte × List Byte)
  | 0xFF :: 0xFF :: rest, cur, out => splitScan (0xFF :: rest) cur out
  | 0xFF :: m :: rest, cur, out =>
    if m = 0 then splitScan rest (0xFF :: cur) out
    else if 0xD0 ≤ m.toNat ∧ m.toNat ≤ 0xD7 then splitScan rest [] ((cur.reverse, m.toNat - 0xD0) :: out)
    else some (out.reverse, cur.reverse, 0xFF :: m :: rest)
  | [0xFF], _, _ => none
  | b :: rest, cur, out => splitScan rest (b :: cur) out
  | [], _, _ => none

/-- The segments after the scan, up to EOI, after which only fill bytes may stand; a further scan is outside the
subset. -/
def readTail : Nat → List Byte → Except Nat Unit
  | 0, _ => .error corrupt
  | fuel + 1, bs =>
    let m := u8At bs 1
    let len := beAt bs 2
    if u8At bs 0 ≠ 0xFF ∨ bs.length < 2 then .error corrupt
    else if m = 0xFF then readTail fuel (bs.drop 1)
    else if m = 0xD9 then (if (bs.drop 2).all fun b => b == 0xFF then .ok () else .error corrupt)
    else if m = 0xDA then .error unsupported
    else if bs.length < 4 ∨ len < 2 ∨ bs.length < 2 + len then .error corrupt
    else readTail fuel (bs.drop (2 + len))

/-- The bits of a segment, first bit of each byte first. -/
def bitsOfBytes (bs : List Byte) : List Bool :=
  bs.flatMap fun b => ([7, 6, 5, 4, 3, 2, 1, 0] : List Nat).map fun i => b.toNat.testBit i

/-- Take `n` bits as a number. -/
def takeBits : Nat → List Bool → Nat → Except Nat (Nat × List Bool)
  | 0, bs, acc => .ok (acc, bs)
  | n + 1, b :: bs, acc => takeBits n bs (2 * acc + (if b then 1 else 0))
  | _ + 1, [], _ => .error corrupt

/-- Decode one Huffman symbol; `n` more bits may follow. -/
def takeSymbol (t : JHuff) : Nat → Nat → Nat → List Bool → Except Nat (Nat × List Bool)
  | 0, _, _, _ => .error corrupt
  | _ + 1, _, _, [] => .error corrupt
  | n + 1, len, code, b :: bs =>
    let code := 2 * code + (if b then 1 else 0)
    match t.find? fun e => e.1 == len + 1 && e.2.1 == code with
    | some e => .ok (e.2.2, bs)
    | none => takeSymbol t n (len + 1) code bs

/-- The value of `n` bits `x` of category n. -/
def extendBits (n x : Nat) : Int := if n = 0 ∨ 2 ^ (n - 1) ≤ x then x else (x : Int) - (2 ^ n : Nat) + 1

/-- The AC coefficients of a block from index k, as (index, value). -/
def takeAc (t : JHuff) : Nat → Nat → List Bool → List (Nat × Int) → Except Nat (List (Nat × Int) × List Bool)
  | 0, _, bs, out => .ok (out, bs)
  | fuel + 1, k, bs, out =>
    if 63 < k then .ok (out, bs)
    else (takeSymbol t 16 0 0 bs).bind fun (rs, bs) =>
      let r := rs / 16
      let n := rs % 16
      if n = 0 then
        if r = 15 then (if 63 < k + 15 then .error corrupt else takeAc t fuel (k + 16) bs out)
        else .ok (out, bs)
      else if 63 < k + r then .error corrupt
      else (takeBits n bs 0).bind fun (x, bs) => takeAc t fuel (k + r + 1) bs ((k + r, extendBits n x) :: out)

/-- A decoded block: its coefficients in zigzag order, as (index, value). -/
abbrev JBlock := List (Nat × Int)

/-- The blocks of one MCU, by the components of its blocks, with the DC predictors. -/
def takeMcu (dc ac : Nat → JHuff) : List Nat → SMap Int → List Bool → List (Nat × JBlock) →
    Except Nat (SMap Int × List Bool × List (Nat × JBlock))
  | [], pred, bs, out => .ok (pred, bs, out)
  | c :: cs, pred, bs, out =>
    (takeSymbol (dc c) 16 0 0 bs).bind fun (n, bs) =>
    (takeBits n bs 0).bind fun (x, bs) =>
    let v := pred.look (fun _ => 0) c + extendBits n x
    (takeAc (ac c) 64 1 bs []).bind fun (coefs, bs) =>
    takeMcu dc ac cs (pred.put (fun _ => 0) c v) bs ((c, (0, v) :: coefs) :: out)

/-- `n` MCUs of one restart interval; the blocks newest first. -/
def takeMcus (dc ac : Nat → JHuff) (shape : List Nat) : Nat → SMap Int → List Bool → List (Nat × JBlock) →
    Except Nat (List (Nat × JBlock))
  | 0, _, _, out => .ok out
  | n + 1, pred, bs, out =>
    (takeMcu dc ac shape pred bs out).bind fun (pred, bs, out) => takeMcus dc ac shape n pred bs out

/-- Every restart interval of the scan: `left` MCUs over the segments, whose markers must be in sequence. -/
def takeScan (dc ac : Nat → JHuff) (shape : List Nat) (dri : Nat) :
    Nat → Nat → List (List Byte × Option Nat) → List (Nat × JBlock) → Except Nat (List (Nat × JBlock))
  | _, left, [], out => if left = 0 then .ok out else .error corrupt
  | i, left, (bs, mark) :: rest, out =>
    let n := if dri = 0 then left else min dri left
    let more := left - n
    if left = 0 ∨ (mark.isSome && (more == 0 || mark != some (i % 8))) ∨ (mark.isNone && more != 0) then .error corrupt
    else (takeMcus dc ac shape n [] (bitsOfBytes bs) out).bind fun out => takeScan dc ac shape dri (i + 1) more rest out

/-! ### IDCT and colour (R342) -/

/-- round(4,096 × cos(jπ / 16)) for j from 0 to 8. -/
def cosTable16 : List Int := [4096, 4017, 3784, 3406, 2896, 2276, 1567, 799, 0]

/-- C[u][x]. -/
def idctC (u x : Nat) : Int :=
  let j := if u = 0 then 4 else (2 * x + 1) * u % 32
  if j ≤ 8 then cosTable16.getD j 0
  else if j ≤ 16 then -cosTable16.getD (16 - j) 0
  else if j ≤ 24 then -cosTable16.getD (j - 16) 0
  else cosTable16.getD (32 - j) 0

/-- Row × 8 + column of zigzag index k. -/
def zigzag : List Nat :=
  [0, 1, 8, 16, 9, 2, 3, 10, 17, 24, 32, 25, 18, 11, 4, 5, 12, 19, 26, 33, 40, 48, 41, 34, 27, 20, 13, 6, 7, 14, 21,
   28] ++
  [35, 42, 49, 56, 57, 50, 43, 36, 29, 22, 15, 23, 30, 37, 44, 51, 58, 59, 52, 45, 38, 31, 39, 46, 53, 60, 61, 54, 47,
   55, 62, 63]

/-- The 64 samples of a block, in raster order. -/
def idct (quant : List Nat) (b : JBlock) : List Nat :=
  let f := b.map fun e => (zigzag.getD e.1 0, e.2 * (quant.getD e.1 0 : Int))
  let g (u y : Nat) : Int :=
    rshiftRne ((f.filter fun e => e.1 % 8 == u).map fun e => idctC (e.1 / 8) y * e.2).sum 11
  (List.range 64).map fun i =>
    let v := rshiftRne ((List.range 8).map fun u => idctC u (i % 8) * g u (i / 8)).sum 15
    (max 0 (min 255 (v + 128))).toNat

def clamp255 (v : Int) : Nat := (max 0 (min 255 v)).toNat

/-- YCbCr to RGB. -/
def ycc (y cb cr : Int) : List Nat :=
  let db := cb - 128
  let dr := cr - 128
  [clamp255 (y + rshiftRne (91881 * dr) 16), clamp255 (y - rshiftRne (22554 * db + 46802 * dr) 16),
   clamp255 (y + rshiftRne (116130 * db) 16)]

/-! ### A file -/

/-- A decoded image: format code 1 Y8 or 2 RGB888 (7 D16 and 8 D32F for depth), and its pixels, rows packed. -/
structure Picture where
  fmt    : Nat
  width  : Nat
  height : Nat
  pixels : List Byte
  deriving DecidableEq, Repr

/-- The components of an MCU's blocks, in order. A scan of one component is not interleaved. -/
def JFrame.shape (f : JFrame) : List Nat :=
  if f.comps.length = 1 then [0]
  else (List.range f.comps.length).flatMap fun i =>
    match f.comps[i]? with
    | some c => List.replicate (c.h * c.v) i
    | none => []

/-- The picture of a frame from its blocks in scan order. -/
def JFrame.picture (f : JFrame) (quant : Nat → List Nat) (blocks : List (Nat × JBlock)) : Picture :=
  let one := f.comps.length == 1
  let hm := if one then 1 else f.hMax
  let vm := if one then 1 else f.vMax
  let across := (f.width + 8 * hm - 1) / (8 * hm)
  let per := f.shape.length
  let data := (blocks.map fun b => (idct (quant b.1) b.2).toArray).toArray
  let sample (i x y : Nat) : Nat :=
    let c := f.comps.getD i ⟨0, 1, 1, 0⟩
    let h := if one then 1 else c.h
    let v := if one then 1 else c.v
    let sx := x * h / hm
    let sy := y * v / vm
    let bx := sx / 8
    let by' := sy / 8
    let first := if i = 0 then 0 else (f.comps.headD ⟨0, 1, 1, 0⟩).h * (f.comps.headD ⟨0, 1, 1, 0⟩).v + (i - 1)
    let k := (by' / v * across + bx / h) * per + first + by' % v * h + bx % h
    (data.getD k #[]).getD (sy % 8 * 8 + sx % 8) 0
  let pixels := (List.range f.height).flatMap fun y => (List.range f.width).flatMap fun x =>
    if one then [sample 0 x y] else ycc (sample 0 x y) (sample 1 x y) (sample 2 x y)
  { fmt := if one then 1 else 2, width := f.width, height := f.height, pixels := pixels.map (BitVec.ofNat 8) }

/-- MCUs of the scan. -/
def JFrame.scanMcus (f : JFrame) : Nat :=
  if f.comps.length = 1 then (f.width + 7) / 8 * ((f.height + 7) / 8) else f.mcus

/-- Decode a file, or answer the reason why it fails (R340, R341). -/
def jpegDecode (bs : List Byte) : Except Nat Picture :=
  (readHead false bs).bind fun (t, sos, data) =>
  match t.frame with
  | none => .error corrupt
  | some f =>
    let n := f.comps.length
    let sel (i : Nat) : Nat := u8At sos (2 + 2 * i)
    if u8At sos 0 ≠ n then .error unsupported
    else if sos.length ≠ 4 + 2 * n ∨ (List.range n).any (fun i => u8At sos (1 + 2 * i) != ((f.comps[i]?).map JComp.id).getD 256) then
      .error corrupt
    else
      let quant (i : Nat) : List Nat := t.quant.look (fun _ => []) (((f.comps[i]?).map JComp.tq).getD 0)
      let dc (i : Nat) : JHuff := t.huff.look (fun _ => []) (sel i / 16)
      let ac (i : Nat) : JHuff := t.huff.look (fun _ => []) (4 + sel i % 16)
      if (List.range n).any fun i => decide (4 ≤ sel i / 16) || decide (4 ≤ sel i % 16) || quant i == [] || dc i == [] ||
          ac i == [] then .error corrupt
      else
        match splitScan data [] [] with
        | none => .error corrupt
        | some (segs, lastSeg, tail) =>
          let all := (segs.map fun e => (e.1, some e.2)) ++ [(lastSeg, none)]
          (takeScan dc ac f.shape t.dri 0 f.scanMcus all []).bind fun blocks =>
          (readTail tail.length tail).bind fun _ => .ok (f.picture quant blocks.reverse)

end Sys2Proof.Machine
end

