-- ==== Sys2Proof/Machine/Augment.lean ====
section
/-! DEFINITION. The augmentation unit and the tokenizer as functions of a sample (R337, R345 to R350, R352, R360): the
generator, RAW and DEPTH payloads, tokens, the six augmentation steps and output records. -/

namespace Sys2Proof.Machine

/-! ### The generator (R347, R348) -/

def mul64 (a b : Nat) : Nat := a * b % 2 ^ 64
def add64 (a b : Nat) : Nat := (a + b) % 2 ^ 64

def mix64 (x : Nat) : Nat :=
  let x := x ^^^ (x / 2 ^ 31)
  let x := mul64 x 0x8F3A51C72D64B0E9
  let x := x ^^^ (x / 2 ^ 29)
  let x := mul64 x 0xC2B69E4D713FA85B
  x ^^^ (x / 2 ^ 32)

/-- Draw d of a sample. -/
def augDraw (seed index e d : Nat) : Nat :=
  let x := mix64 (seed ^^^ 0x4F1B8A2C93D56E07)
  let x := mix64 (x ^^^ index)
  let x := mix64 (add64 x e)
  mix64 (x ^^^ mul64 d 0x9D2C5680A3E14F6B)

def unif (x : Nat) : Nat := fp32.pack (.fin false (x / 2 ^ 40) (-24))
def uint (x n : Nat) : Nat := x / 2 ^ 32 * n / 2 ^ 32
def bern (x p16 : Nat) : Bool := decide (x / 2 ^ 48 < p16)

/-! ### RAW and DEPTH payloads (R337) -/

/-- Bytes per pixel of a decoded format (R338). -/
def decodedBytes (fmt : Nat) : Nat := if fmt = 1 then 1 else if fmt = 2 then 3 else if fmt = 7 then 2 else 4

/-- Whether dimensions exceed a session's limits (R338). -/
def overLimit (w h bpp maxPixels maxBytes : Nat) : Bool :=
  w == 0 || h == 0 || decide (16384 < w) || decide (16384 < h) || decide (maxPixels < w * h) ||
    decide (maxBytes < w * h * bpp)

/-- A RAW payload as a picture; `none` where it is corrupt. [DEDUCED: assumption 154] -/
def rawPicture (p : List Byte) : Option Picture :=
  let w := leAt p 0 2
  let h := leAt p 2 2
  let fmt := leAt p 4 1
  let pitch := leAt p 8 4
  let row := w * decodedBytes fmt
  if (fmt = 1 ∨ fmt = 2) ∧ zeroAt p 5 3 ∧ row ≤ pitch ∧ 16 + (h - 1) * pitch + row = p.length then
    some { fmt := fmt, width := w, height := h
           pixels := (List.range h).flatMap fun y => (p.drop (16 + y * pitch)).take row }
  else none

/-- The blocks of a DEPTH payload: each one's `units` and the offset of its payload. -/
def depthBlocks (raw : Nat) (p : List Byte) : Nat → Nat → Nat → List (Nat × Nat)
  | 0, _, _ => []
  | n + 1, i, o =>
    let u := leAt p (16 + 8 * i) 8 % 16
    (u, o) :: depthBlocks raw p n (i + 1) (o + u * raw / 8)

/-- A DEPTH payload as a picture; `none` where it is corrupt. -/
def depthPicture (p : List Byte) : Option Picture :=
  let w := leAt p 0 2
  let h := leAt p 2 2
  let fmt := leAt p 4 1
  let raw := 64 * fmtBytes fmt
  let across := (w + 7) / 8
  let n := across * ((h + 7) / 8)
  let blocks := depthBlocks raw p n 0 (16 + 8 * n)
  let total := 16 + 8 * n + (blocks.map fun b => b.1 * raw / 8).sum
  let heads := (List.range n).map fun i => leAt p (16 + 8 * i) 8
  if fmtDepth fmt && zeroAt p 5 11 && (heads.all fun x => decide (x ≤ 8)) && p.length == total then
    let codes := (blocks.map fun b => (decodeBlock fmt 0 b.1 ((p.drop b.2).take (b.1 * raw / 8))).toArray).toArray
    some { fmt := fmt, width := w, height := h
           pixels := (List.range h).flatMap fun y => (List.range w).flatMap fun x =>
             natLe ((codes.getD (y / 8 * across + x / 8) #[]).getD (y % 8 * 8 + x % 8) 0) (fmtBytes fmt) }
  else none

/-! ### Text (R345, R346) -/

/-- The id of the longest entry of a dictionary with which a byte string begins, and its length. -/
def longestEntry (dict : List (List Byte)) (bs : List Byte) : Nat × Nat :=
  (List.range dict.length).foldl (fun b i =>
    let e := dict.getD i []
    if b.2 < e.length ∧ bs.take e.length = e then (i, e.length) else b) (0, 0)

/-- The tokens of a byte string. -/
def tokenise (dict : List (List Byte)) : Nat → List Byte → List Nat
  | 0, _ => []
  | fuel + 1, bs =>
    if bs = [] then []
    else
      let (i, n) := longestEntry dict bs
      i :: tokenise dict fuel (bs.drop (max 1 n))

/-! ### Images under augmentation (R349, R350) -/

/-- An image between steps: its size, its channels, and each channel's value at (x, y): fp32 of a colour image, the
code of a depth image. -/
structure AugImg where
  w  : Nat
  h  : Nat
  px : Nat → Nat → Nat → Nat

/-- Channels of a decoded format. -/
def pictureChannels (fmt : Nat) : Nat := if fmt = 2 then 3 else 1
def pictureIsDepth (fmt : Nat) : Bool := fmt == 7 || fmt == 8

/-- A picture before step 1. -/
def Picture.img (p : Picture) : AugImg :=
  let data := p.pixels.toArray
  let n := decodedBytes p.fmt
  let byte (i : Nat) : Nat := (data.getD i 0).toNat
  { w := p.width, h := p.height
    px := fun x y c =>
      let o := (y * p.width + x) * n
      if pictureIsDepth p.fmt then ((List.range n).map fun i => byte (o + i) * 256 ^ i).sum
      else f32ofInt (byte (o + c)) }

/-- Values computed once: an image whose pixels are held in a table. -/
def AugImg.held (m : AugImg) (chans : Nat) : AugImg :=
  let rows := ((List.range m.h).map fun y => ((List.range m.w).map fun x =>
    ((List.range chans).map fun c => m.px x y c).toArray).toArray).toArray
  { m with px := fun x y c => ((rows.getD y #[]).getD x #[]).getD c 0 }

/-- A crop rectangle (step 1). -/
structure Crop where
  x0 : Nat
  y0 : Nat
  cw : Nat
  ch : Nat
  deriving DecidableEq, Repr

/-- An integer between 1 and n from an fp32 value; a NaN gives a free one. [DESIGN CHOICE: assumption 19] -/
def clampSize (v n : Nat) (free : BitVec 64) : Nat :=
  match fp32.decode v with
  | .nan => 1 + free.toNat % n
  | .inf neg => if neg then 1 else n
  | .fin .. => (max 1 (min (n : Int) (f32roundTe v))).toNat

def cropOf (d : List Byte) (draw : Nat → Nat) (w h free : Nat) : Crop :=
  if leAt d 6 1 = 0 then ⟨0, 0, w, h⟩
  else
    let mix (lo hi k : Nat) : Nat := f32add (leAt d lo 4) (f32mul (f32sub (leAt d hi 4) (leAt d lo 4)) (unif (draw k)))
    let s := mix 28 32 0
    let r := mix 36 40 1
    let area := f32mul (f32mul s (f32ofInt w)) (f32ofInt h)
    let cw := clampSize (f32sqrt (f32mul area r)) w (Config.freeValue free)
    let ch := clampSize (f32sqrt (f32div area r)) h (Config.freeValue (free + 1))
    ⟨uint (draw 2) (w - cw + 1), uint (draw 3) (h - ch + 1), cw, ch⟩

def AugImg.crop (m : AugImg) (c : Crop) : AugImg := { w := c.cw, h := c.ch, px := fun x y => m.px (c.x0 + x) (c.y0 + y) }

/-- The quarter turn (step 2). -/
def quarterOf (d : List Byte) (draw : Nat → Nat) : Nat :=
  let bits := ([0, 1, 2, 3] : List Nat).filter fun i => (leAt d 7 1).testBit i
  bits.getD (uint (draw 5) bits.length) 0

def AugImg.turn (m : AugImg) (q : Nat) : AugImg :=
  if q = 1 then { w := m.h, h := m.w, px := fun x y => m.px y (m.h - 1 - x) }
  else if q = 2 then { w := m.w, h := m.h, px := fun x y => m.px (m.w - 1 - x) (m.h - 1 - y) }
  else if q = 3 then { w := m.h, h := m.w, px := fun x y => m.px (m.w - 1 - y) x }
  else m

/-- An angle of a/16 degrees, in radians × 2^120. -/
def angleScaled (a : Int) : Int := a * (piScaled / 64 : Nat) / 2880

/-- fp32 of v × 2^-120. -/
def f32scaled (v : Int) : Nat := fp32.pack (.fin (decide (v < 0)) v.natAbs (-120))

/-- The fp32 values nearest to cos and sin of a/16 degrees. -/
def f32cos16 (a : Int) : Nat :=
  let z := angleScaled a
  f32scaled (cosSeries (z * z / (2 ^ 120 : Nat)) 20 0 (2 ^ 120 : Nat))
def f32sin16 (a : Int) : Nat :=
  let z := angleScaled a
  f32scaled (cosSeries (z * z / (2 ^ 120 : Nat)) 20 1 z)

/-- The rotation angle (step 3), if it is applied. -/
def angleOf (d : List Byte) (draw : Nat → Nat) : Option Int :=
  if bern (draw 4) (leAt d 20 2) then some ((uint (draw 6) (2 * leAt d 18 2 + 1) : Nat) - (leAt d 18 2 : Int)) else none

/-- A pixel at integer coordinates; one outside reads `fill`. -/
def AugImg.outer (m : AugImg) (fill : Nat) (x y : Int) (c : Nat) : Nat :=
  if 0 ≤ x ∧ x < m.w ∧ 0 ≤ y ∧ y < m.h then m.px x.toNat y.toNat c else fill

/-- A bilinear sample whose pixels `p` gives. -/
def bilinearAt (p : Int → Int → Nat) (sx sy : Nat) : Nat :=
  let i := f32floor sx
  let j := f32floor sy
  f32bilinear (f32frac sx) (f32frac sy) (p i j) (p (i + 1) j) (p i (j + 1)) (p (i + 1) (j + 1))

def AugImg.rotate (m : AugImg) (depth : Bool) (fill : Nat) (a : Int) : AugImg :=
  let c := f32cos16 a
  let s := f32sin16 a
  let half (n : Nat) : Nat := f32mul (f32ofInt n) f32half
  let d (i n : Nat) : Nat := f32sub (f32add (f32ofInt i) f32half) (half n)
  let sx (x y : Nat) : Nat :=
    f32sub (f32add (f32add (f32mul c (d x m.w)) (f32mul s (d y m.h))) (half m.w)) f32half
  let sy (x y : Nat) : Nat :=
    f32sub (f32add (f32add (f32mul (s ^^^ 2 ^ 31) (d x m.w)) (f32mul c (d y m.h))) (half m.h)) f32half
  { m with px := fun x y k =>
      if depth then m.outer 0 (f32roundTe (sx x y)) (f32roundTe (sy x y)) k
      else bilinearAt (fun i j => m.outer fill i j k) (sx x y) (sy x y) }

/-- The source coordinate of output i of n for an axis of length w, clamped to the image (step 4). -/
def resizeCoord (i w n : Nat) : Nat :=
  let v := f32sub (f32div (f32mul (f32add (f32ofInt i) f32half) (f32ofInt w)) (f32ofInt n)) f32half
  f32clamp v 0 (f32ofInt ((w : Int) - 1))

/-- The weighted sources of output i on an axis, and their total: the overlaps of its source box, or the two bilinear
neighbours of an axis that grows. [DEDUCED: assumption 161] -/
def axisWeights (i w n : Nat) : List (Nat × Nat) × Nat :=
  if n ≤ w then
    let edge (k : Nat) : Nat := f32div (f32mul (f32ofInt k) (f32ofInt w)) (f32ofInt n)
    let lo := edge i
    let hi := edge (i + 1)
    let first := (f32floor lo).toNat
    let span := (f32floor hi).toNat - first + 1
    let upper (k : Nat) : Nat := if f32lt hi (f32ofInt ((k : Int) + 1)) then hi else f32ofInt ((k : Int) + 1)
    let lower (k : Nat) : Nat := if f32lt lo (f32ofInt k) then f32ofInt k else lo
    let ws := ((List.range span).map fun t => (first + t, f32sub (upper (first + t)) (lower (first + t)))).filter fun e =>
      decide (e.1 < w) && f32lt 0 e.2
    (ws, f32sub hi lo)
  else
    let v := resizeCoord i w n
    let k := (f32floor v).toNat
    ([(k, f32sub f32one (f32frac v)), (min (k + 1) (w - 1), f32frac v)], f32one)

def AugImg.resize (m : AugImg) (d : List Byte) (depth : Bool) : AugImg :=
  let ow := leAt d 14 2
  let oh := leAt d 16 2
  let filter := leAt d 13 1
  { w := ow, h := oh
    px := fun x y k =>
      if depth || filter == 0 then m.px ((2 * x + 1) * m.w / (2 * ow)) ((2 * y + 1) * m.h / (2 * oh)) k
      else if filter = 1 ∨ (m.w < ow ∧ m.h < oh) then
        bilinearAt (fun i j => m.px (min i.toNat (m.w - 1)) (min j.toNat (m.h - 1)) k) (resizeCoord x m.w ow)
          (resizeCoord y m.h oh)
      else
        let (xs, tx) := axisWeights x m.w ow
        let (ys, ty) := axisWeights y m.h oh
        let total := ys.foldl (fun a e => xs.foldl (fun a f => f32add a (f32mul (f32mul e.2 f.2) (m.px f.1 e.1 k))) a) 0
        f32div total (f32mul tx ty) }

def AugImg.flip (m : AugImg) (hor ver : Bool) : AugImg :=
  { m with px := fun x y => m.px (if hor then m.w - 1 - x else x) (if ver then m.h - 1 - y else y) }

/-- The bytes of an output value (step 6); a depth code is unconverted. The bf16 of a NaN is draw `free` (assumption
15). -/
def augBytes (d : List Byte) (fmt c v free : Nat) : List Byte :=
  if pictureIsDepth fmt then natLe v (decodedBytes fmt)
  else if leAt d 12 1 = 1 then natLe (f32roundTe (f32clamp v 0 (f32ofInt 255))).toNat 1
  else natLe (bf16Of (f32mul (f32sub (f32div v (f32ofInt 255)) (leAt d (44 + 4 * c) 4)) (leAt d (56 + 4 * c) 4))
    (Config.freeValue free)) 2

/-! ### Output records (R360) -/

/-- Bytes padded with zeros to a multiple of n. -/
def padTo (n : Nat) (bs : List Byte) : List Byte := bs ++ List.replicate ((n - bs.length % n) % n) 0

/-- A record but for its position and its backfill flag, which are 0. -/
def recordBytes (id kind flags : Nat) (label : List Byte) (crop : Crop) (q : Nat) (angle : Int)
    (w h chans fmt epoch tokens : Nat) (data : List Byte) : List Byte :=
  natLe id 8 ++ natLe 0 4 ++ natLe kind 1 ++ natLe flags 1 ++ natLe label.length 2 ++ natLe crop.x0 2 ++
    natLe crop.y0 2 ++ natLe crop.cw 2 ++ natLe crop.ch 2 ++ natLe q 1 ++ natLe 0 1 ++
    natLe (angle % 65536).toNat 2 ++ natLe w 2 ++ natLe h 2 ++ natLe chans 1 ++ natLe fmt 1 ++ natLe 0 2 ++
    natLe data.length 4 ++ natLe epoch 4 ++ natLe tokens 4 ++ natLe 0 16 ++ padTo 64 label ++ padTo 64 data

/-- A record at position p; `backfill` for one that fills a failed position. -/
def placeRecord (out : List Byte) (p : Nat) (backfill : Bool) : List Byte :=
  out.take 8 ++ natLe p 4 ++ (out.drop 12).take 1 ++
    [(out.getD 13 0) ||| (if backfill then 0x20 else 0)] ++ out.drop 14

/-- The `e` of R347. -/
def epochOf (d : List Byte) : Nat := if (leAt d 1 1).testBit 0 then leAt d 8 4 + 1 else 0

/-- The output record of an image or depth sample (R349, R350). [DEDUCED: assumption 162] -/
def augment (d : List Byte) (seed id : Nat) (label : List Byte) (fromCache stored : Bool) (p : Picture)
    (free : Nat) : List Byte :=
  let draw (k : Nat) : Nat := augDraw seed id (epochOf d) k
  let depth := pictureIsDepth p.fmt
  let chans := pictureChannels p.fmt
  let crop := cropOf d draw p.width p.height free
  let q := quarterOf d draw
  let angle := angleOf d draw
  let m := (p.img.crop crop).turn q
  let m := match angle with
    | some a => (m.rotate depth (f32ofInt (leAt d 26 1)) a).held chans
    | none => m
  let hf := bern (draw 7) (leAt d 22 2)
  let vf := bern (draw 8) (leAt d 24 2)
  let m := (m.resize d depth).flip hf vf
  let data := (List.range m.h).flatMap fun y => (List.range m.w).flatMap fun x =>
    (List.range chans).flatMap fun c => augBytes d p.fmt c (m.px x y c) (free + 2 + (65536 * y + x) * 4 + c)
  let flags := (if fromCache then 1 else 0) + (if stored then 2 else 0) + (if hf then 4 else 0) + (if vf then 8 else 0)
  let fmt := if depth then (if p.fmt = 7 then 3 else 4) else leAt d 12 1
  recordBytes id (if depth then 2 else 1) flags label crop q (angle.getD 0) m.w m.h chans fmt (leAt d 8 4) 0 data

/-- The output record of a TEXT sample (R346). -/
def textRecord (d : List Byte) (id : Nat) (label : List Byte) (tokens : List Nat) (count : Nat) : List Byte :=
  let n := leAt d 96 4
  let kept := tokens.take n ++ List.replicate (n - tokens.length) (leAt d 100 4)
  recordBytes id 3 (if n < count then 16 else 0) label ⟨0, 0, 0, 0⟩ 0 0 0 0 0 5 (leAt d 8 4) count
    (kept.flatMap fun t => natLe t 4)

/-! ### Cached samples (R352) -/

/-- A stored sample: width, height and format in a header of 64 bytes, then the pixels, up to a multiple of 64.
[DEDUCED: assumption 163] -/
def Picture.stored (p : Picture) : List Byte :=
  padTo 64 (padTo 64 (natLe p.width 2 ++ natLe p.height 2 ++ natLe p.fmt 1) ++ p.pixels)

/-- The picture that stored bytes hold. -/
def unstored (bs : List Byte) : Picture :=
  let w := leAt bs 0 2
  let h := leAt bs 2 2
  let fmt := leAt bs 4 1
  { fmt := fmt, width := w, height := h, pixels := (bs.drop 64).take (w * h * decodedBytes fmt) }

end Sys2Proof.Machine
end

