-- ==== Sys2Proof/Machine/Panel.lean ====
section
/-! DEFINITION. Panel ports and the frame store (R370 to R393). -/

namespace Sys2Proof.Machine

/-! ### Access -/

def State.modPanel (s : State) (p : Nat) (f : Panel → Panel) : State := s.setPanel p (f (s.panel p))

/-- The key of a panel register, and its shadow value. -/
def panelKey (p o : Nat) : Nat := hKey (0x6000 + p * 0x800 + o)
def State.panelShadow (s : State) (p o : Nat) : Nat := (s.reg (panelKey p o)).toNat

/-- A host writes `w` to register `o` of port p, in the block of the Cord that owns the port (R391). -/
def State.panelWrite (s : State) (d p o : Nat) (w : Word) (body : State → State) : State :=
  let n := s.unitOwner (13 + p)
  if n < 16 then s.hostWrite d (cordAddr n (0x6000 + p * 0x800 + o)) w body else s

/-- An event of panel port p to the owner host of its Cord (R393). -/
def State.panelEvent (s : State) (p code : Nat) : State := s.eventCordBlock (s.unitOwner (13 + p)) code p

/-! ### Slots, regions and held bands (R372 to R375, R382) -/

/-- One slot: base and size in units, enable, width, height. -/
structure PSlot where
  base : Nat
  size : Nat
  en   : Bool
  w    : Nat
  h    : Nat
  deriving DecidableEq, Repr

/-- The slot that two register words spell. -/
def mkSlot (a b : Nat) : PSlot :=
  ⟨a % 512, a / 512 % 512, a.testBit 31, b % 65536, b / 65536⟩

def Panel.slot (v : Panel) (i : Nat) : PSlot := mkSlot (v.act (0x90 + 8 * i)).toNat (v.act (0x94 + 8 * i)).toNat
def State.shadowSlot (s : State) (p i : Nat) : PSlot :=
  mkSlot (s.panelShadow p (0x90 + 8 * i)) (s.panelShadow p (0x94 + 8 * i))

/-- Bytes from one row of a slot to the next (R373). -/
def slotPitch (w : Nat) : Nat := (3 * w + 63) / 64 * 64

/-- Units that a port owns, and the first of them (R372). -/
def State.portUnits (s : State) (p : Nat) : Nat × Nat :=
  let u := (s.reg 0x230000).toNat
  if p = 0 then (0, u) else (u, 384 - u)

/-- Whether a slot fits its port's share and its own size. -/
def PSlot.fits (x : PSlot) (share : Nat) : Bool :=
  decide (x.base + x.size ≤ share) && decide (slotPitch x.w * x.h ≤ x.size * 65536)

def PSlot.overlaps (x y : PSlot) : Bool :=
  x.en && y.en && decide (x.base < y.base + y.size) && decide (y.base < x.base + x.size)

/-- Slots that cannot be latched: each breaks a condition of R373 in the set that results; `bad` ones keep their active
values. Repeated until nothing changes. [DEDUCED: assumption 169] -/
def badSlots (share : Nat) (new old : Nat → PSlot) : Nat → List Nat → List Nat
  | 0, bad => bad
  | n + 1, bad =>
    let cur (i : Nat) : PSlot := if bad.contains i then old i else new i
    let worse := ([0, 1, 2, 3] : List Nat).filter fun i => !bad.contains i && (new i).en &&
      (!(new i).fits share || ([0, 1, 2, 3] : List Nat).any fun k => k != i && (new i).overlaps (cur k))
    if worse = [] then bad else badSlots share new old n (bad ++ worse)

/-- One region: enable, x, y, w, h. -/
structure PRegion where
  en : Bool
  x  : Nat
  y  : Nat
  w  : Nat
  h  : Nat
  deriving DecidableEq, Repr

def mkRegion (e a b : Nat) : PRegion := ⟨e.testBit 31, a % 65536, a / 65536, b % 65536, b / 65536⟩

def Panel.region (v : Panel) (r : Nat) : PRegion :=
  mkRegion (v.act (0xB0 + 4 * r)).toNat (v.act (0xF0 + 8 * r)).toNat (v.act (0xF4 + 8 * r)).toNat
def State.shadowRegion (s : State) (p r : Nat) : PRegion :=
  mkRegion (s.panelShadow p (0xB0 + 4 * r)) (s.panelShadow p (0xF0 + 8 * r)) (s.panelShadow p (0xF4 + 8 * r))

/-- Slice width and height under mode bits and a panel width (R375). -/
def sliceW (mode width : Nat) : Nat := width / 2 ^ (mode / 512 % 4)
def sliceH (mode : Nat) : Nat := 8 * 2 ^ (mode / 128 % 4)

/-- Whether an enabled region obeys R375 under a mode and a geometry. -/
def PRegion.ok (r : PRegion) (mode geom : Nat) : Bool :=
  let w := geom % 65536
  let sw := max 1 (sliceW mode w)
  !r.en || (decide (r.x + r.w ≤ w) && decide (r.y + r.h ≤ geom / 65536) &&
    (!mode.testBit 5 || (r.x % sw == 0 && r.w % sw == 0 && r.y % sliceH mode == 0 && r.h % sliceH mode == 0)))

def PRegion.overlaps (a b : PRegion) : Bool :=
  a.en && b.en && decide (a.x < b.x + b.w) && decide (b.x < a.x + a.w) && decide (a.y < b.y + b.h) &&
    decide (b.y < a.y + a.h)

/-- Bands of a region (R382). -/
def PRegion.hasBand (r : PRegion) (b : Nat) : Bool :=
  decide (0 < r.h) && decide (r.y / 16 ≤ b) && decide (b ≤ (r.y + r.h - 1) / 16)

def Panel.front (v : Panel) : Nat := (v.act 0x18).toNat % 4

/-- Whether band b of slot i is held: by a pending commit, by latched marks, or by the push in progress (R382). -/
def State.bandHeld (s : State) (p i b : Nat) : Bool :=
  let v := s.panel p
  let sf := s.panelShadow p 0x18 % 4
  (v.pending.any fun c => c.front == some i || (sf == i && (List.range 16).any fun r =>
    (c.content.testBit r || c.warp.testBit r) && (s.shadowRegion p r).hasBand b)) ||
  (v.front == i && (v.newFront || (List.range 16).any fun r =>
    (v.content.testBit r || v.warp.testBit r) && (v.region r).hasBand b)) ||
  v.holds.any fun e => e.1 == i && e.2.1 == b && decide (s.time < e.2.2)

/-! ### Commits and latches (R377, R378) -/

/-- A commit with marks (R377); `sub` is the PUSH job that makes it, or 0, and `st` the status that it ends with. -/
def State.panelCommit (s : State) (p content warp sub st : Nat) : State :=
  let v := s.panel p
  let seq := (v.seq + 1) % 2 ^ 32
  let sf := s.panelShadow p 0x18 % 4
  let last := (v.pending.filterMap Commit.front).getLast?.getD v.front
  let c : Commit := { seq := seq, content := content, warp := warp, front := if sf = last then none else some sf }
  (s.setPanel p { v with seq := seq, pending := v.pending ++ [c] }).slotCommit p content seq sub st

/-- Offsets of the RWS registers that every latch copies: timing and commit line, and the warps. -/
def latchOffsets : List Nat :=
  [0x10, 0x14] ++ (List.range 16).flatMap fun r => (List.range 9).map fun i => 0x400 + 0x40 * r + 4 * i
def slotOffsets (i : Nat) : List Nat := [0x90 + 8 * i, 0x94 + 8 * i]
def regionOffsets : List Nat :=
  (List.range 16).flatMap fun r => [0xB0 + 4 * r, 0xF0 + 8 * r, 0xF4 + 8 * r]
def warpOffsets (r : Nat) : List Nat := (List.range 9).map fun i => 0x400 + 0x40 * r + 4 * i

/-- Copy shadow values to active ones. -/
def State.latchRegs (s : State) (p : Nat) (a : SMap Word) (os : List Nat) : SMap Word :=
  os.foldl (fun m o => m.put panelReset o (s.reg (panelKey p o))) a

/-- Whether the new region list and front slot obey R375. -/
def State.regionsOk (s : State) (p : Nat) (slots : Nat → PSlot) : Bool :=
  let v := s.panel p
  let rs := (List.range 16).map (s.shadowRegion p)
  let f := slots (s.panelShadow p 0x18 % 4)
  rs.all (fun r => r.ok v.mode.toNat v.geom.toNat) &&
  (List.range 16).all (fun i => (List.range i).all fun k =>
    !(rs.getD i ⟨false, 0, 0, 0, 0⟩).overlaps (rs.getD k ⟨false, 0, 0, 0, 0⟩)) &&
  f.w == v.geom.toNat % 65536 && f.h == v.geom.toNat / 65536

/-- The latch (R373, R375, R377, R381). The line counter keeps its value under a new `LINE_CYC`. -/
def State.latch (s : State) (p : Nat) : State :=
  let v := s.panel p
  if v.pending = [] then s
  else
    let bad := badSlots (s.portUnits p).2 (s.shadowSlot p) v.slot 4 []
    let slots (i : Nat) : PSlot := if bad.contains i then v.slot i else s.shadowSlot p i
    let ok := s.regionsOk p slots
    let content := (v.pending.map Commit.content).foldl (· ||| ·) 0
    let warp := (v.pending.map Commit.warp).foldl (· ||| ·) 0
    let good := ([0, 1, 2, 3] : List Nat).filter fun i => !bad.contains i
    let a1 := s.latchRegs p v.active (latchOffsets ++ good.flatMap slotOffsets)
    let a2 := if ok then s.latchRegs p a1 (0x18 :: regionOffsets) else a1
    let plain := (List.range 16).filter fun r => content.testBit r && !warp.testBit r
    let a3 := (plain.flatMap warpOffsets).foldl (fun (m : SMap Word) o => m.put panelReset o (panelReset o)) a2
    let v1 := { v with active := a3, pending := [], taken := v.seq, content := v.content ||| content
                       warp := v.warp ||| warp, latchErr := v.latchErr || !ok || !bad.isEmpty }
    let moved := v1.front != v.front
    let part := ((s.time : Int) - v.lineBase) % (2 * v.lineCyc : Nat)
    let base : Int := (s.time : Int) - s.linesSince p * (2 * v1.lineCyc) - part
    let s1 := s.setPanel p { v1 with full := v1.full || moved, newFront := v1.newFront || moved, lineBase := base }
    if ok then s1 else s1.panelEvent p 0x0D04

/-! ### Pushes (R371, R374, R380, R381) -/

/-- A byte pair, most significant first, as DCS parameters hold it. [PRESUMED: assumption 168] -/
def be16 (x : Nat) : List Byte := [BitVec.ofNat 8 (x / 256), BitVec.ofNat 8 x]

/-- The link bytes of a pixel (R374). -/
def linkPixel (mode : Nat) (c : Nat × Nat × Nat) : List Byte :=
  if mode.testBit 4 then
    let r := min (rshiftRneNat c.1 3) 31
    let g := min (rshiftRneNat c.2.1 2) 63
    let b := min (rshiftRneNat c.2.2 3) 31
    be16 (r * 2048 + g * 32 + b)
  else [BitVec.ofNat 8 c.1, BitVec.ofNat 8 c.2.1, BitVec.ofNat 8 c.2.2]

/-- Pixel (x, y) of a slot that starts at byte `base` with width `w` (R374). -/
def slotPixel (m : SMap Byte) (base w x y : Nat) : Nat × Nat × Nat :=
  let a := base + y * slotPitch w + 3 * x
  ((m.look zeroByte a).toNat, (m.look zeroByte (a + 1)).toNat, (m.look zeroByte (a + 2)).toNat)

/-- 2^-20 in fp32. -/
def f32tiny : Nat := 0x35800000

/-- Pixel (x, y) of a W × H region under the warp `h`, over the region's pixels `px`; none in the invalid case. Where
q, u or v is a NaN the manual gives no pixel, and `free` stands for it. [DESIGN CHOICE: assumption 18] -/
def warpPixel (h : List Nat) (px : Nat → Nat → Nat × Nat × Nat) (w ht x y : Nat) (free : BitVec 64) :
    Option (Nat × Nat × Nat) :=
  let g (i : Nat) : Nat := h.getD i 0
  let xc := f32add (f32ofInt x) f32half
  let yc := f32add (f32ofInt y) f32half
  let lin (i : Nat) : Nat := f32add (f32add (f32mul (g i) xc) (f32mul (g (i + 1)) yc)) (g (i + 2))
  let q := lin 6
  if !f32isNan q && !f32lt f32tiny q then none
  else
    let u := f32clamp (f32sub (f32div (lin 0) q) f32half) 0 (f32ofInt ((w - 1 : Nat) : Int))
    let v := f32clamp (f32sub (f32div (lin 3) q) f32half) 0 (f32ofInt ((ht - 1 : Nat) : Int))
    let x0 := (f32floor u).toNat
    let y0 := (f32floor v).toNat
    let at' (sel : Nat × Nat × Nat → Nat) (i j : Nat) : Nat :=
      f32ofInt (sel (px (min (x0 + i) (w - 1)) (min (y0 + j) (ht - 1))) : Int)
    let one (sel : Nat × Nat × Nat → Nat) : Nat :=
      let c := f32bilinear (f32frac u) (f32frac v) (at' sel 0 0) (at' sel 1 0) (at' sel 0 1) (at' sel 1 1)
      (f32roundTe (f32clamp c 0 (f32ofInt 255))).toNat
    some (if f32isNan u || f32isNan v then
        (free.toNat % 256, free.toNat / 2 ^ 8 % 256, free.toNat / 2 ^ 16 % 256)
      else (one Prod.fst, one (fun c => c.2.1), one (fun c => c.2.2)))

/-- The active warp of region r. -/
def Panel.warpOf (v : Panel) (r : Nat) : List Nat := (warpOffsets r).map fun o => (v.act o).toNat

/-- The lines of a rectangle as the link carries them: one message a line (R380). -/
def lineMsgs (mode w h : Nat) (px : Nat → Nat → Nat × Nat × Nat) : List PanelMsg :=
  let raw := (List.range h).flatMap fun y => (List.range w).flatMap fun x => linkPixel 0 (px x y)
  (List.range h).map fun y =>
    { code := if y = 0 then 0x2C else 0x3C
      bytes := if mode.testBit 5 then Config.dscLine raw w h mode y
               else (List.range w).flatMap fun x => linkPixel mode (px x y) }

/-- One region's burst. -/
def burst (mode : Nat) (x y w h : Nat) (px : Nat → Nat → Nat × Nat × Nat) : List PanelMsg :=
  [⟨0x2A, be16 x ++ be16 (x + w - 1)⟩, ⟨0x2B, be16 y ++ be16 (y + h - 1)⟩] ++ lineMsgs mode w h px

/-- First byte of slot i in the frame store. -/
def State.slotBase (s : State) (p : Nat) (x : PSlot) : Nat := ((s.portUnits p).1 + x.base) * 65536

/-- What the warp stage gives for pixel (x, y) of a region, and what a full-frame push gives for (x, y) of the panel. -/
def State.regionPixel (s : State) (p r x y : Nat) : Option (Nat × Nat × Nat) :=
  let v := s.panel p
  let sl := v.slot v.front
  let g := v.region r
  warpPixel (v.warpOf r) (fun i k => slotPixel s.frame (s.slotBase p sl) sl.w (g.x + i) (g.y + k)) g.w g.h x y
    (Config.freeValue (s.draws + (r * 65536 + y) * 65536 + x))
def State.framePixel (s : State) (p x y : Nat) : Option (Nat × Nat × Nat) :=
  let v := s.panel p
  let sl := v.slot v.front
  match (List.range 16).find? fun r =>
      let g := v.region r
      g.en && decide (g.x ≤ x) && decide (x < g.x + g.w) && decide (g.y ≤ y) && decide (y < g.y + g.h) with
  | some r => s.regionPixel p r (x - (v.region r).x) (y - (v.region r).y)
  | none => some (slotPixel s.frame (s.slotBase p sl) sl.w x y)

/-- Count of the invalid pixels of a rectangle. -/
def invalidPixels (w h : Nat) (px : Nat → Nat → Option (Nat × Nat × Nat)) : Nat :=
  ((List.range h).map fun y => ((List.range w).filter fun x => (px x y).isNone).length).sum

/-- The dirty regions in push order (R380). -/
def Panel.dirty (v : Panel) : List Nat :=
  (((List.range 16).filter fun r => (v.content.testBit r || v.warp.testBit r) && (v.region r).en).mergeSort
    fun a b => decide ((v.region a).y < (v.region b).y) || ((v.region a).y == (v.region b).y && decide (a ≤ b)))

/-- What a push sends, and its invalid pixels. -/
def State.pushMsgs (s : State) (p : Nat) : List PanelMsg × Nat :=
  let v := s.panel p
  let m := v.mode.toNat
  let sl := v.slot v.front
  if v.full then
    (burst m 0 0 sl.w sl.h fun x y => (s.framePixel p x y).getD (0, 0, 0),
     invalidPixels sl.w sl.h (s.framePixel p))
  else
    v.dirty.foldl (fun (a : List PanelMsg × Nat) r =>
      let g := v.region r
      (a.1 ++ burst m g.x g.y g.w g.h fun x y => (s.regionPixel p r x y).getD (0, 0, 0),
       a.2 + invalidPixels g.w g.h (s.regionPixel p r))) ([], 0)

/-- Data lanes of a mode. -/
def modeLanes (mode : Nat) : Nat := if mode % 4 = 0 then 1 else if mode % 4 = 1 then 2 else 4

/-- Nanoseconds in which a burst of width w has sent `lines` lines (R380): the manual's most. [DESIGN CHOICE: assumption
227] -/
def burstNs (mode w lines : Nat) : Nat :=
  let pixels := if mode.testBit 4 then 2 * w else 3 * w
  let bytes := if mode.testBit 5 then (w * (if mode.testBit 6 then 12 else 8) + 7) / 8 else pixels
  let rate := modeLanes mode * (4 / 2 ^ (mode / 4 % 4))
  2000 + ((22 + lines * (bytes + 7)) * 8 + rate - 1) / rate

/-- Bands that lines y to y + h − 1 meet, each with the number of the lines up to its end. -/
def bandEnds (y h : Nat) : List (Nat × Nat) :=
  ((List.range ((y + h + 15) / 16)).filter fun b => decide (y < 16 * b + 16)).map fun b => (b, min (y + h) (16 * b + 16) - y)

/-- The bands that a push which begins now holds, and until when (R382): a content mark's until they have been read, a
warp mark's until its region's burst ends. -/
def State.pushHolds (s : State) (p : Nat) : List (Nat × Nat × Nat) :=
  let v := s.panel p
  let m := v.mode.toNat
  let sl := v.slot v.front
  if v.full then
    let done := s.time + burstNs m sl.w sl.h
    let marked (x : Nat) : List Nat := (List.range 16).filter fun r => x.testBit r
    (if v.newFront then (bandEnds 0 sl.h).map fun e => (v.front, e.1, s.time + burstNs m sl.w e.2) else []) ++
    ((marked v.content).flatMap fun r => (bandEnds (v.region r).y (v.region r).h).map fun e =>
      (v.front, e.1, s.time + burstNs m sl.w (e.2 + (v.region r).y))) ++
    (marked v.warp).flatMap fun r => (bandEnds (v.region r).y (v.region r).h).map fun e => (v.front, e.1, done)
  else
    (v.dirty.foldl (fun (a : List (Nat × Nat × Nat) × Nat) r =>
      let g := v.region r
      let done := a.2 + burstNs m g.w g.h
      (a.1 ++ (bandEnds g.y g.h).map fun e =>
        (v.front, e.1, if v.warp.testBit r then done else a.2 + burstNs m g.w e.2), done)) ([], s.time)).1

/-- A queued DCS write as it is sent (R389). -/
def dcsMsg (e : Nat × List Byte) : PanelMsg :=
  ⟨e.1 % 256, if e.1.testBit 17 then e.2 else if e.1.testBit 16 then [BitVec.ofNat 8 (e.1 / 256)] else []⟩

/-- TE_STRICT with TE lost: commits latch and nothing is pushed (R385). -/
def State.strictLost (s : State) (p : Nat) : Bool := (s.panel p).teLost && s.panelShadow p 4 / 2 % 2 == 1

/-- Start the push of the latched marks (R379, R380). [DEDUCED: assumption 170] -/
def State.startPush (s : State) (p : Nat) : State :=
  let v := s.panel p
  if v.state ≠ 2 ∨ v.pushing ∨ s.strictLost p ∨ (v.content = 0 ∧ v.warp = 0 ∧ !v.full) then s
  else
    let (msgs, bad) := s.pushMsgs p
    (({ s with draws := s.draws + 2 ^ 36 } : State).setPanel p { v with
      pushing := true, pushes := v.pushes + 1
      log := ((v.pushes, v.taken, s.time) :: v.log).take 16
      pushContent := v.content, pushWarp := v.warp, holds := s.pushHolds p
      content := 0, warp := 0, full := false, newFront := false
      sent := v.dcs.map dcsMsg ++ msgs, dcs := [] }).bump (panelKey p 0x48) bad

/-! ### TE (R376, R378, R385, R386) -/

/-- The land of the TE source: group and signal, none for the internal timer. -/
def Panel.teLand (v : Panel) (p : Nat) : Option (Nat × Nat) :=
  let src := v.mode.toNat / 2048 % 4
  if src < 2 then some (0x20 + p, 5) else if src = 2 then some (0x30, 0) else none

/-- What real and synthetic TE events do alike: a latch if the commit line was not reached, the counter at 0, the end
of a mode change, and the push. -/
def State.teCommon (s : State) (p : Nat) : State :=
  let s1 := if (s.panel p).passed then s else s.latch p
  let v := s1.panel p
  let s2 := s1.setPanel p { v with lineBase := s.time, passed := false, frames := v.frames + 1 }
  let s3 := if v.state = 3 ∧ v.step = 4 then
      (s2.setPanel p { s2.panel p with state := 2, step := 0, full := true }).panelEvent p 0x0D03
    else s2
  s3.startPush p

/-- A real TE edge of the active source; the internal timer has none. [DEDUCED: assumption 174] -/
def State.realTe (s : State) (p : Nat) : State :=
  let v := s.panel p
  if v.state < 2 ∨ v.mode.toNat / 2048 % 4 = 3 then s
  else
    let s1 := match v.lastTe with
      | some t => s.setReg (panelKey p 0x34) (BitVec.ofNat 32 (min (s.time - t) 0xFFFFFFFF))
      | none => s
    let s2 := s1.setPanel p { v with lastTe := some s.time, quiet := s.time, teLost := false }
    let s3 := if v.teLost then
        (match v.teLand p with
         | some (g, i) => s2.landClear g i
         | none => s2).panelEvent p 0x0D02
      else s2
    s3.teCommon p

/-- TE_EVENT (R376). -/
def execTeEvent (p : Nat) (s : State) : Out := withUnit (panelOk p) (s.realTe p)

/-- SYNTHETIC_TE (R376): the counter has reached `LINES`; counted, but not with the internal timer as the source. -/
def execSyntheticTe (p : Nat) (s : State) : Out :=
  withUnit (panelOk p)
    (let v := s.panel p
     if v.state < 2 ∨ s.linesSince p < v.lines then s
     else (if v.mode.toNat / 2048 % 4 = 3 then s else s.bump (panelKey p 0x3C) 1).teCommon p)

/-- COMMIT_LINE (R378): the counter has reached the line; it never reaches one from `LINES` on. -/
def execCommitLine (p : Nat) (s : State) : Out :=
  withUnit (panelOk p)
    (let v := s.panel p
     let line := (v.act 0x14).toNat % 65536
     if v.state < 2 ∨ v.passed ∨ s.linesSince p < line ∨ v.lines ≤ line then s
     else (s.setPanel p { v with passed := true }).latch p)

/-- TE_LOST (R385): 100 ms have passed without a real TE. -/
def execTeLost (p : Nat) (s : State) : Out :=
  withUnit (panelOk p)
    (let v := s.panel p
     if v.state < 2 ∨ v.teLost ∨ s.time < v.quiet + 100000000 then s
     else
       let s1 := s.setPanel p { v with teLost := true }
       (match v.teLand p with
        | some (g, i) => s1.landFault g i 3
        | none => s1).panelEvent p 0x0D01)

/-! ### Bring-up (R388) -/

/-- The setup commands of R386 step 6. -/
def Panel.setup (v : Panel) : List PanelMsg :=
  let m := v.mode.toNat
  [⟨0x3A, [if m.testBit 4 then 0x55 else 0x77]⟩] ++
  (if m.testBit 5 then [⟨0x107, [1]⟩, ⟨0x10A, Config.dscPps (v.geom.toNat % 65536) (v.geom.toNat / 65536) m⟩]
   else []) ++
  (if m / 2048 % 4 < 2 then [⟨0x35, [0]⟩] else []) ++ v.dcs.map dcsMsg

/-- get_power_mode (R371). -/
def powerMode : PanelMsg := ⟨0x0A, []⟩

/-- The skew calibration of 32,768 UI, where the lanes run at 4.0 Gbit/s (R370). -/
def skewCal (mode : Nat) : List PanelMsg := if mode / 4 % 4 = 0 then [⟨0x200, natLe 32768 4⟩] else []

/-- A push is over, or is cut by a fault. -/
def Panel.pushOver (v : Panel) : Panel := { v with pushing := false, pushContent := 0, pushWarp := 0, holds := [] }

/-- The port begins bring-up at `now`: 1 ms of LP-11, then the first read. -/
def Panel.begin' (v : Panel) (now : Nat) : Panel :=
  { v.pushOver with state := 1, step := 1, lane := 0, swapped := false, laneRev := 0, closing := false
                    since := now + 1000000, sent := [powerMode] }

/-- The next read of bring-up is sent. -/
def Panel.readAgain (v : Panel) (now : Nat) : Panel := { v with since := now, sent := v.sent ++ [powerMode] }

/-- A write of PP_CTRL (R388). [DEDUCED: assumption 176] -/
def State.panelCtrl (s : State) (p : Nat) (w : Word) : State :=
  let old := (s.reg (panelKey p 4)).getLsbD 0
  let s1 := s.setReg (panelKey p 4) (w &&& 3)
  let v := s1.panel p
  if w.getLsbD 0 && !old && !v.closing then s1.setPanel p (v.begin' s.time)
  else if !w.getLsbD 0 && old then
    if v.pushing then s1.setPanel p { v with closing := true } else s1.setPanel p { v with state := 0, step := 0 }
  else s1

/-- BRINGUP (R388). -/
def execBringup (d p : Nat) (w : Word) (s : State) : Out :=
  withUnit (hostOk d && panelOk p) (s.panelWrite d p 4 w fun s => s.panelCtrl p w)

/-- PORT_DISABLE (R388). -/
def execPortDisable (d p : Nat) (w : Word) (s : State) : Out :=
  withUnit (hostOk d && panelOk p) (s.panelWrite d p 4 w fun s => s.panelCtrl p w)

/-- Every lane answers: the setup commands, and a full-frame push at the next TE. -/
def State.broughtUp (s : State) (p : Nat) : State :=
  let v := s.panel p
  let s1 := s.setPanel p { v with state := 2, step := 0, fault := false, full := true, sent := v.setup, dcs := []
                                  lineBase := s.time, passed := false, lastTe := none, quiet := s.time }
  (List.range 5).foldl (fun t i =>
    if t.lands.faults.any fun e => e.1 == 0x20 + p && e.2.1 == i && e.2.2 != 4 then t.landClear (0x20 + p) i
    else t) s1

/-- The polarity of the lane under test is found (R388). -/
def State.laneFound (s : State) (p : Nat) : State :=
  let v := s.panel p
  let rev := if v.swapped then v.laneRev + 2 ^ v.lane else v.laneRev
  let s1 := s.setPanel p { v with laneRev := rev, lane := v.lane + 1, swapped := false }
  let s2 := if v.swapped then s1.landFault (0x20 + p) (1 + v.lane) 4 else s1.landClear (0x20 + p) (1 + v.lane)
  if v.lane + 1 = modeLanes v.mode.toNat then s2.broughtUp p else s2.modPanel p fun v => v.readAgain s.time

/-- A bring-up read gives no valid response: the other polarity, or the fault. -/
def State.laneFailed (s : State) (p : Nat) : State :=
  let v := s.panel p
  if !v.swapped then s.setPanel p (({ v with swapped := true } : Panel).readAgain s.time)
  else ((s.setPanel p { v with fault := true, step := 0, since := s.time }).landFault (0x20 + p) (1 + v.lane) 3).panelEvent p 0x0D05

/-- DCS_READ_RESPONSE (R388): a response within 10 ms of the read; `clean` is one without an error report. -/
def execDcsReadResponse (p : Nat) (clean : Bool) (s : State) : Out :=
  withUnit (panelOk p)
    (let v := s.panel p
     if v.state ≠ 1 ∨ v.step ≠ 1 ∨ s.time < v.since ∨ v.since + 10000000 < s.time then s
     else if clean then s.laneFound p else s.laneFailed p)

/-- BRINGUP_READ_TIMEOUT (R388): 10 ms after the read. -/
def execBringupReadTimeout (p : Nat) (s : State) : Out :=
  withUnit (panelOk p)
    (let v := s.panel p
     if v.state ≠ 1 ∨ v.step ≠ 1 ∨ s.time < v.since + 10000000 then s else s.laneFailed p)

/-- BRINGUP_RETRY (R388, R390): a second after the fault. -/
def execBringupRetry (p : Nat) (s : State) : Out :=
  withUnit (panelOk p)
    (let v := s.panel p
     if v.state = 1 ∧ v.step = 0 ∧ v.since + 1000000000 ≤ s.time then s.setPanel p (v.begin' s.time) else s)

/-- PANEL_CONTENTION (R390): contention, or a bus turnaround that times out. The lanes are disabled, and bring-up is
retried; a port whose EN is 0 goes OFF. [DEDUCED: assumption 178] -/
def execPanelContention (p : Nat) (s : State) : Out :=
  withUnit (panelOk p)
    (let v := s.panel p
     let v1 : Panel := if (s.reg (panelKey p 4)).getLsbD 0 then { v.begin' s.time with
         step := 0, since := s.time, sent := v.sent, fault := true }
       else { v.pushOver with closing := false, state := 0, step := 0, fault := true }
     if v.state = 0 then s
     else ((s.setPanel p v1).landFault (0x20 + p) 1 5).panelEvent p 0x0D05)

/-! ### Commits, pushes and mode changes -/

/-- PP_COMMIT (R377). -/
def execPpCommit (d p : Nat) (w : Word) (s : State) : Out :=
  withUnit (hostOk d && panelOk p)
    (s.panelWrite d p 0x1C w fun s => s.panelCommit p (w.toNat % 65536) (w.toNat / 65536) 0 stOk)

/-- PUSH_END (R380, R388). -/
def execPushEnd (p : Nat) (s : State) : Out :=
  withUnit (panelOk p)
    (let v := s.panel p
     if !v.pushing then s
     else
       let v1 := v.pushOver
       if !v.closing then s.setPanel p v1
       else if (s.reg (panelKey p 4)).getLsbD 0 then s.setPanel p (v1.begin' s.time)
       else s.setPanel p { v1 with closing := false, state := 0, step := 0 })

/-- A mode-change request (R386). [DEDUCED: assumption 173] -/
def State.modeRequest (s : State) (p : Nat) (w : Word) : State :=
  let v := s.panel p
  if w.getLsbD 0 ∧ 2 ≤ v.state then s.setPanel p { v with state := 3, step := 1 } else s

/-- PP_MODE_REQ (R386). -/
def execPpModeReq (d p : Nat) (w : Word) (s : State) : Out :=
  withUnit (hostOk d && panelOk p) (s.panelWrite d p 0x2C w fun s => s.modeRequest p w)

/-- Whether the shadow mode fields are refused (R387). -/
def State.modeRefused (s : State) (p : Nat) : Bool :=
  let m := s.panelShadow p 8
  let g := s.panelShadow p 0xC
  let other := (s.reg (panelKey (1 - p) 4)).getLsbD 0
  m % 4 == 3 || m / 4 % 4 == 3 || m / 128 % 4 == 3 || m / 512 % 4 == 3 ||
  decide (3840 < g % 65536) || decide (2160 < g / 65536) ||
  (other && (decide (2560 < g % 65536) || decide (1600 < g / 65536))) ||
  (List.range 16).any fun r => !((s.panel p).region r).ok m g

/-- Step 3 of R386: LP-11 at the end of the push, and the checks. -/
def State.modeCheck (s : State) (p : Nat) : State :=
  let v := s.panel p
  if v.state ≠ 3 ∨ v.step ≠ 1 ∨ v.pushing then s
  else if s.modeRefused p then
    (s.setPanel p { v with step := 3, since := s.time, modeErr := true }).panelEvent p 0x0D06
  else s.setPanel p { v with step := 2, since := s.time, nextMode := s.reg (panelKey p 8), nextGeom := s.reg (panelKey p 0xC) }

/-- MODE_CHANGE_LP11 (R386 step 3, R387). -/
def execModeChangeLp11 (p : Nat) (s : State) : Out := withUnit (panelOk p) (s.modeCheck p)

/-- MODE_CHANGE_REPROGRAM (R386 step 4): 20 µs after step 3 the mode fields come into force. -/
def execModeChangeReprogram (p : Nat) (s : State) : Out :=
  withUnit (panelOk p)
    (let v := s.panel p
     if v.state = 3 ∧ v.step = 2 ∧ v.since + 20000 ≤ s.time then
       s.setPanel p { v with step := 3, mode := v.nextMode, geom := v.nextGeom }
     else s)

/-- MODE_CHANGE_HS_ENTRY (R386 steps 5 and 6): 120 µs after step 3. -/
def execModeChangeHsEntry (p : Nat) (s : State) : Out :=
  withUnit (panelOk p)
    (let v := s.panel p
     if v.state = 3 ∧ v.step = 3 ∧ v.since + 120000 ≤ s.time then s.setPanel p { v with
       step := 4, sent := skewCal v.mode.toNat ++ v.setup, dcs := [], lineBase := s.time, passed := false, quiet := s.time }
     else s)

/-! ### Commands and outputs (R389, R390) -/

/-- Queue a DCS write (R389). -/
def State.dcsQueue (s : State) (p : Nat) (w : Word) : State :=
  let v := s.panel p
  if 16 ≤ v.dcs.length then s.setPanel p { v with dcsOvf := true }
  else
    let n := w.toNat / 2 ^ 18 % 64 + 1
    let buf := (List.range 16).flatMap fun i => natLe (s.panelShadow p (0x50 + 4 * i)) 4
    s.setPanel p { v with dcs := v.dcs ++ [(w.toNat, if w.getLsbD 17 then buf.take n else [])] }

/-- PP_DCS (R389). -/
def execPpDcs (d p : Nat) (w : Word) (s : State) : Out :=
  withUnit (hostOk d && panelOk p) (s.panelWrite d p 0x4C w fun s => s.dcsQueue p w)

/-- 10 ms in ns. -/
def outputGap : Nat := 10000000

/-- An output may not change yet: its last change was less than 10 ms ago (R390). -/
def PanelOut.early (x : PanelOut) (now : Nat) : Bool := x.changed.any fun t => decide (now < t + outputGap)

/-- A write of a level to a panel output: a change within 10 ms of the last one, or behind a deferred one, is deferred
(R390). -/
def PanelOut.drive (x : PanelOut) (b : Bool) (now : Nat) : PanelOut :=
  if b = x.deferred.getLast?.getD x.level then x
  else if x.early now || !x.deferred.isEmpty then { x with deferred := x.deferred ++ [b] }
  else { x with level := b, changed := some now }

/-- The first deferred change takes effect, 10 ms after the last change. -/
def PanelOut.release (x : PanelOut) (now : Nat) : PanelOut :=
  match x.deferred with
  | b :: rest => if x.early now then x else { level := b, changed := some now, deferred := rest }
  | [] => x

/-- A write of PP_PANEL. -/
def State.panelOutputs (s : State) (p : Nat) (w : Word) : State :=
  (s.setReg (panelKey p 0x30) (w &&& 3)).modPanel p fun v => { v with
    rstN := v.rstN.drive (w.getLsbD 0) s.time, pwrEn := v.pwrEn.drive (w.getLsbD 1) s.time }

/-- PP_PANEL (R390). -/
def execPpPanel (d p : Nat) (w : Word) (s : State) : Out :=
  withUnit (hostOk d && panelOk p) (s.panelWrite d p 0x30 w fun s => s.panelOutputs p w)

/-- PANEL_OUTPUT_DEFERRED (R390): output 0 is PANEL_RST_N, 1 is PANEL_PWR_EN. -/
def execPanelOutputDeferred (p output : Nat) (s : State) : Out :=
  withUnit (panelOk p && decide (output < 2))
    (s.modPanel p fun v => if output = 0 then { v with rstN := v.rstN.release s.time }
      else { v with pwrEn := v.pwrEn.release s.time })

/-- A write of FSG_SPLIT (R372): only while no slot is enabled, and at most 384 units. -/
def State.fsgWrite (s : State) (d : Nat) (w : Word) : State :=
  let used := ([0, 1] : List Nat).any fun p => ([0, 1, 2, 3] : List Nat).any fun i => ((s.panel p).slot i).en
  if used ∨ 384 < w.toNat % 512 then s.setReg 0x230004 1
  else
    let t := s.setReg 0x230000 (w &&& 0x1FF)
    (s.logWrite t d 0x230000 w).setReg 0x230000 (w &&& 0x1FF)

/-- FSG_SPLIT (R372). -/
def execFsgSplit (d : Nat) (w : Word) (s : State) : Out :=
  withUnit (hostOk d) (s.hostWrite d 0x230000 w fun s => s.fsgWrite d w)

/-! ### PUSH jobs (R383, R384) -/

/-- Whether a push descriptor is valid for its job. A HEARTH source has its chain's rows; a reference gives no other
size. [DEDUCED: assumption 172] -/
def State.pushOk (s : State) (c : CordCfg) (j : Job) : Bool :=
  let d := j.desc
  let f (o n : Nat) : Nat := leAt d o n
  let v := s.panel (f 0 1)
  let r := v.region (f 1 1)
  let sl := v.slot (f 2 1)
  let img := readImg d 8
  (j.arg0.toNat + j.arg1.toNat * 2 ^ 32) % 64 == 0 && d.length == 64 &&
  decide (f 0 1 < 2) && s.unitOwner (13 + f 0 1) == c.cord && decide (f 1 1 < 16) && r.en && decide (f 2 1 < 4) &&
  sl.en && decide (f 3 1 < 4) && f 6 2 == 0 && zeroAt d 24 40 &&
  (!(f 3 1).testBit 1 || s.hitchIn c.cord (f 4 2)) && img.fmt != 1 && img.ok c j r.w r.h &&
  (img.loc != 1 || r.h == j.rows) &&
  decide (r.x + r.w ≤ sl.w) && decide (r.y + r.h ≤ sl.h)

/-- A RUN job's Cord. -/
def State.engineJob (s : State) (sub kind : Nat) : Option (Job × CordCfg) :=
  match s.job? sub with
  | some j => if j.kind == kind && (j.phase == 2 || j.phase == 3) then (s.cordCfg j.cord).map fun c => (j, c)
    else none
  | none => none

/-- The end of a PUSH job: its commit, its signal and its retirement (R384, R385). [DEDUCED: assumption 171] -/
def State.pushRetire (s : State) (j : Job) : State :=
  let d := j.desc
  let p := leAt d 0 1
  let commits := !(leAt d 3 1).testBit 0 && (s.panel p).front == leAt d 2 1
  let st := if commits && s.strictLost p then 0x0C else j.doneStatus s.time
  let s1 := if commits then s.panelCommit p (2 ^ leAt d 1 1) 0 j.sub st else s
  let s2 := if (leAt d 3 1).testBit 1 then (s1.noteSignal j.sub (leAt d 4 2)).hitchSignal (leAt d 4 2) 1 else s1
  s2.endJob j.sub st

/-- The bytes of one row of a band in the frame store. -/
def pushRow (img : ImgRef) (row : List Byte) (w : Nat) : List Byte :=
  (List.range w).flatMap fun x =>
    let c := img.rgb row x
    [BitVec.ofNat 8 c.1, BitVec.ofNat 8 c.2.1, BitVec.ofNat 8 c.2.2]

/-- One band of a PUSH job (R384). -/
def State.pushBand (s : State) (c : CordCfg) (j : Job) : State :=
  let d := j.desc
  let p := leAt d 0 1
  let v := s.panel p
  let r := v.region (leAt d 1 1)
  let sl := v.slot (leAt d 2 1)
  let img := readImg d 8
  let b := r.y / 16 + j.done
  let y0 := max r.y (16 * b)
  let n := min (r.y + r.h) (16 * b + 16) - y0
  if s.bandHeld p (leAt d 2 1) b then s
  else s.readSpans j.sub c (img.spans j r.w (y0 - r.y) n) fun s =>
    let put (m : SMap Byte) (i : Nat) : SMap Byte :=
      m.putList zeroByte (s.slotBase p sl + (y0 + i) * slotPitch sl.w + 3 * r.x)
        (pushRow img (s.imgRow c j img r.w (y0 - r.y + i)) r.w)
    let s1 := { s with frame := (List.range n).foldl put s.frame }
    let j1 := { j with done := j.done + 1 }
    let s2 := s1.modJob j.sub fun x => { x with done := j1.done }
    if r.hasBand (b + 1) then s2 else s2.pushRetire j1

/-- A PUSH job waits on a held band. -/
def State.pushWaits (s : State) (j : Job) : Bool :=
  match s.engineJob j.sub 7 with
  | some (j, c) => (j.done != 0 || s.pushOk c j) &&
    s.bandHeld (leAt j.desc 0 1) (leAt j.desc 2 1) (((s.panel (leAt j.desc 0 1)).region (leAt j.desc 1 1)).y / 16 + j.done)
  | none => false

/-- Count ns of device time in `PP_BAND_WAIT` and `PP_PUSH_BUSY`, in CLK_B cycles of 2 ns (R382, R391). -/
def State.countPanels (s : State) (ns : Nat) : State :=
  let waits := (s.jobs.filter s.pushWaits).map fun j => leAt j.desc 0 1
  ([0, 1] : List Nat).foldl (fun t p =>
    let t := if waits.contains p then t.bumpUnits (panelKey p 0x40) 2 ns else t
    if (s.panel p).pushing then t.bumpUnits (panelKey p 0x44) 2 ns else t) s

/-- PUSH_BAND_WRITE (R384). -/
def execPushBandWrite (sub : Nat) (s : State) : Out :=
  withUnit true
    (match s.engineJob sub 7 with
     | some (j, c) =>
       if !j.mayWork (j.done % 4 == 0) then s
       else if j.done = 0 ∧ !s.pushOk c j then s.endJob sub 0x8B
       else s.pushBand c j
     | none => s)

end Sys2Proof.Machine
end

