-- ==== Sys2Proof/Machine/Copy.lean ====
section
/-! DEFINITION. COPY jobs, and the rings of data ports as jobs use them (R80, R83, R400). -/

namespace Sys2Proof.Machine

/-! ### Rings (R80, R83) -/

/-- Cord-relative byte address of word i (0 the oldest) of a ring. -/
def DataPort.wordAddr (p : DataPort) (i : Nat) : Nat := p.base + (p.head + i) % p.size * 4

/-- The data port of a session's ring in one direction, if it is bound. -/
def State.ringPort (s : State) (c : CordCfg) (i : Nat) (out : Bool) : Option Nat :=
  (List.range 16).find? fun p =>
    let x := s.port c.ownerHost p
    x.bound && x.outbound == out && x.cord == c.cord && x.session == i

/-- Append words to a port's ring; `LEVEL` of an outbound ring rises. -/
def State.ringAppend (s : State) (c : CordCfg) (d p : Nat) (ws : List Word) : State :=
  let x := s.port d p
  let s1 := (List.range ws.length).foldl (fun (t : State) i =>
    t.putCordLe c (x.wordAddr (x.held + i)) 4 (ws.getD i 0).toNat) s
  (s1.setPort d p { x with held := x.held + ws.length }).levelEvent d p x.level

/-- Remove the `n` oldest words of a port's ring; `LEVEL` of an inbound ring rises. -/
def State.ringDrop (s : State) (d p n : Nat) : State :=
  let x := s.port d p
  (s.setPort d p { x with head := (x.head + n) % max 1 x.size, held := x.held - n }).levelEvent d p x.level

/-- A job begins to wait on a full outbound or an empty inbound ring. -/
def State.ringWait (s : State) (d p sub : Nat) : State :=
  let x := s.port d p
  if x.waiter.isSome then s
  else (s.setPort d p { x with waiter := some (sub, s.time), uncounted := s.time }).modJob sub fun j => { j with ringWait := true }

/-- DATA_PORT_STALL (R83): a producer's wait on a full outbound ring is longer than 1 ms. [DESIGN CHOICE: assumption
205] -/
def execDataPortStall (d p : Nat) (s : State) : Out :=
  withUnit (portOk d p)
    (let x := s.port d p
     let long := x.waiter.any fun w => decide (w.2 + 1000000 < s.time)
     if x.outbound ∧ long ∧ !x.stallSent then
       (s.setPort d p { x with stallSent := true }).event d 0x0102 0x01 p
     else s)

/-! ### COPY jobs (R400) -/

/-- An end of a copy: 1 a Hearth store, 2 DRAM. -/
def copyEndOk (members : List Nat) (c : CordCfg) (loc x bytes : Nat) : Bool :=
  if loc = 1 then
    x % 2 ^ 30 == x && x / 2 ^ 22 % 4 == 0 && members.contains (x / 2 ^ 24) && decide (x % 2 ^ 22 + bytes ≤ 4194304)
  else loc == 2 && decide (x + bytes ≤ c.size)

/-- Whether a copy descriptor is valid. [DEDUCED: assumption 114] -/
def State.copyOk (s : State) (c : CordCfg) (j : Job) : Bool :=
  let d := j.desc
  let f (o n : Nat) : Nat := leAt d o n
  let m := s.members c.cord
  (j.arg0.toNat + j.arg1.toNat * 2 ^ 32) % 32 == 0 && d.length == 32 && f 2 2 == 0 && f 24 8 == 0 &&
  f 4 4 % 4 == 0 && decide (4 ≤ f 4 4) && decide (f 4 4 ≤ 2 ^ 30) && copyEndOk m c (f 0 1) (f 8 8) (f 4 4) &&
  (if f 1 1 = 3 then f 16 8 == 0 && (s.ringPort c j.session true).isSome
   else copyEndOk m c (f 1 1) (f 16 8) (f 4 4))

/-- The span of `n` bytes at offset `o` of a copy's end. -/
def copySpan (loc x o n : Nat) : Span :=
  if loc = 1 then ⟨some (x / 2 ^ 24), x % 2 ^ 22 + o, n⟩ else ⟨none, x + o, n⟩

/-- Words that a copy moves in one go: to the next 4 KiB boundary of the transfer, or to its end. -/
def copyChunk (j : Job) : Nat := min (1024 - j.done % 1024) (leAt j.desc 4 4 / 4 - j.done)

/-- After `n` words: progress, and the retirement with the last word. -/
def State.copied (s : State) (j : Job) (n : Nat) : State :=
  let s1 := s.modJob j.sub fun x => { x with done := j.done + n }
  if (j.done + n) * 4 = leAt j.desc 4 4 then s1.retireJob j.sub else s1

/-- Move words, one after the other in ascending order. -/
def State.copyWords (s : State) (c : CordCfg) (j : Job) (n : Nat) : State :=
  let d := j.desc
  let src (i : Nat) : Span := copySpan (leAt d 0 1) (leAt d 8 8) (4 * (j.done + i)) 4
  let dst (i : Nat) : Span := copySpan (leAt d 1 1) (leAt d 16 8) (4 * (j.done + i)) 4
  s.readSpans j.sub c ((List.range n).map src) fun s =>
    match ((List.range n).map dst).find? (s.spanPartUe c) with
    | some x => (s.noteSpanUe c x).endJob j.sub stTorn
    | none =>
      ((List.range n).foldl (fun t i =>
        t.writeSpans j.sub c [(dst i, t.spanBytes c (src i))] id) s).copied j n

/-- Move words into the session's outbound ring; a full ring makes the job wait (R83). -/
def State.copyRing (s : State) (c : CordCfg) (j : Job) (p n : Nat) : State :=
  let d := j.desc
  let x := s.port c.ownerHost p
  let k := min n (x.size - x.held)
  let src : Span := copySpan (leAt d 0 1) (leAt d 8 8) (4 * j.done) (4 * k)
  if k = 0 then s.ringWait c.ownerHost p j.sub
  else s.readSpans j.sub c [src] fun s =>
    let bs := s.spanBytes c src
    (s.ringAppend c c.ownerHost p ((List.range k).map fun i => BitVec.ofNat 32 (leAt bs (4 * i) 4))).copied j k

/-- COPY_JOB (R400): the next words, up to a 4 KiB boundary. -/
def execCopyJob (sub : Nat) (s : State) : Out :=
  withUnit true
    (match s.engineJob sub 8 with
     | some (j, c) =>
       if !j.mayWork (j.done % 1024 == 0) || j.ringWait then s
       else if j.done = 0 ∧ !s.copyOk c j then s.endJob sub 0x8C
       else if leAt j.desc 1 1 = 3 then
         (match s.ringPort c j.session true with
          | some p => s.copyRing c j p (copyChunk j)
          | none => s.endJob sub 0x8C)
       else s.copyWords c j (copyChunk j)
     | none => s)

end Sys2Proof.Machine
end

