-- ==== Sys2Proof/Machine/Vision.lean ====
section
/-! DEFINITION. Chapter 11: the vision engines (features, stereo and flow, tile by tile) and the post-processing
unit. -/

namespace Sys2Proof.Machine

/-! ### The descriptor and tiles (R307, R310) -/

def visOp (d : List Byte) : Nat := leAt d 0 1
def visW (d : List Byte) : Nat := leAt d 4 2
def visH (d : List Byte) : Nat := leAt d 6 2
def visOut (d : List Byte) : Nat := leAt d 40 8
def visPred (d : List Byte) : Nat := leAt d 48 8
/-- Tiles in a row, and in all. -/
def visTW (d : List Byte) : Nat := (visW d + 127) / 128
def visTiles (d : List Byte) : Nat := visTW d * ((visH d + 63) / 64)
/-- Bytes of a result record. -/
def visRec (d : List Byte) : Nat := if visOp d = 2 then 4 else 8
/-- Bytes of the output at its largest. -/
def visOutBytes (d : List Byte) : Nat :=
  if visOp d = 1 then 64 + 40 * min 8192 (visTiles d * leAt d 58 2) else visRec d * (visW d * visH d)

/-- A signed byte. -/
def s8At (bs : List Byte) (o : Nat) : Int := (bs.getD o 0).toInt

/-- The points of the pair pattern lie within 13 pixels (R316). -/
def patternOk (bs : List Byte) : Bool :=
  (List.range 512).all fun i => decide (s8At bs (2 * i) ^ 2 + s8At bs (2 * i + 1) ^ 2 ≤ 169)

/-- Whether a vision descriptor is valid for its job (R307 to R309, R316). [DEDUCED: assumption 145] -/
def State.visionOk (s : State) (c : CordCfg) (j : Job) : Bool :=
  let d := j.desc
  let f (o n : Nat) : Nat := leAt d o n
  let op := f 0 1
  let w := visW d
  let h := visH d
  let least := if op = 1 then 33 else 11
  j.argAddr % 64 == 0 && d.length == 128 && decide (1 ≤ op) && decide (op ≤ 3) &&
  decide (1 ≤ f 1 1) && decide (f 1 1 < 16) &&
  ((List.range 4).all fun i => !(f 1 1).testBit i || s.unitOwner ((if op = 1 then 4 else 8) + i) == c.cord) &&
  decide (f 2 2 < 4) && decide (least ≤ w) && decide (w ≤ 4096) && decide (least ≤ h) && decide (h ≤ 4096) &&
  (readImg d 8).ok c j w h && (if op = 1 then zeroAt d 24 16 else (readImg d 24).ok c j w h) &&
  visOut d % 64 == 0 && decide (visOut d + visOutBytes d ≤ c.size) &&
  (if (f 2 2).testBit 0 && op != 1 then decide (visPred d + visOutBytes d ≤ c.size) else visPred d == 0) &&
  (op != 1 || !(f 2 2).testBit 0) &&
  (if op = 1 then decide (1 ≤ f 56 1) && decide (9 ≤ f 57 1) && decide (f 57 1 ≤ 12) && decide (1 ≤ f 58 2) &&
      decide (f 58 2 ≤ 8192) && f 60 2 == 0 && f 64 8 % 64 == 0 && decide (f 64 8 + 1024 ≤ c.size) &&
      patternOk (s.cordBytes c (f 64 8) 1024)
   else f 56 4 == 0 && f 64 8 == 0) &&
  (if op = 2 then decide (f 62 2 < 4096) else f 62 2 == 0) &&
  (!(f 2 2).testBit 1 || s.hitchIn c.cord (f 72 2)) && zeroAt d 74 54

/-- A rectangle of pixels: first column and row, columns and rows. -/
structure Rect where
  x : Nat
  y : Nat
  w : Nat
  h : Nat
  deriving DecidableEq, Repr

/-- Core tile t (R310). -/
def visTile (d : List Byte) (t : Nat) : Rect :=
  let x := t % visTW d * 128
  let y := t / visTW d * 64
  ⟨x, y, min 128 (visW d - x), min 64 (visH d - y)⟩

/-- A rectangle extended by `mx` and `my` pixels and clipped to the image. -/
def Rect.grow (r : Rect) (d : List Byte) (mx my : Nat) : Rect :=
  let x := r.x - mx
  let y := r.y - my
  ⟨x, y, min (visW d) (r.x + r.w + mx) - x, min (visH d) (r.y + r.h + my) - y⟩

/-- A rectangle moved by (dx, dy), extended by `mx` and `my` pixels, and clipped to the image. -/
def Rect.about (r : Rect) (d : List Byte) (dx dy : Int) (mx my : Nat) : Rect :=
  let cut (n : Nat) (v : Int) : Nat := (max 0 (min v n)).toNat
  let x := cut (visW d) ((r.x : Int) + dx - mx)
  let y := cut (visH d) ((r.y : Int) + dy - my)
  ⟨x, y, cut (visW d) ((r.x + r.w + mx : Nat) + dx) - x, cut (visH d) ((r.y + r.h + my : Nat) + dy) - y⟩

/-- The read regions of `src_a` and `src_b` of a match (R310): that of `src_b` follows the tile's centre `ct`, and
STEREO also reads the columns of `src_a` that its consistency check matches (R320, R322, R323). [DEDUCED: assumption
225] -/
def visRegions (d : List Byte) (r : Rect) (ct : Int × Int) : List (ImgRef × Rect) :=
  if visOp d = 2 then [(readImg d 8, r.grow d 133 5), (readImg d 24, r.about d (-ct.1) 0 133 5)]
  else [(readImg d 8, r.grow d 5 5), (readImg d 24, r.about d ct.1 ct.2 69 37)]

/-- The spans of a rectangle of an image. -/
def ImgRef.rectSpans (i : ImgRef) (j : Job) (r : Rect) : List Span :=
  (List.range r.h).map fun k => j.rowSpan i.loc (i.addr + r.x * i.bpp) i.pitch (r.y + k) (r.w * i.bpp)

/-- The intensities of a rectangle: image coordinates to I. -/
def State.intensities (s : State) (c : CordCfg) (i : ImgRef) (j : Job) (r : Rect) : Int → Int → Int :=
  let rows := (i.rectSpans j r).map fun x =>
    let bs := s.spanBytes c x
    (List.range r.w).map fun k => (i.intensity bs k : Int)
  fun x y => (rows.getD (y.toNat - r.y) []).getD (x.toNat - r.x) 0

/-- The pixels of a rectangle in raster order. -/
def Rect.pixels (r : Rect) : List (Nat × Nat) :=
  (List.range r.h).flatMap fun y => (List.range r.w).map fun x => (r.x + x, r.y + y)

/-! ### Features (R313 to R317) -/

/-- The ring of radius 3, clockwise from (0, −3). [DEDUCED: assumption 144] -/
def cornerRing : List (Int × Int) :=
  [(0, -3), (1, -3), (2, -2), (3, -1), (3, 0), (3, 1), (2, 2), (1, 3),
   (0, 3), (-1, 3), (-2, 2), (-3, 1), (-3, 0), (-3, -1), (-2, -2), (-1, -3)]

/-- The integers from `lo` to `hi`. -/
def intRange (lo hi : Int) : List Int := (List.range (hi - lo + 1).toNat).map fun (i : Nat) => lo + (i : Int)

/-- The least of a list, and the greatest. -/
def intMin (l : List Int) : Int := l.foldl min (l.headD 0)
def intMax (l : List Int) : Int := l.foldl max (l.headD 0)

/-- The score of pixel (x, y), 0 where it is no candidate (R313): the largest t from `fast_t` for which some arc of
`n` ring pixels is all above I + t or all below I − t. -/
def cornerScore (img : Int → Int → Int) (w h fastT n : Nat) (x y : Int) : Nat :=
  if x < 16 ∨ w ≤ x + 16 ∨ y < 16 ∨ h ≤ y + 16 then 0
  else
    let diff := cornerRing.map fun o => img (x + o.1) (y + o.2) - img x y
    let arc (k : Nat) : List Int := (List.range n).map fun i => diff.getD ((k + i) % 16) 0
    let best := intMax ((List.range 16).map fun k => max (intMin (arc k)) (intMin ((arc k).map Neg.neg)))
    if (fastT : Int) ≤ best - 1 then (best - 1).toNat else 0

/-- Non-maximum suppression of a pixel with score `v` (R314). -/
def cornerKept (score : Int → Int → Nat) (x y : Int) : Bool :=
  let v := score x y
  decide (0 < v) &&
  ([(-1, -1), (0, -1), (1, -1), (-1, 0)] : List (Int × Int)).all (fun o => decide (score (x + o.1) (y + o.2) ≤ v)) &&
  ([(1, 0), (-1, 1), (0, 1), (1, 1)] : List (Int × Int)).all fun o => decide (score (x + o.1) (y + o.2) < v)

/-- round(16,384 × cos(2πk / 64)) for k from 0 to 16. -/
def cosQuarter : List Int :=
  [16384, 16305, 16069, 15679, 15137, 14449, 13623, 12665, 11585, 10394, 9102, 7723, 6270, 4756, 3196, 1606, 0]

/-- C_k and S_k (R315). -/
def cosBin (k : Nat) : Int :=
  let k := k % 64
  if k ≤ 16 then cosQuarter.getD k 0
  else if k ≤ 32 then -cosQuarter.getD (32 - k) 0
  else if k ≤ 48 then -cosQuarter.getD (k - 32) 0
  else cosQuarter.getD (64 - k) 0
def sinBin (k : Nat) : Int := cosBin (k + 48)

/-- The offsets with dx² + dy² ≤ 225. -/
def momentOffsets : List (Int × Int) :=
  ((intRange (-15) 15).flatMap fun dy => (intRange (-15) 15).map fun dx => (dx, dy)).filter fun o =>
    decide (o.1 ^ 2 + o.2 ^ 2 ≤ 225)

/-- The orientation bin (R315 steps 1 and 2). -/
def orientation (img : Int → Int → Int) (x y : Int) : Nat :=
  let m10 := (momentOffsets.map fun o => o.1 * img (x + o.1) (y + o.2)).sum
  let m01 := (momentOffsets.map fun o => o.2 * img (x + o.1) (y + o.2)).sum
  let dot (k : Nat) : Int := m10 * cosBin k + m01 * sinBin k
  (List.range 64).foldl (fun b k => if dot b < dot k then k else b) 0

/-- The 5 × 5 box sum round a point. -/
def boxSum (img : Int → Int → Int) (x y : Int) : Int :=
  ((intRange (-2) 2).flatMap fun dy => (intRange (-2) 2).map fun dx => img (x + dx) (y + dy)).sum

/-- A pattern point rotated by bin k (R315 step 3). -/
def rotated (k : Nat) (u v : Int) : Int × Int :=
  (rshiftRne (u * cosBin k - v * sinBin k) 14, rshiftRne (u * sinBin k + v * cosBin k) 14)

/-- The 32 descriptor bytes of a feature (R315 steps 3 and 4). -/
def featureBits (img : Int → Int → Int) (pattern : List Byte) (k : Nat) (x y : Int) : List Byte :=
  let b (i : Nat) : Int :=
    let p := rotated k (s8At pattern (2 * i)) (s8At pattern (2 * i + 1))
    boxSum img (x + p.1) (y + p.2)
  (List.range 32).map fun i => BitVec.ofNat 8 (((List.range 8).map fun n =>
    if b (2 * (8 * i + n)) < b (2 * (8 * i + n) + 1) then 2 ^ n else 0).sum)

/-- The survivors of a tile that the engine keeps, as (x, y, score) in raster order (R314). -/
def tileCorners (img : Int → Int → Int) (d : List Byte) (r : Rect) : List (Nat × Nat × Nat) :=
  let w := visW d
  let h := visH d
  let score (x y : Int) : Nat := cornerScore img w h (leAt d 56 1) (leAt d 57 1) x y
  let all := (r.pixels.filter fun p => cornerKept score p.1 p.2).map fun p => (p.1, p.2, score p.1 p.2)
  let top := ((List.range all.length).mergeSort fun a b =>
    decide ((all.getD b (0, 0, 0)).2.2 ≤ (all.getD a (0, 0, 0)).2.2)).take (leAt d 58 2)
  ((List.range all.length).filter fun i => top.contains i).map fun i => all.getD i (0, 0, 0)

/-- The 40 bytes of a feature (R317). -/
def featureBytes (img : Int → Int → Int) (pattern : List Byte) (p : Nat × Nat × Nat) : List Byte :=
  let k := orientation img p.1 p.2.1
  natLe p.1 2 ++ natLe p.2.1 2 ++ natLe p.2.2 1 ++ natLe k 1 ++ natLe 0 2 ++
    featureBits img pattern k p.1 p.2.1

/-! ### Matching (R318 to R324) -/

/-- Lexicographic order of keys. -/
def keyLt : List Int → List Int → Bool
  | a :: as, b :: bs => decide (a < b) || (a == b && keyLt as bs)
  | _, _ => false

/-- The element of least key; the first of equals. -/
def leastBy {α : Type} (key : α → List Int) : List α → Option α
  | [] => none
  | a :: as => some (as.foldl (fun b x => if keyLt (key x) (key b) then x else b) a)

/-- The offsets of the 7 × 7 window but its centre. -/
def censusOffsets : List (Int × Int) :=
  ((intRange (-3) 3).flatMap fun dy => (intRange (-3) 3).map fun dx => (dx, dy)).filter fun o => o != (0, 0)

/-- The census string of a pixel. -/
def census (img : Int → Int → Int) (x y : Int) : List Bool :=
  censusOffsets.map fun o => decide (img (x + o.1) (y + o.2) < img x y)

/-- The offsets of the 5 × 5 window. -/
def window5 : List (Int × Int) := (intRange (-2) 2).flatMap fun dy => (intRange (-2) 2).map fun dx => (dx, dy)

/-- The Hamming distance of two census strings. -/
def hamming (a b : List Bool) : Nat := ((a.zip b).filter fun p => p.1 != p.2).length

/-- The cost of matching pixel (xa, ya) of one image with (xb, yb) of another. -/
def matchCost (a b : Int → Int → Int) (xa ya xb yb : Int) : Int :=
  ((window5.map fun o => hamming (census a (xa + o.1) (ya + o.2)) (census b (xb + o.1) (yb + o.2))).sum : Nat)

/-- The texture measure T; FLOW adds the vertical differences. -/
def texture (img : Int → Int → Int) (flow : Bool) (x y : Int) : Int :=
  (window5.map fun o =>
    let px := x + o.1
    let py := y + o.2
    ((img (px + 1) py - img (px - 1) py).natAbs : Int) +
      (if flow then ((img px (py + 1) - img px (py - 1)).natAbs : Int) else 0)).sum

/-- The subpixel step δ from the costs at the neighbours, where both are candidates (R321). -/
def subpixel (lo mid hi : Option Int) : Int :=
  match lo, mid, hi with
  | some a, some b, some c =>
    let den := a - 2 * b + c
    if 0 < den then max (-8) (min 8 (divRne (8 * (a - c)) den.toNat)) else 0
  | _, _, _ => 0

/-- A costed search of a line: winner and result in 1/16 pixel; ties go to the smaller distance from c, then to the
smaller candidate (R320, R321). -/
def searchLine (cost : Int → Int) (c : Int) (ds : List Int) : Option (Int × Int) :=
  (leastBy (fun (p : Int × Int) => [p.2, ((p.1 - c).natAbs : Int), p.1]) (ds.map fun d => (d, cost d))).map fun w =>
    let at' (d : Int) : Option Int := if ds.contains d then some (cost d) else none
    (w.1, 16 * w.1 + subpixel (at' (w.1 - 1)) (at' w.1) (at' (w.1 + 1)))

/-- A pixel that lies at least 5 pixels inside the image. -/
def inside (w h : Nat) (x y : Int) : Bool :=
  decide (5 ≤ x) && decide (x < (w : Int) - 5) && decide (5 ≤ y) && decide (y < (h : Int) - 5)

/-- A STEREO result: code or disparity, and confidence (R320 to R322). [DEDUCED: assumption 147] -/
def stereoPixel (a b : Int → Int → Int) (w h texMin thr : Nat) (c x y : Int) : Int × Int :=
  let lo := max (c - 64) 0
  let edge (d : Int) : Bool := d == c - 64 || d == c + 64
  if !inside w h x y then (0xFFF3, 0)
  else
    match searchLine (fun d => matchCost a b x y (x - d) y) c
        ((intRange lo (c + 64)).filter fun d => decide (5 ≤ x - d)) with
    | none => (0xFFF3, 0)
    | some (d, v) =>
      if texture a false x y < texMin then (0xFFF0, 0)
      else if edge d then (0xFFF2, 0)
      else
        let xr := x - d
        match searchLine (fun e => matchCost b a xr y (xr + e) y) c
            ((intRange lo (c + 64)).filter fun e => decide (5 ≤ xr + e) && decide (xr + e < (w : Int) - 5)) with
        | none => (0xFFF1, 0)
        | some (e, r) =>
          let diff : Int := (v - r).natAbs
          if edge e || decide ((thr : Int) < diff) then (0xFFF1, 0) else (v, 255 - 254 * diff / thr)

/-- A FLOW result: u, v, status and confidence; the confidence is absent where no candidate lies outside the 3 × 3
round the winner (R323). -/
def flowPixel (a b : Int → Int → Int) (w h texMin : Nat) (c : Int × Int) (x y : Int) :
    Int × Int × Nat × Option Int :=
  if !inside w h x y then (0, 0, 0xF3, some 0)
  else
    let cands := ((intRange (c.2 - 16) (c.2 + 16)).flatMap fun v =>
      (intRange (c.1 - 32) (c.1 + 32)).map fun u => (u, v)).filter fun p => inside w h (x + p.1) (y + p.2)
    let cost (p : Int × Int) : Int := matchCost a b x y (x + p.1) (y + p.2)
    let all := cands.map fun p => (p, cost p)
    match leastBy (fun (q : (Int × Int) × Int) =>
        [q.2, ((q.1.1 - c.1).natAbs + (q.1.2 - c.2).natAbs : Nat), q.1.2, q.1.1]) all with
    | none => (0, 0, 0xF3, some 0)
    | some ((u, v), c1) =>
      let edge := (u - c.1).natAbs == 32 || (v - c.2).natAbs == 16
      if texture a true x y < texMin then (0, 0, 0xF0, some 0)
      else if edge then (0, 0, 0xF2, some 0)
      else
        let at' (p : Int × Int) : Option Int := (all.find? fun q => q.1 == p).map Prod.snd
        let rest := (all.filter fun q => !(decide ((q.1.1 - u).natAbs ≤ 1) && decide ((q.1.2 - v).natAbs ≤ 1))).map
          Prod.snd
        (16 * u + subpixel (at' (u - 1, v)) (some c1) (at' (u + 1, v)),
         16 * v + subpixel (at' (u, v - 1)) (some c1) (at' (u, v + 1)), 0,
         if rest = [] then none else some (max 1 (255 * (intMin rest - c1) / max (intMin rest) 1)))

/-- A stereo prediction: `none` for a special code (R319). -/
def stereoPred (bs : List Byte) : Option Int :=
  let x := leAt bs 0 2
  if 0xFFF0 ≤ x ∧ x ≤ 0xFFF3 then none else some (rshiftRne x 4)

/-- A signed 16-bit field. -/
def s16At (bs : List Byte) (o : Nat) : Int := (BitVec.ofNat 16 (leAt bs o 2)).toInt

/-- A flow prediction. -/
def flowPred (bs : List Byte) : Option (Int × Int) :=
  let st := leAt bs 5 1
  if st = 0xF0 ∨ st = 0xF2 ∨ st = 0xF3 then none else some (rshiftRne (s16At bs 0) 4, rshiftRne (s16At bs 2) 4)

/-- x clamped to c ± m. -/
def clampTo (c : Int) (m : Int) (x : Int) : Int := max (c - m) (min (c + m) x)

/-- The previous result of a pixel. -/
def State.prevRec (s : State) (c : CordCfg) (d : List Byte) (x y : Nat) : List Byte :=
  s.cordBytes c (visPred d + visRec d * (y * visW d + x)) (visRec d)

/-- The pixel at a tile's centre (R319 step 2). -/
def tileCentre (d : List Byte) (r : Rect) : Nat × Nat := (min (r.x + 64) (visW d - 1), min (r.y + 32) (visH d - 1))

/-- The tile centre c_t (R319 step 2); a STEREO one has no second component. -/
def State.visCentre (s : State) (c : CordCfg) (d : List Byte) (r : Rect) : Int × Int :=
  let bs := s.prevRec c d (tileCentre d r).1 (tileCentre d r).2
  if !(leAt d 2 2).testBit 0 then (0, 0)
  else if visOp d = 2 then ((stereoPred bs).getD 0, 0)
  else (flowPred bs).getD (0, 0)

/-- A component of a flow vector as 16 bits; one that the format cannot hold is free. [DESIGN CHOICE: assumption 146] -/
def flow16 (v : Int) (free : BitVec 64) : Nat :=
  if -32768 ≤ v ∧ v ≤ 32767 then (v % 65536).toNat else free.toNat % 65536

/-- The records of a STEREO tile, and the clamped predictions. -/
def State.stereoTile (s : State) (c : CordCfg) (d : List Byte) (a b : Int → Int → Int) (r : Rect) :
    List (Nat × Nat × List Byte × Nat) × Nat :=
  let usePrev := (leAt d 2 2).testBit 0
  let prev (x y : Nat) : Option Int := if usePrev then stereoPred (s.prevRec c d x y) else some 0
  let ct := (s.visCentre c d r).1
  let own (p : Nat × Nat) : Int := (prev p.1 p.2).getD ct
  let thr := if leAt d 62 2 = 0 then 16 else leAt d 62 2
  (r.pixels.map fun p =>
     let (v, conf) := stereoPixel a b (visW d) (visH d) (leAt d 60 2) thr (clampTo ct 64 (own p)) p.1 p.2
     (p.1, p.2, natLe v.toNat 2 ++ natLe conf.toNat 1 ++ natLe 0 1, v.toNat),
   (r.pixels.filter fun p => clampTo ct 64 (own p) != own p).length)

/-- The records of a FLOW tile, and the clamped predictions; open values are draws by the pixel's place. -/
def State.flowTile (s : State) (c : CordCfg) (d : List Byte) (a b : Int → Int → Int) (r : Rect) :
    List (Nat × Nat × List Byte × Nat) × Nat :=
  let usePrev := (leAt d 2 2).testBit 0
  let prev (x y : Nat) : Option (Int × Int) := if usePrev then flowPred (s.prevRec c d x y) else some (0, 0)
  let ct := s.visCentre c d r
  let own (p : Nat × Nat) : Int × Int := (prev p.1 p.2).getD ct
  let centre (p : Nat × Nat) : Int × Int := (clampTo ct.1 32 (own p).1, clampTo ct.2 16 (own p).2)
  (r.pixels.map fun p =>
     let i := s.draws + 3 * ((p.2 - r.y) * r.w + (p.1 - r.x))
     let (u, v, st, conf) := flowPixel a b (visW d) (visH d) (leAt d 60 2) (centre p) p.1 p.2
     (p.1, p.2, natLe (flow16 u (Config.freeValue i)) 2 ++ natLe (flow16 v (Config.freeValue (i + 1))) 2 ++
        natLe ((conf.map Int.toNat).getD (max 1 ((Config.freeValue (i + 2)).toNat % 256))) 1 ++ natLe st 1 ++ natLe 0 2,
      if st = 0 then 0 else st + 0xFF00),
   (r.pixels.filter fun p => centre p != own p).length)

/-! ### Tiles on the machine (R311, R312, R317, R331) -/

/-- A failed check: `CAUSE` in `VIS_STATUS`, and the job's end. -/
def State.visFail (s : State) (j : Job) (cause status : Nat) : State :=
  (s.setReg (cordAddr j.cord 0xF000) (BitVec.ofNat 32 (cause * 4096))).endJob j.sub status

/-- A job's completion signal, and its retirement (R331). -/
def State.signalRetire (s : State) (j : Job) (enabled : Bool) (k : Nat) : State :=
  (if enabled then (s.noteSignal j.sub k).hitchSignal k 1 else s).retireJob j.sub

/-- After a tile: it is counted; the last one ends the job. -/
def State.tileDone (s : State) (c : CordCfg) (j : Job) : State :=
  let d := j.desc
  let s1 := (s.bump (cordAddr j.cord 0xF004) 1).modJob j.sub fun x => { x with
    vis := { x.vis with tile := j.vis.tile + 1 } }
  if j.vis.tile + 1 < visTiles d then s1
  else
    let v := match s1.job? j.sub with
      | some x => x.vis
      | none => j.vis
    let signal := (leAt d 2 2).testBit 1
    if visOp d = 1 then
      s1.jobWrite j.sub c (visOut d) (natLe v.features 4 ++ natLe v.dropped 4 ++
        natLe (if v.dropped = 0 then 0 else 1) 4 ++ natLe 0 52) fun t => t.signalRetire j signal (leAt d 72 2)
    else s1.signalRetire j signal (leAt d 72 2)

/-- A FEATURES tile. -/
def State.featuresTile (s : State) (c : CordCfg) (j : Job) (r : Rect) : State :=
  let d := j.desc
  let i := readImg d 8
  let pat := leAt d 64 8
  s.readSpans j.sub c (⟨none, pat, 1024⟩ :: i.rectSpans j (r.grow d 16 16)) fun s =>
    let img := s.intensities c i j (r.grow d 16 16)
    let kept := tileCorners img d r
    let n := min kept.length (8192 - j.vis.features)
    let lost := kept.length - n
    let bytes := (kept.take n).flatMap (featureBytes img (s.cordBytes c pat 1024))
    s.jobWrite j.sub c (visOut d + 64 + 40 * j.vis.features) bytes fun s =>
      let s1 := (s.bump (cordAddr j.cord 0xF008) n).bump (cordAddr j.cord 0xF00C) lost
      let s2 := if lost ≠ 0 ∧ j.vis.dropped = 0 then s1.eventCordBlock j.cord 0x0B01 j.session else s1
      (s2.modJob j.sub fun x => { x with
        vis := { x.vis with features := j.vis.features + n, dropped := j.vis.dropped + lost } }).tileDone c j

/-- A STEREO or FLOW tile. -/
def State.matchTile (s : State) (c : CordCfg) (j : Job) (r : Rect) : State :=
  let d := j.desc
  let n := visRec d
  let regs := visRegions d r (s.visCentre c d r)
  let usePrev := (leAt d 2 2).testBit 0
  let recAt (base y : Nat) : Nat := base + n * (y * visW d + r.x)
  let prev : List Span := if usePrev then
      (List.range r.h).map fun k => ⟨none, recAt (visPred d) (r.y + k), n * r.w⟩
    else []
  s.readSpans j.sub c (prev ++ regs.flatMap fun x => x.1.rectSpans j x.2) fun s =>
    let img (k : Nat) : Int → Int → Int := match regs[k]? with
      | some x => s.intensities c x.1 j x.2
      | none => fun _ _ => 0
    let (recs, clamped) := if visOp d = 2 then s.stereoTile c d (img 0) (img 1) r
      else s.flowTile c d (img 0) (img 1) r
    let count (code : Nat) : Nat := (recs.filter fun x => x.2.2.2 == code).length
    let rows : List (Span × List Byte) := (List.range r.h).map fun k =>
      (⟨none, recAt (visOut d) (r.y + k), n * r.w⟩,
       (recs.filter fun x => x.2.1 == r.y + k).flatMap fun x => x.2.2.1)
    let s1 := if visOp d = 3 then { s with draws := s.draws + 3 * (r.w * r.h) } else s
    s1.writeSpans j.sub c rows fun s =>
      ((((s.bump (cordAddr j.cord 0xF010) (count 0xFFF0)).bump (cordAddr j.cord 0xF014) (count 0xFFF1)).bump
        (cordAddr j.cord 0xF018) (count 0xFFF2)).bump (cordAddr j.cord 0xF01C) clamped).tileDone c j

/-- VISION_TILE (R311): the next core tile of a job. -/
def execVisionTile (sub : Nat) (s : State) : Out :=
  withUnit true
    (match s.engineJob sub 4 with
     | some (j, c) =>
       if !j.mayWork true then s
       else if j.vis.tile = 0 ∧ !s.visionOk c j then s.visFail j 1 0x83
       else if visOp j.desc = 1 then s.featuresTile c j (visTile j.desc j.vis.tile)
       else s.matchTile c j (visTile j.desc j.vis.tile)
     | none => s)

/-! ### Post-processing (R325 to R331) -/

/-- A level record (R326). -/
structure PostLevel where
  gw      : Nat
  gh      : Nat
  anchors : Nat
  stride  : Nat
  boxes   : List (Nat × Nat)
  ok      : Bool
  deriving DecidableEq, Repr

def readLevel (form : Nat) (bs : List Byte) : PostLevel :=
  let a := leAt bs 4 1
  { gw := leAt bs 0 2, gh := leAt bs 2 2, anchors := a, stride := leAt bs 8 4
    boxes := (List.range 8).map fun i => (leAt bs (16 + 8 * i) 4, leAt bs (20 + 8 * i) 4)
    ok := decide (1 ≤ a) && decide (a ≤ (if form = 1 then 8 else 1)) && zeroAt bs 5 3 && zeroAt bs 12 4 }

def PostLevel.count (l : PostLevel) : Nat := l.gw * l.gh * l.anchors

/-- The level records of a post descriptor. [DEDUCED: assumption 148] -/
def State.postLevels (s : State) (c : CordCfg) (d : List Byte) : List PostLevel :=
  (List.range (leAt d 1 1)).map fun i => readLevel (leAt d 0 1) (s.cordBytes c (leAt d 32 8 + 80 * i) 80)

/-- Candidates in order, as (level, cx, cy, anchor) (R326). -/
def postCandidates (ls : List PostLevel) : List (PostLevel × Nat × Nat × Nat) :=
  ls.flatMap fun l => (List.range l.gh).flatMap fun cy => (List.range l.gw).flatMap fun cx =>
    (List.range l.anchors).map fun a => (l, cx, cy, a)

/-- Bytes of a candidate's row. -/
def postRow (d : List Byte) : Nat := (2 * (4 + leAt d 2 2) + 7) / 8 * 8

/-- The span of the input rows of `n` candidates. -/
def postInput (d : List Byte) (n : Nat) : Span :=
  ⟨if leAt d 15 1 = 0xFF then none else some (leAt d 15 1), leAt d 16 8, n * postRow d⟩

/-- Whether a post descriptor is valid for its job (R325, R326). -/
def State.postOk (s : State) (c : CordCfg) (j : Job) : Bool :=
  let d := j.desc
  let f (o n : Nat) : Nat := leAt d o n
  let hearth := f 15 1
  let n := ((s.postLevels c d).map PostLevel.count).sum
  j.argAddr % 64 == 0 && d.length == 128 && decide (1 ≤ f 0 1) && decide (f 0 1 ≤ 2) && decide (1 ≤ f 1 1) &&
  decide (f 1 1 ≤ 8) && decide (1 ≤ f 2 2) && decide (f 2 2 ≤ 1024) && f32lt 0 (f 8 4) && !f32lt f32one (f 8 4) &&
  decide (1 ≤ f 12 2) && decide (f 12 2 ≤ 1024) && decide (f 14 1 < 2) &&
  (hearth == 0xFF || (s.members c.cord).contains hearth) && f 24 8 % 64 == 0 &&
  decide (f 24 8 + 64 + 32 * f 12 2 ≤ c.size) && f 32 8 % 16 == 0 && decide (f 32 8 + 80 * f 1 1 ≤ c.size) &&
  (if f 0 1 = 1 then decide (f 40 8 + 1024 ≤ c.size) else f 40 8 == 0) && zeroAt d 50 78 &&
  (!(f 14 1).testBit 0 || s.hitchIn c.cord (f 48 2)) && ((s.postLevels c d).all PostLevel.ok) &&
  decide (n ≤ 1048576) && decide (f 16 8 + n * postRow d ≤ (if hearth = 0xFF then c.size else 4194304))

/-- A bf16 field as fp32. -/
def bf16At (bs : List Byte) (o : Nat) : Nat := leAt bs o 2 * 65536

/-- The index of E(t) in the scale table; a NaN gives a free one (R327). [DEDUCED: assumption 149] -/
def expIndex (t : Nat) (free : BitVec 64) : Nat :=
  match fp32.decode (f32mul (f32add t 0x41000000) 0x41800000) with
  | .nan => free.toNat % 256
  | .inf neg => if neg then 0 else 255
  | v => (max 0 (min 255 (v.roundScaled 0))).toNat

/-- A candidate's box: x1, y1, x2, y2 as fp32 (R327). -/
def postBox (form : Nat) (exps : List Byte) (q : PostLevel × Nat × Nat × Nat) (row : List Byte) (free : Nat) :
    List Nat :=
  let (l, cx, cy, a) := q
  let t (i : Nat) : Nat := bf16At row (2 * i)
  let px := f32add (f32ofInt cx) f32half
  let py := f32add (f32ofInt cy) f32half
  if form = 1 then
    let (wa, ha) := l.boxes.getD a (0, 0)
    let xc := f32add (f32mul px l.stride) (f32mul (t 0) wa)
    let yc := f32add (f32mul py l.stride) (f32mul (t 1) ha)
    let w := f32mul (f32mul wa (leAt exps (4 * expIndex (t 2) (Config.freeValue free)) 4)) f32half
    let h := f32mul (f32mul ha (leAt exps (4 * expIndex (t 3) (Config.freeValue (free + 1))) 4)) f32half
    [f32sub xc w, f32sub yc h, f32add xc w, f32add yc h]
  else
    [f32mul (f32sub px (t 0)) l.stride, f32mul (f32sub py (t 1)) l.stride,
     f32mul (f32add px (t 2)) l.stride, f32mul (f32add py (t 3)) l.stride]

/-- max(0, a) of fp32 values. -/
def f32pos (a : Nat) : Nat := fltMax fp32 0 a

/-- The area of a box, and whether the IoU of two boxes exceeds a limit (R328). -/
def boxArea (b : List Nat) : Nat :=
  f32mul (f32pos (f32sub (b.getD 2 0) (b.getD 0 0))) (f32pos (f32sub (b.getD 3 0) (b.getD 1 0)))
def iouAbove (limit : Nat) (a b : List Nat) : Bool :=
  let cut := [fltMax fp32 (a.getD 0 0) (b.getD 0 0), fltMax fp32 (a.getD 1 0) (b.getD 1 0),
              fltMin fp32 (a.getD 2 0) (b.getD 2 0), fltMin fp32 (a.getD 3 0) (b.getD 3 0)]
  let inter := boxArea cut
  let union := f32sub (f32add (boxArea a) (boxArea b)) inter
  !(fp32.decode union).isZero && f32lt limit (f32div inter union)

/-- An entry: score, candidate, class. -/
structure PostEntry where
  score : Nat
  cand  : Nat
  cls   : Nat
  deriving DecidableEq, Repr

/-- The order of entries: score descending, then candidate, then class (R328). -/
def PostEntry.before (a b : PostEntry) : Bool :=
  f32lt b.score a.score || (!f32lt a.score b.score &&
    (decide (a.cand < b.cand) || (a.cand == b.cand && decide (a.cls ≤ b.cls))))

/-- Suppression: the entries emitted, in order (R328). -/
def suppress (limit maxOut : Nat) (box : Nat → List Nat) : List PostEntry → List PostEntry → List PostEntry
  | [], out => out.reverse
  | e :: es, out =>
    if maxOut ≤ out.length then out.reverse
    else if out.any fun x => x.cls == e.cls && iouAbove limit (box x.cand) (box e.cand) then
      suppress limit maxOut box es out
    else suppress limit maxOut box es (e :: out)

/-- The 32 bytes of an emitted box (R329). -/
def postBytes (box : Nat → List Nat) (e : PostEntry) : List Byte :=
  ((box e.cand).flatMap fun v => natLe v 4) ++ natLe e.score 4 ++ natLe e.cls 2 ++ natLe 0 2 ++ natLe e.cand 4 ++
    natLe 0 4

/-- The work of a POST job. -/
def State.post (s : State) (c : CordCfg) (j : Job) : State :=
  let d := j.desc
  let nc := leAt d 2 2
  let n := ((s.postLevels c d).map PostLevel.count).sum
  let input := postInput d n
  let form := leAt d 0 1
  let tables : List Span := ⟨none, leAt d 32 8, 80 * leAt d 1 1⟩ ::
    (if form = 1 then [⟨none, leAt d 40 8, 1024⟩] else [])
  s.readSpans j.sub c (input :: tables) fun s =>
    let cands := postCandidates (s.postLevels c d)
    let exps := if form = 1 then s.cordBytes c (leAt d 40 8) 1024 else []
    let row (i : Nat) : List Byte := s.spanBytes c ⟨input.hearth, input.addr + i * postRow d, postRow d⟩
    let box (i : Nat) : List Nat := match cands[i]? with
      | some q => postBox form exps q (row i) (s.draws + 2 * i)
      | none => []
    let entries := (List.range n).flatMap fun i =>
      let r := row i
      ((List.range nc).map fun k => (⟨bf16At r (8 + 2 * k), i, k⟩ : PostEntry)).filter fun e =>
        !f32isNan e.score && !f32isNan (leAt d 4 4) && !f32lt e.score (leAt d 4 4)
    let kept := (entries.mergeSort PostEntry.before).take 4096
    let out := suppress (leAt d 8 4) (leAt d 12 2) box kept []
    let lost := entries.length - kept.length
    let base := leAt d 24 8
    let header := natLe out.length 4 ++ natLe entries.length 4 ++ natLe lost 4 ++ natLe 0 52
    let s1 : State := { s with draws := s.draws + 2 * n }
    s1.jobWrite j.sub c (base + 64) (out.flatMap (postBytes box)) fun s =>
      s.jobWrite j.sub c base header fun s =>
        let s1 := (s.bump (cordAddr j.cord 0xF020) out.length).bump (cordAddr j.cord 0xF024) lost
        let s2 := if lost = 0 then s1 else s1.eventCordBlock j.cord 0x0B02 j.session
        s2.signalRetire j ((leAt d 14 1).testBit 0) (leAt d 48 2)

/-- POST_JOB (R328). -/
def execPostJob (sub : Nat) (s : State) : Out :=
  withUnit true
    (match s.engineJob sub 5 with
     | some (j, c) => if !s.postOk c j then s.visFail j 2 0x84 else s.post c j
     | none => s)

end Sys2Proof.Machine
end

