-- ==== Sys2Proof/Machine/Intake.lean ====
section
/-! DEFINITION. Chapter 12: INTAKE jobs on the machine: input records, decoders, the decoded-sample cache, batches,
dictionaries and the sensor aligner. -/

namespace Sys2Proof.Machine

/-! ### Jobs and descriptors (R356, R363, R367) -/

def State.modIntake (s : State) (sub : Nat) (f : IntakeRt → IntakeRt) : State :=
  s.modJob sub fun j => { j with intake := f j.intake }

/-- The batch size, and bytes per position in DRAM. -/
def batchSize (d : List Byte) : Nat := leAt d 2 2
def toDram (d : List Byte) : Bool := (leAt d 1 1).testBit 2
def posStride (d : List Byte) : Nat := if leAt d 0 1 = 3 then leAt d 36 4 else leAt d 68 4
def intakeOut (d : List Byte) : Nat := if leAt d 0 1 = 3 then leAt d 40 8 else leAt d 72 8

/-- 0 < a ≤ b for fp32 values. -/
def f32range (a b : Nat) : Bool := f32lt 0 a && f32lt 0 b && !f32lt b a

/-- The output of n positions and `tail` bytes lies where the descriptor may put it. -/
def State.outputOk (s : State) (c : CordCfg) (j : Job) (n tail : Nat) : Bool :=
  let d := j.desc
  if toDram d then posStride d % 64 == 0 && decide (intakeOut d + n * posStride d + tail ≤ c.size)
  else (s.ringPort c j.session true).isSome

/-- Whether a BATCH descriptor is valid (R356). [DEDUCED: assumption 156] -/
def State.batchOk (s : State) (c : CordCfg) (j : Job) : Bool :=
  let d := j.desc
  let f (o n : Nat) : Nat := leAt d o n
  decide (f 1 1 < 16) && decide (1 ≤ f 2 2) && decide (f 2 2 ≤ 4096) && decide (1 ≤ f 5 1) && decide (f 5 1 ≤ 16) &&
  decide (f 6 1 ≤ 1) && decide (1 ≤ f 7 1) && decide (f 7 1 < 16) && decide (1 ≤ f 12 1) && decide (f 12 1 ≤ 2) &&
  decide (f 13 1 ≤ 2) && decide (1 ≤ f 14 2) && decide (f 14 2 ≤ 4096) && decide (1 ≤ f 16 2) &&
  decide (f 16 2 ≤ 4096) && decide (f 18 2 ≤ 720) && f 27 1 == 0 && f32range (f 28 4) (f 32 4) &&
  !f32lt f32one (f 32 4) && f32range (f 36 4) (f 40 4) && f 72 8 % 64 == 0 && f 80 8 % 64 == 0 &&
  decide (f 88 8 + f 5 1 * f 68 4 ≤ c.size) && decide (1 ≤ f 96 4) && decide (f 96 4 ≤ 65536) && zeroAt d 106 22 &&
  s.outputOk c j (f 2 2) ((64 + 8 * f 2 2 + 16 * (f 4 1 + 1) + 63) / 64 * 64)

/-- Whether stream i of an ALIGN descriptor is valid. -/
def streamOk (d : List Byte) (i : Nat) : Bool :=
  let type := leAt d (64 + 4 * i) 1
  let n := leAt d (65 + 4 * i) 1
  leAt d (66 + 4 * i) 2 == 0 && ((type == 1 && decide (1 ≤ n) && decide (n ≤ 16)) || (type == 2 && n == 0))

/-- Whether an ALIGN descriptor is valid (R363). -/
def State.alignOk (s : State) (c : CordCfg) (j : Job) : Bool :=
  let d := j.desc
  let f (o n : Nat) : Nat := leAt d o n
  (f 1 1 == 0 || f 1 1 == 4 || f 1 1 == 8 || f 1 1 == 12) && decide (1 ≤ f 2 2) && decide (f 2 2 ≤ 16) &&
  decide (1 ≤ f 4 4) && decide (100000 ≤ f 16 4) &&
  (f 20 4 == 0 || (decide (1000000 ≤ f 20 4) && decide (f 20 4 ≤ 1000000000))) && f 24 8 % 65536 == 0 &&
  f 32 4 % 65536 == 0 && decide (f 24 8 + f 32 4 ≤ c.size) && zeroAt d 50 14 &&
  ((List.range (f 2 2)).all (streamOk d)) && s.unitUsable c.cord 19 && s.outputOk c j (f 4 4) 0

/-- Whether the descriptor of an INTAKE job is valid. -/
def State.intakeOk (s : State) (c : CordCfg) (j : Job) : Bool :=
  let d := j.desc
  let op := leAt d 0 1
  let signal := if op = 3 then leAt d 48 2 else leAt d 104 2
  j.argAddr % 64 == 0 && d.length == 128 && (!(leAt d 1 1).testBit 3 || s.hitchIn c.cord signal) &&
  (if op = 1 then s.batchOk c j && (s.ringPort c j.session false).isSome
   else if op = 2 then s.unitUsable c.cord 17 && leAt d 80 8 % 64 == 0 && leAt d 72 8 % 64 == 0
   else op == 3 && s.alignOk c j && (s.ringPort c j.session false).isSome)

/-- A failure of a job, with its `CAUSE` (R367, R368). -/
def State.intakeFail (s : State) (j : Job) (cause status : Nat) : State :=
  (s.setReg (cordAddr j.cord 0x7000) (BitVec.ofNat 32 (cause * 256))).endJob j.sub status

/-- Run `body` on a running INTAKE job of operation `op`, once its descriptor has been found valid. An ALIGN job's
frame buffer, whose layout the manual leaves to the aligner, then holds free values. -/
def State.onIntake (s : State) (sub op : Nat) (body : State → Job → CordCfg → State) : State :=
  match s.engineJob sub 3 with
  | none => s
  | some (j, c) =>
    if !j.mayWork true then s
    else if j.intake.checked then (if leAt j.desc 0 1 = op then body s j c else s)
    else if !s.intakeOk c j then s.intakeFail j 1 0x85
    else if leAt j.desc 0 1 ≠ op then s
    else
      let s1 := s.modIntake sub fun r => { r with checked := true }
      let s2 := if op = 3 then s1.putFree c (leAt j.desc 24 8) (leAt j.desc 32 4) else s1
      body s2 { j with intake := { j.intake with checked := true } } c

/-! ### Output (R359 to R361) -/

/-- The end of a job whose last output has been performed: its signal and its status. -/
def State.intakeEnd (s : State) (sub : Nat) : State :=
  match s.job? sub with
  | none => s
  | some j =>
    let d := j.desc
    let k := if leAt d 0 1 = 3 then leAt d 48 2 else leAt d 104 2
    let s1 := if (leAt d 1 1).testBit 3 then (s.noteSignal sub k).hitchSignal k 1 else s
    s1.endJob sub (j.intake.ending.getD (j.doneStatus s1.time))

/-- Move waiting words of a job into its outbound ring; a full ring makes the job wait (R83). -/
def State.drainOut (s : State) (sub : Nat) : State :=
  match s.job? sub with
  | none => s
  | some j =>
    match s.cordCfg j.cord with
    | none => s
    | some c =>
      match s.ringPort c j.session true with
      | none => s
      | some p =>
        let r := j.intake
        let x := s.port c.ownerHost p
        let k := min r.out.length (x.size - x.held)
        let s1 := if k = 0 then s else (s.ringAppend c c.ownerHost p (r.out.take k)).modIntake sub fun r => { r with
          out := r.out.drop k }
        if k < r.out.length then s1.ringWait c.ownerHost p sub
        else if r.last then s1.intakeEnd sub else s1

/-- Bytes as words. -/
def wordsOf (bs : List Byte) : List Word := (List.range (bs.length / 4)).map fun i => BitVec.ofNat 32 (leAt bs (4 * i) 4)

/-- Write output bytes of a job: to DRAM at `a`, or through the ring; `last` ends the job once they are performed. -/
def State.intakeWrite (s : State) (c : CordCfg) (j : Job) (a : Nat) (bs : List Byte) (last : Bool) : State :=
  if toDram j.desc then
    s.jobWrite j.sub c a (bs.take (c.size - a)) fun s => if last then s.intakeEnd j.sub else s
  else (s.modIntake j.sub fun r => { r with out := r.out ++ wordsOf bs, last := last }).drainOut j.sub

/-! ### Positions (R357, R358) -/

/-- Every one of the first B records has been decided. -/
def IntakeRt.firstDecided (r : IntakeRt) (b : Nat) : Bool :=
  decide (b ≤ r.consumed) && r.samples.all fun x => decide (b ≤ x.order)

/-- The positions whose records failed, ascending. -/
def IntakeRt.failedPositions (r : IntakeRt) (b : Nat) : List Nat :=
  (List.range b).filter fun p => r.failures.any fun e => e.1 == p

/-- The position of a finished sample, once it is known. -/
def IntakeRt.positionOf (r : IntakeRt) (b : Nat) (x : Sample) : Option Nat :=
  if x.order < b then some x.order
  else if !r.firstDecided b || r.samples.any fun y => decide (y.order < x.order) && decide (y.stage < 3) then none
  else
    let ahead := (r.given.filter fun e => decide (e.1 < x.order)).length +
      (r.samples.filter fun y => decide (y.order < x.order)).length
    (r.failedPositions b)[ahead]?

/-- A finished sample is written at its position. [DEDUCED: assumption 165] -/
def State.emitSample (s : State) (c : CordCfg) (j : Job) (x : Sample) (p : Nat) : State :=
  let extra := decide (batchSize j.desc ≤ x.order)
  let s1 := (s.modIntake j.sub fun r => { r with
    samples := r.samples.filter fun y => y.order != x.order
    filled := (p, x.id) :: r.filled
    given := if extra then (x.order, p) :: r.given else r.given }).bump (cordAddr j.cord 0x7004) 1
  s1.intakeWrite c j (intakeOut j.desc + p * posStride j.desc) (placeRecord x.out p extra) false

/-- Write every finished sample whose position is known. -/
def State.settle (s : State) (c : CordCfg) (sub : Nat) : State :=
  let done := ((s.job? sub).map fun j => j.intake.samples.filter fun x => x.stage == 3).getD []
  done.foldl (fun t x =>
    match t.job? sub with
    | none => t
    | some j =>
      match j.intake.positionOf (batchSize j.desc) x with
      | none => t
      | some p => if j.intake.out = [] then t.emitSample c j x p else t) s

/-- A sample has its output: one whose position is not yet known waits in a staging slot, whose bytes the manual
leaves to the unit (R358). [DEDUCED: assumption 157] -/
def State.finished (s : State) (c : CordCfg) (sub order : Nat) : State :=
  match s.job? sub with
  | none => s
  | some j =>
    let staged := (j.intake.samples.find? fun x => x.order == order).any fun x =>
      (j.intake.positionOf (batchSize j.desc) x).isNone
    (if staged then s.putFree c (leAt j.desc 88 8) (leAt j.desc 5 1 * posStride j.desc) else s).settle c sub

/-- OUTBOUND_RING_RESUME (R83): the host has read words from a full ring; the waiting job goes on. -/
def execOutboundRingResume (d p : Nat) (s : State) : Out :=
  withUnit (portOk d p)
    (let x := s.port d p
     if x.outbound ∧ x.held < x.size then
       (match x.waiter with
        | some (sub, _) =>
          let s1 := (s.ringResume d p).drainOut sub
          (match (s1.job? sub).bind fun j => (s1.cordCfg j.cord).map fun c => (j, c) with
           | some (j, c) => if j.kind = 3 ∧ leAt j.desc 0 1 = 1 then s1.settle c sub else s1
           | none => s1)
        | none => s)
     else s)

/-- A failed sample: its trailer entry and its count (R359, R367, R368). -/
def State.countFailure (s : State) (n reason : Nat) : State :=
  s.bump (cordAddr n (if reason = 0x04 then 0x7008 else 0x700C)) 1

/-- The record leaves the ring. -/
def State.consume (s : State) (c : CordCfg) (j : Job) (n : Nat) : State :=
  match s.ringPort c j.session false with
  | none => s
  | some p => (s.ringDrop c.ownerHost p (n / 4)).modIntake j.sub fun r => { r with head := [] }

/-- A record at the front of the ring that was being decided is consumed. -/
def State.consumeFront (s : State) (c : CordCfg) (sub : Nat) : State :=
  match s.job? sub with
  | none => s
  | some j =>
    match j.intake.front with
    | none => s
    | some n => (s.consume c j n).modIntake sub fun r => { r with front := none, consumed := r.consumed + 1 }

/-- A record fails after it went to a decoder or to the cache; one whose failure exceeds `max_skips` is still at the
front of the ring and stays there (R359). [DEDUCED: assumption 152] -/
def State.sampleFails (s : State) (c : CordCfg) (sub order id reason : Nat) : State :=
  let s1 := s.modIntake sub fun r => { r with samples := r.samples.filter fun y => y.order != order }
  match s1.job? sub with
  | none => s1
  | some j =>
    if leAt j.desc 4 1 ≤ j.intake.failures.length then s1.modIntake sub fun r => { r with
      front := none, ending := some corrupt }
    else
      (((s1.consumeFront c sub).modIntake sub fun r => { r with failures := (order, id, reason) :: r.failures }
        ).countFailure c.cord reason).settle c sub

/-! ### The decoded-sample cache (R352 to R355) -/

/-- D, the base of the directory and of the arena, and the arena's size in 64-byte units. -/
def State.cacheD (s : State) (c : CordCfg) : Nat := 2 ^ (8 + (s.cordRt c.cord).dir)
def State.arenaBase (s : State) (c : CordCfg) : Nat := c.regionBase 6 + 16 * s.cacheD c
def State.arenaUnits (s : State) (c : CordCfg) : Nat := (c.regionSize 6 - 16 * s.cacheD c) / 64
/-- The region holds the directory. -/
def State.cacheFits (s : State) (c : CordCfg) : Bool := decide (16 * s.cacheD c ≤ c.regionSize 6)

def emptyId : Nat := 2 ^ 64 - 1

/-- Probe the directory from slot i: the slot of `id`, or the first empty one; at most n slots. -/
def State.probe (s : State) (c : CordCfg) (id : Nat) : Nat → Nat → Option (Nat × Bool)
  | 0, _ => none
  | n + 1, i =>
    let slot := i % s.cacheD c
    let x := s.cordLe c (c.regionBase 6 + 16 * slot) 8
    if x = emptyId then some (slot, false)
    else if x = id then some (slot, true)
    else s.probe c id n (slot + 1)

def State.probeId (s : State) (c : CordCfg) (id : Nat) : Option (Nat × Bool) :=
  if s.cacheFits c then s.probe c id (s.cacheD c) (mix64 id % s.cacheD c) else none

/-- The arena bytes of a stored sample: its Cord-relative address and length. -/
def State.cacheFind (s : State) (c : CordCfg) (id : Nat) : Option (Nat × Nat) :=
  match s.probeId c id with
  | some (slot, true) =>
    let e := c.regionBase 6 + 16 * slot
    some (s.arenaBase c + s.cordLe c (e + 8) 4 * 64, s.cordLe c (e + 12) 4 * 64)
  | _ => none

/-- Whether a store may begin (R353). -/
def State.mayStore (s : State) (c : CordCfg) (id len : Nat) : Bool :=
  let r := s.cordRt c.cord
  let waiting := (r.stores.map fun e => e.2.length / 64).sum
  s.cacheFits c && decide (r.arena + waiting + len ≤ s.arenaUnits c) &&
    decide (r.entries + r.stores.length < s.cacheD c) && (s.cacheFind c id).isNone && !r.stores.any fun e => e.1 == id

/-- Begin the store of a decoded sample where the job asks for it; whether it began. -/
def State.tryStore (s : State) (c : CordCfg) (d : List Byte) (id : Nat) (p : Picture) : State × Bool :=
  if !(leAt d 1 1).testBit 1 then (s, false)
  else if s.mayStore c id (p.stored.length / 64) then
    let r := s.cordRt c.cord
    (s.setCordRt c.cord { r with stores := r.stores ++ [(id, p.stored)] }, true)
  else (s.bump (cordAddr c.cord 0x7014) 1, false)

/-- Empty the directory and reset the arena. -/
def State.emptyCache (s : State) (c : CordCfg) : State :=
  let r := s.cordRt c.cord
  let s1 := s.setCordRt c.cord { r with
    arena := 0, entries := 0, cacheReset := false, dir := min 12 (s.reg (cordAddr c.cord 0x7030)).toNat }
  if s1.cacheFits c then
    (List.range (s1.cacheD c)).foldl (fun t i => t.putCordLe c (c.regionBase 6 + 16 * i) 8 emptyId) s1
  else s1

/-- A reset of the cache: at once, or when the stores in progress have completed. -/
def State.resetCache (s : State) (n : Nat) : State :=
  match s.cordCfg n with
  | none => s
  | some c => if (s.cordRt n).stores = [] then s.emptyCache c else s.setCordRt n { s.cordRt n with cacheReset := true }

/-- A write of `DIR` (R352, R368): values above 12 are taken as 12, and the cache is reset. -/
def State.cacheCfg (s : State) (n : Nat) (w : Word) : State :=
  (s.setReg (cordAddr n 0x7030) (BitVec.ofNat 32 (w.toNat % 16))).resetCache n

/-- INT_CACHE_CFG (R355). -/
def execIntCacheCfg (d n : Nat) (w : Word) (s : State) : Out :=
  withUnit (hostOk d && cordOk n)
    (s.hostWrite d (cordAddr n 0x7030) w fun s => s.cacheCfg n w)

/-- CACHE_RESET (R355). -/
def execCacheReset (d n : Nat) (w : Word) (s : State) : Out :=
  withUnit (hostOk d && cordOk n)
    (s.hostWrite d (cordAddr n 0x7034) w fun s => if w.getLsbD 0 then s.resetCache n else s)

/-! ### Decoded samples -/

/-- A sample with its picture goes to augmentation. -/
def State.toAugment (s : State) (sub : Nat) (x : Sample) (p : Picture) (fromCache stored : Bool) : State :=
  let y : Sample := { x with
    stage := 2, ready := s.time, fmt := p.fmt, width := p.width, height := p.height, pixels := p.pixels
    fromCache := fromCache, stored := stored }
  s.modIntake sub fun r => { r with samples := r.samples.map fun z => if z.order = x.order then y else z }

/-- A sample has been decoded: it is stored where the job asks for it, and goes to augmentation. -/
def State.decoded (s : State) (c : CordCfg) (j : Job) (x : Sample) (p : Picture) : State :=
  let (s1, stored) := (s.consumeFront c j.sub).tryStore c j.desc x.id p
  s1.toAugment j.sub x p false stored

/-- A CACHED sample is looked up: it waits for a store of its id in progress, hits, or fails. -/
def State.lookup (s : State) (c : CordCfg) (sub : Nat) (x : Sample) : State :=
  if (s.cordRt c.cord).stores.any fun e => e.1 == x.id then
    s.modIntake sub fun r => { r with samples := r.samples.map fun z => if z.order = x.order then { x with stage := 1 } else z }
  else
    match s.cacheFind c x.id with
    | none => s.sampleFails c sub x.order x.id 0x89
    | some (a, n) => s.jobRead sub c a n fun s =>
        ((s.consumeFront c sub).bump (cordAddr c.cord 0x7010) 1).toAugment sub x (unstored (s.cordBytes c a n)) true false

/-- CACHE_STORE_COMPLETE (R354): the store's bytes and entry are written; waiting lookups and a waiting reset
proceed. -/
def State.storeDone (s : State) (n id : Nat) : State :=
  match s.cordCfg n with
  | none => s
  | some c =>
    let r := s.cordRt n
    match r.stores.find? fun e => e.1 == id with
    | none => s
    | some e =>
      let len := e.2.length / 64
      let s1 := s.setCordRt n { r with
        stores := r.stores.filter fun x => x.1 != id, arena := r.arena + len, entries := r.entries + 1 }
      let s2 := match s1.probeId c id with
        | some (slot, _) =>
          (s1.putCordBytes c (s1.arenaBase c + r.arena * 64) e.2).putCordBytes c (c.regionBase 6 + 16 * slot)
            (natLe id 8 ++ natLe r.arena 4 ++ natLe len 4)
        | none => s1
      let waiting := s2.jobs.flatMap fun j => if j.cord = n ∧ j.kind = 3 then
          (j.intake.samples.filter fun x => x.stage == 1 && x.id == id).map fun x => (j.sub, x)
        else []
      let s3 := waiting.foldl (fun t w => t.lookup c w.1 w.2) s2
      if (s3.cordRt n).cacheReset && (s3.cordRt n).stores.isEmpty then s3.emptyCache c else s3

/-- CACHE_STORE_COMPLETE (R354). -/
def execCacheStoreComplete (n id : Nat) (s : State) : Out := withUnit (cordOk n) (s.storeDone n id)

/-- JPEG_DECODE (R342, R343): a decoder has decoded its record, and the next that waits goes to it. -/
def execJpegDecode (decoder : Nat) (s : State) : Out :=
  withUnit (decide (decoder < 2))
    (let s := s.assignDecoders
     match s.decodes decoder with
     | none => s
     | some (j, x) =>
       match s.cordCfg j.cord with
       | none => s
       | some c =>
         State.assignDecoders (match jpegDecode x.payload with
           | .ok p => s.decoded c j x p
           | .error e => s.sampleFails c j.sub x.order x.id e))

/-- AUGMENTATION (R349, R351): the sample that the unit serves. While words of its job wait for the outbound ring, the
unit waits (R83). -/
def execAugmentation (s : State) : Out :=
  withUnit true
    (match s.augments with
     | none => s
     | some (j, x) =>
       match s.cordCfg j.cord with
       | none => s
       | some c =>
         if j.intake.out != [] then s
         else
           let p : Picture := { fmt := x.fmt, width := x.width, height := x.height, pixels := x.pixels }
           let out := augment j.desc (s.sessLe c j.session 0x60 8) x.id x.label x.fromCache x.stored p s.draws
           let y : Sample := { x with stage := 3, ready := s.time, pixels := [], payload := [], out := out }
           let s0 : State := { s with draws := s.draws + 2 ^ 35 }
           let s1 := s0.modIntake j.sub fun r => { r with
             samples := r.samples.map fun z => if z.order = x.order then y else z }
           (s1.bumpUnits 0x240004 1048576 (leAt j.desc 14 2 * leAt j.desc 16 2)).finished c j.sub x.order)

/-! ### Input records (R335 to R346, R357) -/

/-- n rounded up to a multiple of 4. -/
def up4 (n : Nat) : Nat := (n + 3) / 4 * 4

/-- Whether a record header is valid for a job of operation `op` (R335, R336). [DEDUCED: assumption 150] -/
def recordOk (op : Nat) (h : List Byte) : Bool :=
  let kind := leAt h 4 1
  let label := leAt h 6 2
  let pay := leAt h 16 4
  (if op = 3 then kind == 6 && decide (leAt h 5 1 < 16) else decide (kind ≤ 5) && leAt h 5 1 == 0) &&
  decide (label ≤ 4096) && (!(kind == 0 || kind == 5 || kind == 6) || label == 0) &&
  (!(kind == 0 || kind == 5) || pay == 0) && zeroAt h 20 12 && leAt h 0 4 == 32 + up4 label + up4 pay

/-- The bytes of the words that a port's ring holds. -/
def State.ringBytes (s : State) (c : CordCfg) (x : DataPort) : List Byte :=
  (List.range x.held).flatMap fun i => s.cordBytes c (x.wordAddr i) 4

/-- A word of a ring that holds an uncorrectable error. -/
def State.ringUe (s : State) (c : CordCfg) (x : DataPort) : Option Nat :=
  ((List.range x.held).map x.wordAddr).find? fun a => s.cordUe c a 4

/-- The record at the front of a job's inbound ring: its bytes, and how many bytes of it are in the ring. The job waits
while the record is not whole; a record longer than the ring is taken in parts. [DEDUCED: assumption 151] -/
def State.onRecord (s : State) (c : CordCfg) (j : Job) (body : State → List Byte → Nat → State) : State :=
  match s.ringPort c j.session false with
  | none => s
  | some p =>
    let d := c.ownerHost
    let x := s.port d p
    let head := j.intake.head
    match s.ringUe c x with
    | some a => (s.noteCordUe c a 4).endJob j.sub stTorn
    | none =>
      let all := head ++ s.ringBytes c x
      let n := leAt all 0 4
      if all.length < 32 then s.ringWait d p j.sub
      else if !recordOk (leAt j.desc 0 1) all then
        let s1 := (s.bump (regKey d (0x1000C + p * 256)) x.held).ringDrop d p x.held
        s1.intakeFail j 2 0x87
      else if n ≤ all.length then
        let s1 := if x.waiter.map Prod.fst = some j.sub then s.ringResume d p else s
        body s1 (all.take n) (n - head.length)
      else if 4 * x.size < n then
        ((s.ringDrop d p x.held).modIntake j.sub fun r => { r with head := all }).ringWait d p j.sub
      else s.ringWait d p j.sub

/-- A record fails as it is consumed; one that would exceed `max_skips` is not consumed (R359). [DEDUCED: assumption
152] -/
def State.recordFails (s : State) (c : CordCfg) (j : Job) (n id reason : Nat) : State :=
  let r := j.intake
  if leAt j.desc 4 1 ≤ r.failures.length then s.modIntake j.sub fun r => { r with ending := some corrupt }
  else
    (((s.consume c j n).modIntake j.sub fun r => { r with
      consumed := r.consumed + 1, failures := (r.consumed, id, reason) :: r.failures }).countFailure c.cord
      reason).settle c j.sub

/-- A record is consumed and becomes a sample at `stage`. -/
def State.newSample (s : State) (c : CordCfg) (j : Job) (n : Nat) (x : Sample) : State :=
  (s.consume c j n).modIntake j.sub fun r => { r with consumed := r.consumed + 1, samples := r.samples ++ [x] }

/-- A record goes to a decoder or waits for a store of its id, at `stage`. Where its failure would exceed `max_skips`,
it is consumed once it is decided (R359). [DEDUCED: assumption 152] -/
def State.undecided (s : State) (c : CordCfg) (j : Job) (n : Nat) (x : Sample) : State :=
  if leAt j.desc 4 1 ≤ j.intake.failures.length then
    s.modIntake j.sub fun r => { r with front := some n, samples := r.samples ++ [x] }
  else s.newSample c j n x

/-- Whether a Cord owns a JPEG decoder. -/
def State.ownsDecoder (s : State) (n : Nat) : Bool := s.unitOwner 15 == n || s.unitOwner 16 == n

/-- The tokens of a TEXT payload, their number and the state after: without a dictionary at `dict_addr` all of them are
free values. [DEDUCED: assumption 158] -/
def State.tokens (s : State) (c : CordCfg) (d pay : List Byte) : List Nat × Nat × State :=
  match (s.cordRt c.cord).dicts.find? fun e => e.1 == leAt d 80 8 with
  | some e =>
    let ts := tokenise e.2 pay.length pay
    (ts, ts.length, s)
  | none =>
    let n := leAt d 96 4
    let free (i : Nat) : Nat := (Config.freeValue (s.draws + i)).toNat % 2 ^ 32
    ((List.range n).map free, free n, { s with draws := s.draws + n + 1 })

/-- The effect of one whole record on a BATCH job. [DEDUCED: assumption 155] -/
def State.batchRecord (s : State) (c : CordCfg) (j : Job) (bs : List Byte) (n : Nat) : State :=
  let d := j.desc
  let kind := leAt bs 4 1
  let id := leAt bs 8 8
  let label := (bs.drop 32).take (leAt bs 6 2)
  let pay := (bs.drop (32 + up4 (leAt bs 6 2))).take (leAt bs 16 4)
  let order := j.intake.consumed
  let x : Sample := { order := order, id := id, kind := kind, label := label, payload := [], stage := 0, ready := s.time }
  let maxPixels := s.sessLe c j.session 0x68 4
  let maxBytes := s.sessLe c j.session 0x6C 4
  let fail (reason : Nat) : State := s.recordFails c j n id reason
  let plain (bpp : Nat) (p : Option Picture) : State :=
    if !s.unitUsable c.cord 18 then fail unsupported
    else if pay.length < 16 then fail corrupt
    else if overLimit (leAt pay 0 2) (leAt pay 2 2) bpp maxPixels maxBytes then fail 0x04
    else
      match p with
      | some q => (s.newSample c j n x).decoded c j x q
      | none => fail corrupt
  if kind = 0 then (s.consume c j n).modIntake j.sub fun r => { r with ending := some 0x86 }
  else if kind = 1 then
    if !s.ownsDecoder c.cord || !s.unitUsable c.cord 18 then fail unsupported
    else
      let big := match jpegFrame pay with
        | .ok f => overLimit f.width f.height (if f.comps.length = 1 then 1 else 3) maxPixels maxBytes ||
            decide (4 * pay.length < f.claimed)
        | .error _ => false
      if big then fail 0x04 else (s.undecided c j n { x with payload := pay }).assignDecoders
  else if kind = 2 then plain (if leAt pay 4 1 = 1 then 1 else 3) (rawPicture pay)
  else if kind = 3 then plain (if leAt pay 4 1 = 7 then 2 else 4) (depthPicture pay)
  else if kind = 4 then
    if !s.unitUsable c.cord 17 then fail unsupported
    else
      let (ts, count, s1) := s.tokens c d pay
      ((s1.newSample c j n { x with stage := 3, out := textRecord d id label ts count }).bump 0x240000
        pay.length).finished c j.sub order
  else if !s.unitUsable c.cord 18 then fail unsupported
  else if (s.cordRt c.cord).stores.any fun e => e.1 == id then s.undecided c j n { x with stage := 1 }
  else if (s.cacheFind c id).isNone then fail 0x89
  else (s.newSample c j n x).lookup c j.sub x

/-- A BATCH job consumes its next record (R357 to R359). It takes none while that record and the undecided ones could
together exceed `max_skips`. [DEDUCED: assumption 152] -/
def State.batchInput (s : State) (j : Job) (c : CordCfg) : State :=
  let r := j.intake
  let b := batchSize j.desc
  let extras := (r.samples.filter fun x => decide (b ≤ x.order)).length
  let open' := (r.samples.filter fun x => decide (x.stage < 2)).length
  if r.ending.isSome || r.out != [] || r.front.isSome ||
      (decide (0 < open') && decide (leAt j.desc 4 1 < r.failures.length + open' + 1)) || decide (b + r.failures.length ≤ r.consumed) ||
      (decide (b ≤ r.consumed) && decide (leAt j.desc 5 1 ≤ extras)) then s
  else s.onRecord c j fun s bs n => s.batchRecord c j bs n

/-- INPUT_RECORD (R357). -/
def execInputRecord (sub : Nat) (s : State) : Out := withUnit true (s.onIntake sub 1 State.batchInput)

/-! ### The trailer (R361) -/

/-- The trailer of a BATCH job. -/
def trailerBytes (d : List Byte) (r : IntakeRt) (status : Nat) : List Byte :=
  let b := batchSize d
  let fails := (List.range r.consumed).filterMap fun o => r.failures.find? fun e => e.1 == o
  let ids := (List.range b).flatMap fun p => natLe (((r.filled.find? fun e => e.1 == p).map Prod.snd).getD emptyId) 8
  let len := (64 + 8 * b + 16 * fails.length + 63) / 64 * 64
  padTo 64 (natLe b 4 ++ natLe r.filled.length 4 ++ natLe fails.length 2 ++ natLe status 1 ++ natLe 0 1 ++ natLe 0xFF 1 ++
    natLe 0 3 ++ natLe (leAt d 8 4) 4 ++ natLe len 4 ++ natLe 0 40 ++ ids ++
    fails.flatMap fun e => natLe e.2.1 8 ++ natLe e.2.2 1 ++ natLe 0 7)

/-- The end of a BATCH job: unfilled positions are zeroed in DRAM, and the trailer is written. [DEDUCED: assumption 167]
-/
def State.trailer (s : State) (j : Job) (c : CordCfg) : State :=
  let d := j.desc
  let r := j.intake
  let b := batchSize d
  if r.out ≠ [] ∨ r.last ∨ (r.filled.length ≠ b ∧ (r.ending.isNone ∨ r.samples ≠ [])) then s
  else
    let empty := (List.range b).filter fun p => !r.filled.any fun e => e.1 == p
    let s1 := if toDram d then
        empty.foldl (fun t p => t.putCordBytes c (intakeOut d + p * posStride d) (List.replicate (posStride d) 0)) s
      else s
    s1.intakeWrite c j (intakeOut d + b * posStride d) (trailerBytes d r (r.ending.getD (j.doneStatus s.time))) true

/-- BATCH_TRAILER (R361). -/
def execBatchTrailer (sub : Nat) (s : State) : Out := withUnit true (s.onIntake sub 1 State.trailer)

/-! ### Dictionaries (R344) -/

/-- The entries of a dictionary image, if their lengths fill it exactly. -/
def dictEntries : Nat → List Byte → Option (List (List Byte))
  | 0, bs => if bs = [] then some [] else none
  | n + 1, bs =>
    let len := u8At bs 0
    if bs.length < 1 + len ∨ len = 0 ∨ 64 < len then none
    else (dictEntries n (bs.drop (1 + len))).map fun rest => (bs.drop 1).take len :: rest

/-- The dictionary that an image holds, if it is valid. -/
def readDict (img : List Byte) : Option (List (List Byte)) :=
  let e := leAt img 4 4
  if !(leAt img 0 4 == 0x43494454 && zeroAt img 12 52 && decide (256 ≤ e) && decide (e ≤ 262144)) then none
  else
    match dictEntries e (img.drop 64) with
    | none => none
    | some es =>
      if es.eraseDups.length = es.length ∧ (List.range 256).all fun b => es.contains [BitVec.ofNat 8 b] then some es
      else none

/-- A DICT_LOAD job: the image is read and checked, and the dictionary area is built. [DEDUCED: assumptions 159, 160] -/
def State.dictLoad (s : State) (j : Job) (c : CordCfg) : State :=
  let src := leAt j.desc 72 8
  let area := leAt j.desc 80 8
  let len := s.cordLe c (src + 8) 4
  if c.size < src + 64 then s.intakeFail j 3 0x88
  else s.jobRead j.sub c src 64 fun s =>
    if len < 64 ∨ c.size < src + len then s.intakeFail j 3 0x88
    else s.jobRead j.sub c src len fun s =>
      match readDict (s.cordBytes c src len) with
      | none => s.intakeFail j 3 0x88
      | some es =>
        if c.size < area + 96 * es.length + 1048576 then s.intakeFail j 3 0x88
        else
          let s1 := s.putFree c area (96 * es.length + 1048576)
          let r := s1.cordRt c.cord
          (s1.setCordRt c.cord { r with dicts := (area, es) :: r.dicts.filter fun e => e.1 != area }).intakeEnd j.sub

/-- DICT_LOAD (R344). -/
def execDictLoad (sub : Nat) (s : State) : Out := withUnit true (s.onIntake sub 2 State.dictLoad)

/-! ### The sensor aligner (R363 to R366) -/

def alignWindow (d : List Byte) : Nat := if leAt d 20 4 = 0 then 200000000 else leAt d 20 4
def alignTarget (d : List Byte) (n : Nat) : Nat := leAt d 8 8 + n * leAt d 16 4
def streamFrame (d : List Byte) (i : Nat) : Bool := leAt d (64 + 4 * i) 1 == 2
def streamValues (d : List Byte) (i : Nat) : Nat := leAt d (65 + 4 * i) 1

/-- device_time of R90 under a host's mapping, for a host that has a complete exchange (R91); h − ref_host is a signed
number. [DESIGN CHOICE: assumptions 16, 71] -/
def State.deviceTime (s : State) (d h : Nat) : Option Nat :=
  let x := s.host d
  if x.exchanges.isEmpty then none
  else
    let since : Int := (h : Int) - x.refHost
    some ((((h : Int) + x.offset + (since * x.ratePpb).tdiv 1000000000) % (2 ^ 64 : Nat)).toNat)

/-- A frame or scalar record of an ALIGN job (R364). -/
def State.sensorTake (s : State) (c : CordCfg) (j : Job) (bs : List Byte) (n : Nat) : State :=
  let d := j.desc
  let r := j.intake
  let st := leAt bs 5 1
  let pay := (bs.drop 32).take (leAt bs 16 4)
  let frame := streamFrame d st
  let bad := decide (leAt d 2 2 ≤ st) || (if frame then decide (16777216 < pay.length)
    else pay.length != 4 * streamValues d st)
  if bad then
    (match s.ringPort c j.session false with
     | some p =>
       let held := (s.port c.ownerHost p).held
       ((s.bump (regKey c.ownerHost (0x1000C + p * 256)) held).ringDrop c.ownerHost p held).intakeFail j 2 0x87
     | none => s)
  else
    let s1 := s.consume c j n
    let late : State :=
      let t := s1.bump (cordAddr j.cord 0x7020) 1
      t.setCordRt j.cord { t.cordRt j.cord with late := (t.cordRt j.cord).late + 1 }
    match s1.deviceTime c.ownerHost (leAt bs 8 8) with
    | none => late
    | some t =>
      if t + alignWindow d < s1.time ∨ t < r.lastTime.look (fun _ => 0) st then late
      else
        let target := alignTarget d r.bundle
        let kept := r.sensors.filter fun x => decide (target ≤ x.time + alignWindow d)
        let used := ((kept.filter fun x => streamFrame d x.stream).map fun x => x.bytes.length).sum
        if frame ∧ leAt d 32 4 < used + pay.length then
          (s1.bump (cordAddr j.cord 0x7024) 1).modIntake j.sub fun r => { r with sensors := kept }
        else
          s1.modIntake j.sub fun r => { r with
            sensors := if target ≤ t + alignWindow d then kept ++ [{ stream := st, time := t, bytes := pay }] else kept
            lastTime := r.lastTime.put (fun _ => 0) st (t + 1) }

/-- SENSOR_RECORD (R364). -/
def execSensorRecord (sub : Nat) (s : State) : Out :=
  withUnit true
    (s.onIntake sub 3 fun s j c =>
      if j.intake.out ≠ [] ∨ j.intake.last then s else s.onRecord c j fun s bs n => s.sensorTake c j bs n)

/-- The latest sample of a stream at or before a time, and the earliest at or after it. -/
def sampleBefore (xs : List SensorSample) (st t : Nat) : Option SensorSample :=
  (xs.filter fun x => x.stream == st && decide (x.time ≤ t)).foldl (fun (b : Option SensorSample) x =>
    match b with
    | some y => if x.time < y.time then b else some x
    | none => some x) none
def sampleAfter (xs : List SensorSample) (st t : Nat) : Option SensorSample :=
  (xs.filter fun x => x.stream == st && decide (t ≤ x.time)).foldl (fun (b : Option SensorSample) x =>
    match b with
    | some y => if x.time < y.time then some x else b
    | none => some x) none

/-- v_a + (v_b − v_a) × (fp32(τ − t_a) / fp32(t_b − t_a)) for each value. -/
def interpolate (a b : SensorSample) (t : Nat) : List Byte :=
  let f := f32div (f32ofInt ((t : Int) - a.time)) (f32ofInt ((b.time : Int) - a.time))
  (List.range (a.bytes.length / 4)).flatMap fun i =>
    let va := leAt a.bytes (4 * i) 4
    natLe (f32add va (f32mul (f32sub (leAt b.bytes (4 * i) 4) va) f)) 4

/-- A stream's flags and data in the bundle with target t (R365). -/
def streamEntry (d : List Byte) (xs : List SensorSample) (st t : Nat) : Nat × List Byte :=
  let frame := streamFrame d st
  match sampleBefore xs st t, sampleAfter xs st t with
  | none, none => (8, if frame then [] else List.replicate (4 * streamValues d st) 0)
  | some a, none => if frame then (2, a.bytes) else (4, a.bytes)
  | none, some b => if frame then (2, b.bytes) else (4, b.bytes)
  | some a, some b =>
    if frame then (2, if b.time - t < t - a.time then b.bytes else a.bytes)
    else if a.time = b.time then (0, a.bytes)
    else (1, interpolate a b t)

/-- Stream entries from stream i on, with data from offset `o`: the entries and the data. -/
def bundleParts (d : List Byte) (xs : List SensorSample) (t : Nat) : Nat → Nat → Nat → List Byte × List Byte
  | 0, _, _ => ([], [])
  | n + 1, i, o =>
    let (flags, data) := streamEntry d xs i t
    let time (x : Option SensorSample) : Nat := (x.map SensorSample.time).getD 0
    let entry := natLe i 1 ++ natLe flags 1 ++ natLe 0 2 ++ natLe data.length 4 ++ natLe (time (sampleBefore xs i t)) 8 ++
      natLe (time (sampleAfter xs i t)) 8 ++ natLe o 4 ++ natLe 0 4
    let padded := padTo 64 data
    let (es, ds) := bundleParts d xs t n (i + 1) (o + padded.length)
    (entry ++ es, padded ++ ds)

/-- The bytes of bundle n (R366). -/
def bundleBytes (d : List Byte) (xs : List SensorSample) (n : Nat) : List Byte :=
  let t := alignTarget d n
  let k := leAt d 2 2
  let first := (64 + 32 * k + 63) / 64 * 64
  let (es, ds) := bundleParts d xs t k 0 first
  let len := first + ds.length
  natLe t 8 ++ natLe n 4 ++ natLe 0xFE 1 ++ natLe 0 3 ++ natLe len 4 ++ natLe k 2 ++ natLe 0 42 ++ padTo 64 es ++ ds

/-- Whether the next bundle may be emitted (R365). -/
def bundleReady (d : List Byte) (r : IntakeRt) (now : Nat) : Bool :=
  let t := alignTarget d r.bundle
  decide (t + alignWindow d ≤ now) ||
    (List.range (leAt d 2 2)).all fun i => r.sensors.any fun x => x.stream == i && decide (t ≤ x.time)

/-- BUNDLE_EMIT (R365). -/
def execBundleEmit (sub : Nat) (s : State) : Out :=
  withUnit true
    (s.onIntake sub 3 fun s j c =>
      let d := j.desc
      let r := j.intake
      if r.out ≠ [] ∨ r.last ∨ !bundleReady d r s.time then s
      else
        let next := alignTarget d (r.bundle + 1)
        let s1 := (s.modIntake sub fun r => { r with
          bundle := r.bundle + 1
          sensors := r.sensors.filter fun x => decide (next ≤ x.time + alignWindow d) }).bump (cordAddr j.cord 0x701C) 1
        s1.intakeWrite c j (intakeOut d + r.bundle * posStride d) (bundleBytes d r.sensors r.bundle)
          (r.bundle + 1 == leAt d 4 4))

/-! ### Windows (R369) -/

/-- The end of a window of a Cord (R369): the share of it in which every decoder that the Cord owns was decoding, and
the late records. [DEDUCED: assumption 164] -/
def State.intakeWindow (s : State) (n : Nat) : State :=
  let r := s.cordRt n
  let pct := min 100 (r.decNs / 1000000)
  let s1 := s.setCordRt n { r with saturated := decide (95 ≤ pct), late := 0, decNs := 0 }
  let s2 := if 95 ≤ pct ∧ !r.saturated then s1.eventCordBlock n 0x0C01 pct else s1
  if r.late = 0 then s2 else s2.eventCordBlock n 0x0C03 r.late

/-- INTAKE_WINDOW_END (R369). -/
def execIntakeWindowEnd (n : Nat) (s : State) : Out :=
  withUnit (cordOk n) (if (s.cordCfg n).isSome then s.each (0x320000 + n) 100000000 fun t => t.intakeWindow n else s)

end Sys2Proof.Machine
end

