-- ==== Sys2Proof/Machine/KSystem.lean ====
section
/-! DEFINITION. Control registers, commands, Hitch operations, system and signature instructions of the Kindling
cores (R185, R187, R190, R195 to R207, R212, R214, R426 to R429). -/

namespace Sys2Proof.Machine

/-! ### Control registers (R185) -/

/-- The control register `i`; `CYCLE` is a free value, for no cycle is modelled (assumption 8). -/
def State.csr (s : State) (h c i : Nat) : DWord :=
  let k := s.core h c
  if i = 0 then BitVec.ofNat 64 h
  else if i = 1 then BitVec.ofNat 64 c
  else if i = 2 then BitVec.ofNat 64 k.cord
  else if i = 3 then BitVec.ofNat 64 k.session
  else if i = 4 then k.arg0.zeroExtend 64
  else if i = 5 then k.arg1.zeroExtend 64
  else if i = 6 then BitVec.ofNat 64 ((if k.vpath then 1 else 0) + (if k.ppointOnly then 2 else 0))
  else if i = 7 then BitVec.ofNat 64 s.time
  else if i = 8 then s.draw.1
  else if i = 9 then BitVec.ofNat 64 (k.rowFirst % 65536 + k.rowCount % 65536 * 65536)
  else if i = 10 then k.g.zeroExtend 64
  else if i = 11 then k.d.zeroExtend 64
  else if i = 12 then k.texsel.zeroExtend 64
  else k.scratch

/-- CSRR 0x0C: rd := control register imm; legal words name registers 0 to 0x00D. -/
def execCsrr (h c : Nat) (rd rs1 : BitVec 5) (imm : BitVec 16) (s : State) : Out :=
  withUnit (coreOk h c) (s.coreStep h c (encI 0x0C rd rs1 imm) maskAll fun s =>
    let v := s.csr h c imm.toNat
    (if imm.toNat = 8 then s.draw.2 else s).coreX h c rd fun _ => v)

/-- CSRW 0x0D: TEXSEL or SCRATCH := x[rs1]; a legal word names no other register. -/
def execCsrw (h c : Nat) (rd rs1 : BitVec 5) (imm : BitVec 16) (s : State) : Out :=
  withUnit (coreOk h c) (s.coreStep h c (encI 0x0D rd rs1 imm) maskAll fun s =>
    s.coreNext h c fun k =>
      if imm.toNat = 0xC then { k with texsel := BitVec.ofNat 32 ((k.readX rs1).toNat % 256) }
      else { k with scratch := k.readX rs1 })

/-! ### Commands (R196 to R199) -/

/-- What a target judges of a command when it is handed over (R199): its own fields, and the blocks that no queued
command writes; the rest is judged at its start. [DEDUCED: assumption 80] -/
def State.cmdAccepted (s : State) (h t : Nat) (bs : List Byte) : Bool :=
  let m := (s.hearth h).store
  let c := cmdMem bs
  let op := c.readLe 0 1
  if t < 4 then kilnFieldsOk m (readKilnCmd c 0)
  else if t = 4 then
    if op = 0x24 then (regroupKind m (readWinCmd c 0)).isSome
    else if op = 0x25 then spliceOk m (readSplice c 0)
    else if op = 0x26 then true
    else winCmdOk m (readWinCmd c 0)
  else if t = 5 then quenchFieldsOk m (readQCmd c 0)
  else if t = 6 then
    match s.hearthJob h with
    | some j =>
      (match s.cordCfg j.cord with
       | some g => decide (0x30 ≤ op) && decide (op ≤ 0x33) && histFieldsOk g (s.hearth h).hist (readHist bs)
       | none => false)
    | none => false
  else decide (0x40 ≤ op) && decide (op ≤ 0x42) && c.readLe 1 3 == 0 && c.readLe 8 24 == 0 &&
    c.readLe 4 4 % 8 == 0 && decide (c.readLe 4 4 + 8 ≤ storeSize)

/-- KISSUE of the command at `a` to target `t`: it stalls while the queue holds four. -/
def State.kissue (s : State) (h c t a : Nat) : State :=
  let v := s.hearth h
  let k := s.core h c
  let bs := v.store.lookList zeroByte a 32
  let op := (bs.getD 0 0).toNat
  if a % 32 ≠ 0 then s.coreStop h c 3
  else if storeSize < a + 32 then s.coreStop h c 4
  else if v.meetsUe a 32 then s.storeUeStop h a 32
  else if t = 4 ∧ k.vpath = true ∧ (op = 0x21 ∨ op = 0x22) then s.coreStop h c 6
  else if 4 ≤ (s.queueOf h t).length then (s.setCore h c { k with state := 2 }).anyCycles (kcKey 20 h c)
  else if !s.cmdAccepted h t bs then s.refuseCmd h t ⟨bs, c, k.pc⟩ (if t < 4 then 7 else 1)
  else
    let s1 := (s.touch h a 32).setQueueOf h t (s.queueOf h t ++ [⟨bs, c, k.pc⟩])
    let s2 := s1.coreNext h c fun k => { k with issued := k.issued.modify (fun _ => 0) t (· + 1) }
    if t = 5 ∧ (s.queueOf h t).length = 0 then s2.quenchReach h else s2

/-- KISSUE 0x38. -/
def execKissue (h c : Nat) (rs1 : BitVec 5) (target : BitVec 3) (off : BitVec 12) (s : State) : Out :=
  withUnit (coreOk h c) (s.coreStep h c (encK 0x38 rs1 0 target off) maskKissue fun s =>
    s.kissue h c target.toNat ((s.core h c).readX rs1 + BitVec.ofNat 64 (32 * off.toNat)).toNat)

/-- KWAIT 0x39: it stalls while a command that this core issued to the target is not complete (R198). -/
def execKwait (h c : Nat) (target : BitVec 3) (s : State) : Out :=
  withUnit (coreOk h c) (s.coreStep h c (encK 0x39 0 0 target 0) maskKwait fun s =>
    let k := s.core h c
    if k.issued.look (fun _ => 0) target.toNat = 0 then s.coreNext h c id
    else (s.setCore h c { k with state := 2 }).anyCycles (kcKey 20 h c))

/-- KPOLL 0x3A: rd := the free entries of the target's queue (R197). -/
def execKpoll (h c : Nat) (rd : BitVec 5) (target : BitVec 3) (s : State) : Out :=
  withUnit (coreOk h c) (s.coreStep h c (encK 0x3A 0 rd target 0) maskKpoll fun s =>
    s.coreX h c rd fun _ => BitVec.ofNat 64 (4 - (s.queueOf h target.toNat).length))

/-! ### Hitches (R200, R426 to R429) -/

/-- The Hitch that an instruction names, and its operand n. -/
def Core.hitchOf (k : Core) (rs2 : BitVec 5) : Nat := (k.readX rs2).toNat % 65536
def Core.hitchN (k : Core) (rs1 : BitVec 5) : Nat := (k.readX rs1).toNat % 4294967296

/-- Do `body` on the Hitch that a core names, which must lie in its Cord's range. -/
def State.coreHitch (s : State) (h c : Nat) (rs2 : BitVec 5) (body : Nat → State) : State :=
  let k := s.core h c
  if s.hitchIn k.cord (k.hitchOf rs2) then body (k.hitchOf rs2) else s.coreStop h c 5

/-- SIGNAL [0]: +n on a Hitch, which the job remembers (R417). -/
def execSignal (h c : Nat) (rs1 rs2 : BitVec 5) (s : State) : Out :=
  withUnit (coreOk h c) (s.coreStep h c (encH 0 0 rs1 rs2) maskAll fun s => s.coreHitch h c rs2 fun x =>
    let n := (s.core h c).hitchN rs1
    ((s.coreNext h c id).noteSignal (s.jobOf h) x).hitchSignal x n)

/-- A core queues on a Hitch: it stalls until the grant, which completes the instruction (R427); on a poisoned
Hitch its job ends (R429). -/
def State.coreWait (s : State) (h c x n : Nat) : State :=
  if (s.hitch x).poison then s.endJob (s.jobOf h) stPoisoned
  else
    let (y, g) := (s.hitch x).wait (.core h c) n
    let s1 := (s.setHitch x y).grantAll x (g.filter fun a => a != .core h c)
    if g.contains (.core h c) then s1.coreNext h c id
    else (s1.setCore h c { s1.core h c with state := 2, waitsOn := some x }).anyCycles (kcKey 24 h c)

/-- WAIT [1]. -/
def execWait (h c : Nat) (rs1 rs2 : BitVec 5) (s : State) : Out :=
  withUnit (coreOk h c) (s.coreStep h c (encH 1 0 rs1 rs2) maskAll fun s => s.coreHitch h c rs2 fun x =>
    s.coreWait h c x ((s.core h c).hitchN rs1))

/-- TRYWAIT [2]: rd := 1 on success, 0 otherwise. -/
def execTrywait (h c : Nat) (rd rs1 rs2 : BitVec 5) (s : State) : Out :=
  withUnit (coreOk h c) (s.coreStep h c (encH 2 rd rs1 rs2) maskAll fun s => s.coreHitch h c rs2 fun x =>
    let (y, ok) := (s.hitch x).tryWait ((s.core h c).hitchN rs1)
    (s.setHitch x y).coreX h c rd fun _ => boolWord ok)

/-- ARM [3]: a set, or a barrier of 1 to 65,535 parties. -/
def execArm (h c : Nat) (rs1 rs2 : BitVec 5) (s : State) : Out :=
  withUnit (coreOk h c) (s.coreStep h c (encH 3 0 rs1 rs2) maskAll fun s => s.coreHitch h c rs2 fun x =>
    let n := (s.core h c).hitchN rs1
    if n < 2147483648 then (s.coreNext h c id).hitchSet x n
    else if n = 2147483648 ∨ 2147483648 + 65535 < n then s.coreStop h c 5
    else (s.setHitch x ((s.hitch x).arm (n - 2147483648))).coreNext h c id)

/-! ### SYS and BLK (R187, R203 to R207, R214) -/

/-- NOP. -/
def execNop (h c : Nat) (s : State) : Out :=
  withUnit (coreOk h c) (s.coreStep h c (encSys 0 0x00) maskSys fun s => s.coreNext h c id)

/-- HALT: the core halts past the instruction (R203, R209). [DEDUCED: assumption 84] -/
def execHalt (h c : Nat) (s : State) : Out :=
  withUnit (coreOk h c) (s.coreStep h c (encSys 0 0x01) maskSys fun s =>
    let t := s.coreNext h c id
    t.setCore h c { t.core h c with state := 3 })

/-- FENCE: every access of the core is performed when its command is, so it completes at once (R195). [DEDUCED:
assumption 86] -/
def execFence (h c : Nat) (s : State) : Out :=
  withUnit (coreOk h c) (s.coreStep h c (encSys 0 0x02) maskSys fun s => s.coreNext h c id)

/-- PPOINT: the core stops here while a pre-emption request is pending (R207). -/
def execPpoint (h c : Nat) (s : State) : Out :=
  withUnit (coreOk h c) (s.coreStep h c (encSys 0 0x03) maskSys fun s =>
    s.coreNext h c fun k => { k with stopped := k.stopReq })

/-- TRAP: the core stops with cause TRAP and the code (R214). -/
def execTrap (h c : Nat) (code : BitVec 8) (s : State) : Out :=
  withUnit (coreOk h c) (s.coreStep h c (encSys (code.zeroExtend 12) 0x04) maskTrap fun s =>
    (s.setCore h c { s.core h c with trapCode := code.toNat }).coreStop h c 8)

/-- SETD: D := the immediate (R204). -/
def execSetd (h c : Nat) (v : BitVec 12) (s : State) : Out :=
  withUnit (coreOk h c) (s.coreStep h c (encSys v 0x05) maskAll fun s =>
    s.coreNext h c fun k => { k with d := v })

/-- G' of BLK (R204). -/
def Core.blkG (k : Core) (adj : Bool) (d : BitVec 12) : BitVec 12 := k.g ^^^ d ^^^ (if adj then k.d else 0)

/-- BLK: G' must equal s; a pass is counted (R204, R215). -/
def execBlk (h c : Nat) (adj : Bool) (d sig : BitVec 12) (s : State) : Out :=
  withUnit (coreOk h c) (s.coreStep h c (encBlk adj d sig) maskAll fun s =>
    if (s.core h c).blkG adj d = sig then
      (s.coreNext h c fun k => { k with g := sig }).bump (hKey (0xB01C + h * 0x40 + c * 0x20)) 1
    else s.coreStop h c 1)

/-- A core reaches an illegal instruction word `w` and stops with cause ILLEGAL (R190, R214). -/
def execIllegalInstruction (h c : Nat) (w : Word) (s : State) : Out :=
  withUnit (coreOk h c)
    (if legalWord w then s else s.coreStep h c w maskAll fun s => s.coreStop h c 2)

end Sys2Proof.Machine
end

