-- ==== Sys2Proof/Machine/Jobs.lean ====
section
/-! DEFINITION. Chapter 14: sessions, submission, dispatch, pre-emption, save and restore, and the end of jobs (R201,
R207 to R210, R216, R217, R226, R239, R399, R403 to R421, R458 to R460, R474). -/

namespace Sys2Proof.Machine

/-! ### Energy grants and reserves (R458, R459) -/

/-- Grant best-effort requests from the head of the queue: `cap` is C_B. -/
def grantLoop (cap : Int) : Nat → Draught → Draught
  | 0, d => d
  | n + 1, d =>
    match d.queue with
    | [] => d
    | q :: rest =>
      if (q.energy : Int) ≤ d.pool ∨ (cap < q.energy ∧ cap ≤ d.pool) then
        grantLoop cap n { d with queue := rest, pool := d.pool - q.energy, granted := q.sub :: d.granted }
      else d

/-- The head requests that the pool covers are granted, but not during a hold or at the thermal limit. -/
def State.grantBe (s : State) : State :=
  if s.pwr.holdSince.isSome || s.drg.limit then s
  else { s with drg := grantLoop s.capB s.drg.queue.length s.drg }

/-- Insert a request by time, then Cord number. -/
def insertRequest (q : BeRequest) : List BeRequest → List BeRequest
  | [] => [q]
  | x :: rest => if q.time < x.time ∨ (q.time = x.time ∧ q.cord < x.cord) then q :: x :: rest
    else x :: insertRequest q rest

/-- A best-effort job asks for its energy once (R406). -/
def State.askGrant (s : State) (j : Job) : State :=
  if j.asked then s
  else
    let d := s.drg
    let q : BeRequest := ⟨j.sub, j.cord, s.time, j.energyNj⟩
    (({ s with drg := { d with queue := insertRequest q d.queue } } : State).modJob j.sub fun x =>
      { x with asked := true }).grantBe

/-- Debit a Cord's reserve account; what lies below −C_c is dropped and counted as overdraft. -/
def State.debitReserve (s : State) (c : CordCfg) (e : Nat) : State :=
  let a := s.drg.accounts.look (fun _ => 0) c.cord
  let x := a - e
  let y := max x (min a (-(s.capA c)))
  let s1 : State := { s with drg := { s.drg with accounts := s.drg.accounts.put (fun _ => 0) c.cord y } }
  s1.bumpUnits 0x270038 1000 (y - x).toNat

/-! ### The model store and the resident image (R43, R216, R217) -/

/-- The Cord-relative address of a model's section: the sections lie one after the other in ascending index. [DEDUCED:
assumption 48] -/
def State.storeAt (s : State) (c : CordCfg) (m : ModelCfg) : Nat :=
  let earlier : List ModelCfg := match s.lay with
    | some l => l.models.filter fun (x : ModelCfg) => x.cord == c.cord && decide (x.index < m.index)
    | none => []
  c.regionBase 0 + (earlier.map fun (x : ModelCfg) => x.bytes.length).sum

/-- A blob of a model in the model store. -/
def State.blob (s : State) (c : CordCfg) (m : ModelCfg) (b : Nat × Nat) : List Byte :=
  s.cordBytes c (s.storeAt c m + b.1) b.2

/-- Append a blob at the next multiple of 64 bytes. -/
def placeBlob (img bs : List Byte) : List Byte := img ++ List.replicate ((64 - img.length % 64) % 64) 0 ++ bs

/-- The first `n` bytes of a model's resident image. -/
def State.residentImage (s : State) (c : CordCfg) (m : ModelCfg) (n : Nat) : List Byte :=
  let img := placeBlob (placeBlob (placeBlob [] (s.blob c m m.commands)) (s.blob c m m.codebooks))
    (s.blob c m m.weights)
  (img ++ List.replicate (m.need - img.length) 0).take n

/-- A blob of the resident image that meets an uncorrectable word, as address and length. -/
def State.imageUe (s : State) (c : CordCfg) (m : ModelCfg) : Option (Nat × Nat) :=
  ([m.commands, m.codebooks, m.weights].map fun b => (s.storeAt c m + b.1, b.2)).find? fun r =>
    s.cordUe c r.1 r.2

/-- Fill a Hearth's weight share with a model's image, and set its tag (R217). -/
def State.fillShare (s : State) (c : CordCfg) (m : ModelCfg) (h : Nat) : State :=
  let n := min m.need c.weightShare
  let s1 := s.touch h 0 n
  let v := (s1.hearth h).write 0 (s1.residentImage c m n)
  s1.setHearth h { v with tag := some (c.cord, m.modelId) }

/-! ### Hearths that a job can take (R405, R472, R476, R482) -/

/-- A Hearth that no job holds, that needs no zeroing, and whose physical Hearth serves and is not under test. -/
def State.hearthFree (s : State) (h : Nat) : Bool :=
  let v := s.hearth h
  let p := s.physOf h
  v.job.isNone && !v.zeroing && decide ((s.phy p).service ≤ 1) && !s.underTest p

/-- The Hearths that a queued chained job keeps for itself (R405). -/
def Job.keeps (j : Job) : List Nat :=
  match j.chain with
  | some l => if j.chained && j.phase == 0 && stGood l.status then l.hearths else []
  | none => []

/-- The Hearths that a job must have: those of its save records, or those of the job before it in its chain. -/
def Job.mustHave (j : Job) : List Nat :=
  if j.phase = 5 then j.hearths else if j.onHearths then j.keeps.take j.nHearths else j.keeps

/-- Member Hearths that job `j` could take now. -/
def State.freeFor (s : State) (c : CordCfg) (j : Job) : List Nat :=
  let kept := (s.jobs.filter fun q => q.cord == c.cord && q.sub != j.sub).flatMap Job.keeps
  (s.members c.cord).filter fun h => s.hearthFree h && !kept.contains h

/-- How many Hearths a job takes. -/
def Job.count (j : Job) : Nat := if j.phase = 5 || !j.onHearths then j.mustHave.length else j.nHearths

/-- The job's Hearths in stretch order, chosen by R405; `none` where it lacks Hearths. -/
def State.pickHearths (s : State) (c : CordCfg) (j : Job) : Option (List Nat) :=
  let free := s.freeFor c j
  let must := j.mustHave
  if j.phase = 5 then (if must.all free.contains then some must else none)
  else
    let tagged (h : Nat) : Bool := (s.hearth h).tag == some (c.cord, s.jobModelId c j)
    let rest := free.filter fun h => !must.contains h
    let picks := (must ++ rest.filter tagged ++ rest.filter fun h => !tagged h).take j.count
    if must.all free.contains && picks.length == j.count then some ((List.range 48).filter picks.contains) else none

/-! ### Units of the engines (R35, R36) -/

/-- The bytes of an engine descriptor of each kind. -/
def descBytes (kind : Nat) : Nat :=
  if kind = 2 then 256 else if kind = 7 then 64 else if kind = 8 then 32
  else if kind = 3 ∨ kind = 4 ∨ kind = 5 then 128 else 0

/-- The descriptor of an engine job; empty where it leaves the Cord region. [DEDUCED: assumption 116] -/
def State.jobDesc (s : State) (c : CordCfg) (j : Job) : List Byte :=
  if j.argAddr + descBytes j.kind ≤ c.size then s.cordBytes c j.argAddr (descBytes j.kind) else []

/-- The units that a job holds while it runs: a binning unit, feature or match engines, the post-processing unit, the
aligner. [DESIGN CHOICE: assumption 166] -/
def State.jobUnits (s : State) (c : CordCfg) (j : Job) : List Nat :=
  let d := if j.desc = [] then s.jobDesc c j else j.desc
  if j.kind = 2 then (if leAt d 4 1 < 4 ∧ s.unitOwner (leAt d 4 1) = c.cord then [leAt d 4 1] else [])
  else if j.kind = 4 then
    ((List.range 4).filter fun i => (leAt d 1 1).testBit i).map fun i => (if leAt d 0 1 = 1 then 4 else 8) + i
  else if j.kind = 5 then [12]
  else if j.kind = 3 && leAt d 0 1 == 3 then [19]
  else []

/-- Whether another resident job holds one of the units. -/
def State.unitsBusy (s : State) (sub : Nat) (us : List Nat) : Bool :=
  s.jobs.any fun q => q.sub != sub && q.resident && q.units.any us.contains

/-! ### The stripes of a job (R399) -/

/-- First rows of the h stretches of a job. -/
def Job.stretchCuts (j : Job) (h : Nat) : List Nat :=
  let link : Option ChainLink := if j.chained then j.chain else none
  (List.range h).map fun k =>
    if j.kind = 2 then
      let th := (j.rows + 31) / 32
      32 * ((k * th + h - 1) / h)
    else match link with
      | some l => if l.rasterRows = 0 then k * j.rows / h
        else l.rasterCuts.getD k l.rasterRows * j.rows / l.rasterRows
      | none => k * j.rows / h

/-- The row after the last one of stretch k. -/
def Job.cutEnd (j : Job) (k : Nat) : Nat := min (j.cuts.getD (k + 1) j.rows) j.rows

/-! ### Save records (R408, R412) -/

/-- Hearths of the best-effort jobs that run, whose records are not in use yet. -/
def State.beHearths (s : State) (n : Nat) : Nat :=
  ((s.jobs.filter fun j => j.cord == n && !j.inLc && decide (1 ≤ j.phase) && decide (j.phase ≤ 3)).map fun j =>
    j.hearths.length).sum

/-- The rule of R408 for a best-effort job that needs `h` Hearths. -/
def State.savable (s : State) (c : CordCfg) (h : Nat) : Bool :=
  decide ((s.cordRt c.cord).records.length + s.beHearths c.cord + h ≤ c.saveRecords)

/-! ### Pre-emption (R207, R407) -/

/-- Ask the cores of a Hearth to stop: at once, or, for a RASTER job, at a PPOINT. -/
def State.stopCores (s : State) (h : Nat) (force : Bool) : State :=
  ([0, 1] : List Nat).foldl (fun t c =>
    let k := t.core h c
    t.setCore h c (if k.ppointOnly && !force then { k with stopReq := true } else { k with stopped := true })) s

/-- Put a job behind every queued one. -/
def State.toBack (s : State) (sub : Nat) : State :=
  { s with jobs := (s.jobs.filter fun j => j.sub != sub) ++ s.jobs.filter fun j => j.sub == sub }

/-- A running job is asked to stop, for `why`. -/
def State.preempt (s : State) (sub why : Nat) : State :=
  match s.job? sub with
  | none => s
  | some j =>
    let s1 := s.modJob sub fun x => { x with phase := 3, stopWhy := why, preempts := j.preempts + 1 }
    let s2 := j.hearths.foldl (fun t h => t.stopCores h false) s1
    if why = 2 then s2.bump (cordAddr j.cord 0x3C) 1 else (s2.bump (cordAddr j.cord 0x38) 1).toBack sub

/-- Insert by a key. -/
def insertBy {α : Type} (key : α → Nat × Nat) (a : α) : List α → List α
  | [] => [a]
  | b :: rest =>
    if (key a).1 < (key b).1 ∨ ((key a).1 = (key b).1 ∧ (key a).2 < (key b).2) then a :: b :: rest
    else b :: insertBy key a rest

/-- Sort by a key; equal ones keep their order. -/
def sortBy {α : Type} (key : α → Nat × Nat) (l : List α) : List α := l.foldl (fun r a => insertBy key a r) []

/-- Whether a best-effort job has run for its whole slice. -/
def Job.sliceOver (j : Job) (now : Nat) : Bool := decide (j.sliceStart + j.sliceLeft ≤ now)

/-- Pre-empt best-effort jobs for job `j`, which lacks Hearths, earliest slice start first, until enough are free or
will be (R407). -/
def State.preemptFor (s : State) (c : CordCfg) (j : Job) : State :=
  let must := j.mustHave
  let enough (have' : List Nat) : Bool := must.all have'.contains && decide (j.count ≤ have'.length)
  let leaving := (s.jobs.filter fun q => q.cord == c.cord && !q.inLc && (q.phase == 3 || q.phase == 4)).flatMap
    Job.hearths
  let soon := s.freeFor c j ++ leaving ++ (s.members c.cord).filter fun h => (s.hearth h).zeroing
  let can (q : Job) : Bool := q.cord == c.cord && !q.inLc && q.phase == 2 && q.kind != 5 && q.hearths != [] &&
    (j.inLc || q.sliceOver s.time) && (must.isEmpty || decide (must.length < j.count) || q.hearths.any must.contains)
  let cands := sortBy (fun (q : Job) => (q.sliceStart, 0)) (s.jobs.filter can)
  (cands.foldl (fun (a : State × List Nat) q =>
    if enough a.2 then a else (a.1.preempt q.sub (if j.inLc then 1 else 3), a.2 ++ q.hearths)) (s, soon)).1

/-! ### A job starts (R201, R217, R225, R238, R406, R474) -/

/-- Whether some Kiln of a physical Hearth is not READY, or has not passed its start-up test (R212). -/
def State.vpathOf (s : State) (p : Nat) : Bool :=
  !(s.phy p).started || ([0, 1, 2, 3] : List Nat).any fun k => (s.phy p).kilns.look (fun _ => 0) k != 0

/-- The Kiln whose last test is oldest, lowest number first. [DEDUCED: assumption 188] -/
def Phys.oldestKiln (v : Phys) : Nat :=
  ([1, 2, 3] : List Nat).foldl (fun b k =>
    if v.kilnTests.look (fun _ => 0) k < v.kilnTests.look (fun _ => 0) b then k else b) 0

/-- The in-field test of R474 begins where no spare is available and the oldest Kiln test is over 100 ms old. -/
def State.inField (s : State) (h : Nat) : State :=
  let p := s.physOf h
  let v := s.phy p
  let k := v.oldestKiln
  let last := v.kilnTests.look (fun _ => 0) k
  if !s.spares.isEmpty || s.vpathOf p || (last != 0 && decide (s.time + 1 ≤ last + 100000000)) then s
  else
    let t := s.setPhy p { v with kilns := v.kilns.put (fun _ => 0) k 1, testing := 2
                                 testFrom := v.testFrom.put (fun _ => 0) k s.time, why := v.why.put (fun _ => 0) k 2 }
    if v.service = 0 then t.setHearthState p 1 else t

/-- A signature-table entry: pc and initial G (R202). -/
def State.sigEntry (s : State) (c : CordCfg) (m : ModelCfg) (e : Nat) : Nat :=
  s.cordLe c (s.storeAt c m + m.sigs.1 + 8 * e) 8

/-- The instruction memory that a model's program gives (R201). -/
def State.program (s : State) (c : CordCfg) (m : ModelCfg) : SMap Word :=
  let bs := s.blob c m m.kindling
  SMap.putList (fun _ => 0) [] 0 ((List.range (bs.length / 4)).map fun i => BitVec.ofNat 32 (leAt bs (4 * i) 4))

/-- Set a core for a job's stretch k (R201). [DESIGN CHOICE: assumption 83] -/
def State.startCore (s : State) (c : CordCfg) (j : Job) (k core : Nat) : State :=
  let h := j.hearths.getD k 0
  let v := s.core h core
  let entry := if core = 0 then j.entry0 else j.entry1
  let m := s.jobModel c j
  let sig := match m with
    | some x => if entry = 0xFFFF then 0 else s.sigEntry c x entry
    | none => 0
  let imem := match m with
    | some x => s.program c x
    | none => []
  s.setCore h core { v with
    state := if entry = 0xFFFF then 3 else 1
    pc := sig % 32768
    x := [], v := [], p := []
    g := BitVec.ofNat 12 (sig / 65536)
    d := 0, blkPending := false, stopReq := false, stopped := false
    cord := j.cord, session := j.session, arg0 := j.arg0, arg1 := j.arg1
    vpath := s.vpathOf (s.physOf h)
    ppointOnly := j.kind == 2
    rowFirst := j.cuts.getD k 0
    rowCount := j.cutEnd k - j.cuts.getD k 0
    texsel := 0, scratch := 0, imem := imem, imemUe := [], waitsOn := none, issued := [] }

/-- A cut is applied before the job's first instruction (R238, R257). -/
def State.applyCut (s : State) (c : CordCfg) (j : Job) : State :=
  if j.cut then
    let i := j.session
    let fl := s.sessLe c i 0x5C 2
    let s1 := ((s.putSessLe c i 0x48 4 0).putSessLe c i 0x4C 4 0).putSessLe c i 0x58 2 (s.sessLe c i 0x58 2 + 1)
    let s2 := s1.putSessLe c i 0x5C 2 (if fl.testBit 0 then fl else fl + 1)
    let s3 := ((s2.putSessLe c i (0x80 + 52) 1 0).putSessLe c i (0x80 + 53) 1 0).fillFlag c i 1 false
    (if j.keepPrefix then s3 else s3.putSessLe c i 0x46 2 0).clearTags i
  else s

/-- Every weight share is in place: history, tracks and cores are set, and the job runs. -/
def State.runJob (s : State) (c : CordCfg) (sub : Nat) : State :=
  match s.job? sub with
  | none => s
  | some j =>
    let ks := List.range j.hearths.length
    let bytes := s.sessLe c j.session 0x28 4
    let base := s.sessLe c j.session 0x20 8
    if s.cordUe c base (ks.length * bytes) then (s.noteCordUe c base (ks.length * bytes)).endJob sub stTorn
    else
      let s1 := s.applyCut c j
      let s2 := ks.foldl (fun t k => (t.areaLoad c j k).trackLoad c j k) s1
      let s3 := ks.foldl (fun t k => (t.startCore c j k 0).startCore c j k 1) s2
      let s4 := s3.modJob sub fun x => { x with phase := 2 }
      if j.kind = 2 then s4.passBegin c j else s4

/-- A job with Hearths takes them; those whose tag names another model load its image first. -/
def State.startHearths (s : State) (c : CordCfg) (j : Job) (hs : List Nat) : State :=
  let id := s.jobModelId c j
  let have' := hs.filter fun h => (s.hearth h).tag == some (c.cord, id)
  let s1 := s.modJob j.sub fun x => { x with phase := 1, hearths := hs, cuts := j.stretchCuts hs.length, loaded := have' }
  let s2 := hs.foldl (fun t h =>
    let v := t.hearth h
    ((t.setHearth h { v with job := some j.sub }).takeDivider h j.inLc).inField h) s1
  if have'.length = hs.length then s2.runJob c j.sub else s2

/-- A job of the engines starts; one in a chain keeps the chain's Hearths and their rows. -/
def State.startEngine (s : State) (j : Job) (hs : List Nat) : State :=
  let link : ChainLink := (if j.chained then j.chain else none).getD { status := 0 }
  let s1 := s.modJob j.sub fun x =>
    { x with phase := 2, hearths := hs, cuts := link.cuts, rows := if hs = [] then 0 else link.rows
             chain := x.chain }
  hs.foldl (fun t h =>
    let v := t.hearth h
    (t.setHearth h { v with job := some j.sub }).takeDivider h j.inLc) s1

/-- A job that has all it needs starts (R404 to R406, R416). -/
def State.startJob (s : State) (c : CordCfg) (j : Job) (hs : List Nat) : State :=
  let n := descBytes j.kind
  let desc := s.jobDesc c j
  let units := s.jobUnits c j
  let left := s.sliceNs
  let s1 := s.modJob j.sub fun x => { x with
    firstStart := some s.time, resumed := s.time, sliceStart := s.time, sliceLeft := left, desc := desc, units := units }
  let s2 := if j.lc && j.slot.isNone then s1.debitReserve c j.energyNj else s1
  let s3 := { s2 with drg := { s2.drg with granted := s2.drg.granted.filter fun x => x != j.sub } }
  let j1 := (s3.job? j.sub).getD j
  if desc ≠ [] ∧ s3.cordUe c j.argAddr n then
    ((s3.modJob j.sub fun x => { x with phase := 2 }).noteCordUe c j.argAddr n).endJob j.sub stTorn
  else if j.onHearths then s3.startHearths c j1 hs
  else s3.startEngine j1 hs

/-- A saved job takes its Hearths again (R411). -/
def State.beginRestore (s : State) (sub : Nat) : State :=
  match s.job? sub with
  | none => s
  | some j =>
    let units := match s.cordCfg j.cord with
      | some c => s.jobUnits c j
      | none => []
    let s1 := s.modJob sub fun x => { x with phase := 6, resumed := s.time, sliceStart := s.time, units := units }
    j.hearths.foldl (fun t h =>
      let v := t.hearth h
      (t.setHearth h { v with job := some sub }).takeDivider h j.inLc) s1

/-! ### Pre-emption points (R208, R409, R419) -/

/-- Whether a core has stopped. -/
def Core.still (k : Core) : Bool := k.state == 0 || k.state == 3 || k.stopped

/-- Whether a Hearth has stopped: its cores stand, and no started command is in progress (R208). -/
def State.hearthStill (s : State) (h : Nat) : Bool :=
  let v := s.hearth h
  (s.core h 0).still && (s.core h 1).still && v.win.streams.all (fun e => e.2.phase != 2) &&
  (match v.win.splice with
   | some sp => !sp.written
   | none => true)

/-- Whether a job stands at a pre-emption point of its kind (R409). -/
def State.atPoint (s : State) (j : Job) : Bool :=
  if j.onHearths then j.hearths.all s.hearthStill && (j.kind != 2 || j.pass.phase == 0 || j.pass.atBoundary)
  else if j.kind = 7 then j.done % 4 == 0
  else if j.kind = 8 then j.done % 1024 == 0
  else if j.kind = 3 then j.intake.out == [] && j.intake.samples.all (fun x => x.stage == 3)
  else j.kind == 4

/-- An aborted job ends when it has stopped (R419); one that waits on a ring has stopped. [DESIGN CHOICE: assumption
223] -/
def State.endAborted (s : State) (sub : Nat) : State :=
  match s.job? sub with
  | some j => if j.aborting && j.phase == 3 && (s.atPoint j || j.ringWait) then s.endJob sub stAborted else s
  | none => s

/-- Every aborted job that has stopped ends. -/
def State.endAllAborted (s : State) : State :=
  ((s.jobs.filter Job.aborting).map Job.sub).foldl State.endAborted s

/-! ### The scan (R404) -/

/-- An earlier job of the session has not started, or the job before a chained one has not ended. [DEDUCED: assumption
118] -/
def State.behind (s : State) (j : Job) : Bool :=
  ((s.jobs.takeWhile fun q => q.sub != j.sub).any fun q =>
    q.cord == j.cord && q.session == j.session && q.phase == 0) ||
  (j.chained && (s.job? j.prev).isSome)

/-- The job uses its session's history (R226): it runs on Hearths, whose programs may read it and append to it. -/
def State.usesHistory (s : State) (c : CordCfg) (j : Job) : Bool :=
  j.onHearths && s.sessLe c j.session 0x44 2 != 0

/-- A job of the same session that must end first (R226, R359). -/
def State.sessionBusy (s : State) (c : CordCfg) (j : Job) : Bool :=
  s.jobs.any fun q => q.sub != j.sub && q.cord == j.cord && q.session == j.session && q.phase != 0 &&
    ((s.usesHistory c j && s.usesHistory c q) || (j.kind == 3 && q.kind == 3))

/-- Whether a wait on a Hitch would end now. -/
def Hitch.passes (x : Hitch) (n : Nat) : Bool :=
  x.poison || (if x.barrier then decide (x.target ≤ x.count) else x.queue.isEmpty && decide (n ≤ x.count))

/-- Whether a saved core would run on: it has not halted, and a WAIT at its pc would pass. -/
def State.coreRunnable (s : State) (k : Core) : Bool :=
  let w := k.fetch
  k.state != 3 && (!(field w 26 6 == 0x3C && field w 0 3 == 1) ||
    (s.hitch (k.hitchOf (BitVec.ofNat 5 (field w 11 5)))).passes (k.hitchN (BitVec.ofNat 5 (field w 16 5))))

/-- Whether a saved Hearth has work: a core, a halo wait or a waiting SPLICE that would pass (R414). -/
def State.savedRuns (s : State) (v : Hearth) : Bool :=
  ([0, 1] : List Nat).any (fun c => s.coreRunnable (v.cores.look (fun _ => {}) c)) ||
  v.win.waiting.any (fun e => (s.hitch ((readBlock v.store (haloBlock e.1)).haloHitch + e.2)).passes 1) ||
  (match v.queues.look (fun _ => []) 4 with
   | e :: _ =>
     let x := readSplice (cmdMem e.cmd) 0
     (e.cmd.getD 0 0).toNat == 0x25 && (s.hitch (x.hitch + 2 + x.side)).passes 1
   | [] => false)

/-- A saved job is runnable; one that was swapped out only when a wait of it has passed. [DEDUCED: assumption 124] -/
def State.savedRunnable (s : State) (j : Job) : Bool :=
  j.phase == 5 && (j.stopWhy != 2 || j.records.any fun r =>
    s.savedRuns (s.saved.look (fun _ => {}) (j.cord * 65536 + r)))

/-- Whether the scan passes over a job for another reason than the hold. [DEDUCED: assumption 91] -/
def State.waits (s : State) (c : CordCfg) (j : Job) : Bool :=
  if j.phase = 5 then !s.savedRunnable j
  else
    (j.startEn && !j.waitOk) || s.behind j || s.sessionBusy c j ||
    (!j.ingest && (s.sessLe c j.session 0x5C 2).testBit 0 && s.sessLe c j.session 0x44 2 != 0)

/-- Whether the hold keeps a job from its dispatch (R242). -/
def State.held (s : State) (c : CordCfg) (j : Job) : Bool :=
  j.phase == 0 && !j.inLc && j.ingest && s.holdOn c.cord

/-- Whether the scan passes over a job and leaves it in place (R404). -/
def State.skips (s : State) (c : CordCfg) (j : Job) : Bool := s.waits c j || s.held c j

/-- The session's descriptor is in the session cache, or finds room there (R397). -/
def State.wantSession (s : State) (i : Nat) : State := if s.sessCache.contains i then s else s.cacheSession i

/-- One job of the scan; the answer says whether the scan goes on. [DEDUCED: assumption 117] -/
def State.scanOne (s : State) (c : CordCfg) (j : Job) : State × Bool :=
  if s.waits c j then (s, true)
  else if s.held c j then
    (if (s.pickHearths c j).any fun hs => s.savable c hs.length then s.noteHeld j else s, true)
  else if j.phase = 0 ∧ j.chained ∧ (j.chain.any fun l => !stGood l.status) then (s.endJob j.sub stPoisoned, true)
  else
    let fresh := j.phase == 0
    let s1 := if fresh && !j.inLc then s.askGrant j else s
    let s2 := s1.wantSession j.session
    match s2.pickHearths c j with
    | none => (s2.preemptFor c j, false)
    | some hs =>
      if !s2.sessCache.contains j.session || (fresh && !j.inLc && !s2.drg.granted.contains j.sub) ||
          s2.unitsBusy j.sub (s2.jobUnits c j) || (!j.inLc && !s2.savable c hs.length) then (s2, false)
      else if fresh then (s2.startJob c j hs, true)
      else (s2.beginRestore j.sub, true)

/-- The queued jobs of a class in the order of the scan. -/
def State.scanOrder (s : State) (n : Nat) (lc : Bool) : List Nat :=
  let q := s.jobs.filter fun j => j.cord == n && j.inLc == lc && j.queued
  (if lc then sortBy (fun (j : Job) => (j.deadline, j.sub)) q else q).map Job.sub

/-- A scan begins: what a hold has kept waiting is counted up to now. -/
def State.scanBegins (s : State) (n : Nat) : State :=
  let t := s.countHeld n
  t.setCordRt n { t.cordRt n with heldSince := none }

/-- Scan a queue, until a job stops the scan. -/
def State.scanQueue (s : State) (c : CordCfg) (lc : Bool) : State :=
  ((s.scanOrder c.cord lc).foldl (fun (a : State × Bool) sub =>
    if a.2 then
      match a.1.job? sub with
      | some j => if j.queued then a.1.scanOne c j else a
      | none => a
    else a) (s, true)).1

/-- JOB_DISPATCH (R404): the LC queue, then the BE queue; nothing starts during a brown-out hold or a
relock (R467, R486). -/
def execJobDispatch (n : Nat) (s : State) : Out :=
  withUnit (cordOk n)
    (match s.cordCfg n with
     | some c =>
       if s.pwr.holdSince.isSome || s.clk.relocking then s
       else ((s.endAllAborted.scanBegins n).scanQueue c true).scanQueue c false
     | none => s)

/-- WEIGHT_SHARE_LOADED (R217): the image lies in the share of Hearth `h`; with the last one the job runs. -/
def State.shareLoaded (s : State) (sub h : Nat) : State :=
  match s.job? sub with
  | none => s
  | some j =>
    if j.phase ≠ 1 ∨ !j.hearths.contains h ∨ j.loaded.contains h then s
    else
      match s.cordCfg j.cord with
      | none => s
      | some c =>
        match s.jobModel c j with
        | none => s
        | some m =>
          match s.imageUe c m with
          | some r => (s.noteCordUe c r.1 r.2).endJob sub stTorn
          | none =>
            let s1 := ((s.fillShare c m h).bump (cordAddr j.cord 0xC018) 1).modJob sub fun x =>
              { x with loaded := h :: x.loaded }
            if j.loaded.length + 1 = j.hearths.length then s1.runJob c sub else s1

/-- WEIGHT_SHARE_LOADED (R217). -/
def execWeightShareLoaded (sub h : Nat) (s : State) : Out := withUnit (hearthOk h) (s.shareLoaded sub h)

/-! ### Slices and budgets (R407, R416) -/

/-- The first job of the BE scan that is not passed over. -/
def State.beHead (s : State) (c : CordCfg) : Option Job :=
  ((s.scanOrder c.cord false).filterMap s.job?).find? fun j => !s.skips c j

/-- The dispatch unit starts and restores nothing: a brown-out hold or a relock (R467, R486). [DEDUCED: assumption 201]
-/
def State.noStarts (s : State) : Bool := s.pwr.holdSince.isSome || s.clk.relocking

/-- SLICE_END (R407): the slice of a running best-effort job is over. While nothing may start, nothing gives way.
[DEDUCED: assumption 120] -/
def State.sliceEnds (s : State) (sub : Nat) : State :=
  match s.job? sub with
  | none => s
  | some j =>
    if j.inLc || j.phase != 2 || !j.sliceOver s.time then s
    else
      match s.cordCfg j.cord with
      | none => s
      | some c =>
        match s.beHead c with
        | some q => if (s.pickHearths c q).isNone && !s.noStarts then s.preemptFor c q else s
        | none => s

/-- SLICE_END (R407). -/
def execSliceEnd (sub : Nat) (s : State) : Out := withUnit true (s.sliceEnds sub)

/-- A job whose budget timer has run for `budget_ns` goes on as best-effort (R416). -/
def State.budgetExpires (s : State) (sub : Nat) : State :=
  match s.job? sub with
  | some j =>
    if j.inLc && j.resident && decide (j.budgetNs ≤ j.budgetUsed s.time) then
      let left := s.sliceNs
      let t := s.modJob sub fun x => { x with demoted := true, sliceStart := s.time, sliceLeft := left }
      match s.cordCfg j.cord with
      | some c => t.checkHold c
      | none => t
    else s
  | none => s

/-- BUDGET_EXPIRY (R416). -/
def execBudgetExpiry (sub : Nat) (s : State) : Out := withUnit true (s.budgetExpires sub)

/-! ### Save (R207 to R209, R410 to R412) -/

/-- The free save records of a Cord, lowest first. -/
def State.freeRecords (s : State) (c : CordCfg) : List Nat :=
  let used := (s.cordRt c.cord).records.map Prod.fst
  (List.range c.saveRecords).filter fun r => !used.contains r

/-- The Hearth's waits are withdrawn, and a SPLICE that waits goes back to its queue: it executes again (R207). -/
def State.unwait (s : State) (h : Nat) : State :=
  let s1 := s.withdraw h
  let v := s1.hearth h
  let wake (k : Core) : Core := if k.state = 2 then { k with state := 1 } else k
  let cores := ([0, 1] : List Nat).foldl (fun (m : SMap Core) c => m.modify (fun _ => {}) c wake) v.cores
  s1.setHearth h { v with cores := cores, win := { v.win with splice := none } }

/-- JOB_SAVE (R410, R411): a stopped job's save begins. `x` is the time from the request, at the end of a slice, to the
stop, and `bound` what R409 gives for what was running. [DEDUCED: assumption 121] -/
def State.saveJob (s : State) (sub x bound : Nat) : State :=
  match s.job? sub with
  | none => s
  | some j =>
    match s.cordCfg j.cord with
    | none => s
    | some c =>
      let free := s.freeRecords c
      if j.aborting then s.endAborted sub
      else if j.phase ≠ 3 ∨ !s.atPoint j ∨ free.length < j.hearths.length then s
      else
        let recs := free.take j.hearths.length
        let full := s.sliceNs
        let left := if j.stopWhy = 3 then full - x else full
        let s1 := j.hearths.foldl (fun t h => t.unwait h) (s.dropWaits c.ownerHost sub)
        let r := s1.cordRt j.cord
        let s2 := (s1.setCordRt j.cord { r with records := r.records ++ recs.map fun k => (k, sub) }).modJob sub
          fun y => { y with phase := 4, records := recs, sliceLeft := left }
        if j.stopWhy = 3 ∧ bound < x then
          ((s2.bump (cordAddr j.cord 0x40) 1).logFault (originStop 18) 0x30 j.cord bound sub).eventCordBlock j.cord
            0x0E02 sub
        else s2

/-- JOB_SAVE (R410, R411). -/
def execJobSave (sub overrunNs boundNs : Nat) (s : State) : Out := withUnit true (s.saveJob sub overrunNs boundNs)

/-- The address of a save record. -/
def CordCfg.recordAt (c : CordCfg) (r : Nat) : Nat := c.regionBase 2 + r * 4784128

/-- A core's record (R209); `CYCLE` is a free value. -/
def coreRecord (k : Core) (cycle : Nat) : List Byte :=
  natLe (k.pc % 32768 + (if k.state = 3 then 65536 else 0) + (if k.blkPending then 131072 else 0)) 4 ++
  natLe (k.g.toNat + k.d.toNat * 65536) 4 ++ natLe k.texsel.toNat 4 ++ natLe 0 4 ++ natLe k.scratch.toNat 8 ++
  natLe cycle 8 ++ natLe 0 32 ++
  ((List.range 8).flatMap fun i => natLe (k.readP (BitVec.ofNat 3 i)).toNat 4) ++ natLe 0 160 ++
  ((List.range 32).flatMap fun i => natLe (k.readX (BitVec.ofNat 5 i)).toNat 8) ++ natLe 0 1536 ++
  ((List.range 32).flatMap fun i => natLe (k.readV (BitVec.ofNat 5 i)).toNat 64)

/-- The accumulator memory of a Kiln as 64 KiB. -/
def accBytes (k : Kiln) : List Byte :=
  (List.range 16384).flatMap fun i => natLe (k.acc.look (fun _ => {}) i).val.toNat 4

/-- Write the save record of one Hearth (R412). What the manual gives no layout is free: the line buffers, the header,
and the state of the queues and engines, which `saved` keeps. [DESIGN CHOICE: assumption 122] -/
def State.writeRecord (s : State) (c : CordCfg) (h r : Nat) : State :=
  let v := s.hearth h
  let a := c.recordAt r
  let w := c.weightShare
  let s1 := s.putCordBytes c (a + w) (v.store.lookList zeroByte w (4194304 - w))
  let s2 := s1.putFree c (a + 0x400000) 0x40000
  let s3 := ([0, 1, 2, 3] : List Nat).foldl (fun t k =>
    t.putCordBytes c (a + 0x440000 + k * 65536) (accBytes (s.kiln h k))) s2
  let s4 := s3.putFree c (a + 0x480000) 0x1000
  let s5 := ([0, 1] : List Nat).foldl (fun (t : State) k =>
    let (x, u) := t.draw
    u.putCordBytes c (a + 0x481000 + k * 4096) (coreRecord (s.core h k) x.toNat)) s4
  let s6 := s5.putFree c (a + 0x483000) (0x490000 - 0x483000)
  { s6 with saved := s6.saved.put (fun _ => {}) (c.cord * 65536 + r) v }

/-- A Hearth after its job has been saved: no job holds it. [DESIGN CHOICE: assumption 85] -/
def State.releaseHearth (s : State) (h : Nat) : State :=
  let v := s.hearth h
  let rest (k : Core) : Core :=
    { k with state := if k.state = 0 then 0 else 3, stopReq := false, stopped := false, issued := [] }
  let cores := ([0, 1] : List Nat).foldl (fun (m : SMap Core) c => m.modify (fun _ => {}) c rest) v.cores
  let kilns := ([0, 1, 2, 3] : List Nat).foldl
    (fun (m : SMap Kiln) k => m.modify (fun _ => {}) k fun x => { x with held := [] }) v.kilns
  let s1 := s.setHearth h { v with
    cores := cores, kilns := kilns, queues := [], job := none
    win := { v.win with streams := [], splice := none, present := [], waiting := [], lines := [] }
    hist := { v.hist with p := 0, q := 0, record := [] } }
  let p := s1.physOf h
  s1.setPhy p { s1.phy p with idleSince := s1.time }

/-- The saved job that a swap restores: runnable, with all its Hearths free, in the order of the scan (R414). -/
def State.swapIn (s : State) (c : CordCfg) : Option Nat :=
  (s.scanOrder c.cord true ++ s.scanOrder c.cord false).find? fun sub =>
    match s.job? sub with
    | some j => s.savedRunnable j && j.hearths != [] && (s.pickHearths c j).isSome &&
        !s.unitsBusy sub (s.jobUnits c j) && (j.inLc || s.savable c j.hearths.length)
    | none => false

/-- SAVE_END (R411, R412): the records are written and the Hearths freed; after a swap the runnable job is restored. -/
def State.saveEnds (s : State) (sub : Nat) : State :=
  match s.job? sub with
  | none => s
  | some j =>
    match s.cordCfg j.cord with
    | none => s
    | some c =>
      if j.phase ≠ 4 then s
      else
        match j.hearths.find? fun h => (s.hearth h).meetsUe c.weightShare (4194304 - c.weightShare) with
        | some h => (s.noteSramUe h ((s.hearth h).ueAt c.weightShare (4194304 - c.weightShare))).endJob sub stTorn
        | none =>
          let ks := List.range j.hearths.length
          let s1 := ks.foldl (fun t k => t.writeRecord c (j.hearths.getD k 0) (j.records.getD k 0)) s
          let s2 := j.hearths.foldl (fun t h => t.releaseHearth h) s1
          let s3 := s2.modJob sub fun x => { x with
            phase := 5, residentNs := x.residentNs + (s.time - x.resumed), units := [], blockedSince := none }
          if j.stopWhy = 2 then
            let s4 := s3.setCordRt j.cord { s3.cordRt j.cord with swapPending := false }
            match s4.swapIn c with
            | some q => if s4.pwr.holdSince.isSome then s4 else s4.beginRestore q
            | none => s4
          else s3

/-- SAVE_END (R411, R412). -/
def execSaveEnd (sub : Nat) (s : State) : Out := withUnit true (s.saveEnds sub)

/-! ### Restore (R210, R411, R412) -/

/-- A core from its record; its faults and causes stay as they are. -/
def readCoreRecord (k : Core) (bs : List Byte) : Core :=
  let w := leAt bs 0 4
  let gd := leAt bs 4 4
  let x : SMap DWord := (List.range 31).foldl (fun (m : SMap DWord) i =>
    m.put (fun _ => 0) (i + 1) (BitVec.ofNat 64 (leAt bs (0x108 + 8 * i) 8))) []
  let p : SMap Word := (List.range 7).foldl (fun (m : SMap Word) i =>
    m.put (fun _ => 0) (i + 1) (BitVec.ofNat 32 (leAt bs (0x44 + 4 * i) 4))) []
  let v : SMap VWord := (List.range 32).foldl (fun (m : SMap VWord) i =>
    m.put (fun _ => 0) i (BitVec.ofNat 512 (leAt bs (0x800 + 64 * i) 64))) []
  { k with
    state := if w / 65536 % 2 = 1 then 3 else 1
    pc := w % 32768
    blkPending := w / 131072 % 2 == 1
    g := BitVec.ofNat 12 gd
    d := BitVec.ofNat 12 (gd / 65536)
    texsel := BitVec.ofNat 32 (leAt bs 8 1)
    scratch := BitVec.ofNat 64 (leAt bs 16 8)
    x := x, p := p, v := v, stopReq := false, stopped := false, waitsOn := none }

/-- The accumulators of 64 KiB; clamp bits and residue lanes come from the kept state. -/
def readAcc (m : SMap Acc) (bs : List Byte) : SMap Acc :=
  (List.range 16384).foldl (fun (r : SMap Acc) i =>
    r.modify (fun _ => {}) i fun a => { a with val := BitVec.ofNat 32 (leAt bs (4 * i) 4) }) m

/-- Read one save record back into its Hearth. -/
def State.readRecord (s : State) (c : CordCfg) (j : Job) (k : Nat) : State :=
  let h := j.hearths.getD k 0
  let r := j.records.getD k 0
  let a := c.recordAt r
  let w := c.weightShare
  let old := s.saved.look (fun _ => {}) (c.cord * 65536 + r)
  let m := s.jobModel c j
  let s1 := match m with
    | some x => if (s.hearth h).tag = some (c.cord, x.modelId) then s else s.fillShare c x h
    | none => s
  let v := s1.hearth h
  let imem := match m with
    | some x => s1.program c x
    | none => []
  let core (i : Nat) : Core :=
    let now := s1.core h i
    let was := old.cores.look (fun _ => {}) i
    { readCoreRecord was (s1.cordBytes c (a + 0x481000 + i * 4096) 4096) with
      faulted := now.faulted, cause := now.cause, trapCode := now.trapCode, faultPc := now.faultPc
      imem := imem, imemUe := [], vpath := s1.vpathOf (s1.physOf h) }
  let kiln (i : Nat) : Kiln :=
    let now := s1.kiln h i
    let was := old.kilns.look (fun _ => {}) i
    { was with acc := readAcc was.acc (s1.cordBytes c (a + 0x440000 + i * 65536) 65536)
               faulted := now.faulted, cause := now.cause }
  let v1 := v.write w (s1.cordBytes c (a + w) (4194304 - w))
  let kilns := ([0, 1, 2, 3] : List Nat).foldl (fun (x : SMap Kiln) i => x.put (fun _ => {}) i (kiln i)) v.kilns
  let cores := ([0, 1] : List Nat).foldl (fun (x : SMap Core) i => x.put (fun _ => {}) i (core i)) v.cores
  let s2 := s1.setHearth h { v1 with
    job := some j.sub, kilns := kilns, cores := cores, queues := old.queues
    win := { old.win with waiting := [], cause := v.win.cause }, hist := old.hist }
  old.win.waiting.foldl (fun t e => t.haloWait h e.1 e.2) s2

/-- RESTORE (R210): the records are read back, and the job goes on. [DESIGN CHOICE: assumption 123] -/
def State.restoreJob (s : State) (sub : Nat) : State :=
  match s.job? sub with
  | none => s
  | some j =>
    match s.cordCfg j.cord with
    | none => s
    | some c =>
      if j.phase ≠ 6 then s
      else
        match j.records.find? fun r => s.cordUe c (c.recordAt r + c.weightShare) (4784128 - c.weightShare) with
        | some r => (s.noteCordUe c (c.recordAt r + c.weightShare) (4784128 - c.weightShare)).endJob sub stTorn
        | none =>
          let s0 := s.modJob sub fun x => { x with phase := 2, records := [], stopWhy := 0 }
          let s1 := (List.range j.hearths.length).foldl (fun t k => t.readRecord c j k) s0
          let r := s1.cordRt j.cord
          let s2 := s1.setCordRt j.cord { r with records := r.records.filter fun e => e.2 != sub }
          { s2 with saved := j.records.foldl (fun (m : SMap Hearth) k => m.drop (j.cord * 65536 + k)) s2.saved }

/-- RESTORE (R210). -/
def execRestore (sub : Nat) (s : State) : Out := withUnit true (s.restoreJob sub)

/-! ### Jobs blocked on Hitches (R414) -/

/-- Whether a Hearth is blocked: each core has halted or waits, and no command is in progress or can begin. -/
def State.hearthBlocked (s : State) (h : Nat) : Bool :=
  let v := s.hearth h
  let waits (k : Core) : Bool := k.state == 0 || k.state == 3 || k.waitsOn.isSome
  let q (t : Nat) : List QEntry := v.queues.look (fun _ => []) t
  let macs (t : Nat) : Bool := (q t).isEmpty || ((q t).head?.any fun e => (e.cmd.getD 0 0).toNat == 1)
  waits (s.core h 0) && waits (s.core h 1) && v.win.streams.all (fun e => e.2.phase != 2) &&
  (match v.win.splice with
   | some sp => !sp.written
   | none => true) &&
  ([0, 1, 2, 3] : List Nat).all macs && ((q 4).isEmpty || v.win.splice.isSome || !v.win.waiting.isEmpty) &&
  (q 6).isEmpty && (q 7).isEmpty && ((q 5).isEmpty || ([0, 1, 2, 3] : List Nat).any fun t => !(q t).isEmpty)

/-- Whether a resident job is blocked. -/
def State.jobBlocked (s : State) (j : Job) : Bool := j.phase == 2 && j.onHearths && j.hearths.all s.hearthBlocked

/-- What a save of job `j` would lack in records. -/
def State.shortfall (s : State) (c : CordCfg) (j : Job) : Nat :=
  (s.cordRt c.cord).records.length + j.hearths.length + s.beHearths c.cord -
    (if j.inLc then 0 else j.hearths.length) - c.saveRecords

/-- SWAP (R414). [DEDUCED: assumption 126] -/
def State.swapOut (s : State) (n : Nat) : State :=
  match s.cordCfg n with
  | none => s
  | some c =>
    let here := s.jobs.filter fun j => j.cord == n && j.resident
    let lacking := s.jobs.any fun j => j.cord == n && s.savedRunnable j && (s.pickHearths c j).isNone
    let longEnough (j : Job) : Bool := s.jobBlocked j && j.blockedSince.any fun t => decide (t + 50000 ≤ s.time)
    if here = [] ∨ !lacking ∨ !here.all longEnough ∨ s.noStarts then s
    else
      let order := sortBy (fun (j : Job) => (if j.inLc then 1 else 0, j.blockedSince.getD s.time)) here
      match order.find? fun j => s.shortfall c j == 0 with
      | some j =>
        let s1 := s.preempt j.sub 2
        s1.setCordRt n { s1.cordRt n with swapPending := true, shortSent := false }
      | none =>
        let r := s.cordRt n
        if r.shortSent then s
        else
          let least := ((here.map (s.shortfall c)).min?).getD 0
          (s.setCordRt n { r with shortSent := true }).eventCordBlock n 0x0E04 least

/-- SWAP (R414). -/
def execSwap (n : Nat) (s : State) : Out := withUnit (cordOk n) (s.swapOut n)

/-- Note since when each resident job is blocked. [DESIGN CHOICE: assumption 125] -/
def State.noteBlocked (s : State) : State :=
  { s with jobs := s.jobs.map fun j =>
      { j with blockedSince := if s.jobBlocked j then some (j.blockedSince.getD s.time) else none } }

/-! ### How a job ends (R203, R234, R415 to R419) -/

/-- Whether a Hearth has reached its retirement point: both cores have halted, and their commands are complete. -/
def State.hearthDone (s : State) (h : Nat) : Bool :=
  let k0 := s.core h 0
  let k1 := s.core h 1
  k0.state == 3 && k1.state == 3 && k0.issued.isEmpty && k1.issued.isEmpty

/-- Whether a job with Hearths has reached its retirement point. [DEDUCED: assumption 128] -/
def State.atRetirement (s : State) (j : Job) : Bool :=
  j.onHearths && (j.phase == 2 || j.phase == 3) && j.hearths.all s.hearthDone

/-- A job ends at its retirement point with `status`, unless its stretches made different appends (R234). -/
def State.retireWith (s : State) (j : Job) (status : Nat) : State :=
  if status == stAborted || s.appendsMatch j then s.endJob j.sub status else (s.histCause j.cord 2).endJob j.sub stTorn

/-- JOB_RETIRE (R415). -/
def execJobRetire (sub : Nat) (s : State) : Out :=
  withUnit true
    (match s.job? sub with
     | some j => if s.atRetirement j then s.retireWith j (j.doneStatus s.time) else s
     | none => s)

/-- `DISP_ABORT_RESULT`. -/
def State.abortResult (s : State) (n r : Nat) : State := s.setCordRt n { s.cordRt n with abortResult := r }

/-- A job that is aborted while it runs stops as for a pre-emption, and ends when it stands at a pre-emption point
(R409, R419). -/
def State.abortRunning (s : State) (sub : Nat) : State :=
  match s.job? sub with
  | none => s
  | some j =>
    if j.phase = 2 ∨ j.phase = 3 then
      (j.hearths.foldl (fun t h => t.stopCores h false)
        (s.modJob sub fun x => { x with phase := 3, aborting := true })).endAborted sub
    else s.endJob sub stAborted

/-- The abort of one job: a queued one ends at once, one at its retirement point has completed, and every other stops
first (R418, R419). -/
def State.abortOne (s : State) (j : Job) : State :=
  if j.phase = 0 then s.endJob j.sub stAborted
  else if s.atRetirement j && !j.aborting then s.retireWith j stBeforeAbort
  else s.abortRunning j.sub

/-- DISP_ABORT (R418, R419). -/
def State.abortJob (s : State) (n sub : Nat) : State :=
  match s.job? sub with
  | some j =>
    if j.cord ≠ n then s.abortResult n 3
    else (s.abortResult n (if j.phase = 0 then 0 else 1)).abortOne j
  | none => if s.ended.contains (sub, n) then s.abortResult n 2 else s.abortResult n 3

/-- The tests that may start once a Hearth holds nothing to zero (R474, R481): a quarantined Kiln's, and the structural
test of a SUSPECT Hearth. -/
def State.startRecovery (s : State) (h : Nat) : State :=
  let p := s.physOf h
  let v := s.phy p
  let w := s.hearth h
  if w.zeroing || w.job.isSome then s
  else
    let bad := ([0, 1, 2, 3] : List Nat).any fun k => v.kilns.look (fun _ => 0) k == 2
    let kilns := ([0, 1, 2, 3] : List Nat).foldl (fun (m : SMap Nat) k =>
      m.modify (fun _ => 0) k fun x => if x = 2 then 1 else x) v.kilns
    let from' := ([0, 1, 2, 3] : List Nat).foldl (fun (m : SMap Nat) k =>
      if v.kilns.look (fun _ => 0) k = 2 then m.put (fun _ => 0) k s.time else m) v.testFrom
    let why := ([0, 1, 2, 3] : List Nat).foldl (fun (m : SMap Nat) k =>
      if v.kilns.look (fun _ => 0) k = 2 then m.put (fun _ => 0) k 3 else m) v.why
    if v.service = 1 ∧ bad then s.setPhy p { v with kilns := kilns, testing := 3, testFrom := from', why := why }
    else if v.service = 2 ∧ !s.underTest p then { s with flt := { s.flt with alone := s.flt.alone ++ [(p, 4, s.time)] } }
    else s

/-- TEARDOWN_ZERO_DONE (R417 step 4). -/
def State.zeroDone (s : State) (h : Nat) : State :=
  let v := s.hearth h
  if !v.zeroing then s
  else
    let w := match (s.cordOfHearth h).bind s.cordCfg with
      | some c => c.weightShare
      | none => 0
    let kilns := ([0, 1, 2, 3] : List Nat).foldl
      (fun (m : SMap Kiln) k => m.modify (fun _ => {}) k fun x => { x with acc := [] }) v.kilns
    (s.setHearth h { v with
      store := v.store.wipe w (4194304 - w), storeUe := v.storeUe.filter fun i => decide (8 * i + 8 ≤ w)
      kilns := kilns, zeroing := false }).startRecovery h

/-- TEARDOWN_ZERO_DONE (R417). -/
def execTeardownZeroDone (h : Nat) (s : State) : Out := withUnit (hearthOk h) (s.zeroDone h)

/-! ### Register writes (R395, R396, R401, R418, R420) -/

/-- A write to a Cord's register with an effect on the Cord. -/
def State.cordWrite (s : State) (d n off : Nat) (w : Word) (body : State → CordCfg → State) : State :=
  s.hostWrite d (cordAddr n off) w fun s =>
    match s.cordCfg n with
    | some c => body s c
    | none => s

/-- SESSION_OPEN (R395). -/
def execSessionOpen (d n : Nat) (w : Word) (s : State) : Out :=
  withUnit (hostOk d && cordOk n) (s.cordWrite d n 0x04 w fun s c => s.openSession c (w.toNat % 2 ^ 20))

/-- SESSION_CLOSE (R396). -/
def execSessionClose (d n : Nat) (w : Word) (s : State) : Out :=
  withUnit (hostOk d && cordOk n) (s.cordWrite d n 0x08 w fun s c => s.closeSession c (w.toNat % 2 ^ 20))

/-- The 64 bytes of a submission window. -/
def windowBytes (m : SMap Word) : List Byte :=
  (List.range 16).flatMap fun i => natLe (m.look (fun _ => 0) i).toNat 4

/-- Stage word `i` of a window; the last one submits the descriptor (R401). -/
def State.stageWord (s : State) (c : CordCfg) (lc : Bool) (i : Nat) (w : Word) : State :=
  let r := s.cordRt c.cord
  let m := (if lc then r.stagedLc else r.stagedBe).put (fun _ => 0) i w
  let s1 := s.setCordRt c.cord (if lc then { r with stagedLc := m } else { r with stagedBe := m })
  if i = 15 then (s1.submit c lc (windowBytes m)).1 else s1

/-- SUBMIT_LC (R401). -/
def execSubmitLc (d n : Nat) (w : Word) (s : State) : Out :=
  withUnit (hostOk d && cordOk n) (s.cordWrite d n 0x13C w fun s c => s.stageWord c true 15 w)

/-- SUBMIT_BE (R401). -/
def execSubmitBe (d n : Nat) (w : Word) (s : State) : Out :=
  withUnit (hostOk d && cordOk n) (s.cordWrite d n 0x17C w fun s c => s.stageWord c false 15 w)

/-- DISP_ABORT (R418). -/
def execDispAbort (d n : Nat) (w : Word) (s : State) : Out :=
  withUnit (hostOk d && cordOk n) (s.cordWrite d n 0x10 w fun s _ => s.abortJob n w.toNat)

/-- Whether a number is 2^k for some k in lo to hi. -/
def powerIn (x lo hi : Nat) : Bool := (List.range (hi + 1 - lo)).any fun k => x == 2 ^ (lo + k)

/-- DISP_CQ_SIZE (R420). -/
def State.cqSize (s : State) (n : Nat) (w : Word) : State :=
  let x := w.toNat % 2 ^ 20
  let s1 := s.setReg (cordAddr n 0x1C) (BitVec.ofNat 32 (if powerIn x 6 19 then x else 0))
  (s1.setReg (cordAddr n 0x24) 0).setCordRt n { s1.cordRt n with cqWr := 0 }

/-- DISP_CQ_SIZE (R420). -/
def execDispCqSize (d n : Nat) (w : Word) (s : State) : Out :=
  withUnit (hostOk d && cordOk n) (s.cordWrite d n 0x1C w fun s _ => s.cqSize n w)

end Sys2Proof.Machine
end

