-- ==== Sys2Proof/Machine/Trust.lean ====
section
/-! DEFINITION. Boot, the owner record, attestation and recovery (chapter 18), and the selection of log entries. -/

namespace Sys2Proof.Machine

/-! ### Signed ranges (R50, R51, R493) -/

/-- The length of a trailer (R50). -/
def trailerLen : Nat := 2784

/-- The form of a trailer (R50) with the magic of its kind. -/
def trailerOk (magic : Nat) (t : List Byte) : Bool :=
  t.length == trailerLen && leAt t 0 4 == magic && leAt t 4 4 == trailerLen && leAt t 104 4 == 2668 &&
    zeroAt t 2776 8

/-- The two public keys of a signer: ECDSA P-384 (97 bytes) and LMS (56 bytes). -/
abbrev Keys := List Byte × List Byte

/-- Whether the ECDSA signature of a trailer verifies over the signed range (R51). -/
def ecdsaOk (k : Keys) (range t : List Byte) : Bool :=
  Config.ecdsaVerify k.1 range ((t.drop 8).take 48) ((t.drop 56).take 48)

/-- Whether the LMS signature of a trailer verifies over the 48-byte hash of the signed range (R51). -/
def lmsOk (k : Keys) (range t : List Byte) : Bool :=
  Config.lmsVerify k.2 (hashBytes (Config.sha384 range)) ((t.drop 108).take 2668)

/-! ### Firmware images (R493) -/

/-- The magics "RNKI", "FSIG", "OWNR" and "OSIG" as little-endian numbers. -/
def magicRnki : Nat := 0x494B4E52
def magicFsig : Nat := 0x47495346
def magicOwnr : Nat := 0x524E574F
def magicOsig : Nat := 0x4749534F

/-- The form of a firmware header. [DESIGN CHOICE: assumption 27] -/
def fwHeaderOk (h : List Byte) : Bool :=
  h.length == 256 && leAt h 0 4 == magicRnki && leAt h 4 2 == 1 && zeroAt h 6 2 && leAt h 8 4 % 4 == 0 &&
    decide (leAt h 8 4 ≤ 33554432) && decide (256 + trailerLen ≤ leAt h 8 4) &&
    leAt h 12 4 + trailerLen == leAt h 8 4 && zeroAt h 28 4 && zeroAt h 129 3 && zeroAt h 188 68

/-- The vendor keys that a header carries. -/
def headerKeys (h : List Byte) : Keys := ((h.drop 32).take 97, (h.drop 132).take 56)

/-- Each vendor key hashes to its ROM value (R497 step 4). -/
def keysOk (k : Keys) : Bool := Config.sha384 k.1 == Config.romEcdsaHash && Config.sha384 k.2 == Config.romLmsHash

/-- The vendor keys of a header of the correct form whose keys the ROM knows. -/
def vendorOf (h : List Byte) : Option Keys :=
  if fwHeaderOk h && keysOk (headerKeys h) then some (headerKeys h) else none

/-- The signed range and the trailer of a firmware image. -/
def fwRange (img : List Byte) : List Byte := img.take (leAt img 12 4)
def fwTrailer (img : List Byte) : List Byte := (img.drop (leAt img 12 4)).take trailerLen

/-- Steps 4 and 6 of R497 on an image, as a result code of R506; 1 is OK. -/
def fwResult (minFw : Nat) (img : List Byte) : Nat :=
  let h := img.take 256
  if !fwHeaderOk h || img.length != leAt img 8 4 then 2
  else if !keysOk (headerKeys h) then 4
  else if !trailerOk magicFsig (fwTrailer img) then 2
  else if !(ecdsaOk (headerKeys h) (fwRange img) (fwTrailer img) && lmsOk (headerKeys h) (fwRange img) (fwTrailer img))
    then 3
  else if leAt img 16 4 < minFw then 7
  else 1

/-! ### Owner records (R494 to R496) -/

/-- The form of the first 3,040 bytes of an owner record. -/
def ownerFormOk (r : List Byte) : Bool :=
  decide (3040 ≤ r.length) && leAt r 0 4 == magicOwnr && leAt r 4 2 == 1 && zeroAt r 6 2 && decide (leAt r 12 1 < 4) &&
    decide (leAt r 13 1 < 2) && zeroAt r 14 2 && zeroAt r 20 12 && zeroAt r 129 3 && zeroAt r 208 48 &&
    trailerOk magicOsig ((r.drop 256).take trailerLen)

/-- Its `serial` and `part_code` match (R494). -/
def ownerForModule (serial r : List Byte) : Bool :=
  leAt r 188 4 == 0x09600040 && (r.drop 192).take 16 == serial

/-- Both signatures of a record verify under the keys of a signer. -/
def ownerSigned (k : Keys) (r : List Byte) : Bool :=
  ecdsaOk k (r.take 256) ((r.drop 256).take trailerLen) && lmsOk k (r.take 256) ((r.drop 256).take trailerLen)

/-- The record as the machine keeps it. -/
def readOwner (r : List Byte) (copyB : Bool) : OwnerRec :=
  { seq := leAt r 8 4, host := leAt r 12 1, minFw := leAt r 16 4, ecdsaKey := (r.drop 32).take 97
    lmsKey := (r.drop 132).take 56, hash := Config.sha384 (r.take 256), isDefault := false, copyB := copyB }

/-- Whether a copy of the flash is valid (R496): by its seal, or by the vendor's signatures. -/
def ownerCopyOk (sealKey : Option (BitVec 384)) (vendor : Option Keys) (serial r : List Byte) : Bool :=
  ownerFormOk r && ownerForModule serial r &&
  ((match sealKey with
    | some k => Config.hmacSha384 k (r.take 3040) == BitVec.ofNat 384 (leNat ((r.drop 3040).take 48).reverse)
    | none => false) ||
   (leAt r 13 1 == 0 && (match vendor with
    | some k => ownerSigned k r
    | none => false)))

/-- The current record among the copies (R496): the higher `record_sequence`, copy A on a tie, else the default. -/
def currentOwner (ok : List Byte → Bool) (a b : List Byte) : OwnerRec :=
  let ra := readOwner a false
  let rb := readOwner b true
  match ok a, ok b with
  | true, true => if ra.seq < rb.seq then rb else ra
  | true, false => ra
  | false, true => rb
  | false, false => {}

/-! ### Boot (R497, R499) -/

def State.flashBytes (s : State) (a n : Nat) : List Byte := s.flash.lookList erasedByte a n

/-- Offsets of the flash (R492). -/
def ownerCopyAt (copyB : Bool) : Nat := if copyB then 0x2010000 else 0x2000000
def certAt : Nat := 0x2020000
def helperAt : Nat := 0x2030000

/-- Boot steps 1 to 5 (R497): the identity, the owner record and the image header; recovery where one of them or the
strap asks for it. [DEDUCED: assumption 25] -/
def State.boot (s : State) : State :=
  let helper := s.flashBytes helperAt 65536
  let key := Config.pufIdentity helper
  let ok : Bool := match key with
    | some k => Config.ecdsaPublic k == s.flashBytes (certAt + 32) 97
    | none => false
  let sealKey := if ok then Config.pufSeal helper else none
  let serial := s.flashBytes (certAt + 8) 16
  let header := s.flashBytes 0 256
  let vendor := vendorOf header
  let rec' := currentOwner (ownerCopyOk sealKey vendor serial) (s.flashBytes 0x2000000 3088) (s.flashBytes 0x2010000 3088)
  { s with trust := { s.trust with
      boot := if s.pwr.recoveryStrap && vendor.isSome then 0 else 1
      idKey := if ok then key else none
      sealKey := sealKey
      identityOk := ok
      serial := serial
      owner := rec' } }

/-- The DRAM address of byte i of the firmware area (R41). -/
def fwAddr (i : Nat) : Nat := i / 4096 % 32 * chBytes + 16777216 + i / 4096 / 32 * 4096 + i % 4096

/-- Hearth stores 0 to 7 hold 0 in every byte. -/
def State.zeroStores (s : State) : State :=
  ([0, 1, 2, 3, 4, 5, 6, 7] : List Nat).foldl (fun t h =>
    let v := t.hearth h
    t.setHearth h { v with store := [], storeUe := [] }) s

/-- Step 7 of R497 with an image: it goes to the firmware area, Hearth stores 0 to 7 are zeroed, FW_START is logged, and
Ranik runs. [DEDUCED: assumption 37] -/
def State.startRanik (s : State) (img : List Byte) (recovered : Bool) : State :=
  let d := (List.range img.length).foldl (fun (m : SMap Byte) i => m.put zeroByte (fwAddr i) (img.getD i 0)) s.dram
  let hash := Config.sha384 (fwRange img)
  let ver := leAt img 16 4
  let s1 := ({ s with dram := d } : State).zeroStores
  let s2 := s1.logChange (originStop 20) 0x10A ver 0 (wordAt (hashBytes hash) 0)
  { s2 with trust := { s2.trust with boot := 2, recovered := recovered, fwVersion := ver, fwHash := hash
                                     recOpen := false, recVerified := false, recBusy := false, recProgramming := false } }

/-- FW_START (R497 steps 6 and 7): the image of the flash, or recovery. -/
def State.fwStart (s : State) : State :=
  if s.trust.boot ≠ 0 then s
  else
    let img := s.flashBytes 0 (leAt (s.flashBytes 0 256) 8 4)
    if fwResult s.trust.owner.minFw img = 1 then s.startRanik img false
    else { s with trust := { s.trust with boot := 1 } }

def execFwStart (s : State) : Out := withUnit true (if s.live then s.fwStart else s)

/-! ### Ownership transfer (R501, R502) -/

/-- A write of a host to the trust block with the effect `body` on the machine. -/
def State.trustWrite (s : State) (d off : Nat) (w : Word) (body : State → State) : State :=
  s.hostWrite d (0x290000 + off) w body

def State.modTrust (s : State) (f : Trust → Trust) : State := { s with trust := f s.trust }

/-- The Lay loader is in STOPPING or APPLYING. -/
def State.loaderBusy (s : State) : Bool := s.loader.state == 4 || s.loader.state == 5

/-- A commit is writing the flash. -/
def State.flashBusy (s : State) : Bool := s.trust.ownCommit && !s.loaderBusy

/-- OWN_OPEN: discard staging and receive. -/
def State.ownOpen (s : State) : State :=
  if s.flashBusy then s
  else s.modTrust fun t => { t with ownState := 1, ownStaged := [], ownOver := false, ownCommit := false }
def execOwnOpen (d : Nat) (s : State) : Out := withUnit (hostOk d) (s.trustWrite d 4 2 State.ownOpen)

/-- TRUST_OWN_DATA: append a word to the staged record. -/
def State.ownData (s : State) (w : Word) : State :=
  if s.trust.ownState ≠ 1 then s
  else if 3040 ≤ s.trust.ownStaged.length then s.modTrust fun t => { t with ownOver := true }
  else s.modTrust fun t => { t with ownStaged := t.ownStaged ++ natLe w.toNat 4 }
def execTrustOwnData (d : Nat) (w : Word) (s : State) : Out :=
  withUnit (hostOk d) (s.trustWrite d 0x14 w fun s => s.ownData w)

/-- OWN_VERIFY: verification of the staged record begins. -/
def State.ownVerify (s : State) : State :=
  if s.trust.ownState = 1 then s.modTrust fun t => { t with ownState := 2 } else s
def execOwnVerify (d : Nat) (s : State) : Out := withUnit (hostOk d) (s.trustWrite d 4 4 State.ownVerify)

/-- The vendor keys: those of the flash's image header, or of the staged image where the flash has none. [DEDUCED:
assumption 28] -/
def State.vendor (s : State) : Option Keys :=
  match vendorOf (s.flashBytes 0 256) with
  | some k => some k
  | none => vendorOf ((List.range 256).map fun i => (s.hearth 0).store.look zeroByte i)

/-- The checks of R501 on the staged record, in their order, as a result code. [DEDUCED: assumption 29] -/
def State.ownResult (s : State) : Nat :=
  let t := s.trust
  let r := t.ownStaged
  let signed : Bool :=
    if leAt r 13 1 = 0 then (match s.vendor with
      | some k => ownerSigned k r
      | none => false)
    else !t.owner.isDefault && ownerSigned (t.owner.ecdsaKey, t.owner.lmsKey) r
  if t.ownOver then 8
  else if !ownerFormOk r then 2
  else if !ownerForModule t.serial r then 6
  else if !signed then 3
  else if leAt r 8 4 ≤ t.owner.seq then 5
  else if leAt r 16 4 < t.owner.minFw || (t.boot == 2 && decide (t.fwVersion < leAt r 16 4)) then 7
  else 1

/-- OWN_VERIFY_DONE. -/
def State.ownVerified (s : State) : State :=
  if s.trust.ownState ≠ 2 ∨ s.trust.ownCommit then s
  else
    let r := s.ownResult
    s.modTrust fun t => { t with ownResult := r, ownState := if r = 1 then 3 else 0
                                 ownStaged := if r = 1 then t.ownStaged else [], ownOver := false }
def execOwnVerifyDone (s : State) : Out := withUnit true (if s.live then s.ownVerified else s)

/-- OWN_COMMIT: the verified record is sealed and written, once the loader lets it. -/
def State.ownCommit (s : State) : State :=
  if s.trust.ownState = 3 then s.modTrust fun t => { t with ownState := 2, ownCommit := true } else s
def execOwnCommit (d : Nat) (s : State) : Out := withUnit (hostOk d) (s.trustWrite d 4 8 State.ownCommit)

/-- The copy of the flash that a new record goes to (R495). [DESIGN CHOICE: assumption 35] -/
def State.freeCopy (s : State) : Bool := !s.trust.owner.isDefault && !s.trust.owner.copyB

/-- The sealed record (R495); without a seal secret its seal is a free value. [DESIGN CHOICE: assumption 33] -/
def State.sealed (s : State) : List Byte × State :=
  let r := s.trust.ownStaged
  match s.trust.sealKey with
  | some k => (r ++ hashBytes (Config.hmacSha384 k r), s)
  | none =>
    let d := s.draws
    (r ++ (List.range 48).map (fun i => (Config.freeValue (d + i)).truncate 8), { s with draws := d + 48 })

/-- Erase an area of the flash and write bytes to it. -/
def State.flashWrite (s : State) (a size : Nat) (bs : List Byte) : State :=
  { s with flash := (s.flash.wipe a size).putList erasedByte a bs }

/-- `n` free bytes. -/
def State.freeBytes (s : State) (n : Nat) : List Byte × State :=
  ((List.range n).map (fun i => (Config.freeValue (s.draws + i)).truncate 8), { s with draws := s.draws + n })

/-- A staged or arriving Lay image is discarded at a change of owner record (R60, R502); an interrupted VERIFY reports
OWNER_MISMATCH. -/
def State.layDiscard (s : State) : State :=
  let l := s.loader
  if l.state = 2 then
    let s1 := s.logChange (originHost s.trust.owner.host) 0x102 0 0 4
    { s1 with loader := { l with state := 0, result := 4, errOffset := 48, next := none } }
  else if l.state = 1 ∨ l.state = 3 then { s with loader := { l with state := 0, next := none } }
  else s

/-- The staged record becomes current (R502): the flash copy, the change log, the loader, and OWNER_CHANGED. [DESIGN
CHOICE: assumption 30] -/
def State.installOwner (s : State) : State :=
  let b := s.freeCopy
  let old := s.trust.owner
  let new := readOwner s.trust.ownStaged b
  let (bs, s1) := s.sealed
  let s2 := s1.flashWrite (ownerCopyAt b) 65536 bs
  let s3 := s2.logChange (originHost (if s.trust.boot = 2 then old.host else 0)) 0x105 new.seq old.host new.host
  let s4 := if old.minFw < new.minFw then
    s3.logChange (originHost (if s.trust.boot = 2 then old.host else 0)) 0x106 0 old.minFw new.minFw else s3
  let s5 := s4.layDiscard
  (s5.modTrust fun t => { t with owner := new, ownState := 0, ownResult := 1, ownStaged := [], ownCommit := false
                                 recVerified := false }).eventUp 0x1201 0x29 new.host

/-- OWNER_RECORD_CURRENT: the flash write ends; a read-back that fails leaves the old record current. [DESIGN CHOICE:
assumption 34] -/
def State.ownerWritten (s : State) (ok : Bool) : State :=
  if !s.flashBusy then s
  else if ok then s.installOwner
  else
    let (bs, s1) := s.freeBytes 3088
    (s1.flashWrite (ownerCopyAt s.freeCopy) 65536 bs).modTrust fun t =>
      { t with ownState := 0, ownResult := 9, ownStaged := [], ownCommit := false }
def execOwnerRecordCurrent (readBackOk : Bool) (s : State) : Out :=
  withUnit true (if s.live then s.ownerWritten readBackOk else s)

/-- OWN_CANCEL: discard the staged record, unless the flash is being written. -/
def State.ownCancel (s : State) : State :=
  if s.flashBusy then s
  else s.modTrust fun t => { t with ownState := 0, ownStaged := [], ownOver := false, ownCommit := false }
def execOwnCancel (d : Nat) (s : State) : Out := withUnit (hostOk d) (s.trustWrite d 4 16 State.ownCancel)

/-! ### Attestation (R503) -/

/-- The 336 bytes of a quote that are signed, as sampled now. -/
def State.quoteBody (s : State) : List Byte :=
  let t := s.trust
  let nonce := (List.range 8).flatMap fun i => natLe (s.reg (0x290060 + 4 * i)).toNat 4
  let lay := s.layShown
  let counts := (List.range 12).flatMap fun i => natLe (s.hostCounts.look (fun _ => 0) (i / 3 * 4 + i % 3)) 8
  [0x51, 0x55, 0x4F, 0x54, 1, 0, 0, 0] ++ nonce ++ natLe s.time 8 ++ t.serial ++ hashBytes t.fwHash ++
    natLe t.fwVersion 4 ++ natLe s.flt.service 4 ++ natLe lay.1 8 ++ hashBytes lay.2 ++ hashBytes t.owner.hash ++
    natLe t.owner.host 1 ++ natLe (bit t.recovered 0 + bit t.owner.isDefault 1) 1 ++ natLe 0 6 ++ counts ++ natLe 0 8

/-- ATT_REQ: every field is sampled now; without an identity the request fails. [DEDUCED: assumption 36] -/
def State.attReq (s : State) : State :=
  if s.trust.attBusy then s
  else
    match s.trust.idKey with
    | none => s.modTrust fun t => { t with attFailed := true }
    | some k =>
      let body := s.quoteBody
      let sig := Config.ecdsaSign k body
      s.modTrust fun t => { t with attBusy := true, attValid := false, attFailed := false
                                   quote := body ++ hashBytes sig.1 ++ hashBytes sig.2 }
def execAttReq (d : Nat) (s : State) : Out := withUnit (hostOk d) (s.trustWrite d 4 1 State.attReq)

/-- ATTEST_READY. -/
def execAttestReady (s : State) : Out :=
  withUnit true (if s.live && s.trust.attBusy then
    (s.modTrust fun t => { t with attBusy := false, attValid := true }).eventOwner 0x1202 0x29 0 else s)

/-- A write to a nonce word clears ATT_VALID. -/
def State.nonceWrite (s : State) (i : Nat) (w : Word) : State :=
  (s.setReg (0x290060 + 4 * i) w).modTrust fun t => { t with attValid := false }
def execTrustAttNonce (d i : Nat) (w : Word) (s : State) : Out :=
  withUnit (hostOk d && decide (i < 8)) (s.trustWrite d (0x60 + 4 * i) w fun s => s.nonceWrite i w)

/-! ### Log selection (R490, R506) -/

/-- Select an entry of a log: it is copied at once if it is held. -/
def Log.select (l : Log) (w : Word) : Log :=
  { l with sel := w
           copied := if l.selStatus w.toNat = 1 then l.entries.find? fun e => e.seq == w.toNat else none }

def State.fltSelect (s : State) (w : Word) : State := { s with flt := { s.flt with log := s.flt.log.select w } }
def State.chgSelect (s : State) (w : Word) : State := { s with trust := { s.trust with chg := s.trust.chg.select w } }

/-- FLT_LOG_SEL (R490). -/
def execFltLogSel (d : Nat) (w : Word) (s : State) : Out :=
  withUnit (hostOk d) (s.hostWrite d 0x280010 w fun s => s.fltSelect w)

/-- TRUST_CHG_SEL (R506). -/
def execTrustChgSel (d : Nat) (w : Word) (s : State) : Out :=
  withUnit (hostOk d) (s.trustWrite d 0x24 w fun s => s.chgSelect w)

/-! ### Recovery (R498) -/

/-- A recovery register has an effect in recovery alone: elsewhere it is unassigned (R506). -/
def State.recWrite (s : State) (d off : Nat) (w : Word) (body : State → State) : State :=
  if s.trust.boot = 1 then s.trustWrite d off w body else s

/-- REC_OPEN: clear the staging area. -/
def State.recOpen (s : State) : State :=
  if s.trust.recBusy then s
  else s.zeroStores.modTrust fun t => { t with recOpen := true, recCount := 0, recOver := false, recVerified := false }
def execRecOpen (d : Nat) (s : State) : Out := withUnit (hostOk d) (s.recWrite d 0x300 1 State.recOpen)

/-- The staged image: byte i lies in Hearth store i / 4 MiB. -/
def State.recImage (s : State) : List Byte :=
  (List.range s.trust.recCount).map fun i => (s.hearth (i / 4194304)).store.look zeroByte (i % 4194304)

/-- TRUST_REC_DATA: append a word, up to 33,554,432 bytes. -/
def State.recData (s : State) (w : Word) : State :=
  let n := s.trust.recCount
  if !s.trust.recOpen then s
  else if 33554432 ≤ n then s.modTrust fun t => { t with recOver := true }
  else (s.setHearth (n / 4194304) ((s.hearth (n / 4194304)).write (n % 4194304) (natLe w.toNat 4))).modTrust
    fun t => { t with recCount := n + 4 }
def execTrustRecData (d : Nat) (w : Word) (s : State) : Out :=
  withUnit (hostOk d) (s.recWrite d 0x304 w fun s => s.recData w)

/-- REC_VERIFY. -/
def State.recVerify (s : State) : State :=
  if s.trust.recOpen && !s.trust.recBusy then s.modTrust fun t => { t with recOpen := false, recBusy := true } else s
def execRecVerify (d : Nat) (s : State) : Out := withUnit (hostOk d) (s.recWrite d 0x300 2 State.recVerify)

/-- The result of a recovery operation, in both of its registers. [DEDUCED: assumption 32] -/
def State.recReport (s : State) (r : Nat) : State := s.modTrust fun t => { t with recResult := r, ownResult := r }

/-- REC_VERIFY_DONE. -/
def State.recChecked (s : State) : State :=
  if s.trust.boot ≠ 1 ∨ !s.trust.recBusy ∨ s.trust.recProgramming then s
  else
    let r := if s.trust.recOver then 8 else fwResult s.trust.owner.minFw s.recImage
    (s.recReport r).modTrust fun t => { t with recBusy := false, recVerified := r == 1 }
def execRecVerifyDone (s : State) : Out := withUnit true (if s.live then s.recChecked else s)

/-- The image that recovery has staged runs; RECOVERY is logged. -/
def State.recStart (s : State) (how : Nat) : State :=
  let img := s.recImage
  (s.logChange (originHost 0) 0x109 (leAt img 16 4) 0 how).startRanik img (how == 1)

/-- REC_BOOT. -/
def State.recBoot (s : State) : State := if s.trust.recVerified && !s.trust.recBusy then s.recStart 1 else s
def execRecBoot (d : Nat) (s : State) : Out := withUnit (hostOk d) (s.recWrite d 0x300 4 State.recBoot)

/-- REC_PROGRAM: the flash is being written. -/
def State.recProgram (s : State) : State :=
  if s.trust.recVerified && !s.trust.recBusy then
    s.modTrust fun t => { t with recBusy := true, recProgramming := true } else s
def execRecProgram (d : Nat) (s : State) : Out := withUnit (hostOk d) (s.recWrite d 0x300 8 State.recProgram)

/-- REC_PROGRAM_DONE: the image area holds the image, and it boots; or the compare fails, and what the area holds is
free. -/
def State.recProgrammed (s : State) (ok : Bool) : State :=
  if s.trust.boot ≠ 1 ∨ !s.trust.recProgramming then s
  else if ok then ((s.flashWrite 0 33554432 s.recImage).recReport 1).recStart 2
  else
    let (bs, s1) := s.freeBytes s.trust.recCount
    ((s1.flashWrite 0 33554432 bs).recReport 9).modTrust fun t => { t with recBusy := false, recProgramming := false }
def execRecProgramDone (readBackOk : Bool) (s : State) : Out :=
  withUnit true (if s.live then s.recProgrammed readBackOk else s)

/-- REC_OWNER: the staged record is checked under R501 and installed. [DESIGN CHOICE: assumption 31] -/
def State.recOwner (s : State) : State :=
  if s.trust.ownState ≠ 1 ∨ s.trust.recProgramming then s
  else
    let r := s.ownResult
    let s1 := if r = 1 then s.installOwner
      else s.modTrust fun t => { t with ownState := 0, ownStaged := [], ownOver := false }
    s1.recReport r
def execRecOwner (d : Nat) (s : State) : Out := withUnit (hostOk d) (s.recWrite d 0x300 16 State.recOwner)

end Sys2Proof.Machine
end

