-- ==== Sys2Proof/Machine/Power.lean ====
section
/-! DEFINITION. Supply, module reset, brown-out holds, clocks and Braid links (R18, R21, R23, R451, R467, R483 to R486,
R519, R534 to R536), and the state of a USB link (R65, R88). -/

namespace Sys2Proof.Machine

/-! ### Power and module reset -/

/-- What a module reset leaves (R26, R466, R492, R519): the flash, the lands, the always-powered domain with the logs,
whether the PLL is locked, and the die's temperature. [DESIGN CHOICE: assumption 23; DEDUCED: assumption 24] -/
def State.cold (s : State) : State :=
  { State.reset with
    pending := s.pending
    wall := s.wall
    draws := s.draws
    flash := s.flash
    pwr := { s.pwr with holdSince := none, holdLowest := 0, exitTimer := none, vinMv := 0, iinMa := 0, inputMw := 0 }
    clk := { State.reset.clk with relocking := s.clk.relocking }
    drg := { State.reset.drg with sensors := s.drg.sensors }
    flt := { log := s.flt.log }
    trust := { chg := s.trust.chg } }

/-- A module reset begins with a cause; of two causes in one CLK_S cycle the lower code is recorded (R519). [DEDUCED:
assumption 22] -/
def State.beginReset (s : State) (cause : Nat) : State :=
  if !s.pwr.powered then s
  else if s.pwr.inReset then
    (if s.pwr.fresh && decide (cause < s.pwr.nextCause.getD 0) then
      { s with pwr := { s.pwr with nextCause := some cause } } else s)
  else
    let t := s.cold
    { t with pwr := { t.pwr with inReset := true, nextCause := some cause, fresh := true } }

/-- The module loses power, and with it everything volatile (R519, R534). -/
def State.powerOff (s : State) : State :=
  let t := s.cold
  { t with
    pwr := { t.pwr with powered := false, inReset := true, nextCause := none, fresh := false, thermalHold := false
                        railHold := false, cause := 0 }
    flt := {}
    trust := {} }

/-- Power returns: a power-on reset (R534, R535). The rails, the crystal, the PLL and the dividers start in sequence. -/
def State.powerOn (s : State) : State :=
  if s.pwr.powered || s.pwr.fuseOpen || s.pwr.overvolt then s
  else { s with pwr := { s.pwr with powered := true, inReset := true, nextCause := some 0, fresh := false }
                clk := { s.clk with relocking := false } }

/-- POWER_UP (R535). -/
def execPowerUp (s : State) : Out := withUnit true s.powerOn

/-- The straps and the reset cause as module reset ends (R451, R518): device time, the logs and all else start anew. -/
def State.resetEnds (s : State) : State :=
  let t := s.cold
  let cap := 60 + 20 * (s.pwr.pwrCapPins % 4)
  { t with
    pwr := { t.pwr with inReset := false, nextCause := none, fresh := false, cause := s.pwr.nextCause.getD 0
                        strapCapW := cap, recoveryStrap := s.pwr.recoveryN }
    drg := { t.drg with capW := cap, target := cap * 1000 }
    flt := {}
    trust := {} }

/-- What holds the die in module reset: RESET_N and the 1 ms after it (R536), a temperature of 95 °C or more (R466), a
rail and the 100 ms after its return (R485), and a PLL without lock (R23). -/
def State.resetHeld (s : State) : Bool :=
  s.pwr.resetNLow || decide (s.wall < s.pwr.resetNHigh + 1000000) || s.pwr.thermalHold || s.pwr.railHold ||
    decide (s.wall < s.pwr.railBack + 100000000) || s.clk.relocking

/-- MODULE_RESET_END (R23, R466, R485, R535, R536): then boot begins. -/
def State.moduleResetEnd (s : State) : State :=
  if s.pwr.powered && s.pwr.inReset && !s.resetHeld then s.resetEnds.boot else s
def execModuleResetEnd (s : State) : Out := withUnit true s.moduleResetEnd

/-- RESET_N_ASSERT (R536): a low level of 1 µs or more. -/
def State.resetNAssert (s : State) : State :=
  let t := s.beginReset 1
  { t with pwr := { t.pwr with resetNLow := true } }
def execResetNAssert (s : State) : Out := withUnit true s.resetNAssert

/-- RESET_N_RELEASE (R536): MODULE_RESET_END follows 1 ms later. -/
def State.resetNRelease (s : State) : State :=
  if s.pwr.resetNLow then { s with pwr := { s.pwr with resetNLow := false, resetNHigh := s.wall + 1 } } else s
def execResetNRelease (s : State) : Out := withUnit true s.resetNRelease

/-- FUSE_TRIP (R534). -/
def State.fuseTrip (s : State) : State :=
  if !s.pwr.powered then s
  else
    let t := s.powerOff
    { t with pwr := { t.pwr with fuseOpen := true, fuseAt := s.wall } }
def execFuseTrip (s : State) : Out := withUnit true s.fuseTrip

/-- FUSE_RETRY (R534): 1 s after its trip or its last retry, the fuse closes again, unless the fault persists. -/
def State.fuseRetry (s : State) (persists : Bool) : State :=
  if !s.pwr.fuseOpen || decide (s.wall < s.pwr.fuseAt + 1000000000) then s
  else if persists then { s with pwr := { s.pwr with fuseAt := s.wall } }
  else ({ s with pwr := { s.pwr with fuseOpen := false } } : State).powerOn
def execFuseRetry (persists : Bool) (s : State) : Out := withUnit true (s.fuseRetry persists)

/-- VIN_OVERVOLTAGE (R534). -/
def State.overvoltage (s : State) : State :=
  let t := if s.pwr.powered then s.powerOff else s
  { t with pwr := { t.pwr with overvolt := true } }
def execVinOvervoltage (s : State) : Out := withUnit true s.overvoltage

/-- VIN_OVERVOLTAGE_CLEAR (R534). -/
def State.overvoltageClear (s : State) : State :=
  if s.pwr.overvolt then ({ s with pwr := { s.pwr with overvolt := false } } : State).powerOn else s
def execVinOvervoltageClear (s : State) : Out := withUnit true s.overvoltageClear

/-- SUPPLY_RESET (R519, R536): the fall below 9.6 V removes the always-powered domain's supply too. -/
def execSupplyReset (s : State) : Out := withUnit true (if s.pwr.powered then s.powerOff else s)

/-! ### Rails (R485) -/

/-- SUPPLY_FAULT: a rail outside ±5 % of its nominal voltage; the entry, and reset until the rail has been back. -/
def State.supplyFault (s : State) (rail nominal measured : Nat) : State :=
  let within := decide (nominal * 95 ≤ measured * 100) && decide (measured * 100 ≤ nominal * 105)
  if !s.pwr.powered || within then s
  else
    let t := (s.logFault (originStop 20) 0x22 rail nominal measured).beginReset 3
    { t with pwr := { t.pwr with railHold := true } }
def execSupplyFault (rail nominal measured : Nat) (s : State) : Out :=
  withUnit (decide (rail < 3)) (s.supplyFault rail nominal measured)

/-- RAIL_RETURN: MODULE_RESET_END follows 100 ms later. -/
def State.railReturn (s : State) : State :=
  if s.pwr.railHold then { s with pwr := { s.pwr with railHold := false, railBack := s.wall + 1 } } else s
def execRailReturn (s : State) : Out := withUnit true s.railReturn

/-! ### Brown-out holds (R467) -/

/-- BROWNOUT_ENTER: the input is below 10.4 V; the hold begins, or its exit timer is cancelled. -/
def State.brownout (s : State) (mv : Nat) : State :=
  if 10400 ≤ mv then s
  else
  match s.pwr.holdSince with
  | some _ => { s with pwr := { s.pwr with holdLowest := min s.pwr.holdLowest mv, exitTimer := none, vinMv := mv } }
  | none =>
    let s1 : State := { s with pwr := { s.pwr with holdSince := some s.time, holdLowest := mv, exitTimer := none, vinMv := mv } }
    ((s1.askDividers).bump 0x270034 1).eventUp 0x1007 0x27 mv
def execBrownoutEnter (mv : Nat) (s : State) : Out := withUnit true (if s.live then s.brownout mv else s)

/-- SUPPLY_RECOVER: the exit timer starts. -/
def State.recoverSupply (s : State) : State :=
  if s.pwr.holdSince.isSome && s.pwr.exitTimer.isNone then { s with pwr := { s.pwr with exitTimer := some s.time } }
  else s
def execSupplyRecover (s : State) : Out := withUnit true (if s.live then s.recoverSupply else s)

/-- HOLD_END: the exit timer has reached 10 ms. -/
def State.holdEnd (s : State) : State :=
  match s.pwr.holdSince, s.pwr.exitTimer with
  | some since, some t =>
    if s.time < t + 10000000 then s
    else
    let s1 := s.logFault (originStop 19) 0x25 0 0 s.pwr.holdLowest
    let s2 : State := { s1 with pwr := { s1.pwr with holdSince := none, holdLowest := 0, exitTimer := none } }
    s2.askDividers.eventOwner 0x1008 0x27 ((s.time - since) / 1000)
  | _, _ => s
def execHoldEnd (s : State) : Out := withUnit true (if s.live then s.holdEnd else s)

/-! ### USB links (R65, R88, R403) -/

/-- A host's link takes a rate; the fit of its Cords' queued exports is checked again (R403). -/
def State.setRate (s : State) (d rate : Nat) (flip : Bool) : State :=
  let h := s.host d
  let s1 := s.setHost d { h with rate := rate, flip := flip }
  if h.rate = rate then s1
  else
    (match s1.lay with
     | some l => (l.cords.filter fun (c : CordCfg) => c.ownerHost == d).foldl (fun t (c : CordCfg) =>
         t.recheckFit c.cord fun j => t.copiesToRing c j) s1
     | none => s1)

/-- A link goes down (R88): responses and requests not begun are dropped, the loss is counted and logged. [DESIGN
CHOICE: assumption 69] -/
def State.linkDown (s : State) (d : Nat) : State :=
  let h := s.host d
  if h.rate = 0 then s
  else
    let s1 := s.setHost d { h with
      responses := [], fence := none, behind := [], downs := min (h.downs + 1) 0xFFFF, downSince := s.time
      active := h.active.map fun (x : Active) => { x with lost := true } }
    (s1.logFault (originStop 16) 0x31 d h.rate 0).setRate d 0 h.flip

/-! ### Clocks (R19 to R21, R486) -/

/-- The nominal frequency of a clock in kHz; CLK_A of a physical Hearth and a D-PHY clock follow their dividers.
[DEDUCED: assumption 200] -/
def State.clockKhz (s : State) (k : Nat) : Nat :=
  if k = 0 then 8000000 else if k = 1 then 4000000 else if k = 2 then 1000000 else if k = 3 then 500000
  else if k = 4 then 250000
  else if k < 7 then 2000000 / 2 ^ ((s.panel (k - 5)).mode.toNat / 4 % 4)
  else if k = 7 then 100000
  else 8000000 / (s.phy (k - 0x100)).div

/-- A count outside ±1 %. -/
def clockOut (expected measured : Nat) : Bool :=
  decide (measured * 100 < expected * 99) || decide (expected * 101 < measured * 100)

/-- A panel port's lanes go to LP-11, and its next push is full-frame (R486). -/
def State.panelLp11 (s : State) (p : Nat) : State :=
  let v := s.panel p
  if v.state = 0 then s
  else s.setPanel p { v with pushing := false, pushContent := 0, pushWarp := 0, holds := [], full := true }

/-- A fault of a clock other than one Hearth's CLK_A: jobs, links and lanes stop, and the PLL relocks. -/
def State.rootFault (s : State) : State :=
  let s1 := (s.jobs.filter Job.resident).foldl (fun t j => t.endJob j.sub stTorn) s
  let s2 := ([0, 1, 2, 3] : List Nat).foldl State.linkDown s1
  let s3 := ([0, 1] : List Nat).foldl State.panelLp11 s2
  { s3 with clk := { s3.clk with relocking := true, lostLock := s.time } }

/-- A faulty clock (R486): the entry, the event, the response, and CLOCK_RECUR for a second one within 24 h. -/
def State.clockFault (s : State) (k measured : Nat) : State :=
  let recur := s.clk.faultTimes.any fun t => decide (s.time ≤ t + dayNs)
  let origin := if k < 0x100 then originStop 20 else originHearth (k - 0x100)
  let s1 := (s.logFault origin 0x21 k (s.clockKhz k) measured).eventOwner 0x1107 0x28 k
  let s2 : State := { s1 with clk := { s1.clk with faultTimes := s.time :: s.clk.faultTimes } }
  let s3 := if recur then s2.setService 3 else s2
  if k < 0x100 then s3.rootFault
  else
    let h := (s3.logicalOf (k - 0x100)).getD (k - 0x100)
    ((s3.tearHearth h).suspect h 6).startRecovery h

/-- A monitor window of clock `k` ends (R486): two consecutive ones out of tolerance make the clock faulty. -/
def State.clockWindow (s : State) (k measured : Nat) : State :=
  let put (l : List (Nat × Nat)) : State := { s with clk := { s.clk with suspect := l } }
  let rest := s.clk.suspect.filter fun x => x.1 != k
  if s.clk.relocking then s
  else if !clockOut (s.clockKhz k) measured then put rest
  else if s.clk.suspect.any fun x => x.1 == k && x.2 + 10000 == s.time then (put rest).clockFault k measured
  else put ((k, s.time) :: rest)

/-- CLOCK_MONITOR_WINDOW (R486): the windows are 10 µs long. -/
def execClockMonitorWindow (clock measuredKHz : Nat) (s : State) : Out :=
  withUnit (clockOk clock)
    (if s.live then s.each (0x100000 + clock) 10000 fun t => t.clockWindow clock measuredKHz else s)

/-- PLL_RELOCK (R486): the PLL locks, in module reset too (R23). -/
def execPllRelock (s : State) : Out :=
  withUnit true (if s.pwr.powered then { s with clk := { s.clk with relocking := false } } else s)

/-- RELOCK_TIMEOUT (R486): the relock has taken more than 10 ms. -/
def State.relockTimeout (s : State) : State :=
  if s.live && s.clk.relocking && decide (s.clk.lostLock + 10000000 < s.time) then s.beginReset 4 else s
def execRelockTimeout (s : State) : Out := withUnit true s.relockTimeout

/-- The root cycles at which a divider may change (R21). -/
def dividerPeriod : Nat := 240

/-- The requested divider of a physical Hearth comes into force. -/
def State.takeDivReq (s : State) (p : Nat) : State :=
  let v := s.phy p
  match v.divReq with
  | some d => s.setPhy p { v with div := d, divReq := none }
  | none => s

/-- DIVIDER_CHANGE (R21): at a root cycle that is a multiple of 240, the requested divider of logical Hearth `h` comes
into force. The tick that reaches such a cycle does the same for every Hearth. -/
def State.changeDivider (s : State) (h : Nat) : State :=
  if s.clk.root % dividerPeriod = 0 then s.takeDivReq (s.physOf h) else s
def execDividerChange (h : Nat) (s : State) : Out := withUnit (hearthOk h) (if s.live then s.changeDivider h else s)

end Sys2Proof.Machine
end

