-- ==== Sys2Proof/Machine/Draught.lean ====
section
/-! DEFINITION. The Draught governor and the Tether's input clamp (R451 to R466). -/

namespace Sys2Proof.Machine

def State.modDrg (s : State) (f : Draught → Draught) : State := { s with drg := f s.drg }

/-! ### Estimates (R454 to R456) -/

/-- A coefficient and a leakage in mW: the firmware's, but never below the ROM's minimum (R455). -/
def coefOf (u i : Nat) : Nat := max (Config.coefFw u i) (Config.coefMin u i)
def leakOf (u b : Nat) : Nat := max (Config.leakFw u b) (Config.leakMin u b)

/-- The leakage band of a reading in 1/16 °C: eight bands of 10 °C from 45 °C (R454). [DESIGN CHOICE: assumption 181] -/
def leakBand (t : Int) : Nat := min ((t - 720) / 160).toNat 7

/-- The activity energy of a unit in the epoch, uncorrected, in nJ. -/
def activeEnergy (a : UnitActivity) : Nat :=
  ((List.range a.counters.length).map fun i => a.counters.getD i 0 * coefOf a.unit i).sum

/-- Its uncorrected energy with leakage: 1 mW over 10 µs is 10 nJ. -/
def State.rawEnergy (s : State) (a : UnitActivity) : Nat :=
  activeEnergy a + leakOf a.unit (leakBand (s.drg.sensors.getD a.sensor 0)) * 10

/-- The correction factor in 1/4,096; the reset value 0 stands for 1. [DEDUCED: assumption 21] -/
def Draught.factor (g : Draught) : Nat := if g.k = 0 then 4096 else g.k

/-- The job that holds a unit: 0 to 47 a physical Hearth, 48 and above an assignable unit of R35. -/
def State.unitJob (s : State) (u : Nat) : Option Nat :=
  if u < 48 then (s.logicalOf u).bind fun h => (s.hearth h).job
  else (s.jobs.find? fun j => j.resident && j.units.contains (u - 48)).map Job.sub

/-- Charge the corrected activity energy of an epoch to the jobs that hold the units (R460). [DEDUCED: assumption 182]
-/
def State.chargeJobs (s : State) (as : List UnitActivity) : State :=
  as.foldl (fun t a =>
    match t.unitJob a.unit with
    | some sub => t.modJob sub fun j => { j with usedNj := j.usedNj + s.drg.factor * activeEnergy a / 4096 }
    | none => t) s

/-- The energy of an epoch: P_est joins the last ten, and the running millisecond's estimate grows (R454, R456).
[DEDUCED: assumption 180] -/
def State.estimate (s : State) (as : List UnitActivity) : State :=
  let raw := (as.map s.rawEnergy).sum
  let e := (as.map fun a => s.drg.factor * s.rawEnergy a / 4096).sum
  (s.modDrg fun g => { g with recent := ((e / 10 + 15000) :: g.recent).take 10, estNj := g.estNj + raw + 150000 }).chargeJobs as

/-- CORRECTION_UPDATE (R456): k from the mean input power and the uncorrected estimate of the millisecond. Without an
estimate, k is a free value within its bounds, and without an input voltage so is the current. [DESIGN CHOICE:
assumption 17] -/
def State.correct (s : State) (meanMw : Nat) : State :=
  let g := s.drg
  let (v, s1) := s.draw
  let (x, s2) := s1.draw
  let k := if g.estNj = 0 then 4096 + v.toNat % 2049
    else max 4096 (min 6144 (divRne (4096 * meanMw * 1000 : Nat) g.estNj).toNat)
  let i := if s.pwr.vinMv = 0 then x.toNat % 65536 else meanMw * 1000 / s.pwr.vinMv
  { s2 with drg := { g with k := k, estNj := 0 }, pwr := { s.pwr with inputMw := meanMw, iinMa := i } }
def execCorrectionUpdate (meanMw : Nat) (s : State) : Out :=
  withUnit true (if s.live then s.each 1 1000000 fun t => t.correct meanMw else s)

/-! ### Accounts (R457, R458) -/

/-- RESERVE_SHORT follows the target power and the Lay; it is queued when it becomes 1 (R457). -/
def State.checkReserve (s : State) : State :=
  let short := decide (s.drg.target - 15000 < s.reserveSum)
  let s1 := s.modDrg fun g => { g with reserveShort := short }
  if short && !s.drg.reserveShort then
    let eff := match s.lay with
      | some l => (l.cords.map s.effReserve).sum
      | none => 0
    s1.eventOwner 0x1005 0x27 (s.reserveSum - eff)
  else s1

/-- Refill one Cord's account; what passes C_c goes to the pool. -/
def State.refillCord (s : State) (c : CordCfg) : State :=
  let a : Int := s.drg.accounts.look (fun _ => 0) c.cord
  let r : Int := (s.effReserve c * 10 : Nat)
  let b : Int := max a (min (a + r) (s.capA c))
  s.modDrg fun g => { g with accounts := g.accounts.put (fun _ => 0) c.cord b, pool := g.pool + (r - (b - a)) }

/-- Refill the accounts and the pool at the start of an epoch (R458). -/
def State.refill (s : State) : State :=
  let cords := match s.lay with
    | some l => l.cords.filter fun (c : CordCfg) => c.reserveMw != 0
    | none => []
  let eff := (cords.map s.effReserve).sum
  let s1 := cords.foldl State.refillCord s
  s1.modDrg fun g => { g with pool := min (g.pool + ((s.drg.target - 15000 - eff) * 10 : Nat)) s1.capB }

/-! ### Throttling (R461 to R464) -/

/-- The next slower and the next faster divider. -/
def slower (d : Nat) : Nat := if d = 8 then 10 else if d = 10 then 12 else 16
def faster (d : Nat) : Nat := if d = 16 then 12 else if d = 12 then 10 else 8

/-- The logical Hearths with a job of a class. -/
def State.classHearths (s : State) (lc : Bool) : List Nat :=
  (List.range 48).filter fun h => match (s.hearth h).job.bind s.job? with
    | some j => j.inLc == lc
    | none => false

/-- Move the governor's choice for some logical Hearths. -/
def State.moveGov (s : State) (f : Nat → Nat) (hs : List Nat) : State :=
  hs.foldl (fun t h =>
    let p := t.physOf h
    let v := t.phy p
    (t.setPhy p { v with gov := f v.gov }).askDivider p) s

def State.govOf (s : State) (h : Nat) : Nat := (s.phy (s.physOf h)).gov

/-- Among some Hearths, those of the least divider, if it is below ÷16; those of the largest, if above ÷8. -/
def State.leastOf (s : State) (hs : List Nat) : List Nat :=
  let d := (hs.map s.govOf).foldl min 16
  if d = 16 then [] else hs.filter fun h => s.govOf h == d
def State.largestOf (s : State) (hs : List Nat) : List Nat :=
  let d := (hs.map s.govOf).foldl max 8
  if d = 8 then [] else hs.filter fun h => s.govOf h == d

/-- The idle banks that are on: (physical Hearth, bank) not accessed for 100 µs (R463). -/
def State.idleBanks (s : State) : List (Nat × Nat) :=
  (List.range 48).flatMap fun p =>
    let v := s.phy p
    let off := match s.logicalOf p with
      | some h => s.poweredOff h
      | none => false
    if off then []
    else ((List.range 16).filter fun b => v.retention.look (fun _ => 0) b == 0 &&
      decide (v.bankUse.look (fun _ => 0) b + 100000 ≤ s.time)).map fun b => (p, b)

/-- Put banks in retention. -/
def State.retain (s : State) (bs : List (Nat × Nat)) : State :=
  bs.foldl (fun t e =>
    let v := t.phy e.1
    t.setPhy e.1 { v with retention := v.retention.put (fun _ => 0) e.2 1 }) s

/-- The LC Hearths that a step down takes: those of overdrawn Cords first. -/
def State.lcDown (s : State) : List Nat :=
  let lc := s.classHearths true
  let owing := lc.filter fun h => match s.cordOfHearth h with
    | some n => decide (s.drg.accounts.look (fun _ => 0) n < 0)
    | none => false
  let first := s.leastOf owing
  if first = [] then s.leastOf (lc.filter fun h => !owing.contains h) else first

/-- One step down: the first of R463's three that is possible. -/
def State.stepDown (s : State) : State :=
  let be := s.leastOf (s.classHearths false)
  let banks := s.idleBanks
  let lc := s.lcDown
  let mark (t : State) : State := t.modDrg fun g => { g with lastDown := some s.time }
  match be with
  | h :: _ => mark ((s.moveGov slower be).modDrg fun g => { g with beDiv := slower (s.govOf h) })
  | [] =>
    if banks ≠ [] then mark (s.retain banks)
    else if lc ≠ [] then mark (s.moveGov slower lc)
    else s

/-- One step up: the LC Hearths of the largest divider, then the BE Hearths. -/
def State.stepUp (s : State) : State :=
  let lc := s.largestOf (s.classHearths true)
  let be := s.largestOf (s.classHearths false)
  let mark (t : State) : State := t.modDrg fun g => { g with lastUp := some s.time }
  if lc ≠ [] then mark (s.moveGov faster lc)
  else
    match be with
    | h :: _ => mark ((s.moveGov faster be).modDrg fun g => { g with beDiv := faster (s.govOf h) })
    | [] => s

/-- 100 µs have passed since a step. -/
def State.stepFree (s : State) (last : Option Nat) : Bool :=
  match last with
  | some t => decide (t + 100000 ≤ s.time)
  | none => true

/-- The comparison at an epoch's end: at most one step (R463). -/
def State.throttle (s : State) : State :=
  let p := s.drg.p100
  let below := if p + 5000 < s.drg.target then s.drg.below + 1 else 0
  let s1 := s.modDrg fun g => { g with below := below }
  if s.drg.target < p then (if s1.stepFree s1.drg.lastDown then s1.stepDown else s1)
  else if 10 ≤ below ∧ s1.stepFree s1.drg.lastUp then s1.stepUp
  else s1

/-- OVER_CAP (R464): some Hearth is held below ÷8 for power or heat; POWER_LIMITED when it becomes 1. [DEDUCED:
assumption 185] -/
def State.checkOverCap (s : State) : State :=
  let now := s.drg.limit || s.drg.clampSince.isSome || (List.range 48).any fun p => decide (8 < (s.phy p).gov)
  let s1 := s.modDrg fun g => { g with overCap := now }
  if now && !s.drg.overCap then s1.eventOwner 0x1001 0x27 s.drg.p100 else s1

/-- DRAUGHT_EPOCH (R454, R458, R459, R463): the epoch that ends is estimated and judged; the one that begins refills
the accounts and grants what waits. -/
def State.epoch (s : State) (as : List UnitActivity) : State :=
  ((((s.estimate as).throttle).checkOverCap.checkReserve).refill).grantBe
def execDraughtEpoch (activity : List UnitActivity) (s : State) : Out :=
  withUnit true (if s.live then s.each 2 10000 fun t => t.epoch activity else s)

/-- TARGET_POWER_UPDATE (R462). -/
def State.targetUpdate (s : State) : State :=
  (s.modDrg fun g =>
    { g with target :=
        if g.warn then min g.target (max 40000 (g.target - 2000))
        else if g.tj.1 < 1440 then min (g.capW * 1000) (g.target + 2000)
        else g.target }).checkReserve
def execTargetPowerUpdate (s : State) : Out :=
  withUnit true (if s.live then s.each 3 1000000 State.targetUpdate else s)

/-- DRG_CAP (R452, R462): the bounds are the strap cap and 40 W; P_t falls at once. -/
def State.setCap (s : State) (w : Word) : State :=
  let cap := max 40 (min (w.toNat % 256) s.pwr.strapCapW)
  (s.modDrg fun g => { g with capW := cap, target := min g.target (cap * 1000) }).checkReserve
def execDrgCap (d : Nat) (w : Word) (s : State) : Out :=
  withUnit (hostOk d) (s.hostWrite d 0x270004 w fun s => s.setCap w)

/-! ### Temperature (R453, R466) -/

/-- A level with its two thresholds in 1/16 °C. -/
def hysteresis (on : Bool) (t enter leave : Int) : Bool := if on then decide (leave ≤ t) else decide (enter ≤ t)

/-- THERMAL_SHUTDOWN: the entry, then the die is held in reset. -/
def State.shutdown (s : State) : State :=
  let (t, i) := s.drg.tj
  let s1 := (s.logFault (originStop 19) 0x23 i 0 (s32bits t)).beginReset 2
  { s1 with pwr := { s1.pwr with thermalHold := true } }

/-- The levels of Tj are entered or left. [DEDUCED: assumption 187] -/
def State.thermal (s : State) : State :=
  let t := s.drg.tj.1
  let deg := s32bits (t / 16)
  let warn := hysteresis s.drg.warn t 1520 1440
  let limit := hysteresis s.drg.limit t 1680 1600
  let hot := if 1840 ≤ t then s.drg.hot + 1 else 0
  let s1 := s.modDrg fun g => { g with warn := warn, limit := limit, hot := hot }
  let s2 := if warn && !s.drg.warn then s1.eventOwner 0x1002 0x27 deg
    else if !warn && s.drg.warn then s1.eventOwner 0x1004 0x27 deg else s1
  let s3 := if limit && !s.drg.limit then s2.eventOwner 0x1003 0x27 deg else s2
  let s4 := if limit != s.drg.limit then s3.askDividers.checkOverCap else s3
  if 2 ≤ hot then s4.shutdown else s4

/-- SENSOR_SAMPLE (R453): 64 readings and the input voltage, the lowest of which is kept during a hold (R467). -/
def State.sample (s : State) (readings : List Int) (mv : Nat) : State :=
  let all := (List.range 64).map fun i => readings.getD i (s.drg.sensors.getD i 0)
  let s1 := s.modDrg fun g => { g with sensors := all }
  let s2 : State := { s1 with pwr := { s1.pwr with
    vinMv := mv, sampled := some s.wall
    holdLowest := if s.pwr.holdSince.isSome then min s.pwr.holdLowest mv else s.pwr.holdLowest } }
  if s.live then s2.thermal
  else if s.pwr.powered ∧ s2.drg.tj.1 < 1520 then { s2 with pwr := { s2.pwr with thermalHold := false } }
  else s2

/-- Each sensor is sampled once every 10 µs. -/
def State.sampleDue (s : State) : Bool :=
  match s.pwr.sampled with
  | some t => decide (t + 10000 ≤ s.wall)
  | none => true
def execSensorSample (readings : List Int) (mv : Nat) (s : State) : Out :=
  withUnit true (if s.pwr.powered && s.sampleDue then s.sample readings mv else s)

/-! ### The Tether's clamp (R465) -/

/-- INPUT_CLAMP. -/
def State.clampInput (s : State) (mw : Nat) : State :=
  let s1 : State := { s with pwr := { s.pwr with inputMw := mw } }
  if s.drg.clampSince.isSome || decide (mw ≤ s.pwr.strapCapW * 1000) then s1
  else
    let s2 := (s1.logFault (originStop 20) 0x24 0 (s.pwr.strapCapW * 1000) mw).bump 0x270030 1
    let s3 := s2.modDrg fun g => { g with clampSince := some s.time }
    (s3.askDividers.eventOwner 0x1006 0x27 mw).checkOverCap
def execInputClamp (mw : Nat) (s : State) : Out := withUnit true (if s.live then s.clampInput mw else s)

/-- CLAMP_RELEASE: not within 10 ms of the clamp. [DESIGN CHOICE: assumption 186] -/
def State.releaseClamp (s : State) : State :=
  match s.drg.clampSince with
  | some t => if s.time < t + 10000000 then s
    else (s.modDrg fun g => { g with clampSince := none }).askDividers.checkOverCap
  | none => s
def execClampRelease (s : State) : Out := withUnit true (if s.live then s.releaseClamp else s)

end Sys2Proof.Machine
end

