-- ==== Sys2Proof/Machine/Fill.lean ====
section
/-! DEFINITION. Chapter 9: the fill governor (R249 to R275). -/

namespace Sys2Proof.Machine

/-! ### Deadlines and decision points (R250, R251) -/

/-- A field of a session's fill entry (R254). -/
def State.fillLe (s : State) (c : CordCfg) (i o n : Nat) : Nat := s.sessLe c i (0x80 + o) n
def State.putFillLe (s : State) (c : CordCfg) (i o n x : Nat) : State := s.putSessLe c i (0x80 + o) n x

/-- The frame period of a panel port: as measured, or of its own cadence where no real TE counts. [DEDUCED: assumption
112] -/
def State.tePeriod (s : State) (p : Nat) : Nat :=
  let v := s.panel p
  let own := 2 * v.lineCyc * v.lines
  let seen := s.panelShadow p 0x34
  max 1 (if v.teLost || v.mode.toNat / 2048 % 4 == 3 || seen == 0 then own else seen)

/-- The predicted time at which the counter reaches the commit line in frame `f`. -/
def State.commitTime (s : State) (p f : Nat) : Int :=
  let v := s.panel p
  v.lineBase + (2 * v.lineCyc * ((v.act 0x14).toNat % 65536) : Nat) +
    ((f : Int) - v.frames) * (s.tePeriod p : Nat)

/-- The frame that a panel session's next slot targets. -/
def State.targetFrame (s : State) (c : CordCfg) (i : Nat) : Nat :=
  match (s.sess i).target with
  | some f => f
  | none =>
    let p := s.fillLe c i 2 2 % 16
    let least : Int := ((s.sess i).opened + s.fillLe c i 20 4 : Nat)
    let per : Int := (s.tePeriod p : Nat)
    let short := least - s.commitTime p (s.panel p).frames
    (((s.panel p).frames : Int) + (short + per - 1) / per).toNat

/-- D_k of the next slot, as predicted now. -/
def State.slotDeadline (s : State) (c : CordCfg) (i : Nat) : Nat :=
  if s.fillLe c i 0 1 = 1 then (s.commitTime (s.fillLe c i 2 2 % 16) (s.targetFrame c i)).toNat
  else s.fillLe c i 32 8 + s.fillLe c i 48 4 * s.fillLe c i 28 4

/-- The decision point of the next slot. [DESIGN CHOICE: assumption 97] -/
def State.decisionPoint (s : State) (c : CordCfg) (i : Nat) : Nat := s.slotDeadline c i - s.fillLe c i 20 4

/-- Whether a session has a slot whose decision is due. -/
def State.slotDue (s : State) (c : CordCfg) (i : Nat) : Bool :=
  c.hasSession i && s.sessLe c i 0 1 == 1 && s.fillLe c i 0 1 != 0 && decide (s.decisionPoint c i ≤ s.time)

/-- Lexicographic order of decision point, D, Cord and session. -/
def natLexLt : List Nat → List Nat → Bool
  | a :: as, b :: bs => decide (a < b) || (a == b && natLexLt as bs)
  | _, _ => false

def State.dueKey (s : State) (c : CordCfg) (i : Nat) : List Nat :=
  [s.decisionPoint c i, s.slotDeadline c i, c.cord, i]

/-- Whether some other due slot comes first. -/
def State.dueBefore (s : State) (key : List Nat) : Bool :=
  match s.lay with
  | none => false
  | some l => l.cords.any fun (c : CordCfg) => (List.range c.sessionCount).any fun k =>
      s.slotDue c (c.sessionBase + k) && natLexLt (s.dueKey c (c.sessionBase + k)) key

/-! ### Inputs and prediction (R258, R259, R261) -/

/-- The Hearths that run a session: those of its FILL job, its last one's, or the lowest members. [DEDUCED: assumption
99] -/
def State.fillHearthsOf (s : State) (c : CordCfg) (i : Nat) : List Nat :=
  match s.jobs.find? fun j => j.cord == c.cord && j.session == i && j.kind == 6 && j.hearths != [] with
  | some j => j.hearths
  | none =>
    let last := (s.sess i).fillHearths
    if last = [] then (s.members c.cord).take (s.sessLe c i 0x44 2) else last

/-- The largest CLK_A divider of some logical Hearths. -/
def State.dmaxOf (s : State) (hs : List Nat) : Nat := (hs.map fun h => (s.phy (s.physOf h)).div).foldl max 8

/-- The allowance of a Cord in nJ (R459). -/
def State.allowance (s : State) (n : Nat) : Nat :=
  if s.pwr.holdSince.isSome || s.drg.limit then 0 else (s.drg.accounts.look (fun _ => 0) n).toNat

/-- What a decision starts from. -/
structure FillCtx where
  i       : Nat
  k       : Nat
  due     : Nat
  now     : Nat
  start   : Nat
  dmax    : Nat
  overrun : Bool
  pIn     : Bool
  forced  : Bool
  interp  : Bool
  feed    : Bool
  newIn   : Bool
  ingest  : Bool
  gRun    : Nat
  anchors : Nat
  stretches : Nat
  tail    : Nat
  list    : List (Nat × Nat)

/-- An active force of a session (R263). -/
def State.forceOf (s : State) (n i : Nat) : Option Force := (s.fillRt n).forces.find? fun f => f.session == i

def State.fillCtx (s : State) (c : CordCfg) (i : Nat) : FillCtx :=
  let f (o n : Nat) : Nat := s.fillLe c i o n
  let st := f 54 1
  let busy := f 56 8
  let out := st.testBit 0
  let ing := (s.sessLe c i 0x5C 2).testBit 0
  let panel := f 0 1 == 1
  { i := i, k := f 48 4, due := s.slotDeadline c i, now := s.time
    start := if out then max s.time busy else s.time
    dmax := s.dmaxOf (s.fillHearthsOf c i)
    overrun := out && decide (busy ≤ s.time)
    pIn := st.testBit 1 && (panel || !ing)
    forced := (s.forceOf c.cord i).isSome
    interp := (f 9 1).testBit 0
    feed := f 1 1 == 1
    newIn := f 1 1 == 1 && f 44 2 != f 46 2
    ingest := ing
    gRun := f 52 1, anchors := f 53 1, stretches := s.sessLe c i 0x44 2, tail := f 24 4
    list := match s.forceOf c.cord i with
      | some x => [(x.mode, x.scale)]
      | none => (s.prefs c i).map fun b => (b % 8, b / 16 % 8) }

/-- The first N or U entry of the preference list: the mode of an interpolated session's anchors (R259). -/
def State.anchorMode (s : State) (c : CordCfg) (i : Nat) : Option (Nat × Nat) :=
  ((s.prefs c i).map fun b => (b % 8, b / 16 % 8)).find? fun m => m.1 == 1 || m.1 == 2

/-- Worst-case time and energy of a mode: for an interpolated G, the sums with its anchor render. [DEDUCED: assumption
100] -/
def State.fillFigures (s : State) (c : CordCfg) (x : FillCtx) (m : Nat × Nat) : Option (Nat × Nat) :=
  let entry (a : Nat × Nat) : Option Timing :=
    (s.model c.cord (s.fillLe c x.i 12 4)).bind fun k => k.entry a.1 a.2 x.stretches
  match entry m with
  | none => none
  | some t =>
    if m.1 = 3 ∧ x.interp then
      match (s.anchorMode c x.i).bind entry with
      | some a => some (t.wcNs + a.wcNs, t.energy + a.energy)
      | none => none
    else some (t.wcNs, t.energy)

/-- t_pred of a mode whose worst-case time is `wc`. -/
def FillCtx.pred (x : FillCtx) (wc : Nat) : Nat := x.start + ((wc + x.tail) * x.dmax + 7) / 8

/-- Whether the input of N, U or G is missing (R258, R260). [DEDUCED: assumption 98] -/
def State.inputMissing (s : State) (c : CordCfg) (x : FillCtx) (m : Nat × Nat) : Bool :=
  let cfg := s.fillLe c x.i 9 1
  x.ingest ||
  (if m.1 = 3 then
    (if x.interp then (s.sess x.i).okSlot != some (x.k - 1) || x.k == 0 || (s.anchorMode c x.i).isNone
     else decide (x.anchors < cfg / 2 % 8) || (x.feed && !cfg.testBit 4))
   else x.feed && !x.newIn)

/-! ### Chains (R256, R259, R264) -/

/-- A descriptor of the governor's jobs. -/
def govDesc (kind flags stretches session : Nat) (entries : Nat) (arg : Nat) (due budget np rows : Nat) : List Byte :=
  natLe kind 1 ++ natLe flags 1 ++ natLe stretches 1 ++ natLe 0 1 ++ natLe session 4 ++ natLe 0 4 ++
    natLe entries 4 ++ natLe arg 8 ++ natLe due 8 ++ natLe budget 4 ++ natLe 0 8 ++ natLe np 2 ++ natLe rows 2 ++
    natLe 0 16

/-- A free entry of a signature table of `n` entries, or 0xFFFF (R398). -/
def freeEntry (n x : Nat) : Nat := if x % (n + 1) = n then 0xFFFF else x % (n + 1)

/-- The rows that a RASTER job of mode m renders for an output of `rows`: all at full scale, and for U its scale's
share, rounded up (R48, R256). [DESIGN CHOICE: assumption 103] -/
def renderRows (m : Nat × Nat) (rows : Nat) : Nat :=
  if m.1 ≠ 2 then rows
  else if m.2 = 1 then (2 * rows + 2) / 3
  else (rows + m.2 - 1) / m.2

/-- One job of a chain, for `rows` rows and a budget up to the deadline. Its entries and, for a RASTER job, its pass
descriptor and `np_bound_us` are free values within R398's ranges. [DESIGN CHOICE: assumption 103] -/
def State.govJob (s : State) (c : CordCfg) (x : FillCtx) (kind : Nat) (chained : Bool) (arg rows : Nat) :
    State × List Byte :=
  let (a, s1) := s.draw
  let (b, s2) := s1.draw
  let (p, s3) := s2.draw
  let np := if kind = 2 then 1 + b.toNat % 65535 else 0
  let budget := max 1 (min (x.due - x.now) (2 ^ 32 - 1))
  let desc (entries : Nat) : List Byte :=
    govDesc kind (if chained then 1 else 0) x.stretches x.i entries (if kind = 2 then p.toNat else arg)
      x.due budget np rows
  let sigs := match s.jobModel c (readJob c.cord c.ownerHost true (desc 0)) with
    | some m => m.sigs.2 / 8
    | none => 0
  (s3, desc (freeEntry sigs (a.toNat % 65536) + freeEntry sigs (a.toNat / 65536 % 65536) * 65536))

/-- `ARG0` and `ARG1` of a FILL job. -/
def fillArg (m : Nat × Nat) (anchor : Bool) (k : Nat) : Nat :=
  m.1 + m.2 * 16 + (if anchor then 256 else 0) + k % 2 ^ 32 * 2 ^ 32

/-- The jobs of a frame in mode m: a RASTER job before the FILL job for N and U on a raster source. -/
def State.frameJobs (s : State) (c : CordCfg) (x : FillCtx) (m : Nat × Nat) (rows : Nat) : State × List (List Byte) :=
  if (m.1 = 1 ∨ m.1 = 2) ∧ !x.feed then
    let (s1, r) := s.govJob c x 2 false 0 (renderRows m rows)
    let (s2, f) := s1.govJob c x 6 true (fillArg m false x.k) rows
    (s2, [r, f])
  else
    let (s1, f) := s.govJob c x 6 false (fillArg m false x.k) rows
    (s1, [f])

/-- The descriptors of a mode's chain, in order: the rows of the output are a free value, the same for all of it.
[DESIGN CHOICE: assumption 103; DEDUCED: assumption 104] -/
def State.chainJobs (s : State) (c : CordCfg) (x : FillCtx) (m : Nat × Nat) : State × List (List Byte) :=
  let (v, s0) := s.draw
  let rows := 1 + v.toNat % 65535
  match (if m.1 = 3 ∧ x.interp then s0.anchorMode c x.i else none) with
  | some a =>
    let (s1, js) := s0.frameJobs c x a rows
    let (s2, g) := s1.govJob c x 6 true (fillArg m true x.k) rows
    (s2, js ++ [g])
  | none => s0.frameJobs c x m rows

/-- Accept one job of a chain; the last one carries the chain's energy. -/
def State.acceptGov (s : State) (c : CordCfg) (x : FillCtx) (bs : List Byte) (energy : Nat) : State × Nat :=
  let sub := s.nextSub
  let s1 := s.accept c (readJob c.cord c.ownerHost true bs)
  (s1.modJob sub fun j => { j with slot := some x.k, energyNj := energy }, sub)

/-- Submit a chain: its jobs are admitted together, or the first refusal is recorded. Answers the submissions, or the
status of the refusal. [DESIGN CHOICE: assumption 109] -/
def State.submitChain (s : State) (c : CordCfg) (x : FillCtx) (ds : List (List Byte)) (energy : Nat) :
    State × Except Nat (List Nat) :=
  let refused := (List.range ds.length).filterMap fun i =>
    let b := ds.getD i []
    (s.admissionBehind c (readJob c.cord c.ownerHost true b) b i).map fun st => (b, st)
  if s.draining c.cord then (s, .error 0)
  else match refused with
    | (b, st) :: _ => (s.complete c.cord 0 (readJob c.cord c.ownerHost true b) st 1, .error st)
    | [] =>
      let n := ds.length
      let r := (List.range n).foldl (fun (a : State × List Nat) i =>
        let (t, sub) := a.1.acceptGov c x (ds.getD i []) (if i + 1 = n then energy else 0)
        (t, a.2 ++ [sub])) (s, [])
      (r.1, .ok r.2)

/-! ### The decision (R261, R262) -/

/-- What the evaluation of the list has come to. -/
structure FillEval where
  st      : State
  rejects : Nat := 0
  allow   : Option Nat := none
  mode    : Nat := 0
  scale   : Nat := 0
  pred    : Nat := 0
  grant   : Nat := 0
  subs    : List Nat := []
  status  : Nat := 0
  chosen  : Bool := false

/-- The checks of one entry before the energy test; 0 passes. [DEDUCED: assumption 102] -/
def State.preCheck (s : State) (c : CordCfg) (x : FillCtx) (m : Nat × Nat) : Nat :=
  if m.1 = 3 ∧ !x.interp ∧ s.fillLe c x.i 8 1 ≤ x.gRun then 3
  else if s.inputMissing c x m then 4
  else if x.overrun then 6
  else match s.fillFigures c x m with
    | none => 7
    | some f => if x.due < x.pred f.1 ∧ !x.forced then 1 else 0

/-- P is chosen: its energy is charged without a test. On a panel its warp commit follows within 2 µs, which is its
prediction; elsewhere its FILL job is submitted. [DEDUCED: assumption 101] -/
def FillEval.takeP (e : FillEval) (c : CordCfg) (x : FillCtx) : FillEval :=
  let s := e.st
  let f := (s.fillFigures c x (4, 0)).getD (0, 0)
  let s1 := s.debitReserve c f.2
  if s.fillLe c x.i 0 1 = 1 then { e with st := s1, mode := 4, pred := x.now + 2000, chosen := true }
  else
    let (s2, ds) := s1.chainJobs c x (4, 0)
    match s2.submitChain c x ds f.2 with
    | (s3, .ok subs) => { e with st := s3, mode := 4, pred := x.pred f.1, subs := subs, chosen := true }
    | (s3, .error st) => { e with st := s3, mode := 4, pred := x.pred f.1, status := st, chosen := true }

/-- Evaluate list entry `i`. -/
def FillEval.check (e : FillEval) (c : CordCfg) (x : FillCtx) (i : Nat) (m : Nat × Nat) : FillEval :=
  if e.chosen then e
  else
    let s := e.st
    let note (r : Nat) : FillEval := { e with rejects := e.rejects + r * 16 ^ i }
    if m.1 = 4 then (if x.pIn then (note 8).takeP c x else note 4)
    else
      let r := s.preCheck c x m
      if r ≠ 0 then note r
      else
        let f := (s.fillFigures c x m).getD (0, 0)
        let al := s.allowance c.cord
        let e1 := { e with allow := some (e.allow.getD al) }
        if al < f.2 then { e1 with rejects := e.rejects + 2 * 16 ^ i }
        else
          let (s1, ds) := s.chainJobs c x m
          match s1.submitChain c x ds f.2 with
          | (s2, .ok subs) =>
            { e1 with st := s2.debitReserve c f.2, rejects := e.rejects + 8 * 16 ^ i, mode := m.1, scale := m.2
                      pred := x.pred f.1, grant := f.2, subs := subs, chosen := true }
          | (s2, .error _) => { e1 with st := s2, rejects := e.rejects + 7 * 16 ^ i }

/-- Evaluate the whole list; where no entry is accepted, P or SKIPPED. -/
def State.evalList (s : State) (c : CordCfg) (x : FillCtx) : FillEval :=
  let e := (List.range x.list.length).foldl (fun (e : FillEval) i => e.check c x i (x.list.getD i (0, 0))) { st := s }
  if e.chosen then e else if x.pIn then e.takeP c x else e

/-! ### Records (R269, R271, R272) -/

/-- The 64 bytes of a slot record as the decision writes it. -/
def slotRecordBytes (n : Nat) (x : FillCtx) (e : FillEval) (reason : Nat) (early : Bool) (composed : Bool) (busy : Nat)
    (anchor : Bool) : List Byte :=
  natLe x.due 8 ++ natLe x.now 8 ++ natLe 0 8 ++ natLe (x.i + n * 2 ^ 20) 4 ++ natLe x.k 4 ++
    natLe (e.mode + e.scale * 16) 1 ++ natLe reason 1 ++ natLe e.rejects 2 ++ natLe x.dmax 1 ++ natLe x.gRun 1 ++
    natLe x.anchors 1 ++
    natLe (bit x.newIn 0 + bit composed 1 + bit x.ingest 2 + bit x.forced 3 + bit early 4) 1 ++
    natLe (if e.mode = 0 then 0 else min (e.pred - x.now) 0xFFFFFFFF) 4 ++
    natLe (if x.overrun then 0xFFFFFFFF else min busy 0xFFFFFFFF) 4 ++ natLe (min (e.allow.getD 0 / 1000) 0xFFFFFFFF) 4 ++
    natLe (min ((e.grant + 999) / 1000) 0xFFFFFFFF) 4 ++ natLe 0 1 ++ natLe (if anchor then 4 else 0) 1 ++ natLe 0 6

/-- Write a record at the next index of the ring, if there is one. Answers its number. -/
def State.writeSlotRecord (s : State) (c : CordCfg) (bs : List Byte) : State × Option Nat :=
  let n := c.cord
  let f := s.fillRt n
  if f.size = 0 then (s, none)
  else
    let full := (f.wr + 2 ^ 32 - (s.reg (cordAddr n 0xD014)).toNat % 2 ^ 32) % 2 ^ 32 == f.size
    let s1 := if full then
        (let t := s.bump (cordAddr n 0xD018) 1
         t.eventCordBlock n 0x0903 (t.reg (cordAddr n 0xD018)).toNat)
      else s
    let a := (s1.reg (cordAddr n 0xD008)).toNat % 2 ^ 20 * 65536 + f.wr % f.size * 64
    let s2 := if a + 64 ≤ c.size then s1.putCordBytes c a bs else s1
    (s2.setFillRt n { s2.fillRt n with wr := f.wr + 1 }, some f.wr)

/-- Count a decision: the mode's counter, the reason's, and a fallback (R273, R275). -/
def State.countSlot (s : State) (n mode reason : Nat) : State :=
  let at' := if mode = 0 then 0xD030 else 0xD01C + 4 * mode
  let s1 := s.bump (cordAddr n at') 1
  let s2 := if reason = 1 then s1.bump (cordAddr n 0xD038) 1 else if reason = 2 then s1.bump (cordAddr n 0xD03C) 1 else s1
  if reason = 0 ∨ reason = 5 then s2
  else s2.setFillRt n { s2.fillRt n with fallbacks := (s2.fillRt n).fallbacks + 1 }

/-- The session's state after the decision (R257, R265). [DEDUCED: assumption 106] -/
def State.afterDecision (s : State) (c : CordCfg) (x : FillCtx) (e : FillEval) : State :=
  let i := x.i
  let s1 := s.putFillLe c i 48 4 (x.k + 1)
  let s2 := if e.mode = 1 ∨ e.mode = 2 then
      (let t := (s1.putFillLe c i 52 1 0).putFillLe c i 53 1 (min (x.anchors + 1) 4)
       if x.feed then t.putFillLe c i 46 2 (t.fillLe c i 44 2) else t)
    else if e.mode = 3 then s1.putFillLe c i 52 1 (min (x.gRun + 1) 7)
    else s1
  let s3 := if e.subs = [] then s2 else (s2.fillFlag c i 0 true).putFillLe c i 56 8 e.pred
  if s3.fillLe c i 0 1 = 1 then
    let r := s3.sess i
    s3.setSess i { r with target := some (s.targetFrame c i + s3.fillLe c i 10 1) }
  else s3

/-- Write the record of a decision and keep its slot until it completes; a panel P commits its warp at once (R261,
R266). -/
def State.recordSlot (s : State) (c : CordCfg) (x : FillCtx) (e : FillEval) (reason : Nat) (early anchor composed : Bool)
    (busy : Nat) : State :=
  let (s1, r) := s.writeSlotRecord c (slotRecordBytes c.cord x e reason early composed busy anchor)
  let s2 := (s1.countSlot c.cord e.mode reason).afterDecision c x e
  let kind := s2.fillLe c x.i 0 1
  let tgt := s2.fillLe c x.i 2 2
  let panel := if kind = 1 then some (tgt % 16, tgt / 16 % 16) else none
  let sl : SlotRt := { cord := c.cord, session := x.i, k := x.k, deadline := x.due, mode := e.mode
                       last := e.subs.getLast?.getD 0, subs := e.subs, record := r, panel := panel, anchor := anchor }
  if e.mode = 0 then s2
  else if kind = 1 ∧ e.mode = 4 then
    let s3 := s2.panelCommit (tgt % 16) 0 (2 ^ (tgt / 16 % 16)) 0 stOk
    s3.slotDone c sl stOk (s3.panel (tgt % 16)).seq
  else if e.subs ≠ [] then { s2 with slots := s2.slots ++ [sl] }
  else if early ∧ kind = 1 then { s2 with slots := s2.slots ++ [{ sl with chain := some stOk }] }
  else if early then
    (match s2.tailJob c x.i with
     | some q => { s2 with slots := s2.slots ++ [{ sl with last := q, subs := [q] }] }
     | none => s2.slotDone c sl stOk 0)
  else if e.status = 0 then s2
  else s2.slotDone c sl e.status 0

/-- One forced slot is used up. -/
def State.useForce (s : State) (n i : Nat) : State :=
  let f := s.fillRt n
  s.setFillRt n { f with forces := f.forces.filterMap fun x =>
    if x.session != i then some x else if x.count ≤ 1 then none else some { x with count := x.count - 1 } }

/-- Count the decision and how late it was taken (R252, R274). -/
def State.countDelay (s : State) (delay : Nat) : State :=
  let s1 := s.bump 0x220000 1
  let s2 := s1.setReg 0x220004 (BitVec.ofNat 32 (max (s1.reg 0x220004).toNat (min delay 0xFFFFFFFF)))
  if 50000 < delay then s2.bump 0x220008 1 else s2

/-- The jobs of a session that stand at their retirement points retire: this counts as before a decision of the same
moment (R265). -/
def State.retireReady (s : State) (c : CordCfg) (i : Nat) : State :=
  (s.jobs.filter fun j => j.cord == c.cord && j.session == i && s.atRetirement j).foldl
    (fun t j => t.retireWith j (j.doneStatus t.time)) s

/-- Decide the next slot of a session. [DEDUCED: assumption 105] -/
def State.decideSlot (s0 : State) (c : CordCfg) (i : Nat) : State :=
  let s := s0.retireReady c i
  let x := s.fillCtx c i
  let st := s.fillLe c i 54 1
  let composed := st.testBit 1
  let busyUntil := s.fillLe c i 56 8
  let busy := if st.testBit 0 then busyUntil - x.now else 0
  let s0 := s.countDelay (x.now - s.decisionPoint c i)
  if st.testBit 2 then
    let f := s0.fillRt c.cord
    let m := ((f.early.find? fun y => y.1 == i).map Prod.snd).getD (1, 0)
    let s1 := (s0.setFillRt c.cord { f with early := f.early.filter fun y => y.1 != i }).fillFlag c i 2 false
    let e : FillEval := { st := s1, mode := m.1, scale := m.2, pred := x.pred 0, chosen := true }
    let s2 := s1.recordSlot c x e 0 true false composed busy
    s2.setSess i { s2.sess i with okSlot := some x.k }
  else
    let e := s0.evalList c x
    let rej0 := e.rejects % 16
    let reason := if x.forced then 5 else if rej0 = 8 then 0 else rej0
    let anchor := e.mode == 3 && x.interp
    let s1 := if x.forced then e.st.useForce c.cord i else e.st
    let s2 := if anchor then
        (let f := s1.fillRt c.cord
         let m := (s1.anchorMode c i).getD (1, 0)
         s1.setFillRt c.cord { f with early := (i, m) :: f.early.filter fun y => y.1 != i })
      else s1
    s2.recordSlot c x e reason false anchor composed busy

/-- SLOT_DECISION (R251, R261): the next slot of a session, once it is due and no other due slot comes first. [DEDUCED:
assumption 111] -/
def execSlotDecision (n i : Nat) (s : State) : Out :=
  withUnit (cordOk n)
    (match s.cordCfg n with
     | some c => if !s.slotDue c i || s.dueBefore (s.dueKey c i) then s else s.decideSlot c i
     | none => s)

/-! ### Register writes and windows (R263, R272, R275) -/

/-- FILL_FORCE (R263). -/
def State.fillForce (s : State) (c : CordCfg) (w : Nat) : State :=
  let i := w % 2 ^ 20
  let mode := w / 2 ^ 20 % 8
  let scale := w / 2 ^ 24 % 8
  let count := w / 2 ^ 27
  let f := s.fillRt c.cord
  let others := f.forces.filter fun x => x.session != i
  if w.testBit 23 || !c.hasSession i then s
  else if mode = 0 then s.setFillRt c.cord { f with forces := others }
  else if 4 < mode ∨ count = 0 ∨ (scale = 0 ∧ mode = 2) ∨ (scale ≠ 0 ∧ mode ≠ 2) then s
  else s.setFillRt c.cord { f with forces := others ++ [⟨i, mode, scale, count⟩] }

/-- FILL_FORCE (R263). -/
def execFillForce (d n : Nat) (w : Word) (s : State) : Out :=
  withUnit (hostOk d && cordOk n) (s.cordWrite d n 0xD004 w fun s c => s.fillForce c w.toNat)

/-- FILL_REC_SIZE (R272): the pointers are 0, and earlier records are not updated any more. [DEDUCED: assumption 110] -/
def State.recSize (s : State) (n : Nat) (w : Word) : State :=
  let x := w.toNat % 2 ^ 20
  let s1 := s.setReg (cordAddr n 0xD014) 0
  let s2 := s1.setFillRt n { s1.fillRt n with wr := 0, size := if powerIn x 6 19 then x else 0 }
  { s2 with slots := s2.slots.map fun sl => if sl.cord == n then { sl with record := none } else sl }

/-- FILL_REC_SIZE (R272). -/
def execFillRecSize (d n : Nat) (w : Word) (s : State) : Out :=
  withUnit (hostOk d && cordOk n) (s.cordWrite d n 0xD00C w fun s _ => s.recSize n w)

/-- The end of a 100 ms window of a Cord (R275). -/
def State.fillWindow (s : State) (n : Nat) : State :=
  let f := s.fillRt n
  let th := (s.reg (cordAddr n 0xD01C)).toNat % 65536
  let hit := th != 0 && decide (th ≤ f.fallbacks)
  let s1 := s.setFillRt n { f with saturated := hit, fallbacks := 0 }
  if hit then s1.eventCordBlock n 0x0901 f.fallbacks else s1

/-- FILL_WINDOW_END (R275). -/
def execFillWindowEnd (n : Nat) (s : State) : Out :=
  withUnit (cordOk n) (s.each (0x310000 + n) 100000000 fun t => t.fillWindow n)

end Sys2Proof.Machine
end

