-- ==== Sys2Proof/Machine/HitchOps.lean ====
section
/-! DEFINITION. Operations that reach the Hitch array as commands of their own (R426 to R433): those of a named
source, cancels, and the writes of hosts. -/

namespace Sys2Proof.Machine

/-- The address of register `o` of Hitch `k` (R433). -/
def hitchAddr (k o : Nat) : Nat := 0x1000000 + 16 * k + o

/-- The Cord in whose range an agent may name a Hitch (R200, R425); hosts and edge units have none. -/
def State.agentCord (s : State) : Agent → Option Nat
  | .core h c => some (s.core h c).cord
  | .host _ => none
  | .unit _ => none
  | a => ((s.agentJob a).bind s.job?).map Job.cord

/-- Whether the table of R426 lets a source issue an operation. -/
def issues : Agent → HitchOp → Bool
  | _, .signal _ => true
  | .core _ _, _ => true
  | .window _ _, .wait _ => true
  | .splice _, .wait _ => true
  | .host _, .tryWait _ => true
  | .host _, .setCount _ => true
  | .dispatch _, .tryWait _ => true
  | .binner _, .tryWait _ => true
  | _, _ => false

/-- Whether a source may act on Hitch `k`: the Hitch lies in its Cord's range. -/
def State.mayUse (s : State) (k : Nat) (src : Agent) : Bool :=
  match src with
  | .host _ => true
  | .unit _ => (s.cordOfHitch k).isSome
  | a => (s.agentCord a).isSome && s.cordOfHitch k == s.agentCord a

/-- A WAIT that reaches Hitch `k` (R426, R427, R429): each agent holds at most one entry. -/
def State.hitchWait (s : State) (k n : Nat) (src : Agent) : State :=
  let h := s.hitch k
  if s.hitches.any fun e => e.2.queue.any fun w => w.agent == src then s
  else if h.poison then
    match s.agentJob src with
    | some sub => s.endJob sub stPoisoned
    | none => s
  else
    let (x, g) := h.wait src n
    (s.setHitch k x).grantAll k g

/-- What a successful TRYWAIT gives its issuer (R398, R426, R433). -/
def State.tryDone (s : State) (k : Nat) (src : Agent) (ok : Bool) : State :=
  match src with
  | .host d =>
    let h := s.hitch k
    let rest := h.tryOk.filter fun x => x != d
    s.setHitch k { h with tryOk := if ok then d :: rest else rest }
  | .dispatch sub => if ok then s.modJob sub fun j => { j with waitOk := true } else s
  | .binner sub =>
    if ok then s.modJob sub fun j => { j with pass := { j.pass with waited := true, waitsOn := none } } else s
  | _ => s

/-- TRYWAIT(n) performed at Hitch `k`. -/
def State.hitchTry (s : State) (k n : Nat) (src : Agent) : State :=
  let (h, ok) := (s.hitch k).tryWait n
  (s.setHitch k h).tryDone k src ok

/-- ARM with the value `v` (R426): a set, or a barrier of 1 to 65,535 parties. -/
def State.hitchArm (s : State) (k v : Nat) : State :=
  if v < 2147483648 then s.hitchSet k v
  else if 2147483648 < v ∧ v ≤ 2147483648 + 65535 then s.setHitch k ((s.hitch k).arm (v - 2147483648))
  else s

/-- An operation performed at Hitch `k` in order of arrival (R427). -/
def State.hitchOp (s : State) (k : Nat) (src : Agent) : HitchOp → State
  | .signal n =>
    (match s.agentJob src with
     | some sub => s.noteSignal sub k
     | none => s).hitchSignal k n
  | .wait n => s.hitchWait k n src
  | .tryWait n => s.hitchTry k n src
  | .setCount n => s.hitchSet k (n % 4294967296)
  | .arm v => s.hitchArm k v

/-- HITCH_OPERATION_ARRIVAL (R427). -/
def execHitchOperationArrival (k : Nat) (src : Agent) (op : HitchOp) (s : State) : Out :=
  withUnit (hitchOk k && agentOk src)
    (if s.live && issues src op && s.mayUse k src then s.hitchOp k src op else s)

/-- HITCH_CANCEL (R431): the entry is removed and the queue is served; a core's WAIT has had no effect. -/
def execHitchCancel (k : Nat) (src : Agent) (s : State) : Out :=
  withUnit (hitchOk k && agentOk src)
    (match src with
     | .core h c =>
       let r := s.core h c
       let t := if r.waitsOn = some k then s.setCore h c { r with waitsOn := none, state := 1 } else s
       t.hitchCancel k src
     | _ => s.hitchCancel k src)

/-- HITCH_COUNT (R426): a host's set. -/
def execHitchCount (d k : Nat) (w : Word) (s : State) : Out :=
  withUnit (hostOk d && hitchOk k) (s.hostWrite d (hitchAddr k 0) w fun s => s.hitchSet k w.toNat)

/-- A host's SIGNAL; a value of 0 has no effect (R433). -/
def State.hostSignal (s : State) (k : Nat) (w : Word) : State := if w = 0 then s else s.hitchSignal k w.toNat

/-- HITCH_SIGNAL (R426, R433). -/
def execHitchSignal (d k : Nat) (w : Word) (s : State) : Out :=
  withUnit (hostOk d && hitchOk k) (s.hostWrite d (hitchAddr k 4) w fun s => s.hostSignal k w)

/-- HITCH_TRY (R433): the result is kept for the domain that wrote it. -/
def execHitchTry (d k : Nat) (w : Word) (s : State) : Out :=
  withUnit (hostOk d && hitchOk k) (s.hostWrite d (hitchAddr k 8) w fun s => s.hitchTry k w.toNat (.host d))

/-- A write of 1 to POISON (R429): a poisoned Hitch is cleared, and the clear is logged first. -/
def State.poisonClear (s : State) (d k : Nat) : State :=
  let h := s.hitch k
  if h.poison then (s.logChange (originHost d) 0x107 k 0 0).setHitch k h.unpoison else s

/-- HITCH_POISON_CLEAR (R429). -/
def execHitchPoisonClear (d k : Nat) (s : State) : Out :=
  withUnit (hostOk d && hitchOk k) (s.hostWrite d (hitchAddr k 12) 1 fun s => s.poisonClear d k)

end Sys2Proof.Machine
end

