-- ==== Sys2Proof/Machine/Lands.lean ====
section
/-! DEFINITION. Output lands, their faults, SYNC_OUT and the SMBus target (R537 to R541). -/

namespace Sys2Proof.Machine

/-! ### Outputs (R537, R539) -/

/-- ALERT_N is driven low (R537). -/
def State.alertLow (s : State) : Bool :=
  s.drg.warn || s.drg.limit || s.pwr.holdSince.isSome || !s.lands.disabled.isEmpty || !s.lands.faults.isEmpty

/-- SVC_REQ_N is driven low (R537). -/
def State.svcReqLow (s : State) : Bool := s.flt.service != 0

/-- Whether an output can read wrongly in the way of a kind (R539): SHORT_GND while it drives high, SHORT_SUPPLY while
it drives low, and an open-drain output only while it drives low. SYNC_OUT drives both levels in every millisecond. -/
def State.judged (s : State) (g i kind : Nat) : Bool :=
  let high := kind == 1
  (kind == 1 || kind == 2) &&
    (if g = 0x31 then !high && (if i = 0 then s.svcReqLow else s.alertLow)
     else if g = 0x20 ∨ g = 0x21 then
       (let v := s.panel (g - 0x20)
        (if i = 6 then v.rstN else v.pwrEn).level == high)
     else true)

/-- OUTPUT_FAULT (R539, R540): kind 1 SHORT_GND, 2 SHORT_SUPPLY; the output stops driving. [DEDUCED: assumption 202] -/
def State.outputFault (s : State) (g i kind : Nat) : State :=
  if !s.pwr.powered || !s.judged g i kind || s.lands.disabled.contains (g, i) then s
  else
    let t := s.landFault g i kind
    { t with lands := { t.lands with disabled := (g, i) :: t.lands.disabled
                                     drove := t.lands.drove.put (fun _ => 0) (g * 256 + i) s.wall } }
def execOutputFault (group signal kind : Nat) (s : State) : Out :=
  withUnit (outputOk group signal) (s.outputFault group signal kind)

/-- Whether the land of a panel output changed less than 10 ms ago (R390). -/
def State.panelOutFresh (s : State) (g i : Nat) : Bool :=
  if g = 0x20 ∨ g = 0x21 then
    let v := s.panel (g - 0x20)
    match (if i = 6 then v.rstN else v.pwrEn).changed with
    | some t => decide (s.time < t + 10000000)
    | none => false
  else false

/-- A panel output drives its land again: the change counts under R390. [DEDUCED: assumption 177] -/
def State.markDriven (s : State) (g i : Nat) : State :=
  if g = 0x20 ∨ g = 0x21 then
    let v := s.panel (g - 0x20)
    s.setPanel (g - 0x20) (if i = 6 then { v with rstN := { v.rstN with changed := some s.time } }
      else { v with pwrEn := { v.pwrEn with changed := some s.time } })
  else s

/-- OUTPUT_RETRY (R539, R541): once per second a disabled output drives for 100 µs, and stays enabled if the fault is
gone. -/
def State.outputRetry (s : State) (g i : Nat) (still : Bool) : State :=
  if !s.pwr.powered || !s.lands.disabled.contains (g, i) || s.panelOutFresh g i ||
      decide (s.wall < s.lands.drove.look (fun _ => 0) (g * 256 + i) + 1000000000) then s
  else
    let s0 : State := { s with lands := { s.lands with drove := s.lands.drove.put (fun _ => 0) (g * 256 + i) s.wall } }
    let s1 := s0.markDriven g i
    if still then s1
    else
      let s2 : State := { s1 with lands := { s1.lands with disabled := s1.lands.disabled.filter fun e => e != (g, i) } }
      s2.landClear g i
def execOutputRetry (group signal : Nat) (still : Bool) (s : State) : Out :=
  withUnit (outputOk group signal) (s.outputRetry group signal still)

/-- SYNC_OUT_PULSE (R537): the land goes high at a multiple of 1,000,000 ns of device time. [DEDUCED: assumption 204] -/
def State.syncPulse (s : State) : State :=
  if s.live && s.time % 1000000 == 0 && !s.lands.disabled.contains (0x30, 1) then
    { s with lands := { s.lands with syncOut := some s.time } }
  else s
def execSyncOutPulse (s : State) : Out := withUnit true s.syncPulse

/-- CC_OPEN_TIMEOUT (R540): VBUS has been present for 500 ms without an Rp; the port stays detached. -/
def State.ccOpen (s : State) (d : Nat) : State :=
  if s.live && (s.host d).rate == 0 && decide ((s.host d).downSince + 500000000 ≤ s.time) then
    s.landFault (0x10 + d) 5 3
  else s
def execCcOpenTimeout (d : Nat) (s : State) : Out := withUnit (hostOk d) (s.ccOpen d)

/-! ### USB links (R65, R88) -/

/-- USB_LINK_UP (R65, R403): the link trains, which needs an Rp on a CC land. -/
def State.linkUp (s : State) (d rate : Nat) (flip : Bool) : State :=
  if s.live && !s.clk.relocking then (s.landClear (0x10 + d) 5).setRate d rate flip else s
def execUsbLinkUp (d rate : Nat) (flip : Bool) (s : State) : Out :=
  withUnit (hostOk d && decide (1 ≤ rate) && decide (rate ≤ 5)) (s.linkUp d rate flip)

/-- USB_LINK_DOWN (R88). -/
def execUsbLinkDown (d : Nat) (s : State) : Out := withUnit (hostOk d) (if s.live then s.linkDown d else s)

/-! ### The SMBus target (R538) -/

/-- A read with the data `f` of the state; the target answers while the always-powered domain has power. [DEDUCED:
assumption 203] -/
def State.smbRead (s : State) (f : State → List Byte) : State :=
  if s.pwr.powered then
    let t := s.landClear 0x34 0
    { t with lands := { t.lands with smbData := some (f t) } }
  else s

def execSmbReadStatus (s : State) : Out := withUnit true (s.smbRead fun t => natLe (t.devRead 0) 2)
def execSmbReadResetCause (s : State) : Out := withUnit true (s.smbRead fun t => natLe t.pwr.cause 1)
def execSmbReadService (s : State) : Out := withUnit true (s.smbRead fun t => natLe t.flt.service 1)
def execSmbReadTj (s : State) : Out := withUnit true (s.smbRead fun t => natLe (t.devRead 0x14) 2)
def execSmbReadVoltage (s : State) : Out := withUnit true (s.smbRead fun t => natLe t.pwr.vinMv 2)
def execSmbReadCurrent (s : State) : Out := withUnit true (s.smbRead fun t => natLe t.pwr.iinMa 2)
def execSmbReadPower (s : State) : Out := withUnit true (s.smbRead fun t => natLe t.pwr.inputMw 4)
def execSmbReadLogSequences (s : State) : Out :=
  withUnit true (s.smbRead fun t => natLe t.flt.log.next 4 ++ natLe t.trust.chg.next 4)

/-- The newest entry of a log; with no entry the manual states no data, and the bytes are free (assumption 2). -/
def State.smbEntry (s : State) (log : State → Log) : State :=
  match (log s).entries with
  | e :: _ => s.smbRead fun _ => e.bytes
  | [] =>
    let (bs, t) := s.freeBytes 32
    if s.pwr.powered then t.smbRead fun _ => bs else s
def execSmbReadFaultEntry (s : State) : Out := withUnit true (s.smbEntry fun t => t.flt.log)
def execSmbReadChangeEntry (s : State) : Out := withUnit true (s.smbEntry fun t => t.trust.chg)

/-- The place of a land group in command 0x0A. -/
def groupPlace (g : Nat) : Nat :=
  if g = 1 then 0 else if g < 0x20 then g - 0x0F else if g < 0x30 then g - 0x1B
  else if g = 0x30 then 7 else if g = 0x31 then 8 else if g = 0x32 then 9 else 10

/-- The bits of the (group, signal) pairs that are disabled or faulted. -/
def State.faultBits (s : State) : Nat :=
  let places := (s.lands.disabled ++ s.lands.faults.map fun e => (e.1, e.2.1)).map fun e => 8 * groupPlace e.1 + e.2
  ((List.range 88).map fun i => bit (places.contains i) i).sum
def execSmbReadInterfaceFaults (s : State) : Out := withUnit true (s.smbRead fun t => natLe t.faultBits 16)

/-- SMB_TIMEOUT (R538, R540): SMB_CLK is held low, the bus is released and the target reset. -/
def State.smbTimeout (s : State) : State :=
  if s.pwr.powered then
    let t := s.landFault 0x34 0 5
    { t with lands := { t.lands with smbData := none } }
  else s
def execSmbTimeout (s : State) : Out := withUnit true s.smbTimeout

end Sys2Proof.Machine
end

