-- ==== Sys2Proof/Machine/Lay.lean ====
section
/-! DEFINITION. The Lay image and its loader (chapter 2): the checks of VERIFY in the order of R53, and the steps of an
apply. -/

namespace Sys2Proof.Machine

/-! ### Checks -/

/-- A check that an image fails: its result (R53) and its offset (R55). -/
abbrev Bad := Option (Nat × Nat)

def req (ok : Bool) (result off : Nat) : Bad := if ok then none else some (result, off)

/-- The first failure of a list of checks. -/
def firstBad (cs : List Bad) : Bad := cs.findSome? id

/-- The failure at the lowest offset of a list of checks (R55). -/
def leastBad (cs : List Bad) : Bad :=
  cs.foldl (fun a c =>
    match a, c with
    | some x, some y => if y.2 < x.2 then some y else some x
    | none, c => c
    | a, none => a) none

/-- Bytes [a, a + n) are 0, or the first that is not is a format fault (R28). -/
def reqZero (d : List Byte) (a n : Nat) : Bad :=
  ((List.range n).find? fun i => d.getD (a + i) 0 != 0).map fun i => (2, a + i)

/-- A section of an image: type, instance, offset, length, and the offset of its table entry (R30). -/
structure Sec where
  typ  : Nat
  inst : Nat
  off  : Nat
  len  : Nat
  entry : Nat
  deriving DecidableEq, Repr

/-- The section table. -/
def sections (d : List Byte) : List Sec :=
  (List.range (min (leAt d 16 4) 1042)).map fun i =>
    let e := 128 + 16 * i
    ⟨leAt d e 2, leAt d (e + 2) 2, leAt d (e + 4) 4, leAt d (e + 8) 4, e⟩

/-- The sections of a type, in table order. -/
def secsOf (d : List Byte) (t : Nat) : List Sec := (sections d).filter fun x => x.typ == t

def devOff (d : List Byte) : Nat := ((secsOf d 1).map Sec.off).headD 0
def unitsOff (d : List Byte) : Nat := ((secsOf d 2).map Sec.off).headD 0

/-- Cord number and model index of a MODEL section. -/
def Sec.cordOf (x : Sec) : Nat := x.inst / 256 % 16
def Sec.index (x : Sec) : Nat := x.inst % 256

/-- The MODEL sections of a Cord. -/
def modelSecs (d : List Byte) (n : Nat) : List Sec := (secsOf d 4).filter fun x => x.cordOf == n

/-- Reception has ended short of `image_length` (R53, R55). -/
def checkShort (d : List Byte) : Bad := req (decide (12 ≤ d.length) && decide (leAt d 8 4 ≤ d.length)) 2 8

/-- The header (R29). -/
def checkHeader (d : List Byte) : Bad :=
  let len := leAt d 8 4
  let n := leAt d 16 4
  leastBad [
    req (leAt d 0 4 == 0x4959414C) 2 0,
    req (leAt d 4 2 == 1) 2 4,
    req (len % 4 == 0 && decide (128 + trailerLen ≤ len) && decide (len ≤ 536870912)) 2 8,
    req (leAt d 12 4 + trailerLen == len) 2 12,
    req (decide (2 ≤ n) && decide (n ≤ 1042) && decide (128 + 16 * n ≤ leAt d 12 4)) 2 16,
    req (leAt d 20 4 == 128) 2 20,
    reqZero d 36 4,
    reqZero d 96 32]

/-- One entry of the section table, after a part that ends at `prev` (R27, R28, R30, R31). -/
def checkSec (d : List Byte) (prev : Nat) (x : Sec) : Bad :=
  let want := if x.typ = 2 then 64 else 128
  leastBad [
    req (decide (1 ≤ x.typ) && decide (x.typ ≤ 4)) 2 x.entry,
    req (x.off % 64 == 0 && decide (prev ≤ x.off)) 2 (x.entry + 4),
    req (x.len % 64 == 0 && (if x.typ = 4 then decide (256 ≤ x.len) else x.len == want)) 2 (x.entry + 8),
    req (decide (x.off + x.len ≤ leAt d 12 4)) 2 (x.entry + 4),
    reqZero d (x.entry + 12) 4]

/-- The entries of the section table. [DESIGN CHOICE: assumption 44] -/
def checkSecs (d : List Byte) : Nat → List Sec → Bad
  | _, [] => none
  | prev, x :: rest => leastBad [checkSec d prev x, checkSecs d (x.off + x.len) rest]

/-- The padding between parts. -/
def checkPadding (d : List Byte) : Nat → List Sec → Bad
  | prev, [] => reqZero d prev (leAt d 12 4 - prev)
  | prev, x :: rest => leastBad [reqZero d prev (x.off - prev), checkPadding d (x.off + x.len) rest]

/-- The trailer's form (R50). -/
def checkTrailer (d : List Byte) : Bad :=
  let t := leAt d 12 4
  leastBad [
    req (leAt d t 4 == 0x4749534C) 2 t,
    req (leAt d (t + 4) 4 == trailerLen) 2 (t + 4),
    req (leAt d (t + 104) 4 == 2668) 2 (t + 104),
    reqZero d (t + 2776) 8]

/-- The set of sections (R31): `seen` are the entries before. -/
def checkSet (d : List Byte) : List Sec → List Sec → Bad
  | _, [] => req ((secsOf d 1).length == 1 && (secsOf d 2).length == 1) 2 16
  | seen, x :: rest =>
    let fresh := !(seen.any fun y => y.typ == x.typ && y.inst == x.inst)
    let ok := if x.typ ≤ 2 then x.inst == 0 && fresh
      else if x.typ = 3 then decide (x.inst < 16) && fresh
      else decide (x.inst < 4096) && decide (x.index < 64) && fresh && (secsOf d 3).any fun y => y.inst == x.cordOf
    leastBad [req ok 2 (x.entry + 2), checkSet d (x :: seen) rest]

/-- The blobs of a MODEL header: offset of the pair, and whether it counts timing entries (R46). -/
def blobFields : List (Nat × Nat) := [(16, 1), (24, 1), (32, 1), (40, 1), (48, 1), (56, 1), (64, 32)]

/-- The applicable (mode, scale) pairs of a model class (R48); of a class that R46 does not define, every pair. [DESIGN
CHOICE: assumption 43] -/
def pairOk (cls mode scale : Nat) : Bool :=
  if 2 < cls then true
  else if cls = 1 then (if mode = 2 then decide (1 ≤ scale) && decide (scale ≤ 4)
    else (mode == 1 || mode == 3 || mode == 4) && scale == 0)
  else mode == 0 && scale == 0

/-- Mode, scale and Hearth count of timing entry i of the model at `mo`. -/
def timingKey (d : List Byte) (mo i : Nat) : Nat × Nat × Nat :=
  let a := mo + leAt d (mo + 64) 4 + 32 * i
  (leAt d a 1, leAt d (a + 1) 1, leAt d (a + 2) 2)

def timingLt (a b : Nat × Nat × Nat) : Bool :=
  decide (a.1 < b.1) || (a.1 == b.1 && (decide (a.2.1 < b.2.1) || (a.2.1 == b.2.1 && decide (a.2.2 < b.2.2))))

/-- A timing table (R48) of a Cord of `m` members. -/
def checkTiming (d : List Byte) (mo m : Nat) : Bad :=
  let n := leAt d (mo + 68) 4
  let base := mo + leAt d (mo + 64) 4
  let cls := leAt d (mo + 4) 1
  let keys := (List.range n).map (timingKey d mo)
  leastBad [
    req (n != 0 || decide (2 < cls)) 2 (mo + 64),
    (List.range n).findSome? fun i =>
      let k := keys.getD i (0, 0, 0)
      firstBad [
        req (pairOk cls k.1 k.2.1 && decide (1 ≤ k.2.2) && decide (k.2.2 ≤ m) &&
          (i == 0 || timingLt (keys.getD (i - 1) (0, 0, 0)) k)) 2 (base + 32 * i),
        reqZero d (base + 32 * i + 4) 4,
        reqZero d (base + 32 * i + 28) 4],
    req (keys.all fun k => (List.range m).all fun h => keys.contains (k.1, k.2.1, h + 1)) 2 (mo + 64)]

/-- The form of a MODEL section (R46 to R48). -/
def checkModel (d : List Byte) (m : Nat) (x : Sec) : Bad :=
  let mo := x.off
  let blob (f : Nat × Nat) : Bad :=
    let o := leAt d (mo + f.1) 4
    let n := leAt d (mo + f.1 + 4) 4 * f.2
    req (n == 0 || (o % 64 == 0 && decide (256 ≤ o) && decide (o + n ≤ x.len))) 2 (mo + f.1)
  leastBad [
    req (leAt d (mo + 7) 1 / 4 == 0) 2 (mo + 7),
    blobFields.findSome? blob,
    req (leAt d (mo + 7) 1 / 2 % 2 == 0 || leAt d (mo + 60) 4 != 0) 2 (mo + 56),
    reqZero d (mo + 72) 184,
    if (blob (64, 32)).isSome then none else checkTiming d mo m]

/-- Set bits of a mask. -/
def bitCount (n x : Nat) : Nat := ((List.range n).filter fun i => x.testBit i).length

/-- Reserved bytes of the DEVICE, UNITS and CORD sections, and the models of each Cord in table order (R28). -/
def checkBodies (d : List Byte) : Bad :=
  leastBad ([reqZero d (devOff d + 50) 2, reqZero d (devOff d + 56) 72, reqZero d (unitsOff d + 20) 44] ++
    (secsOf d 3).map fun x =>
      leastBad ([reqZero d (x.off + 2) 2, reqZero d (x.off + 14) 2, reqZero d (x.off + 22) 2, reqZero d (x.off + 120) 8] ++
        (modelSecs d x.inst).map (checkModel d (bitCount 48 (leAt d (x.off + 8) 8)))))

/-- BAD_FORMAT, at the first offending field or byte (R55): a header field lies before every other, and an entry of the
section table before what the sections hold. [DESIGN CHOICE: assumption 41] -/
def checkFormat (d : List Byte) : Bad :=
  let table := 128 + 16 * leAt d 16 4
  firstBad [checkShort d, checkHeader d, leastBad [checkSecs d table (sections d), checkSet d [] (sections d)],
    leastBad [checkPadding d table (sections d), checkBodies d, checkTrailer d]]

/-- Signatures, owner and part (R51, R29). -/
def checkSigned (d : List Byte) (o : OwnerRec) : Bad :=
  let n := leAt d 12 4
  let range := d.take n
  let t := (d.drop n).take trailerLen
  firstBad [
    req (ecdsaOk (o.ecdsaKey, o.lmsKey) range t) 3 (n + 8),
    req (lmsOk (o.ecdsaKey, o.lmsKey) range t) 3 (n + 108),
    req ((d.drop 48).take 48 == hashBytes (Config.sha384 o.ecdsaKey)) 4 48,
    req (leAt d 32 4 == 0x09600040) 5 32]

/-- Two ranges of numbers overlap. -/
def rangesMeet (a n b m : Nat) : Bool := n != 0 && m != 0 && decide (a < b + m) && decide (b < a + n)

/-- OVERLAP of one Cord with those before it (R34, R38). -/
def checkOverlap (d : List Byte) (earlier : List Sec) (x : Sec) : Bad :=
  let o := x.off
  let mask (f n : Nat) : Bool := earlier.any fun y => leAt d (y.off + f) n &&& leAt d (o + f) n != 0
  let span (f : Nat) : Bool := earlier.any fun y =>
    rangesMeet (leAt d (y.off + f) 4) (leAt d (y.off + f + 4) 4) (leAt d (o + f) 4) (leAt d (o + f + 4) 4)
  firstBad [
    req (!mask 8 8) 6 (o + 8),
    req (!mask 16 4) 6 (o + 16),
    req (!mask 20 2 && leAt d (o + 20) 2 &&& leAt d (devOff d + 48) 2 == 0) 6 (o + 20),
    req (!span 24) 6 (o + 24),
    req (!span 32) 6 (o + 32)]

def checkOverlaps (d : List Byte) : List Sec → List Sec → Bad
  | _, [] => none
  | earlier, x :: rest =>
    match checkOverlap d earlier x with
    | some b => some b
    | none => checkOverlaps d (x :: earlier) rest

/-- Size of the placed blobs of a model (R216). -/
def placedSize (d : List Byte) (mo : Nat) : Nat :=
  ([28, 36, 44] : List Nat).foldl (fun a f => (a + 63) / 64 * 64 + leAt d (mo + f) 4) 0

/-- RANGE of a model (R46, R201, R216); `ids` are the model numbers before it in its Cord. -/
def checkModelRange (d : List Byte) (ids : List Nat) (x : Sec) : Bad :=
  let mo := x.off
  firstBad [
    req (!ids.contains (leAt d mo 4)) 7 mo,
    req (decide (leAt d (mo + 4) 1 ≤ 2)) 7 (mo + 4),
    req (decide (leAt d (mo + 5) 1 ≤ 1)) 7 (mo + 5),
    req (decide (1 ≤ leAt d (mo + 6) 1) && decide (leAt d (mo + 6) 1 ≤ 8)) 7 (mo + 6),
    req (decide (placedSize d mo ≤ leAt d (mo + 12) 4)) 7 (mo + 12),
    req (decide (leAt d (mo + 20) 4 ≤ 32768) && leAt d (mo + 20) 4 % 4 == 0) 7 (mo + 16)]

def checkModelRanges (d : List Byte) : List Nat → List Sec → Bad
  | _, [] => none
  | ids, x :: rest =>
    match checkModelRange d ids x with
    | some b => some b
    | none => checkModelRanges d (leAt d x.off 4 :: ids) rest

/-- RANGE of a Cord (R33, R37, R38, R44, R220). -/
def checkCordRange (d : List Byte) (x : Sec) : Bad :=
  let o := x.off
  let hearths := leAt d (o + 8) 8
  let hb := leAt d (o + 44) 4
  let hs := leAt d (o + 60) 4
  firstBad [
    req (leAt d o 1 == x.inst) 7 o,
    req (decide (leAt d (o + 1) 1 < 4)) 7 (o + 1),
    req (hearths != 0 && (List.range 48).all fun h => !hearths.testBit h || leAt d (devOff d + h) 1 == 0) 7 (o + 8),
    req (leAt d (o + 16) 4 != 0) 7 (o + 16),
    req (decide (leAt d (o + 24) 4 + leAt d (o + 28) 4 ≤ 65536)) 7 (o + 24),
    req (decide (1 ≤ leAt d (o + 28) 4) && decide (leAt d (o + 28) 4 ≤ 65536)) 7 (o + 28),
    req (decide (leAt d (o + 32) 4 + leAt d (o + 36) 4 ≤ 1048576)) 7 (o + 32),
    req (decide (1 ≤ leAt d (o + 36) 4) && decide (leAt d (o + 36) 4 ≤ 1048576)) 7 (o + 36),
    req (leAt d (o + 40) 4 % 65536 == 0) 7 (o + 40),
    req (hb % 32768 == 0 && (hb != 0) == (hs != 0)) 7 (o + 44),
    req (decide (hs ≤ 4096)) 7 (o + 60),
    req (leAt d (o + 108) 4 == 0 || leAt d (o + 20) 2 != 0) 7 (o + 108),
    checkModelRanges d [] (modelSecs d x.inst)]

/-- RANGE (R32, R33, R35). -/
def checkRange (d : List Byte) : Bad :=
  let dv := devOff d
  let slice := leAt d (dv + 52) 4
  let cords := secsOf d 3
  firstBad [
    (List.range 48).findSome? fun h =>
      let r := leAt d (dv + h) 1
      req (decide (r ≤ 2) && (r != 0 || cords.any fun x => (leAt d (x.off + 8) 8).testBit h)) 7 (dv + h),
    req (bitCount 16 (leAt d (dv + 48) 2) == 3) 7 (dv + 48),
    req (slice == 0 || (decide (100 ≤ slice) && decide (slice ≤ 100000))) 7 (dv + 52),
    (List.range 20).findSome? fun u =>
      let v := leAt d (unitsOff d + u) 1
      req (v == 0xFF || (v == 0xFE && (u == 12 || u == 17 || u == 18 || u == 19)) || cords.any fun x => x.inst == v) 7
        (unitsOff d + u),
    cords.findSome? (checkCordRange d)]

/-- STORE_BUDGET of a Cord (R39): an allocation that is no multiple of 4,096 is reported at its own field. [DEDUCED:
assumption 206] -/
def checkBudget (d : List Byte) (x : Sec) : Bad :=
  ([0, 1, 2, 3, 4] : List Nat).findSome? fun i =>
    let sum := ((List.range (i + 1)).map fun k => leAt d (x.off + 40 + 4 * k) 4).sum
    req (leAt d (x.off + 40 + 4 * i) 4 % 4096 == 0 && decide (sum ≤ 3932160)) 8 (x.off + 40 + 4 * i)

/-- Minimum sizes of a Cord's region pairs in units (R43, R221). -/
def regionMin (d : List Byte) (x : Sec) : List Nat :=
  let o := x.off
  let m := bitCount 48 (leAt d (o + 8) 8)
  let up (n : Nat) : Nat := (n + 65535) / 65536
  [up ((modelSecs d x.inst).map Sec.len).sum, up (leAt d (o + 36) 4 * 256), 73 * m,
   up (m * leAt d (o + 60) 4 * (leAt d (o + 44) 4 / 8)),
   if (List.range 4).any fun u => leAt d (unitsOff d + u) 1 == x.inst then 1 else 0, 0, 0]

/-- REGION_LAYOUT of a Cord (R43): a channel holds 28,400 units. -/
def checkRegion (d : List Byte) (x : Sec) : Bad :=
  let total := bitCount 32 (leAt d (x.off + 16) 4) * 28400
  let base (i : Nat) : Nat := leAt d (x.off + 64 + 8 * i) 4
  let size (i : Nat) : Nat := leAt d (x.off + 68 + 8 * i) 4
  (List.range 7).findSome? fun i =>
    req (decide ((regionMin d x).getD i 0 ≤ size i) && decide (base i + size i ≤ total) &&
      !((List.range i).any fun k => rangesMeet (base k) (size k) (base i) (size i))) 9 (x.off + 64 + 8 * i)

/-- POWER_RESERVE (R45): the running sum starts with 15,000 mW. -/
def checkReserves (d : List Byte) (cap : Nat) : Nat → List Sec → Bad
  | _, [] => none
  | sum, x :: rest =>
    let t := sum + leAt d (x.off + 4) 4
    if cap < t then some (10, x.off + 4) else checkReserves d cap t rest

/-- FIT of a model (R49). -/
def checkFit (d : List Byte) (x : Sec) : Bad :=
  match (secsOf d 3).find? fun y => y.inst == x.cordOf with
  | some c => req (leAt d (c.off + 108) 4 != 0 || decide (leAt d (x.off + 12) 4 ≤ leAt d (c.off + 40) 4)) 11 (x.off + 12)
  | none => none

/-- RETIRED (R53, R482): Hearths by the physical Hearth that hosts them, reported at the `hearth_role` byte that names
the Hearth ordinary or spare. [DEDUCED: assumption 45] -/
def State.checkRetired (s : State) (d : List Byte) : Bad :=
  let dv := devOff d
  let ways (a : Nat) : Bool := s.flt.retiredWays.all fun w => !(leAt d a 2).testBit w
  firstBad [
    (List.range 48).findSome? fun h => req (leAt d (dv + h) 1 == 2 || !s.lostHearth h) 13 (dv + h),
    req (ways (dv + 48)) 13 (dv + 48),
    (secsOf d 3).findSome? fun x => firstBad [
      req (s.flt.retiredCh.all fun c => !(leAt d (x.off + 16) 4).testBit c) 13 (x.off + 16),
      req (ways (x.off + 20)) 13 (x.off + 20)]]

/-- The checks of VERIFY, in the order of R53 (R55); without Lay keys the owner mismatches first. [DEDUCED: assumption
42] -/
def State.checkImage (s : State) (d : List Byte) : Bad :=
  if s.trust.owner.isDefault then some (4, 48)
  else
    firstBad [checkFormat d, checkSigned d s.trust.owner, checkOverlaps d [] (secsOf d 3), checkRange d,
      (secsOf d 3).findSome? (checkBudget d), (secsOf d 3).findSome? (checkRegion d),
      checkReserves d (s.loader.capW * 1000) 15000 (secsOf d 3), (secsOf d 4).findSome? (checkFit d),
      req (!s.loader.tooBig) 12 8, s.checkRetired d]

/-! ### The image as the machine keeps it -/

def readCord (d : List Byte) (x : Sec) : CordCfg :=
  let g (o n : Nat) : Nat := leAt d (x.off + o) n
  { cord := x.inst, ownerHost := g 1 1, reserveMw := g 4 4, hearths := BitVec.ofNat 48 (g 8 8)
    channels := BitVec.ofNat 32 (g 16 4), ways := BitVec.ofNat 16 (g 20 2), hitchBase := g 24 4, hitchCount := g 28 4
    sessionBase := g 32 4, sessionCount := g 36 4, weightShare := g 40 4, historyBytes := g 44 4, haloBytes := g 48 4
    scaleBytes := g 52 4, tileBytes := g 56 4, historySteps := g 60 4
    region := (List.range 7).map fun i => (g (64 + 8 * i) 4, g (68 + 8 * i) 4) }

def readTiming (d : List Byte) (a : Nat) : Timing :=
  { mode := leAt d a 1, scale := leAt d (a + 1) 1, hearths := leAt d (a + 2) 2, wcNs := leAt d (a + 8) 8
    energy := leAt d (a + 16) 8, spillNs := leAt d (a + 24) 4 }

def readModel (d : List Byte) (x : Sec) : ModelCfg :=
  let g (o n : Nat) : Nat := leAt d (x.off + o) n
  let pair (o : Nat) : Nat × Nat := (g o 4, g (o + 4) 4)
  { cord := x.cordOf, index := x.index, modelId := g 0 4, cls := g 4 1, halo := g 5 1, scaleK := g 6 1, flags := g 7 1
    rows := g 8 4, need := g 12 4, kindling := pair 16, commands := pair 24, codebooks := pair 32, weights := pair 40
    sigs := pair 48, vector := pair 56
    timing := (List.range (g 68 4)).map fun i => readTiming d (x.off + g 64 4 + 32 * i)
    bytes := (d.drop x.off).take x.len }

def readLay (d : List Byte) : LayCfg :=
  let dv := devOff d
  { seq := leAt d 24 8, hash := Config.sha384 (d.take (leAt d 12 4)), roles := (List.range 48).map fun h => leAt d (dv + h) 1
    scWays := BitVec.ofNat 16 (leAt d (dv + 48) 2), beSlice := leAt d (dv + 52) 4
    units := (List.range 20).map fun u => leAt d (unitsOff d + u) 1
    cords := (secsOf d 3).map (readCord d), models := (secsOf d 4).map (readModel d) }

/-! ### Reception (R52, R54, R484) -/

/-- The channels that hold the staging buffer. -/
def State.stageChans (s : State) : List Nat := (List.range 32).filter fun c => !s.flt.retiredCh.contains c

/-- The DRAM address of byte i of the staging buffer: 4 KiB interleave over the channels in service. [DESIGN CHOICE:
assumption 208] -/
def State.stageAddr (s : State) (i : Nat) : Nat :=
  let cs := s.stageChans
  cs.getD (i / 4096 % cs.length) 0 * chBytes + i / 4096 / cs.length * 4096 + i % 4096

/-- The bytes staged so far. -/
def State.staged (s : State) : List Byte :=
  (List.range s.loader.count).map fun i => s.dram.look zeroByte (s.stageAddr i)

/-- An uncorrectable word lies in the staged image. [DEDUCED: assumption 47] -/
def State.stagedUe (s : State) : Bool :=
  s.dramUe.any fun w => (List.range (s.loader.count / 8 + 1)).any fun i => s.stageAddr (8 * i) / 8 == w

def State.modLoader (s : State) (f : Loader → Loader) : State := { s with loader := f s.loader }

/-- A write of a host to the loader block with the effect `body`. -/
def State.layWrite (s : State) (d off : Nat) (w : Word) (body : State → State) : State :=
  s.hostWrite d (0x200000 + off) w body

/-- OPEN (R52, R60). -/
def State.layOpen (s : State) : State :=
  if s.loaderBusy then s else s.modLoader fun l => { l with state := 1, count := 0, tooBig := false, next := none }
def execLayOpen (d : Nat) (s : State) : Out := withUnit (hostOk d) (s.layWrite d 0 1 State.layOpen)

/-- The bytes that reception takes: `image_length` once it has been received, 512 MiB, and what the channels hold.
[DESIGN CHOICE: assumption 46] -/
def State.stageLimit (s : State) : Nat :=
  let most := min 536870912 (s.stageChans.length * 16777216)
  if s.loader.count < 12 then most
  else min most (leNat ((List.range 4).map fun i => s.dram.look zeroByte (s.stageAddr (8 + i))))

/-- LAY_DATA (R54). -/
def State.layData (s : State) (w : Word) : State :=
  let n := s.loader.count
  if s.loader.state ≠ 1 then s
  else if s.stageLimit < n + 4 then s.modLoader fun l => { l with tooBig := true }
  else
    let a := s.stageAddr n
    ({ s with dram := s.dram.putList zeroByte a (natLe w.toNat 4)
              dramUe := if n % 8 = 4 then s.dramUe.filter (fun u => u != a / 8) else s.dramUe } : State).modLoader
      fun l => { l with count := n + 4 }
def execLayData (d : Nat) (w : Word) (s : State) : Out :=
  withUnit (hostOk d) (s.layWrite d 8 w fun s => s.layData w)

/-- VERIFY (R45, R55): the effective cap of this moment is the one that the reserves are held against. -/
def State.layVerify (s : State) : State :=
  if s.loader.state = 1 then s.modLoader fun l => { l with state := 2, capW := s.drg.capW } else s
def execLayVerify (d : Nat) (s : State) : Out := withUnit (hostOk d) (s.layWrite d 0 2 State.layVerify)

/-- VERIFY_DONE (R53, R55, R61). -/
def State.verified (s : State) : State :=
  let d := s.staged
  if s.loader.state ≠ 2 then s
  else
    match s.checkImage d with
    | some (r, off) =>
      (s.logChange (originHost s.trust.owner.host) 0x102 0 0 r).modLoader fun l =>
        { l with state := 0, result := r, errOffset := .ofNat 32 off, next := none }
    | none => s.modLoader fun l => { l with state := 3, result := 1, errOffset := 0xFFFFFFFF, next := some (readLay d) }
def execVerifyDone (s : State) : Out := withUnit true (if s.live then s.verified else s)

/-- CANCEL (R52, R60). -/
def State.layCancel (s : State) : State :=
  if s.loaderBusy then s else s.modLoader fun l => { l with state := 0, next := none }
def execLayCancel (d : Nat) (s : State) : Out := withUnit (hostOk d) (s.layWrite d 0 8 State.layCancel)

/-! ### Apply (R56 to R59) -/

/-- A Lay without Cords, which stands for no active image. -/
def emptyLay : LayCfg :=
  { seq := 0, hash := 0, roles := List.replicate 48 2, scWays := 0, beSlice := 0, units := List.replicate 20 0xFF
    cords := [], models := [] }

/-- Two lists hold the same members. -/
def sameSet {α : Type} [DecidableEq α] (a b : List α) : Bool := (a.all fun x => b.contains x) && b.all fun x => a.contains x

/-- Whether Cord n is affected by a change of image (R56). -/
def affectedCord (old new : LayCfg) (n : Nat) : Bool :=
  let cord (l : LayCfg) : List CordCfg := l.cords.filter fun (c : CordCfg) => c.cord == n
  let models (l : LayCfg) : List (Nat × List Byte) :=
    (l.models.filter fun (m : ModelCfg) => m.cord == n).map fun (m : ModelCfg) => (m.index, m.bytes)
  let unit (u : Nat) : Bool :=
    let a := old.units.getD u 0xFF
    let b := new.units.getD u 0xFF
    a != b && (a == n || b == n || a == 0xFE || b == 0xFE)
  let present := cord old != [] || cord new != []
  present && (cord old != cord new || !sameSet (models old) (models new) || (List.range 20).any unit ||
    old.scWays != new.scWays || old.beSlice != new.beSlice)

/-- LAY_AFFECTED of an apply. -/
def affectedMask (old new : LayCfg) : BitVec 16 :=
  BitVec.ofNat 16 (((List.range 16).filter (affectedCord old new)).map fun n => 2 ^ n).sum

/-- The Cords that the apply in progress affects. -/
def State.affected (s : State) : List Nat := (List.range 16).filter fun n => s.loader.affected.getLsbD n

/-- Abort every job of the affected Cords (R58 steps 2 and 3, R418, R419). -/
def State.abortAffected (s : State) : State :=
  (s.jobs.filter fun j => s.affected.contains j.cord).foldl (fun t j => ((t.job? j.sub).map t.abortOne).getD t) s

/-- APPLY (R58 step 1), with its STOP_POLICY. -/
def State.layApply (s : State) (policy : Nat) : State :=
  match s.loader.next with
  | some new =>
    if s.loader.state ≠ 3 then s
    else
      let s1 := s.modLoader fun l =>
        { l with state := 4, affected := affectedMask (s.lay.getD emptyLay) new, applyAt := s.time }
      if policy % 4 = 0 then s1 else s1.abortAffected
  | none => s
def execLayApply (d policy : Nat) (s : State) : Out :=
  withUnit (hostOk d) (s.layWrite d 0 (.ofNat 32 (4 + policy % 4 * 16)) fun s => s.layApply policy)

/-- LAY_DRAIN_TIMEOUT (R52, R58 step 3): the drain has lasted `LAY_DRAIN_TIMEOUT.US`. -/
def State.drainTimeout (s : State) : State :=
  if s.live && s.loader.state == 4 && decide (s.loader.applyAt + (s.reg 0x200018).toNat * 1000 ≤ s.time) then s.abortAffected
  else s
def execLayDrainTimeout (s : State) : Out := withUnit true s.drainTimeout

/-- The Cord-relative address of a DRAM byte, if it lies in the Cord's region (R42). -/
def CordCfg.relAddr (c : CordCfg) (a : Nat) : Option Nat :=
  let n := c.chans.length
  let off := a % chBytes
  let k := c.chans.findIdx (· == a / chBytes)
  if k < n ∧ devBytes ≤ off then some (((off - devBytes) / 4096 * n + k) * 4096 + off % 4096) else none

/-- Zero bytes [a, a + n) of a Cord region. -/
def State.zeroCord (s : State) (c : CordCfg) (a n : Nat) : State :=
  let inside (x : Nat) : Bool := match c.relAddr x with
    | some r => decide (a ≤ r) && decide (r < a + n)
    | none => false
  { s with dram := s.dram.filter fun e => !inside e.1, dramUe := s.dramUe.filter fun w => !inside (8 * w) }

/-- Step 4: waiters on the Hitches of a Cord complete with POISONED, and its Hitches are reset. -/
def State.resetHitches (s : State) (c : CordCfg) : State :=
  let waiting := (s.hitches.filter fun e => decide (c.hitchBase ≤ e.1) && decide (e.1 < c.hitchBase + c.hitchCount) &&
    e.2.queue != []).map Prod.fst
  let s1 := waiting.foldl State.poisonHitch s
  { s1 with hitches := s1.hitches.wipe c.hitchBase c.hitchCount }

/-- What the machine keeps of an affected Cord goes: its block's registers, counts, sessions, slots and saves, and the
bindings of its data ports. -/
def State.resetCord (s : State) (n : Nat) : State :=
  let free (h : HostPort) : HostPort := { h with ports := h.ports.filter fun e => !(e.2.bound && e.2.cord == n) }
  { s with
    regs := s.regs.wipe (cordAddr n 0) 65536
    cords := s.cords.drop n
    fills := s.fills.drop n
    slots := s.slots.filter fun x => x.cord != n
    saved := s.saved.wipe (n * 65536) 65536
    hosts := ([0, 1, 2, 3] : List Nat).foldl (fun m d => m.modify (fun _ => {}) d free) s.hosts
    drg := { s.drg with accounts := s.drg.accounts.drop n } }

/-- The sessions of a range are gone. -/
def State.resetSessions (s : State) (c : CordCfg) : State :=
  { s with
    sessions := s.sessions.wipe c.sessionBase c.sessionCount
    sessCache := s.sessCache.filter fun i => !(decide (c.sessionBase ≤ i) && decide (i < c.sessionBase + c.sessionCount)) }

/-- Step 5 for one Cord of the new image: its session table is zeroed and its models are copied (R43). `t` sees the new
image. -/
def State.fillStore (t : State) (c : CordCfg) (models : List ModelCfg) : State :=
  (models.filter fun m => m.cord == c.cord).foldl (fun u m => u.putCordBytes c (u.storeAt c m) m.bytes)
    (t.zeroCord c (c.regionBase 1) (c.regionSize 1))

/-- DRAIN_END (R58 steps 4 and 5). [DEDUCED: assumption 50] -/
def State.drained (s : State) : State :=
  match s.loader.next with
  | none => s
  | some new =>
    let hit (c : CordCfg) : Bool := s.affected.contains c.cord
    if s.loader.state ≠ 4 || s.jobs.any fun j => s.affected.contains j.cord then s
    else
      let olds := ((s.lay.getD emptyLay).cords).filter hit
      let news := new.cords.filter hit
      let s1 := (olds ++ news).foldl State.resetHitches s
      let s2 := (olds ++ news).foldl State.resetSessions (s.affected.foldl State.resetCord s1)
      let s3 := news.foldl (fun t c => t.fillStore c new.models) { s2 with lay := some new }
      { s3 with lay := s.lay, loader := { s3.loader with state := 5 } }
def execDrainEnd (s : State) : Out := withUnit true (if s.live then s.drained else s)

/-- The models of a Cord in ascending index. -/
def cordModels (l : LayCfg) (n : Nat) : List ModelCfg :=
  (List.range 64).filterMap fun i => l.models.find? fun m => m.cord == n && m.index == i

/-- Step 6 for one Cord: its weight shares, spill images (R244) and intake cache. [DEDUCED: assumption 49] -/
def State.fillCord (s : State) (l : LayCfg) (c : CordCfg) : State :=
  let ms := cordModels l c.cord
  let s1 := (s.members c.cord).foldl (fun t h =>
    match ms.head? with
    | some m => t.fillShare c m h
    | none =>
      let v := t.hearth h
      t.setHearth h { v with tag := none }) s
  let s2 := (ms.filter fun m => decide (c.weightShare < m.need)).foldl (fun t m =>
    if c.regionSize 5 < t.spillStart c m + spillBytes c m then t
    else t.putCordBytes c (c.regionBase 5 + t.spillStart c m) ((t.residentImage c m m.need).drop c.weightShare)) s1
  s2.emptyCache c

/-- A Hearth that becomes ordinary or spare for the first time runs its start-up test (R474). -/
def State.enterService (s : State) (p : Nat) : State :=
  let v := s.phy p
  let role := match s.logicalOf p with
    | some h => s.roleOf h
    | none => 2
  if role = 2 || v.started || v.testing != 0 || v.service != 0 then s
  else
    (s.setPhy p { v with
      kilns := [(0, 1), (1, 1), (2, 1), (3, 1)], testing := 1, why := [(0, 1), (1, 1), (2, 1), (3, 1)]
      testFrom := ([0, 1, 2, 3] : List Nat).foldl (fun m k => m.put (fun _ => 0) k s.time) v.testFrom }).setHearthState p 1

/-- Step 6: a Hearth that is reserved from now on is powered off (R33). [DEDUCED: assumption 52] -/
def State.powerHearth (s : State) (old : List Nat) (h : Nat) : State :=
  if s.roleOf h = 2 ∧ old.getD h 2 ≠ 2 then s.setHearth h {} else s

/-- Step 6: a panel port whose owner changes is reset, or held in reset. -/
def State.resetPort (s : State) (old new : LayCfg) (p : Nat) : State :=
  if old.units.getD (13 + p) 0xFF = new.units.getD (13 + p) 0xFF then s else s.resetPanel p

/-- Queue an event for the owner host and every host that owns an affected Cord before or after (R58). -/
def State.layEvent (s : State) (old new : LayCfg) (code : Nat) : State :=
  let hosts := s.owner :: ((old.cords ++ new.cords).filter fun (c : CordCfg) => s.affected.contains c.cord).map
    CordCfg.ownerHost
  (([0, 1, 2, 3] : List Nat).filter hosts.contains).foldl (fun t d => t.event d code 0x20 s.loader.affected.toNat) s

/-- The image after an apply that failed (R59): the affected Cords hold nothing. -/
def withoutCords (l : LayCfg) (gone : List Nat) : LayCfg :=
  { l with
    cords := l.cords.filter fun (c : CordCfg) => !gone.contains c.cord
    models := l.models.filter fun (m : ModelCfg) => !gone.contains m.cord
    units := l.units.map fun u => if gone.contains u then 0xFF else u }

/-- APPLY_COMPLETE (R58 steps 6 and 7, R59, R61). -/
def State.applied (s : State) (memError : Bool) : State :=
  match s.loader.next with
  | none => s
  | some new =>
    let old := s.lay.getD emptyLay
    let bad := memError || s.stagedUe
    let now := if bad then withoutCords new s.affected else new
    if s.loader.state ≠ 5 then s
    else
      let who := originHost s.trust.owner.host
      let s1 := s.logChange who 0x103 0 (wordAt (hashBytes old.hash) 0) (wordAt (hashBytes new.hash) 0)
      let s2 := s.affected.foldl (fun t n => t.logChange who 0x104 0 n n) s1
      let s3 : State := { s2 with lay := some now }
      let s4 := (now.cords.filter fun (c : CordCfg) => s.affected.contains c.cord).foldl (fun t c => t.fillCord now c) s3
      let s5 := (List.range 48).foldl (fun t h => t.powerHearth old.roles h) s4
      let s6 := (List.range 48).foldl State.enterService s5
      let s7 := ([0, 1] : List Nat).foldl (fun t p => t.resetPort old now p) s6
      let s8 := s7.layEvent old new (if bad then 0x0202 else 0x0201)
      s8.modLoader fun l => { l with state := 0, result := if bad then 14 else 1, errOffset := 0xFFFFFFFF, next := none }
def execApplyComplete (memError : Bool) (s : State) : Out := withUnit true (if s.live then s.applied memError else s)

end Sys2Proof.Machine
end

