-- ==== Sys2Proof/Machine/Access.lean ====
section
/-! DEFINITION. What one word read or written does: the effect of every register, the data ports, Hearth store
windows and the DRAM window (R5 to R9, R80 to R85, R438, R439, R513 to R516). -/

namespace Sys2Proof.Machine

/-! ### Data ports (R80 to R84) -/

/-- The port whose DP_DATA a plain address is. -/
def dataPortOf (a : Nat) : Option Nat :=
  if 0x10000 ≤ a ∧ a < 0x11000 ∧ a % 256 = 0 then some ((a - 0x10000) / 256) else none

/-- The Cord-relative address of ring word `i`, and whether its 64-bit word holds an uncorrectable error. -/
def State.ringUeAt (s : State) (x : DataPort) (i : Nat) : Bool :=
  match s.cordCfg x.cord with
  | some c => s.cordUe c (x.wordAddr i) 4
  | none => false

/-- Append words to an inbound ring (R82): as many as fit, and the rest are dropped and counted. The answer is the
number appended and the status: 0, 6 DATA_OVERRUN, or 8 MEMORY_ERROR at a word that cannot be updated (R447). -/
def State.portAppend (s : State) (d p : Nat) (ws : List Word) : State × Nat × Nat :=
  let x := s.port d p
  match s.cordCfg x.cord with
  | none => (s, 0, 0)
  | some c =>
    if !x.bound || x.outbound then (s, ws.length, 0)
    else
      let fit := min ws.length x.level
      let n := ((List.range fit).find? fun i => s.ringUeAt x (x.held + i)).getD fit
      let put (t : State) (i : Nat) : State := t.putCordLe c (x.wordAddr (x.held + i)) 4 (ws.getD i 0).toNat
      let s1 := (List.range n).foldl put s
      let s2 := s1.setPort d p { x with held := x.held + n, moved := x.moved + n }
      let s3 := if n = 0 then s2 else s2.ringResume d p
      if n < fit then (s3.noteCordUe c (x.wordAddr (x.held + n)) 4, n, 8)
      else if fit < ws.length then (s3.bump (regKey d (0x1000C + p * 256)) (ws.length - fit), n, 6)
      else (s3, n, 0)

/-- Remove words from an outbound ring (R81): at most `count`, and at most LEVEL. [DEDUCED: assumption 64] -/
def State.portRemove (s : State) (d p count : Nat) : State × List Word × Nat :=
  let x := s.port d p
  match s.cordCfg x.cord with
  | none => (s, [], 0)
  | some c =>
    if !x.bound || !x.outbound then (s, [], 0)
    else
      let most := min count x.level
      let n := ((List.range most).find? fun i => s.ringUeAt x i).getD most
      let ws := (List.range n).map fun i => BitVec.ofNat 32 (s.cordLe c (x.wordAddr i) 4)
      let s1 := s.setPort d p { x with head := (x.head + n) % max 1 x.size, held := x.held - n, moved := x.moved + n }
      if n < most then (s1.noteCordUe c (x.wordAddr n) 4, ws, 8) else (s1, ws, 0)

/-! ### Reads -/

/-- The RC registers of a Cord block (R123, R149, R182, R215, R247, R273, R305, R332, R368, R391, R422). -/
def cordRc (o : Nat) : Bool :=
  let upTo (x lo hi : Nat) : Bool := decide (lo ≤ x) && decide (x ≤ hi)
  if 0x6000 ≤ o ∧ o < 0x7000 then upTo (o % 0x800) 0x3C 0x48
  else if 0x8000 ≤ o ∧ o < 0x8C00 then o % 16 != 0
  else if 0x9000 ≤ o ∧ o < 0x9600 then upTo (o % 32) 4 0x18
  else if 0xA000 ≤ o ∧ o < 0xA600 then o % 32 != 0
  else if 0xB000 ≤ o ∧ o < 0xBC00 then upTo (o % 32) 8 0x1C
  else o == 0x28 || upTo o 0x38 0x40 || o == 0x64 || upTo o 0x7004 0x7024 || upTo o 0xC00C 0xC020 ||
    o == 0xD018 || upTo o 0xD020 0xD03C || upTo o 0xE004 0xE01C || upTo o 0xF004 0xF024

/-- The RC registers, by plain address (R5). -/
def rcReg (a : Nat) : Bool :=
  let upTo (lo hi : Nat) : Bool := decide (lo ≤ a) && decide (a ≤ hi)
  if 0x10000 ≤ a ∧ a < 0x11000 then a % 256 == 0x0C || a % 256 == 0x10
  else if 0x100000 ≤ a ∧ a < 0x200000 then cordRc (a % 65536)
  else upTo 0x1010 0x1014 || upTo 0x210000 0x210004 || upTo 0x220000 0x220008 || upTo 0x240000 0x240008 ||
    upTo 0x250004 0x250010 || upTo 0x26000C 0x260024 || upTo 0x270024 0x270038 || upTo 0x280048 0x280050 ||
    a == 0x29001C || upTo 0x2A0010 0x2A0024

/-- Whether the register at plain address `a` is shown: one of a unit outside the Cord reads 0 (R510). -/
def State.shown (s : State) (a : Nat) : Bool :=
  if 0x100000 ≤ a ∧ a < 0x200000 then s.offShown ((a - 0x100000) / 65536) (a % 65536) else true

/-- A read of DP_STALL_US: the running wait counts, the count clears, and a new stall event may come (R83). -/
def State.stallRead (s : State) (d p : Nat) : Word × State :=
  let x := s.port d p
  let s1 := s.bumpUnits (stallKey d p) 1000 (if x.waiter.isSome then s.time - x.uncounted else 0)
  (s1.reg (stallKey d p), (s1.setPort d p { x with uncounted := s.time, stallSent := false }).setReg (stallKey d p) 0)

/-- Latch the `_HI` of a 64-bit register for domain `d` (R513). -/
def State.latchHi (s : State) (d a v : Nat) : State :=
  let h := s.host d
  s.setHost d { h with latches := h.latches.put (fun _ => 0) a (BitVec.ofNat 32 (v / 2 ^ 32)) }

/-- A read of the register at plain address `a` by domain `d`, with its side effects. -/
def State.regRead (s : State) (d a : Nat) : Word × State :=
  if !s.shown a then (0, s)
  else if 0x10000 ≤ a ∧ a < 0x11000 ∧ a % 256 = 0x10 then s.stallRead d ((a - 0x10000) / 256)
  else if 0x100000 ≤ a ∧ a < 0x200000 ∧ a % 65536 = 0xC00C then
    let t := s.countHeld (a / 65536 % 16)
    (t.peek d a, t.setReg (regKey d a) 0)
  else if rcReg a then (s.peek d a, s.setReg (regKey d a) 0)
  else
    match s.wide d a with
    | some v => (s.peek d a, s.latchHi d a v)
    | none => (s.peek d a, s)

/-- A word of a Cord region through the DRAM window: the Cord and the Cord-relative address of plain address `a`
(R85). -/
def State.windowAt (s : State) (d a : Nat) : Option (CordCfg × Nat) :=
  let w := (s.reg (regKey d 0x1008)).toNat
  let base := (s.reg (regKey d 0x100C)).toNat
  (s.cordCfg (w % 16)).map fun c => (c, base * 65536 + (a - 0x80000000))

/-- A Hearth store window: logical Hearth and store address. -/
def storeSlot (a : Nat) : Option (Nat × Nat) :=
  if 0x4000000 ≤ a ∧ a < 0x10000000 then some ((a - 0x4000000) / 4194304, a % 4194304) else none

/-- A read of the word at address `a`, which may lie in an alias; `none` is a MEMORY_ERROR (R439, R447). [DEDUCED:
assumption 63] -/
def State.readWord (s : State) (d a : Nat) : Option Word × State :=
  let p := plainAddr a
  match storeSlot p with
  | some (h, o) =>
    let t := s.touch h o 4
    if (t.hearth h).meetsUe o 4 then (none, t.noteSramUe h ((t.hearth h).ueAt o 4))
    else (some (BitVec.ofNat 32 ((t.hearth h).store.readLe o 4)), t)
  | none =>
    if 0x80000000 ≤ p then
      match s.windowAt d p with
      | some (c, o) =>
        if s.cordUe c o 4 then (none, s.noteCordUe c o 4) else (some (BitVec.ofNat 32 (s.cordLe c o 4)), s)
      | none => (some 0, s)
    else
      match dataPortOf p with
      | some q =>
        let x := s.port d q
        if !x.outbound then (some 0, s)
        else if x.held = 0 then
          let (v, t) := s.draw
          (some (v.truncate 32), t)
        else
          let (t, ws, st) := s.portRemove d q 1
          (if st = 8 then none else some (ws.headD 0), t)
      | none =>
        let (v, t) := s.regRead d p
        (some v, t)

/-! ### Writes -/

/-- A 64-bit number with its low or high word replaced. -/
def setHalf (x : Nat) (hi : Bool) (w : Word) : Nat :=
  if hi then x % 2 ^ 32 + w.toNat * 2 ^ 32 else x / 2 ^ 32 * 2 ^ 32 + w.toNat

/-- A number modulo 2^64 as an s64. -/
def toS64 (x : Int) : Int := (BitVec.ofInt 64 x).toInt

/-- TSYNC reset (R91): the exchanges and the mapping are discarded. -/
def State.tsyncClear (s : State) (d : Nat) : State :=
  let h := s.host d
  s.setHost d { h with open1 := none, exchanges := [], mapped := false, refHost := 0, offset := 0, ratePpb := 0 }

/-- A write to the host block of domain `d` (R92); the mapping takes a value only while MANUAL is 1. -/
def State.hostBlockWrite (s : State) (d o : Nat) (w : Word) : State :=
  let h := s.host d
  if o = 0x08 then s.setReg (regKey d 0x1008) (w &&& 0x1F)
  else if o = 0x0C then s.setReg (regKey d 0x100C) (w &&& 0xFFFFF)
  else if o = 0x18 then
    let t := s.setReg (regKey d 0x1018) (w &&& 1)
    if w.getLsbD 1 then t.tsyncClear d else t
  else if !s.manual d then s
  else if o = 0x20 ∨ o = 0x24 then
    s.setHost d { h with offset := toS64 (setHalf (h.offset % (2 ^ 64 : Nat)).toNat (o == 0x24) w) }
  else if o = 0x28 then s.setHost d { h with ratePpb := w.toInt }
  else if o = 0x2C ∨ o = 0x30 then s.setHost d { h with refHost := setHalf h.refHost (o == 0x30) w }
  else s

/-- A write to register `o` of panel port `p` (R391). -/
def State.panelRegWrite (s : State) (p o : Nat) (w : Word) : State :=
  if o = 0x00 then s.modPanel p fun v => { v with
    latchErr := v.latchErr && !w.getLsbD 8, modeErr := v.modeErr && !w.getLsbD 9, dcsOvf := v.dcsOvf && !w.getLsbD 11 }
  else if o = 0x04 then s.panelCtrl p w
  else if o = 0x1C then s.panelCommit p (w.toNat % 65536) (w.toNat / 65536) 0 stOk
  else if o = 0x2C then s.modeRequest p w
  else if o = 0x30 then s.panelOutputs p w
  else if o = 0x4C then s.dcsQueue p w
  else if panelRw o = 0 then s
  else s.setReg (panelKey p o) (w &&& BitVec.ofNat 32 (panelRw o))

/-- `HIST_HOLD` (R247): PCT is taken within 20 to 100. -/
def histHold (w : Word) : Word := BitVec.ofNat 32 (max 20 (min 100 (w.toNat % 128)) + w.toNat / 128 % 2 * 128)

/-- A write to register `o` of Cord `n`'s block (R422, R247, R273, R368, R391). -/
def State.cordRegWrite (s : State) (n o : Nat) (w : Word) : State :=
  match s.cordCfg n with
  | none => s
  | some c =>
    if !s.offShown n o then s
    else if 0x6000 ≤ o ∧ o < 0x7000 then s.panelRegWrite ((o - 0x6000) / 0x800) (o % 0x800) w
    else if o = 0x04 then s.openSession c (w.toNat % 2 ^ 20)
    else if o = 0x08 then s.closeSession c (w.toNat % 2 ^ 20)
    else if o = 0x10 then s.abortJob n w.toNat
    else if o = 0x1C then s.cqSize n w
    else if 0x100 ≤ o ∧ o < 0x140 then s.stageWord c true ((o - 0x100) / 4) w
    else if 0x140 ≤ o ∧ o < 0x180 then s.stageWord c false ((o - 0x140) / 4) w
    else if o = 0x7030 then s.cacheCfg n w
    else if o = 0x7034 then (if w.getLsbD 0 then s.resetCache n else s)
    else if o = 0xC004 then s.setReg (cordAddr n o) (histHold w)
    else if o = 0xD004 then s.fillForce c w.toNat
    else if o = 0xD00C then s.recSize n w
    else if cordRw o = 0 then s
    else s.setReg (cordAddr n o) (w &&& BitVec.ofNat 32 (cordRw o))

/-- LAY_CTRL (R52): the command bits act in bit order. [DESIGN CHOICE: assumption 39] -/
def State.layCtrl (s : State) (w : Word) : State :=
  let s1 := if w.getLsbD 0 then s.layOpen else s
  let s2 := if w.getLsbD 1 then s1.layVerify else s1
  let s3 := if w.getLsbD 2 then s2.layApply (w.toNat / 16 % 4) else s2
  if w.getLsbD 3 then s3.layCancel else s3

/-- TRUST_CTRL (R506): the command bits act in bit order. -/
def State.trustCtrl (s : State) (w : Word) : State :=
  let s1 := if w.getLsbD 0 then s.attReq else s
  let s2 := if w.getLsbD 1 then s1.ownOpen else s1
  let s3 := if w.getLsbD 2 then s2.ownVerify else s2
  let s4 := if w.getLsbD 3 then s3.ownCommit else s3
  if w.getLsbD 4 then s4.ownCancel else s4

/-- TRUST_REC_CTRL (R498, R506): the command bits act in bit order, in recovery alone. -/
def State.recCtrl (s : State) (w : Word) : State :=
  let s1 := if w.getLsbD 0 then s.recOpen else s
  let s2 := if w.getLsbD 1 then s1.recVerify else s1
  let s3 := if w.getLsbD 2 then s2.recBoot else s2
  let s4 := if w.getLsbD 3 then s3.recProgram else s3
  if w.getLsbD 4 then s4.recOwner else s4

/-- A write to the trust block (R506). -/
def State.trustBlockWrite (s : State) (o : Nat) (w : Word) : State :=
  if o = 0x04 then s.trustCtrl w
  else if o = 0x14 then s.ownData w
  else if o = 0x24 then s.chgSelect w
  else if 0x60 ≤ o ∧ o < 0x80 then s.nonceWrite ((o - 0x60) / 4) w
  else if s.trust.boot ≠ 1 then s
  else if o = 0x300 then s.recCtrl w
  else if o = 0x304 then s.recData w
  else s

/-- A write to register `o` of Hitch `k` (R433). [DEDUCED: assumption 130] -/
def State.hitchRegWrite (s : State) (d k o : Nat) (w : Word) : State :=
  if o = 0 then s.hitchSet k w.toNat
  else if o = 4 then s.hostSignal k w
  else if o = 8 then s.hitchTry k w.toNat (.host d)
  else
    let t := if w.getLsbD 2 then s.setHitch k { s.hitch k with ovf := false } else s
    if w.getLsbD 0 then t.poisonClear d k else t

/-- The effect of a write to the register at plain address `a` by domain `d`. -/
def State.regWrite (s : State) (d a : Nat) (w : Word) : State :=
  if 0x1000 ≤ a ∧ a < 0x2000 then s.hostBlockWrite d (a - 0x1000) w
  else if 0x10000 ≤ a ∧ a < 0x11000 then
    (if a % 256 = 8 then s.setReg (regKey d a) (w &&& 0xFFFFFF) else s)
  else if 0x100000 ≤ a ∧ a < 0x200000 then s.cordRegWrite ((a - 0x100000) / 65536) (a % 65536) w
  else if a = 0x200000 then s.layCtrl w
  else if a = 0x200008 then s.layData w
  else if a = 0x200018 then s.setReg a w
  else if a = 0x230000 then s.fsgWrite d w
  else if a = 0x230004 then (if w.getLsbD 0 then s.setReg a 0 else s)
  else if a = 0x270004 then s.setCap w
  else if a = 0x280004 ∨ a = 0x2A0004 then s.setReg a (w &&& 3)
  else if a = 0x280010 then s.fltSelect w
  else if 0x290000 ≤ a ∧ a < 0x291000 then s.trustBlockWrite (a - 0x290000) w
  else if 0x1000000 ≤ a ∧ a < 0x1100000 then s.hitchRegWrite d ((a - 0x1000000) / 16) (a % 16) w
  else s

/-- How a word meets its target: a write, an OR, or an AND of the complement (R73, R438). -/
inductive Merge where
  | write | or | andNot
  deriving DecidableEq, Repr

/-- The word that results. -/
def Merge.apply : Merge → Word → Word → Word
  | .write, _, w => w
  | .or, old, w => old ||| w
  | .andNot, old, w => old &&& ~~~w

/-- Write bytes through a Hearth store window; `none` is a MEMORY_ERROR (R439). -/
def State.storeWrite (s : State) (h o : Nat) (bs : List Byte) : State × Nat :=
  let t := s.touch h o bs.length
  let v := t.hearth h
  if v.partUe o bs.length then (t.noteSramUe h (v.ueAt o bs.length), 8)
  else (t.setHearth h (v.write o bs), 0)

/-- Write bytes through the DRAM window (R447). -/
def State.windowWrite (s : State) (c : CordCfg) (o : Nat) (bs : List Byte) : State × Nat :=
  if s.cordPartUe c o bs.length then (s.noteCordUe c o bs.length, 8) else (s.putCordBytes c o bs, 0)

/-- A word written to the register at plain address `a`. Through an alias only RW and RWS fields change (R438,
R514); every other field is left as it was. The old value is what a read would return, for a `_HI` half the latched one.
[DEDUCED: assumption 210] -/
def State.writeReg (s : State) (d a : Nat) (m : Merge) (w : Word) : State :=
  match m with
  | .write => s.loggedWrite d a w fun t => t.regWrite d a w
  | m =>
    let v := m.apply (s.peek d a) w
    s.loggedWrite d a v fun t =>
      if rwMask a = 0 then t else t.regWrite d a (v &&& BitVec.ofNat 32 (rwMask a))

/-- How an address takes a word: the aliases OR it and AND its complement. -/
def aliasMerge (a : Nat) (m : Merge) : Merge :=
  if 0x10000000 ≤ a ∧ a < 0x20000000 then .or else if 0x20000000 ≤ a ∧ a < 0x30000000 then .andNot else m

/-- Write one word at address `a`: the new state and the status 0, 6 DATA_OVERRUN or 8 MEMORY_ERROR. -/
def State.writeWord (s : State) (d a : Nat) (m0 : Merge) (w : Word) : State × Nat :=
  let p := plainAddr a
  let m := aliasMerge a m0
  match storeSlot p with
  | some (h, o) => s.storeWrite h o (natLe (m.apply (BitVec.ofNat 32 ((s.hearth h).store.readLe o 4)) w).toNat 4)
  | none =>
    if 0x80000000 ≤ p then
      match s.windowAt d p with
      | some (c, o) => s.windowWrite c o (natLe w.toNat 4)
      | none => (s, 0)
    else
      match dataPortOf p with
      | some q => if m = .write then
          let r := s.portAppend d q [w]
          (r.1, r.2.2)
        else (s, 0)
      | none => (s.writeReg d p m w, 0)

/-- Write one aligned 64-bit word of a store or DRAM window as a whole (R439). -/
def State.writeDouble (s : State) (d a : Nat) (w v : Word) : State × Nat :=
  let bs := natLe w.toNat 4 ++ natLe v.toNat 4
  match storeSlot a with
  | some (h, o) => s.storeWrite h o bs
  | none =>
    match s.windowAt d a with
    | some (c, o) => s.windowWrite c o bs
    | none => (s, 0)

/-- Whether an address lies in a Hearth store window or the DRAM window, outside the aliases. -/
def memoryAddr (a : Nat) : Bool := (storeSlot a).isSome || decide (0x80000000 ≤ a)

/-- What a request has done so far: the state, the status and the words performed. -/
structure Run where
  st     : State
  status : Nat := 0
  done   : Nat := 0

/-- Write words to consecutive addresses (R70, R439, R513): a MEMORY_ERROR ends the request; two words that cover one
aligned 64-bit word of a memory are written together. [DEDUCED: assumption 62] -/
def State.writeSeq (s : State) (d a : Nat) (m : Merge) (status i : Nat) : List Word → Run
  | [] => ⟨s, status, i⟩
  | [w] =>
    let (t, st) := s.writeWord d a m w
    if st = 8 then ⟨t, 8, i⟩ else ⟨t, max status st, i + 1⟩
  | w :: v :: rest =>
    if m = .write ∧ memoryAddr a ∧ a % 8 = 0 then
      let (t, st) := s.writeDouble d a w v
      if st = 8 then ⟨t, 8, i⟩ else t.writeSeq d (a + 8) m status (i + 2) rest
    else
      let (t, st) := s.writeWord d a m w
      if st = 8 then ⟨t, 8, i⟩ else t.writeSeq d (a + 4) m (max status st) (i + 1) (v :: rest)

/-- Write every word to one address. -/
def State.writeAll (s : State) (d a : Nat) (i : Nat) : List Word → Run
  | [] => ⟨s, 0, i⟩
  | w :: rest =>
    let (t, st) := s.writeWord d a .write w
    if st = 8 then ⟨t, 8, i⟩ else t.writeAll d a (i + 1) rest

/-- Read `n` words, `step` bytes apart, from address `a`; the words read come in order. -/
def State.readSeq (s : State) (d a stride : Nat) : Nat → List Word → Run × List Word
  | 0, acc => (⟨s, 0, acc.length⟩, acc.reverse)
  | n + 1, acc =>
    match s.readWord d a with
    | (some v, t) => t.readSeq d (a + stride) stride n (v :: acc)
    | (none, t) => (⟨t, 8, acc.length⟩, acc.reverse)

/-! ### Rows that access one register -/

/-- A word access that the view of the domain holds. -/
def State.mayAccess (s : State) (d a : Nat) (write : Bool) : Bool :=
  s.live && a % 4 == 0 && (blockOf a).isSome && s.sees d a write

/-- REGISTER_WRITE (R5). -/
def State.hostStore (s : State) (d a : Nat) (w : Word) : State :=
  if s.mayAccess d a true then (s.writeWord d a .write w).1 else s
def execRegisterWrite (d : Nat) (addr w : Word) (s : State) : Out := withUnit (hostOk d) (s.hostStore d addr.toNat w)

/-- Keep the words that a read gave its domain. -/
def State.keepRead (s : State) (d : Nat) (ws : List Word) : State := s.setHost d { s.host d with lastRead := ws }

/-- A read of one word by a domain. -/
def State.hostLoad (s : State) (d a : Nat) : State :=
  if s.mayAccess d a false then
    let (v, t) := s.readWord d a
    t.keepRead d v.toList
  else s

/-- READ_CLEAR (R5, R9): the register is an RC field. -/
def execReadClear (d : Nat) (addr : Word) (s : State) : Out :=
  withUnit (hostOk d) (if rcReg (plainAddr addr.toNat) then s.hostLoad d addr.toNat else s)

/-- LO_READ (R513). -/
def execLoRead (d : Nat) (addr : Word) (s : State) : Out :=
  withUnit (hostOk d) (if (s.wide d (plainAddr addr.toNat)).isSome then s.hostLoad d addr.toNat else s)

/-- SET_ALIAS_WRITE (R438): `addr` is the aliased address. -/
def State.aliasWrite (s : State) (d a : Nat) (m : Merge) (w : Word) : State :=
  if a < 0x10000000 ∧ s.mayAccess d a true then (s.writeWord d a m w).1 else s
def execSetAliasWrite (d : Nat) (addr w : Word) (s : State) : Out :=
  withUnit (hostOk d) (s.aliasWrite d addr.toNat .or w)

/-- CLEAR_ALIAS_WRITE (R438). -/
def execClearAliasWrite (d : Nat) (addr w : Word) (s : State) : Out :=
  withUnit (hostOk d) (s.aliasWrite d addr.toNat .andNot w)

/-- TSYNC_RESET (R91). -/
def execTsyncReset (d : Nat) (s : State) : Out :=
  withUnit (hostOk d) (s.hostWrite d 0x1018 2 fun s => s.tsyncClear d)

/-- Whether a domain reaches its data ports. -/
def State.portsOpen (s : State) (d : Nat) : Bool := s.live && s.trust.boot == 2 && s.sees d 0x10000 true

/-- DP_DATA_WRITE (R82, R84). -/
def State.portWrite (s : State) (d p : Nat) (ws : List Word) : State :=
  if s.portsOpen d && (s.port d p).bound then (s.portAppend d p ws).1 else s
def execDpDataWrite (d p : Nat) (words : List Word) (s : State) : Out := withUnit (portOk d p) (s.portWrite d p words)

/-- DP_DATA_READ (R81, R84): an inbound port gives zeros and removes nothing. -/
def State.portTake (s : State) (d p count : Nat) : State :=
  if s.portsOpen d && (s.port d p).bound then
    if (s.port d p).outbound then
      let r := s.portRemove d p count
      r.1.keepRead d r.2.1
    else s.keepRead d (List.replicate count 0)
  else s
def execDpDataRead (d p count : Nat) (s : State) : Out := withUnit (portOk d p) (s.portTake d p count)

end Sys2Proof.Machine
end

