-- ==== Sys2Proof/Machine/Braid.lean ====
section
/-! DEFINITION. The Braid (R12, R14 to R18, R434, R483): nodes, routes, the rotation of a router, credits, and links that
fail. -/

namespace Sys2Proof.Machine

/-! ### Links that fail (R483) -/

def State.link (s : State) (l : Nat) : Link := s.links.look (fun _ => {}) l
def State.setLink (s : State) (l : Nat) (v : Link) : State := { s with links := s.links.put (fun _ => {}) l v }

/-- The unit whose link it is, for the log. -/
def linkOrigin (l : Nat) : Nat := if l < 0x200 then originHearth (l % 0x100) else originStop (l - 0x200)

/-- The assignable units that an edge stop carries (R14, R35). -/
def stopUnits (i : Nat) : List Nat := (List.range 20).filter fun u => unitAtStop u i

/-- The link to an edge stop is dead (R483): its channels and way are retired, or its units become unassigned and the
jobs on them end; at W0 to W4 the module resets. [DEDUCED: assumption 199] -/
def State.deadStop (s : State) (i : Nat) : State :=
  if i < 16 then ((s.retireChannel (2 * i)).retireChannel (2 * i + 1)).retireWay i
  else if i < 21 then s.beginReset 5
  else
    let us := stopUnits i
    let hit := s.jobs.filter fun j => j.resident && j.units.any us.contains
    let s1 := hit.foldl (fun t j => t.endJob j.sub stTorn) s
    let s2 := if i = 22 then (s1.resetPanel 0).resetPanel 1 else s1
    { s2 with flt := { s2.flt with deadStops := i :: s2.flt.deadStops } }

/-- The second half of a link has failed (R483). -/
def State.deadLink (s : State) (l : Nat) : State :=
  if l < 0x100 then (s.quarantine l).quarantine (l + 1)
  else if l < 0x200 then (s.quarantine (l - 0x100)).quarantine (l - 0x100 + 8)
  else s.deadStop (l - 0x200)

/-- A link reaches its retry limit (R483): the failing half is disabled. -/
def State.linkFails (s : State) (l : Nat) : State :=
  let v := s.link l
  if v.halves = 2 then
    let s1 := (s.setLink l { v with halves := 1, fails := [], retries := [] }).logFault (linkOrigin l) 0x20 l 0 1
    (s1.setService 4).eventOwner 0x1106 0x28 l
  else
    ((s.setLink l { v with halves := 0, fails := [], retries := [], replay := [], held := [] }).logFault (linkOrigin l) 0x20
      l 1 2).deadLink l

/-! ### Routes (R12, R14, R16, R17)

A node is a physical Hearth 0 to 47 with its router, or 48 + i for edge stop i. -/

/-- The router at which an edge stop joins. -/
def stopRouter (i : Nat) : Nat :=
  if i < 8 then i else if i < 16 then 32 + i else if i < 22 then 8 * (i - 16) else 8 * (i - 22) + 7

/-- Sender and receiver of a link in a direction: 0 is east, south, or from the router to its edge stop. -/
def linkEnds (l dir : Nat) : Nat × Nat :=
  let e : Nat × Nat :=
    if l < 0x100 then (l, l + 1)
    else if l < 0x200 then (l - 0x100, l - 0x100 + 8)
    else (stopRouter (l - 0x200), 48 + (l - 0x200))
  if dir = 0 then e else (e.2, e.1)

/-- The node that a packet for `dst` meets after router `r`: along the row first, then along the column (R16). -/
def nextNode (r dst : Nat) : Nat :=
  let q := if dst < 48 then dst else stopRouter (dst - 48)
  if r % 8 < q % 8 then r + 1
  else if q % 8 < r % 8 then r - 1
  else if r < q then r + 8
  else if q < r then r - 8
  else dst

/-- The link and direction of input 1 north, 2 east, 3 south or 4 west of router `r` (R17); input 0 is its Hearth. -/
def sideInput (r side : Nat) : Nat × Nat :=
  if side = 1 then (if r < 8 then (0x200 + r, 1) else (0x100 + (r - 8), 0))
  else if side = 2 then (if r % 8 = 7 then (0x200 + 22 + r / 8, 1) else (r, 1))
  else if side = 3 then (if 40 ≤ r then (0x200 + 8 + (r - 40), 1) else (0x100 + r, 1))
  else if r % 8 = 0 then (0x200 + 16 + r / 8, 1) else (r - 1, 0)

/-! ### Credits and the rotation (R15, R17, R432, R434) -/

/-- Credits of a lane: 16 for requests and for responses, 8 for signals. -/
def laneCredits (cls : Nat) : Nat := if cls = 2 then 8 else 16

def Link.heldOf (v : Link) (lane : Nat) : List (Nat × Nat) := v.held.look (fun _ => []) lane
def Link.replayOf (v : Link) (lane : Nat) : Option (Nat × Nat) := v.replay.look (fun _ => none) lane

/-- The sender's credits of a lane (R434): neither in flight nor taken by what the receiver holds. -/
def Link.credits (v : Link) (dir cls : Nat) : Nat :=
  let lane := dir * 3 + cls
  laneCredits cls - (v.heldOf lane).length - (v.replayOf lane).toList.length

/-- The flit at the head of a side input of router `r` in a class. -/
def State.headFlit (s : State) (r side cls : Nat) : Option (Nat × Nat) :=
  let i := sideInput r side
  ((s.link i.1).heldOf (i.2 * 3 + cls)).head?

/-- Whether a side input has a flit of a class for node `out`. -/
def State.requests (s : State) (r side cls out : Nat) : Bool :=
  match s.headFlit r side cls with
  | some f => nextNode r f.2 == out
  | none => false

/-- The input of router `r` that holds a flit for `out`: its Hearth, or the side whose head it is. -/
def State.inputOf (s : State) (r cls out : Nat) (f : Nat × Nat) : Option Nat :=
  if f.1 = r then some 0
  else ([1, 2, 3, 4] : List Nat).find? fun i => s.headFlit r i cls == some f && s.requests r i cls out

/-- The input that the rotation of an output grants: the first one after the last granted that has a flit for it; `mine`
has one. -/
def State.granted (s : State) (r cls out turn mine : Nat) : Nat :=
  (((List.range 5).map fun i => (turn + i) % 5).find? fun i => i == mine || (i != 0 && s.requests r i cls out)).getD mine

/-- The input from which router `r` sends flit `f` of a class to `out`: it lies on the flit's route, no signal waits for
the output, which goes before requests and responses, and the rotation grants it. [DESIGN CHOICE: assumption 214] -/
def State.sends (s : State) (r cls out turn : Nat) (f : Nat × Nat) : Option Nat :=
  if nextNode r f.2 ≠ out ∨ (cls ≠ 2 ∧ ([1, 2, 3, 4] : List Nat).any (s.requests r · 2 out) = true) then none
  else (s.inputOf r cls out f).bind fun i => if s.granted r cls out turn i = i then some i else none

/-- The flit leaves the input: the credit goes back to the sender of that side's link. -/
def State.leaveInput (s : State) (r cls i : Nat) : State :=
  if i = 0 then s
  else
    let p := sideInput r i
    let v := s.link p.1
    s.setLink p.1 { v with held := v.held.put (fun _ => []) (p.2 * 3 + cls) (v.heldOf (p.2 * 3 + cls)).tail }

/-! ### FLIT_RECEIVE (R16, R18, R483) -/

/-- A flit fails its CRC (R18, R483): it is retransmitted before any later flit of its lane. -/
def State.flitBad (s : State) (l lane : Nat) (f : Nat × Nat) : State :=
  let v := s.link l
  let n := if (v.replayOf lane).isSome then v.fails.look (fun _ => 0) lane + 1 else 0
  let recent := s.time :: v.retries.filter fun t => decide (s.time < t + 1000000000)
  let w : Link := { v with replay := v.replay.put (fun _ => none) lane (some f), fails := v.fails.put (fun _ => 0) lane n
                           retries := recent }
  let s1 := (s.setLink l w).bump 0x280050 1
  if n = 8 ∨ 1024 < recent.length then s1.linkFails l else s1

/-- A flit reaches the receiver: it is held there until it goes on, or delivered at its destination. -/
def State.flitGood (s : State) (l lane here : Nat) (f : Nat × Nat) : State :=
  let v := s.link l
  s.setLink l { v with
    replay := v.replay.put (fun _ => none) lane none, fails := v.fails.put (fun _ => 0) lane 0
    nextFlit := v.nextFlit.put (fun _ => 0) lane (v.nextFlit.look (fun _ => 0) lane + 1)
    held := if here = f.2 then v.held else v.held.put (fun _ => []) lane (v.heldOf lane ++ [f]) }

/-- The flit leaves its sender: it comes from an edge stop's own units, or from the input that the router grants. -/
def State.flitLeaves (s : State) (l dir cls : Nat) (f : Nat × Nat) : Option State :=
  let lane := dir * 3 + cls
  let v := s.link l
  let (a, b) := linkEnds l dir
  if (v.replayOf lane).isSome then (if v.replayOf lane = some f then some s else none)
  else if v.credits dir cls = 0 then none
  else if 48 ≤ a then (if f.1 = a then some s else none)
  else
    (s.sends a cls b (v.turn.look (fun _ => 0) lane) f).map fun i =>
      let t := s.leaveInput a cls i
      let w := t.link l
      t.setLink l { w with turn := w.turn.put (fun _ => 0) lane ((i + 1) % 5) }

/-- A flit of a class arrives over a link. The flits of a lane arrive in order; a dead link carries none. -/
def State.flitReceive (s : State) (l cls : Nat) (x : Flit) (ok : Bool) : State :=
  let lane := x.dir * 3 + cls
  let f := (x.src, x.dst)
  if (s.link l).halves = 0 ∨ x.number ≠ (s.link l).nextFlit.look (fun _ => 0) lane then s
  else
    match s.flitLeaves l x.dir cls f with
    | none => s
    | some t => if ok then t.flitGood l lane (linkEnds l x.dir).2 f else t.flitBad l lane f

/-- FLIT_RECEIVE (R15 to R18). -/
def execFlitReceive (link cls : Nat) (x : Flit) (crcOk : Bool) (s : State) : Out :=
  withUnit (linkOk link && decide (cls < 3) && flitOk x) (if s.live then s.flitReceive link cls x crcOk else s)

end Sys2Proof.Machine
end

