-- ==== Sys2Proof/Machine/KScalar.lean ====
section
/-! DEFINITION. The scalar, memory and branch instructions of the Kindling cores (R187, R188, R193). -/

namespace Sys2Proof.Machine

/-! ### A format: rd := rs1 op rs2 (R187, R188) -/

/-- ADD [0x000]. -/
def execAdd (h c : Nat) (rd rs1 rs2 : BitVec 5) (s : State) : Out :=
  withUnit (coreOk h c) (s.coreStep h c (encA 0x000 rd rs1 rs2) maskAll fun s => s.coreX h c rd fun k =>
    k.readX rs1 + k.readX rs2)

/-- SUB [0x001]. -/
def execSub (h c : Nat) (rd rs1 rs2 : BitVec 5) (s : State) : Out :=
  withUnit (coreOk h c) (s.coreStep h c (encA 0x001 rd rs1 rs2) maskAll fun s => s.coreX h c rd fun k =>
    k.readX rs1 - k.readX rs2)

/-- AND [0x002]. -/
def execAnd (h c : Nat) (rd rs1 rs2 : BitVec 5) (s : State) : Out :=
  withUnit (coreOk h c) (s.coreStep h c (encA 0x002 rd rs1 rs2) maskAll fun s => s.coreX h c rd fun k =>
    k.readX rs1 &&& k.readX rs2)

/-- OR [0x003]. -/
def execOr (h c : Nat) (rd rs1 rs2 : BitVec 5) (s : State) : Out :=
  withUnit (coreOk h c) (s.coreStep h c (encA 0x003 rd rs1 rs2) maskAll fun s => s.coreX h c rd fun k =>
    k.readX rs1 ||| k.readX rs2)

/-- XOR [0x004]. -/
def execXor (h c : Nat) (rd rs1 rs2 : BitVec 5) (s : State) : Out :=
  withUnit (coreOk h c) (s.coreStep h c (encA 0x004 rd rs1 rs2) maskAll fun s => s.coreX h c rd fun k =>
    k.readX rs1 ^^^ k.readX rs2)

/-- SLL [0x005]. -/
def execSll (h c : Nat) (rd rs1 rs2 : BitVec 5) (s : State) : Out :=
  withUnit (coreOk h c) (s.coreStep h c (encA 0x005 rd rs1 rs2) maskAll fun s => s.coreX h c rd fun k =>
    shl (k.readX rs1) (k.readX rs2))

/-- SRL [0x006]. -/
def execSrl (h c : Nat) (rd rs1 rs2 : BitVec 5) (s : State) : Out :=
  withUnit (coreOk h c) (s.coreStep h c (encA 0x006 rd rs1 rs2) maskAll fun s => s.coreX h c rd fun k =>
    shrL (k.readX rs1) (k.readX rs2))

/-- SRA [0x007]. -/
def execSra (h c : Nat) (rd rs1 rs2 : BitVec 5) (s : State) : Out :=
  withUnit (coreOk h c) (s.coreStep h c (encA 0x007 rd rs1 rs2) maskAll fun s => s.coreX h c rd fun k =>
    shrA (k.readX rs1) (k.readX rs2))

/-- SLT [0x008]. -/
def execSlt (h c : Nat) (rd rs1 rs2 : BitVec 5) (s : State) : Out :=
  withUnit (coreOk h c) (s.coreStep h c (encA 0x008 rd rs1 rs2) maskAll fun s => s.coreX h c rd fun k =>
    sltS (k.readX rs1) (k.readX rs2))

/-- SLTU [0x009]. -/
def execSltu (h c : Nat) (rd rs1 rs2 : BitVec 5) (s : State) : Out :=
  withUnit (coreOk h c) (s.coreStep h c (encA 0x009 rd rs1 rs2) maskAll fun s => s.coreX h c rd fun k =>
    sltU (k.readX rs1) (k.readX rs2))

/-- MIN [0x00A]. -/
def execMin (h c : Nat) (rd rs1 rs2 : BitVec 5) (s : State) : Out :=
  withUnit (coreOk h c) (s.coreStep h c (encA 0x00A rd rs1 rs2) maskAll fun s => s.coreX h c rd fun k =>
    minS (k.readX rs1) (k.readX rs2))

/-- MAX [0x00B]. -/
def execMax (h c : Nat) (rd rs1 rs2 : BitVec 5) (s : State) : Out :=
  withUnit (coreOk h c) (s.coreStep h c (encA 0x00B rd rs1 rs2) maskAll fun s => s.coreX h c rd fun k =>
    maxS (k.readX rs1) (k.readX rs2))

/-- MINU [0x00C]. -/
def execMinu (h c : Nat) (rd rs1 rs2 : BitVec 5) (s : State) : Out :=
  withUnit (coreOk h c) (s.coreStep h c (encA 0x00C rd rs1 rs2) maskAll fun s => s.coreX h c rd fun k =>
    minU (k.readX rs1) (k.readX rs2))

/-- MAXU [0x00D]. -/
def execMaxu (h c : Nat) (rd rs1 rs2 : BitVec 5) (s : State) : Out :=
  withUnit (coreOk h c) (s.coreStep h c (encA 0x00D rd rs1 rs2) maskAll fun s => s.coreX h c rd fun k =>
    maxU (k.readX rs1) (k.readX rs2))

/-- MUL [0x010]. -/
def execMul (h c : Nat) (rd rs1 rs2 : BitVec 5) (s : State) : Out :=
  withUnit (coreOk h c) (s.coreStep h c (encA 0x010 rd rs1 rs2) maskAll fun s => s.coreX h c rd fun k =>
    k.readX rs1 * k.readX rs2)

/-- MULH [0x011]. -/
def execMulh (h c : Nat) (rd rs1 rs2 : BitVec 5) (s : State) : Out :=
  withUnit (coreOk h c) (s.coreStep h c (encA 0x011 rd rs1 rs2) maskAll fun s => s.coreX h c rd fun k =>
    mulhS (k.readX rs1) (k.readX rs2))

/-- MULHU [0x012]. -/
def execMulhu (h c : Nat) (rd rs1 rs2 : BitVec 5) (s : State) : Out :=
  withUnit (coreOk h c) (s.coreStep h c (encA 0x012 rd rs1 rs2) maskAll fun s => s.coreX h c rd fun k =>
    mulhU (k.readX rs1) (k.readX rs2))

/-- DIV [0x013]. -/
def execDiv (h c : Nat) (rd rs1 rs2 : BitVec 5) (s : State) : Out :=
  withUnit (coreOk h c) (s.coreStep h c (encA 0x013 rd rs1 rs2) maskAll fun s => s.coreX h c rd fun k =>
    divS (k.readX rs1) (k.readX rs2))

/-- DIVU [0x014]. -/
def execDivu (h c : Nat) (rd rs1 rs2 : BitVec 5) (s : State) : Out :=
  withUnit (coreOk h c) (s.coreStep h c (encA 0x014 rd rs1 rs2) maskAll fun s => s.coreX h c rd fun k =>
    divU (k.readX rs1) (k.readX rs2))

/-- REM [0x015]. -/
def execRem (h c : Nat) (rd rs1 rs2 : BitVec 5) (s : State) : Out :=
  withUnit (coreOk h c) (s.coreStep h c (encA 0x015 rd rs1 rs2) maskAll fun s => s.coreX h c rd fun k =>
    remS (k.readX rs1) (k.readX rs2))

/-- REMU [0x016]. -/
def execRemu (h c : Nat) (rd rs1 rs2 : BitVec 5) (s : State) : Out :=
  withUnit (coreOk h c) (s.coreStep h c (encA 0x016 rd rs1 rs2) maskAll fun s => s.coreX h c rd fun k =>
    remU (k.readX rs1) (k.readX rs2))

/-! ### I format: rd := rs1 op imm (R186 to R188) -/

/-- ADDI 0x01. -/
def execAddi (h c : Nat) (rd rs1 : BitVec 5) (imm : BitVec 16) (s : State) : Out :=
  withUnit (coreOk h c) (s.coreStep h c (encI 0x01 rd rs1 imm) maskAll fun s => s.coreX h c rd fun k =>
    k.readX rs1 + imm.signExtend 64)

/-- ANDI 0x02. -/
def execAndi (h c : Nat) (rd rs1 : BitVec 5) (imm : BitVec 16) (s : State) : Out :=
  withUnit (coreOk h c) (s.coreStep h c (encI 0x02 rd rs1 imm) maskAll fun s => s.coreX h c rd fun k =>
    k.readX rs1 &&& imm.zeroExtend 64)

/-- ORI 0x03. -/
def execOri (h c : Nat) (rd rs1 : BitVec 5) (imm : BitVec 16) (s : State) : Out :=
  withUnit (coreOk h c) (s.coreStep h c (encI 0x03 rd rs1 imm) maskAll fun s => s.coreX h c rd fun k =>
    k.readX rs1 ||| imm.zeroExtend 64)

/-- XORI 0x04. -/
def execXori (h c : Nat) (rd rs1 : BitVec 5) (imm : BitVec 16) (s : State) : Out :=
  withUnit (coreOk h c) (s.coreStep h c (encI 0x04 rd rs1 imm) maskAll fun s => s.coreX h c rd fun k =>
    k.readX rs1 ^^^ imm.zeroExtend 64)

/-- SLLI 0x05. -/
def execSlli (h c : Nat) (rd rs1 : BitVec 5) (imm : BitVec 16) (s : State) : Out :=
  withUnit (coreOk h c) (s.coreStep h c (encI 0x05 rd rs1 imm) maskAll fun s => s.coreX h c rd fun k =>
    shl (k.readX rs1) (imm.zeroExtend 64))

/-- SRLI 0x06. -/
def execSrli (h c : Nat) (rd rs1 : BitVec 5) (imm : BitVec 16) (s : State) : Out :=
  withUnit (coreOk h c) (s.coreStep h c (encI 0x06 rd rs1 imm) maskAll fun s => s.coreX h c rd fun k =>
    shrL (k.readX rs1) (imm.zeroExtend 64))

/-- SRAI 0x07. -/
def execSrai (h c : Nat) (rd rs1 : BitVec 5) (imm : BitVec 16) (s : State) : Out :=
  withUnit (coreOk h c) (s.coreStep h c (encI 0x07 rd rs1 imm) maskAll fun s => s.coreX h c rd fun k =>
    shrA (k.readX rs1) (imm.zeroExtend 64))

/-- SLTI 0x08. -/
def execSlti (h c : Nat) (rd rs1 : BitVec 5) (imm : BitVec 16) (s : State) : Out :=
  withUnit (coreOk h c) (s.coreStep h c (encI 0x08 rd rs1 imm) maskAll fun s => s.coreX h c rd fun k =>
    sltS (k.readX rs1) (imm.signExtend 64))

/-- SLTIU 0x09. -/
def execSltiu (h c : Nat) (rd rs1 : BitVec 5) (imm : BitVec 16) (s : State) : Out :=
  withUnit (coreOk h c) (s.coreStep h c (encI 0x09 rd rs1 imm) maskAll fun s => s.coreX h c rd fun k =>
    sltU (k.readX rs1) (imm.signExtend 64))

/-- LUI 0x0A. -/
def execLui (h c : Nat) (rd rs1 : BitVec 5) (imm : BitVec 16) (s : State) : Out :=
  withUnit (coreOk h c) (s.coreStep h c (encI 0x0A rd rs1 imm) maskAll fun s => s.coreX h c rd fun _ =>
    ((imm ++ (0 : BitVec 16)).signExtend 64 : DWord))

/-- JALR 0x0B: rd := pc + 4, then the jump (R188). -/
def execJalr (h c : Nat) (rd rs1 : BitVec 5) (imm : BitVec 16) (s : State) : Out :=
  withUnit (coreOk h c) (s.coreStep h c (encI 0x0B rd rs1 imm) maskAll fun s =>
    s.coreJump h c ((s.core h c).jalrTarget rs1 imm) fun k => k.writeX rd (BitVec.ofNat 64 (k.pc + 4)))

/-! ### M format: loads and stores (R186, R188, R193) -/

/-- LB 0x10. -/
def execLb (h c : Nat) (rd base : BitVec 5) (off : BitVec 16) (s : State) : Out :=
  withUnit (coreOk h c) (s.coreStep h c (encI 0x10 rd base off) maskAll fun s =>
    s.coreLoad h c ((s.core h c).effAddr base off) 1 fun x k => k.writeX rd ((BitVec.ofNat 8 x).signExtend 64))

/-- LBU 0x11. -/
def execLbu (h c : Nat) (rd base : BitVec 5) (off : BitVec 16) (s : State) : Out :=
  withUnit (coreOk h c) (s.coreStep h c (encI 0x11 rd base off) maskAll fun s =>
    s.coreLoad h c ((s.core h c).effAddr base off) 1 fun x k => k.writeX rd (BitVec.ofNat 64 x))

/-- LH 0x12. -/
def execLh (h c : Nat) (rd base : BitVec 5) (off : BitVec 16) (s : State) : Out :=
  withUnit (coreOk h c) (s.coreStep h c (encI 0x12 rd base off) maskAll fun s =>
    s.coreLoad h c ((s.core h c).effAddr base off) 2 fun x k => k.writeX rd ((BitVec.ofNat 16 x).signExtend 64))

/-- LHU 0x13. -/
def execLhu (h c : Nat) (rd base : BitVec 5) (off : BitVec 16) (s : State) : Out :=
  withUnit (coreOk h c) (s.coreStep h c (encI 0x13 rd base off) maskAll fun s =>
    s.coreLoad h c ((s.core h c).effAddr base off) 2 fun x k => k.writeX rd (BitVec.ofNat 64 x))

/-- LW 0x14. -/
def execLw (h c : Nat) (rd base : BitVec 5) (off : BitVec 16) (s : State) : Out :=
  withUnit (coreOk h c) (s.coreStep h c (encI 0x14 rd base off) maskAll fun s =>
    s.coreLoad h c ((s.core h c).effAddr base off) 4 fun x k => k.writeX rd ((BitVec.ofNat 32 x).signExtend 64))

/-- LWU 0x15. -/
def execLwu (h c : Nat) (rd base : BitVec 5) (off : BitVec 16) (s : State) : Out :=
  withUnit (coreOk h c) (s.coreStep h c (encI 0x15 rd base off) maskAll fun s =>
    s.coreLoad h c ((s.core h c).effAddr base off) 4 fun x k => k.writeX rd (BitVec.ofNat 64 x))

/-- LD 0x16. -/
def execLd (h c : Nat) (rd base : BitVec 5) (off : BitVec 16) (s : State) : Out :=
  withUnit (coreOk h c) (s.coreStep h c (encI 0x16 rd base off) maskAll fun s =>
    s.coreLoad h c ((s.core h c).effAddr base off) 8 fun x k => k.writeX rd (BitVec.ofNat 64 x))

/-- SB 0x17. -/
def execSb (h c : Nat) (rs base : BitVec 5) (off : BitVec 16) (s : State) : Out :=
  withUnit (coreOk h c) (s.coreStep h c (encI 0x17 rs base off) maskAll fun s =>
    s.coreStore h c ((s.core h c).effAddr base off) 1 fun k _ => (k.readX rs).toNat)

/-- SH 0x18. -/
def execSh (h c : Nat) (rs base : BitVec 5) (off : BitVec 16) (s : State) : Out :=
  withUnit (coreOk h c) (s.coreStep h c (encI 0x18 rs base off) maskAll fun s =>
    s.coreStore h c ((s.core h c).effAddr base off) 2 fun k _ => (k.readX rs).toNat)

/-- SW 0x19. -/
def execSw (h c : Nat) (rs base : BitVec 5) (off : BitVec 16) (s : State) : Out :=
  withUnit (coreOk h c) (s.coreStep h c (encI 0x19 rs base off) maskAll fun s =>
    s.coreStore h c ((s.core h c).effAddr base off) 4 fun k _ => (k.readX rs).toNat)

/-- SD 0x1A. -/
def execSd (h c : Nat) (rs base : BitVec 5) (off : BitVec 16) (s : State) : Out :=
  withUnit (coreOk h c) (s.coreStep h c (encI 0x1A rs base off) maskAll fun s =>
    s.coreStore h c ((s.core h c).effAddr base off) 8 fun k _ => (k.readX rs).toNat)

/-- VLD 0x1B: 64 bytes, all lanes (R188). -/
def execVld (h c : Nat) (vd base : BitVec 5) (off : BitVec 16) (s : State) : Out :=
  withUnit (coreOk h c) (s.coreStep h c (encI 0x1B vd base off) maskAll fun s =>
    s.coreLoad h c ((s.core h c).effAddr base off) 64 fun x k => k.writeV vd (BitVec.ofNat 512 x))

/-- VST 0x1C: 64 bytes, all lanes (R188). -/
def execVst (h c : Nat) (vs base : BitVec 5) (off : BitVec 16) (s : State) : Out :=
  withUnit (coreOk h c) (s.coreStep h c (encI 0x1C vs base off) maskAll fun s =>
    s.coreStore h c ((s.core h c).effAddr base off) 64 fun k _ => (k.readV vs).toNat)

/-- SETW 0x1D: the word ORed with x[rs] [31:0] (R188). -/
def execSetw (h c : Nat) (rs base : BitVec 5) (off : BitVec 16) (s : State) : Out :=
  withUnit (coreOk h c) (s.coreStep h c (encI 0x1D rs base off) maskAll fun s =>
    s.coreStore h c ((s.core h c).effAddr base off) 4 fun k old => old ||| (k.readX rs).toNat % 2 ^ 32)

/-- CLRW 0x1E: the word ANDed with the complement of x[rs] [31:0] (R188). -/
def execClrw (h c : Nat) (rs base : BitVec 5) (off : BitVec 16) (s : State) : Out :=
  withUnit (coreOk h c) (s.coreStep h c (encI 0x1E rs base off) maskAll fun s =>
    s.coreStore h c ((s.core h c).effAddr base off) 4 fun k old =>
      (BitVec.ofNat 32 old &&& ~~~(k.readX rs).truncate 32).toNat)

/-! ### B format: branches (R186, R188) -/

/-- BEQ 0x20. -/
def execBeq (h c : Nat) (rs1 rs2 : BitVec 5) (off : BitVec 16) (s : State) : Out :=
  withUnit (coreOk h c) (s.coreStep h c (encB 0x20 rs1 rs2 off) maskAll fun s =>
    let k := s.core h c
    s.coreBranch h c (branchTarget k.pc off) (k.readX rs1 == k.readX rs2))

/-- BNE 0x21. -/
def execBne (h c : Nat) (rs1 rs2 : BitVec 5) (off : BitVec 16) (s : State) : Out :=
  withUnit (coreOk h c) (s.coreStep h c (encB 0x21 rs1 rs2 off) maskAll fun s =>
    let k := s.core h c
    s.coreBranch h c (branchTarget k.pc off) (k.readX rs1 != k.readX rs2))

/-- BLT 0x22. -/
def execBlt (h c : Nat) (rs1 rs2 : BitVec 5) (off : BitVec 16) (s : State) : Out :=
  withUnit (coreOk h c) (s.coreStep h c (encB 0x22 rs1 rs2 off) maskAll fun s =>
    let k := s.core h c
    s.coreBranch h c (branchTarget k.pc off) (decide ((k.readX rs1).toInt < (k.readX rs2).toInt)))

/-- BGE 0x23. -/
def execBge (h c : Nat) (rs1 rs2 : BitVec 5) (off : BitVec 16) (s : State) : Out :=
  withUnit (coreOk h c) (s.coreStep h c (encB 0x23 rs1 rs2 off) maskAll fun s =>
    let k := s.core h c
    s.coreBranch h c (branchTarget k.pc off) (decide ((k.readX rs2).toInt ≤ (k.readX rs1).toInt)))

/-- BLTU 0x24. -/
def execBltu (h c : Nat) (rs1 rs2 : BitVec 5) (off : BitVec 16) (s : State) : Out :=
  withUnit (coreOk h c) (s.coreStep h c (encB 0x24 rs1 rs2 off) maskAll fun s =>
    let k := s.core h c
    s.coreBranch h c (branchTarget k.pc off) (decide ((k.readX rs1).toNat < (k.readX rs2).toNat)))

/-- BGEU 0x25. -/
def execBgeu (h c : Nat) (rs1 rs2 : BitVec 5) (off : BitVec 16) (s : State) : Out :=
  withUnit (coreOk h c) (s.coreStep h c (encB 0x25 rs1 rs2 off) maskAll fun s =>
    let k := s.core h c
    s.coreBranch h c (branchTarget k.pc off) (decide ((k.readX rs2).toNat ≤ (k.readX rs1).toNat)))

/-- JAL 0x26: rd := pc + 4, then the jump (R188). -/
def execJal (h c : Nat) (rd : BitVec 5) (off : BitVec 16) (s : State) : Out :=
  withUnit (coreOk h c) (s.coreStep h c (encB 0x26 rd 0 off) maskAll fun s =>
    s.coreJump h c (branchTarget (s.core h c).pc off) fun k => k.writeX rd (BitVec.ofNat 64 (k.pc + 4)))

/-- BPANY 0x27: branch if any bit of the predicate is 1 (R188). -/
def execBpany (h c : Nat) (pr : BitVec 3) (off : BitVec 16) (s : State) : Out :=
  withUnit (coreOk h c) (s.coreStep h c (encBP 0x27 pr off) maskPd fun s =>
    let k := s.core h c
    s.coreBranch h c (branchTarget k.pc off) (k.readP pr != 0))

/-- BPNONE 0x28: branch if no bit of the predicate is 1 (R188). -/
def execBpnone (h c : Nat) (pr : BitVec 3) (off : BitVec 16) (s : State) : Out :=
  withUnit (coreOk h c) (s.coreStep h c (encBP 0x28 pr off) maskPd fun s =>
    let k := s.core h c
    s.coreBranch h c (branchTarget k.pc off) (k.readP pr == 0))

end Sys2Proof.Machine
end

