-- ==== Sys2Proof/Machine/KVector.lean ====
section
/-! DEFINITION. The vector and predicate instructions of the Kindling cores (R184, R187 to R189); VTEX stands with the
texture unit. -/

namespace Sys2Proof.Machine

/-! ### Integer vector instructions (0x30; R184, R187, R188) -/

/-- VADD [0x00]. -/
def execVadd (h c : Nat) (vd vs1 vs2 : BitVec 5) (pr : BitVec 3) (w16 : Bool) (s : State) : Out :=
  withUnit (coreOk h c) (s.coreStep h c (encV 0x30 0x00 vd vs1 vs2 pr w16) maskAll fun s =>
    s.coreV h c vd pr w16 fun k i => lane w16 (k.readV vs1) i + lane w16 (k.readV vs2) i)

/-- VSUB [0x01]. -/
def execVsub (h c : Nat) (vd vs1 vs2 : BitVec 5) (pr : BitVec 3) (w16 : Bool) (s : State) : Out :=
  withUnit (coreOk h c) (s.coreStep h c (encV 0x30 0x01 vd vs1 vs2 pr w16) maskAll fun s =>
    s.coreV h c vd pr w16 fun k i => bitsOf (laneBits w16) (laneS w16 (k.readV vs1) i - laneS w16 (k.readV vs2) i))

/-- VADDS [0x02]: sat32 or sat16. -/
def execVadds (h c : Nat) (vd vs1 vs2 : BitVec 5) (pr : BitVec 3) (w16 : Bool) (s : State) : Out :=
  withUnit (coreOk h c) (s.coreStep h c (encV 0x30 0x02 vd vs1 vs2 pr w16) maskAll fun s =>
    s.coreV h c vd pr w16 fun k i => bitsOf (laneBits w16) (satS (laneBits w16) (laneS w16 (k.readV vs1) i + laneS w16 (k.readV vs2) i)))

/-- VMUL [0x03]: the low half. -/
def execVmul (h c : Nat) (vd vs1 vs2 : BitVec 5) (pr : BitVec 3) (w16 : Bool) (s : State) : Out :=
  withUnit (coreOk h c) (s.coreStep h c (encV 0x30 0x03 vd vs1 vs2 pr w16) maskAll fun s =>
    s.coreV h c vd pr w16 fun k i => lane w16 (k.readV vs1) i * lane w16 (k.readV vs2) i)

/-- VMULH [0x04]: the signed high half. -/
def execVmulh (h c : Nat) (vd vs1 vs2 : BitVec 5) (pr : BitVec 3) (w16 : Bool) (s : State) : Out :=
  withUnit (coreOk h c) (s.coreStep h c (encV 0x30 0x04 vd vs1 vs2 pr w16) maskAll fun s =>
    s.coreV h c vd pr w16 fun k i => bitsOf (laneBits w16) (laneS w16 (k.readV vs1) i * laneS w16 (k.readV vs2) i / (2 ^ laneBits w16 : Nat)))

/-- VMAC [0x05]: vd + vs1 × vs2, low half. -/
def execVmac (h c : Nat) (vd vs1 vs2 : BitVec 5) (pr : BitVec 3) (w16 : Bool) (s : State) : Out :=
  withUnit (coreOk h c) (s.coreStep h c (encV 0x30 0x05 vd vs1 vs2 pr w16) maskAll fun s =>
    s.coreV h c vd pr w16 fun k i => lane w16 (k.readV vd) i + lane w16 (k.readV vs1) i * lane w16 (k.readV vs2) i)

/-- VMACW [0x06], 32-bit form only: the pair of vd gains the exact product in each lane; a sum outside 64 bits is a
free value. [DESIGN CHOICE: assumption 13] -/
def execVmacw (h c : Nat) (vd vs1 vs2 : BitVec 5) (pr : BitVec 3) (w16 : Bool) (s : State) : Out :=
  withUnit (coreOk h c) (s.coreStep h c (encV 0x30 0x06 vd vs1 vs2 pr w16) maskAll fun s =>
    ({ s with draws := s.draws + 16 } : State).coreNext h c fun k =>
      let lo := k.readV vd
      let hi := k.readV (vd + 1)
      let sum (i : Nat) : Nat :=
        let x := pairLane lo hi i + laneS false (k.readV vs1) i * laneS false (k.readV vs2) i
        if -(2 ^ 63) ≤ x ∧ x < 2 ^ 63 then bitsOf 64 x else (Config.freeValue (s.draws + i)).toNat
      (k.writeV vd (maskLanes false (k.readP pr) lo sum)).writeV (vd + 1)
        (maskLanes false (k.readP pr) hi fun i => sum i / 2 ^ 32))

/-- VRSHR [0x07]: rshift_rne (R106). -/
def execVrshr (h c : Nat) (vd vs1 vs2 : BitVec 5) (pr : BitVec 3) (w16 : Bool) (s : State) : Out :=
  withUnit (coreOk h c) (s.coreStep h c (encV 0x30 0x07 vd vs1 vs2 pr w16) maskAll fun s =>
    s.coreV h c vd pr w16 fun k i => bitsOf (laneBits w16) (rshiftRne (laneS w16 (k.readV vs1) i) (laneShift w16 (k.readV vs2) i)))

/-- VRSHRW [0x08], 32-bit form only: the pair of vs1 shifted by [5:0] of the vs2 lane, then sat32. -/
def execVrshrw (h c : Nat) (vd vs1 vs2 : BitVec 5) (pr : BitVec 3) (w16 : Bool) (s : State) : Out :=
  withUnit (coreOk h c) (s.coreStep h c (encV 0x30 0x08 vd vs1 vs2 pr w16) maskAll fun s =>
    s.coreV h c vd pr false fun k i =>
      bitsOf 32 (sat32 (rshiftRne (pairLane (k.readV vs1) (k.readV (vs1 + 1)) i)
        (lane false (k.readV vs2) i % 64))))

/-- VSLL [0x09]. -/
def execVsll (h c : Nat) (vd vs1 vs2 : BitVec 5) (pr : BitVec 3) (w16 : Bool) (s : State) : Out :=
  withUnit (coreOk h c) (s.coreStep h c (encV 0x30 0x09 vd vs1 vs2 pr w16) maskAll fun s =>
    s.coreV h c vd pr w16 fun k i => lane w16 (k.readV vs1) i * 2 ^ (laneShift w16 (k.readV vs2) i))

/-- VSRA [0x0A]. -/
def execVsra (h c : Nat) (vd vs1 vs2 : BitVec 5) (pr : BitVec 3) (w16 : Bool) (s : State) : Out :=
  withUnit (coreOk h c) (s.coreStep h c (encV 0x30 0x0A vd vs1 vs2 pr w16) maskAll fun s =>
    s.coreV h c vd pr w16 fun k i => bitsOf (laneBits w16) (laneS w16 (k.readV vs1) i / (2 ^ (laneShift w16 (k.readV vs2) i) : Nat)))

/-- VSRL [0x0B]. -/
def execVsrl (h c : Nat) (vd vs1 vs2 : BitVec 5) (pr : BitVec 3) (w16 : Bool) (s : State) : Out :=
  withUnit (coreOk h c) (s.coreStep h c (encV 0x30 0x0B vd vs1 vs2 pr w16) maskAll fun s =>
    s.coreV h c vd pr w16 fun k i => lane w16 (k.readV vs1) i / 2 ^ (laneShift w16 (k.readV vs2) i))

/-- VAND [0x0C]. -/
def execVand (h c : Nat) (vd vs1 vs2 : BitVec 5) (pr : BitVec 3) (w16 : Bool) (s : State) : Out :=
  withUnit (coreOk h c) (s.coreStep h c (encV 0x30 0x0C vd vs1 vs2 pr w16) maskAll fun s =>
    s.coreV h c vd pr w16 fun k i => lane w16 (k.readV vs1) i &&& lane w16 (k.readV vs2) i)

/-- VOR [0x0D]. -/
def execVor (h c : Nat) (vd vs1 vs2 : BitVec 5) (pr : BitVec 3) (w16 : Bool) (s : State) : Out :=
  withUnit (coreOk h c) (s.coreStep h c (encV 0x30 0x0D vd vs1 vs2 pr w16) maskAll fun s =>
    s.coreV h c vd pr w16 fun k i => lane w16 (k.readV vs1) i ||| lane w16 (k.readV vs2) i)

/-- VXOR [0x0E]. -/
def execVxor (h c : Nat) (vd vs1 vs2 : BitVec 5) (pr : BitVec 3) (w16 : Bool) (s : State) : Out :=
  withUnit (coreOk h c) (s.coreStep h c (encV 0x30 0x0E vd vs1 vs2 pr w16) maskAll fun s =>
    s.coreV h c vd pr w16 fun k i => lane w16 (k.readV vs1) i ^^^ lane w16 (k.readV vs2) i)

/-- VMIN [0x0F]. -/
def execVmin (h c : Nat) (vd vs1 vs2 : BitVec 5) (pr : BitVec 3) (w16 : Bool) (s : State) : Out :=
  withUnit (coreOk h c) (s.coreStep h c (encV 0x30 0x0F vd vs1 vs2 pr w16) maskAll fun s =>
    s.coreV h c vd pr w16 fun k i => bitsOf (laneBits w16) (min (laneS w16 (k.readV vs1) i) (laneS w16 (k.readV vs2) i)))

/-- VMAX [0x10]. -/
def execVmax (h c : Nat) (vd vs1 vs2 : BitVec 5) (pr : BitVec 3) (w16 : Bool) (s : State) : Out :=
  withUnit (coreOk h c) (s.coreStep h c (encV 0x30 0x10 vd vs1 vs2 pr w16) maskAll fun s =>
    s.coreV h c vd pr w16 fun k i => bitsOf (laneBits w16) (max (laneS w16 (k.readV vs1) i) (laneS w16 (k.readV vs2) i)))

/-- VMINU [0x11]. -/
def execVminu (h c : Nat) (vd vs1 vs2 : BitVec 5) (pr : BitVec 3) (w16 : Bool) (s : State) : Out :=
  withUnit (coreOk h c) (s.coreStep h c (encV 0x30 0x11 vd vs1 vs2 pr w16) maskAll fun s =>
    s.coreV h c vd pr w16 fun k i => min (lane w16 (k.readV vs1) i) (lane w16 (k.readV vs2) i))

/-- VMAXU [0x12]. -/
def execVmaxu (h c : Nat) (vd vs1 vs2 : BitVec 5) (pr : BitVec 3) (w16 : Bool) (s : State) : Out :=
  withUnit (coreOk h c) (s.coreStep h c (encV 0x30 0x12 vd vs1 vs2 pr w16) maskAll fun s =>
    s.coreV h c vd pr w16 fun k i => max (lane w16 (k.readV vs1) i) (lane w16 (k.readV vs2) i))

/-- VLUT [0x13]: vs2 lane numbered by the vs1 lane. -/
def execVlut (h c : Nat) (vd vs1 vs2 : BitVec 5) (pr : BitVec 3) (w16 : Bool) (s : State) : Out :=
  withUnit (coreOk h c) (s.coreStep h c (encV 0x30 0x13 vd vs1 vs2 pr w16) maskAll fun s =>
    s.coreV h c vd pr w16 fun k i => lane w16 (k.readV vs2) (lane w16 (k.readV vs1) i % laneCount w16))

/-- VCMPEQ [0x14]. -/
def execVcmpeq (h c : Nat) (pd : BitVec 3) (vs1 vs2 : BitVec 5) (pr : BitVec 3) (w16 : Bool) (s : State) : Out :=
  withUnit (coreOk h c) (s.coreStep h c (encVP 0x30 0x14 pd vs1 vs2 pr w16) maskPd fun s =>
    s.coreCmp h c pd pr w16 fun k i => lane w16 (k.readV vs1) i == lane w16 (k.readV vs2) i)

/-- VCMPLT [0x15]. -/
def execVcmplt (h c : Nat) (pd : BitVec 3) (vs1 vs2 : BitVec 5) (pr : BitVec 3) (w16 : Bool) (s : State) : Out :=
  withUnit (coreOk h c) (s.coreStep h c (encVP 0x30 0x15 pd vs1 vs2 pr w16) maskPd fun s =>
    s.coreCmp h c pd pr w16 fun k i => decide (laneS w16 (k.readV vs1) i < laneS w16 (k.readV vs2) i))

/-- VCMPLTU [0x16]. -/
def execVcmpltu (h c : Nat) (pd : BitVec 3) (vs1 vs2 : BitVec 5) (pr : BitVec 3) (w16 : Bool) (s : State) : Out :=
  withUnit (coreOk h c) (s.coreStep h c (encVP 0x30 0x16 pd vs1 vs2 pr w16) maskPd fun s =>
    s.coreCmp h c pd pr w16 fun k i => decide (lane w16 (k.readV vs1) i < lane w16 (k.readV vs2) i))

/-- VSEL [0x17]: every lane written. -/
def execVsel (h c : Nat) (vd vs1 vs2 : BitVec 5) (pr : BitVec 3) (w16 : Bool) (s : State) : Out :=
  withUnit (coreOk h c) (s.coreStep h c (encV 0x30 0x17 vd vs1 vs2 pr w16) maskAll fun s =>
    s.coreNext h c fun k => k.writeV vd (maskLanes w16 (k.readP pr) (k.readV vs2) fun i => lane w16 (k.readV vs1) i))

/-! ### Floating-point vector instructions (0x31; R189) -/

/-- VFADD [0x00]. -/
def execVfadd (h c : Nat) (vd vs1 vs2 : BitVec 5) (pr : BitVec 3) (w16 : Bool) (s : State) : Out :=
  withUnit (coreOk h c) (s.coreStep h c (encV 0x31 0x00 vd vs1 vs2 pr w16) maskAll fun s =>
    s.coreV h c vd pr w16 fun k i => (vfmt w16).pack (((vfmt w16).decode (lane w16 (k.readV vs1) i)).add ((vfmt w16).decode (lane w16 (k.readV vs2) i))))

/-- VFSUB [0x01]. -/
def execVfsub (h c : Nat) (vd vs1 vs2 : BitVec 5) (pr : BitVec 3) (w16 : Bool) (s : State) : Out :=
  withUnit (coreOk h c) (s.coreStep h c (encV 0x31 0x01 vd vs1 vs2 pr w16) maskAll fun s =>
    s.coreV h c vd pr w16 fun k i => (vfmt w16).pack (((vfmt w16).decode (lane w16 (k.readV vs1) i)).add ((vfmt w16).decode (lane w16 (k.readV vs2) i)).neg))

/-- VFMUL [0x02]. -/
def execVfmul (h c : Nat) (vd vs1 vs2 : BitVec 5) (pr : BitVec 3) (w16 : Bool) (s : State) : Out :=
  withUnit (coreOk h c) (s.coreStep h c (encV 0x31 0x02 vd vs1 vs2 pr w16) maskAll fun s =>
    s.coreV h c vd pr w16 fun k i => (vfmt w16).pack (((vfmt w16).decode (lane w16 (k.readV vs1) i)).mul ((vfmt w16).decode (lane w16 (k.readV vs2) i))))

/-- VFMA [0x03]: fused, one rounding. -/
def execVfma (h c : Nat) (vd vs1 vs2 : BitVec 5) (pr : BitVec 3) (w16 : Bool) (s : State) : Out :=
  withUnit (coreOk h c) (s.coreStep h c (encV 0x31 0x03 vd vs1 vs2 pr w16) maskAll fun s =>
    s.coreV h c vd pr w16 fun k i => (vfmt w16).pack ((((vfmt w16).decode (lane w16 (k.readV vs1) i)).mul ((vfmt w16).decode (lane w16 (k.readV vs2) i))).add ((vfmt w16).decode (lane w16 (k.readV vd) i))))

/-- VFMIN [0x04]. -/
def execVfmin (h c : Nat) (vd vs1 vs2 : BitVec 5) (pr : BitVec 3) (w16 : Bool) (s : State) : Out :=
  withUnit (coreOk h c) (s.coreStep h c (encV 0x31 0x04 vd vs1 vs2 pr w16) maskAll fun s =>
    s.coreV h c vd pr w16 fun k i => fltMin (vfmt w16) (lane w16 (k.readV vs1) i) (lane w16 (k.readV vs2) i))

/-- VFMAX [0x05]. -/
def execVfmax (h c : Nat) (vd vs1 vs2 : BitVec 5) (pr : BitVec 3) (w16 : Bool) (s : State) : Out :=
  withUnit (coreOk h c) (s.coreStep h c (encV 0x31 0x05 vd vs1 vs2 pr w16) maskAll fun s =>
    s.coreV h c vd pr w16 fun k i => fltMax (vfmt w16) (lane w16 (k.readV vs1) i) (lane w16 (k.readV vs2) i))

/-- VFCMPLT [0x06]. -/
def execVfcmplt (h c : Nat) (pd : BitVec 3) (vs1 vs2 : BitVec 5) (pr : BitVec 3) (w16 : Bool) (s : State) : Out :=
  withUnit (coreOk h c) (s.coreStep h c (encVP 0x31 0x06 pd vs1 vs2 pr w16) maskPd fun s =>
    s.coreCmp h c pd pr w16 fun k i => ((vfmt w16).decode (lane w16 (k.readV vs1) i)).lt ((vfmt w16).decode (lane w16 (k.readV vs2) i)))

/-- VFCMPEQ [0x07]. -/
def execVfcmpeq (h c : Nat) (pd : BitVec 3) (vs1 vs2 : BitVec 5) (pr : BitVec 3) (w16 : Bool) (s : State) : Out :=
  withUnit (coreOk h c) (s.coreStep h c (encVP 0x31 0x07 pd vs1 vs2 pr w16) maskPd fun s =>
    s.coreCmp h c pd pr w16 fun k i => ((vfmt w16).decode (lane w16 (k.readV vs1) i)).eq ((vfmt w16).decode (lane w16 (k.readV vs2) i)))

/-! ### Conversions, moves, reductions and predicates (0x32; R188, R189) -/

/-- VCVTIF [0x00]. -/
def execVcvtif (h c : Nat) (vd vs1 vs2 : BitVec 5) (pr : BitVec 3) (w16 : Bool) (s : State) : Out :=
  withUnit (coreOk h c) (s.coreStep h c (encV 0x32 0x00 vd vs1 vs2 pr w16) maskAll fun s =>
    s.coreV h c vd pr w16 fun k i => (vfmt w16).pack (FVal.ofInt (laneS w16 (k.readV vs1) i)))

/-- VCVTFI [0x01]. -/
def execVcvtfi (h c : Nat) (vd vs1 vs2 : BitVec 5) (pr : BitVec 3) (w16 : Bool) (s : State) : Out :=
  withUnit (coreOk h c) (s.coreStep h c (encV 0x32 0x01 vd vs1 vs2 pr w16) maskAll fun s =>
    s.coreV h c vd pr w16 fun k i => cvtFI (vfmt w16) (laneBits w16) (lane w16 (k.readV vs1) i))

/-- VCVTFB [0x02]: 16-bit lanes 0 to 15 written; the bf16 of a NaN is a free value (assumption 15). -/
def execVcvtfb (h c : Nat) (vd vs1 vs2 : BitVec 5) (pr : BitVec 3) (w16 : Bool) (s : State) : Out :=
  withUnit (coreOk h c) (s.coreStep h c (encV 0x32 0x02 vd vs1 vs2 pr w16) maskAll fun s =>
    ({ s with draws := s.draws + 16 } : State).coreV h c vd pr true fun k i =>
      if i < 16 then bf16Of (lane false (k.readV vs1) i) (Config.freeValue (s.draws + i)) else lane true (k.readV vd) i)

/-- VCVTBF [0x03]: from 16-bit lanes 0 to 15. -/
def execVcvtbf (h c : Nat) (vd vs1 vs2 : BitVec 5) (pr : BitVec 3) (w16 : Bool) (s : State) : Out :=
  withUnit (coreOk h c) (s.coreStep h c (encV 0x32 0x03 vd vs1 vs2 pr w16) maskAll fun s =>
    s.coreV h c vd pr false fun k i => cvtFmt bf16 fp32 (lane true (k.readV vs1) i))

/-- VCVTFH [0x04]: 16-bit lanes 0 to 15 written. -/
def execVcvtfh (h c : Nat) (vd vs1 vs2 : BitVec 5) (pr : BitVec 3) (w16 : Bool) (s : State) : Out :=
  withUnit (coreOk h c) (s.coreStep h c (encV 0x32 0x04 vd vs1 vs2 pr w16) maskAll fun s =>
    s.coreV h c vd (pr) true fun k i =>
      if i < 16 then cvtFmt fp32 fp16 (lane false (k.readV vs1) i) else lane true (k.readV vd) i)

/-- VCVTHF [0x05]: from 16-bit lanes 0 to 15. -/
def execVcvthf (h c : Nat) (vd vs1 vs2 : BitVec 5) (pr : BitVec 3) (w16 : Bool) (s : State) : Out :=
  withUnit (coreOk h c) (s.coreStep h c (encV 0x32 0x05 vd vs1 vs2 pr w16) maskAll fun s =>
    s.coreV h c vd pr false fun k i => cvtFmt fp16 fp32 (lane true (k.readV vs1) i))

/-- VBCAST [0x06]: x[vs1], truncated to the lane width. -/
def execVbcast (h c : Nat) (vd vs1 vs2 : BitVec 5) (pr : BitVec 3) (w16 : Bool) (s : State) : Out :=
  withUnit (coreOk h c) (s.coreStep h c (encV 0x32 0x06 vd vs1 vs2 pr w16) maskAll fun s =>
    s.coreV h c vd pr w16 fun k _ => (k.readX vs1).toNat)

/-- VMVX [0x07]: x[vd] := sext64 of the lane that the vs2 field numbers. -/
def execVmvx (h c : Nat) (vd vs1 vs2 : BitVec 5) (pr : BitVec 3) (w16 : Bool) (s : State) : Out :=
  withUnit (coreOk h c) (s.coreStep h c (encV 0x32 0x07 vd vs1 vs2 pr w16) maskAll fun s =>
    s.coreX h c vd fun k => BitVec.ofInt 64 (laneS w16 (k.readV vs1) (vs2.toNat % laneCount w16)))

/-- The predicated lanes of a vector, in ascending order. -/
def selLanes (w16 : Bool) (pr : Word) (v : VWord) : List Nat :=
  ((List.range (laneCount w16)).filter fun i => pr.toNat.testBit i).map (lane w16 v)

/-- A reduction (R188): lane 0 := `f` of the predicated lanes of vs1, the other lanes 0. -/
def State.coreReduce (s : State) (h c : Nat) (vd vs1 : BitVec 5) (pr : BitVec 3) (w16 : Bool)
    (f : List Nat → Nat) : State :=
  s.coreNext h c fun k => k.writeV vd (ofLanes w16 fun i =>
    if i = 0 then f (selLanes w16 (k.readP pr) (k.readV vs1)) else 0)

/-- The signed value of `n` bits. -/
def signedBits (n x : Nat) : Int := if x % 2 ^ n < 2 ^ (n - 1) then (x % 2 ^ n : Nat) else (x % 2 ^ n : Nat) - (2 ^ n : Nat)

/-- The largest of a list of lanes as signed numbers; 0 for none (R188). -/
def maxLanes (n : Nat) : List Nat → Nat
  | [] => 0
  | x :: rest => bitsOf n (rest.foldl (fun m y => max m (signedBits n y)) (signedBits n x))

/-- The floating-point sum in ascending lane order, one rounding for each addition; +0 for none (R188). -/
def sumLanes (F : Fmt) : List Nat → Nat
  | [] => 0
  | x :: rest => rest.foldl (fun t y => F.pack ((F.decode t).add (F.decode y))) (F.pack (F.decode x))

/-- VREDADD [0x08]. -/
def execVredadd (h c : Nat) (vd vs1 vs2 : BitVec 5) (pr : BitVec 3) (w16 : Bool) (s : State) : Out :=
  withUnit (coreOk h c) (s.coreStep h c (encV 0x32 0x08 vd vs1 vs2 pr w16) maskAll fun s =>
    s.coreReduce h c vd vs1 pr w16 List.sum)

/-- VFREDADD [0x09]. -/
def execVfredadd (h c : Nat) (vd vs1 vs2 : BitVec 5) (pr : BitVec 3) (w16 : Bool) (s : State) : Out :=
  withUnit (coreOk h c) (s.coreStep h c (encV 0x32 0x09 vd vs1 vs2 pr w16) maskAll fun s =>
    s.coreReduce h c vd vs1 pr w16 (sumLanes (vfmt w16)))

/-- VREDMAX [0x0A]. -/
def execVredmax (h c : Nat) (vd vs1 vs2 : BitVec 5) (pr : BitVec 3) (w16 : Bool) (s : State) : Out :=
  withUnit (coreOk h c) (s.coreStep h c (encV 0x32 0x0A vd vs1 vs2 pr w16) maskAll fun s =>
    s.coreReduce h c vd vs1 pr w16 (maxLanes (laneBits w16)))

/-- PAND [0x0B]. -/
def execPand (h c : Nat) (pd : BitVec 3) (vs1 vs2 : BitVec 5) (pr : BitVec 3) (w16 : Bool) (s : State) : Out :=
  withUnit (coreOk h c) (s.coreStep h c (encVP 0x32 0x0B pd vs1 vs2 pr w16) maskPd fun s =>
    s.coreP h c pd fun k => k.readP (vs1.truncate 3) &&& k.readP (vs2.truncate 3))

/-- POR [0x0C]. -/
def execPor (h c : Nat) (pd : BitVec 3) (vs1 vs2 : BitVec 5) (pr : BitVec 3) (w16 : Bool) (s : State) : Out :=
  withUnit (coreOk h c) (s.coreStep h c (encVP 0x32 0x0C pd vs1 vs2 pr w16) maskPd fun s =>
    s.coreP h c pd fun k => k.readP (vs1.truncate 3) ||| k.readP (vs2.truncate 3))

/-- PXOR [0x0D]. -/
def execPxor (h c : Nat) (pd : BitVec 3) (vs1 vs2 : BitVec 5) (pr : BitVec 3) (w16 : Bool) (s : State) : Out :=
  withUnit (coreOk h c) (s.coreStep h c (encVP 0x32 0x0D pd vs1 vs2 pr w16) maskPd fun s =>
    s.coreP h c pd fun k => k.readP (vs1.truncate 3) ^^^ k.readP (vs2.truncate 3))

/-- PNOT [0x0E]. -/
def execPnot (h c : Nat) (pd : BitVec 3) (vs1 vs2 : BitVec 5) (pr : BitVec 3) (w16 : Bool) (s : State) : Out :=
  withUnit (coreOk h c) (s.coreStep h c (encVP 0x32 0x0E pd vs1 vs2 pr w16) maskPd fun s =>
    s.coreP h c pd fun k => ~~~(k.readP (vs1.truncate 3)))

/-- PSETN [0x0F]. -/
def execPsetn (h c : Nat) (pd : BitVec 3) (vs1 vs2 : BitVec 5) (pr : BitVec 3) (w16 : Bool) (s : State) : Out :=
  withUnit (coreOk h c) (s.coreStep h c (encVP 0x32 0x0F pd vs1 vs2 pr w16) maskPd fun s =>
    s.coreP h c pd fun k => psetn (k.readX vs1))

end Sys2Proof.Machine
end

