-- ==== Sys2Proof/Machine/Wire.lean ====
section
/-! DEFINITION. What the USB ports carry (R64, R69 to R72, R74, R86): the descriptors of mask ROM, and the bytes of
requests, responses and event records. -/

namespace Sys2Proof.Machine

/-! ### Descriptors (R64) -/

/-- An endpoint: its address with the direction in bit 7, whether it is an interrupt endpoint, and its maximum packet
size. -/
structure Endpoint where
  addr      : Nat
  interrupt : Bool
  maxPacket : Option Nat
  deriving DecidableEq, Repr

/-- The descriptors at a link rate (`HOST_LINK.RATE`: 1 high speed, more SuperSpeed). R64 gives the interrupt endpoint
no packet size at SuperSpeed. -/
structure Descriptors where
  vendor         : Nat := 0x2E5A
  product        : Nat := 0x0960
  configurations : Nat := 1
  interfaces     : Nat := 1
  cls            : Nat := 0xFF
  endpoints      : List Endpoint
  burst          : Nat
  streams        : Bool := false
  deriving DecidableEq, Repr

/-- The descriptors that mask ROM reports. -/
def usbDescriptors (rate : Nat) : Descriptors :=
  let bulk := if rate = 1 then 512 else 1024
  { endpoints := [⟨0x01, false, some bulk⟩, ⟨0x81, false, some bulk⟩, ⟨0x82, true, if rate = 1 then some 1024 else none⟩]
    burst := if rate = 1 then 1 else 16 }

/-! ### Requests (R69 to R72) -/

/-- The magic of a header. -/
def ztMagic : Nat := 0x5A54

/-- The payload words that a request of an opcode carries (R70). -/
def payloadWords (op count flags : Nat) : Nat :=
  if op = 1 ∨ op = 2 ∨ op = 5 ∨ op = 6 ∨ (op = 8 ∧ flags / 2 % 2 = 1) then count else 0

/-- The little-endian words of a byte string. -/
def leWords (bs : List Byte) (n : Nat) : List Word := (List.range n).map fun i => BitVec.ofNat 32 (leNat ((bs.drop (4 * i)).take 4))

/-- The opcode and the request at the front of a transfer, with what follows it; none where the header's magic is
wrong or the transfer ends inside the request (R72). -/
def ztRequest (bs : List Byte) : Option (Nat × ZtReq × List Byte) :=
  let f (o n : Nat) : Nat := leNat ((bs.drop o).take n)
  let n := payloadWords (f 2 1) (f 8 2) (f 10 2)
  if bs.length < 16 ∨ f 0 2 ≠ ztMagic ∨ bs.length < 16 + 4 * n then none
  else some (f 2 1,
    { tag := .ofNat 8 (f 3 1), addr := .ofNat 32 (f 4 4), count := .ofNat 16 (f 8 2), flags := .ofNat 16 (f 10 2)
      rsv := .ofNat 32 (f 12 4), words := leWords (bs.drop 16) n }, bs.drop (16 + 4 * n))

/-- The bytes of a request (R69). -/
def ZtReq.bytes (op : Nat) (r : ZtReq) : List Byte :=
  natLe ztMagic 2 ++ natLe op 1 ++ natLe r.tag.toNat 1 ++ natLe r.addr.toNat 4 ++ natLe r.count.toNat 2 ++
    natLe r.flags.toNat 2 ++ natLe r.rsv.toNat 4 ++ r.words.flatMap fun w => natLe w.toNat 4

/-! ### Responses and events (R74, R86) -/

/-- The bytes of a response on bulk IN 0x81 (R74). -/
def Response.bytes (x : Response) : List Byte :=
  natLe ztMagic 2 ++ natLe x.opcode 1 ++ natLe x.tag 1 ++ natLe x.status 1 ++ natLe 0 3 ++ natLe x.words.length 2 ++
    natLe 0 2 ++ natLe x.detail 4 ++ x.words.flatMap fun w => natLe w.toNat 4

/-- The bytes of an event record (R86). -/
def Event.bytes (e : Event) : List Byte :=
  natLe e.code 2 ++ natLe e.block 1 ++ natLe 0 1 ++ natLe e.arg.toNat 4 ++ natLe e.time 8

/-- What a host has received on bulk IN and on the interrupt endpoint. -/
def HostPort.bulkIn (h : HostPort) : List Byte := h.responses.flatMap Response.bytes
def HostPort.interruptIn (h : HostPort) : List Byte := h.delivered.flatMap Event.bytes

end Sys2Proof.Machine
end

