-- ==== Sys2Proof/Machine/Requests.lean ====
section
/-! DEFINITION. The Ziland transport: requests, responses, FENCEs, time synchronisation and events (R67 to R91). -/

namespace Sys2Proof.Machine

/-! ### Checks (R67, R71, R73, R84, R85) -/

/-- Opcodes whose requests carry `count` payload words. -/
def opWrites (op : Nat) : Bool := op == 1 || op == 2 || op == 5 || op == 6

/-- Opcodes that read. -/
def opReads (op : Nat) : Bool := op == 3 || op == 4

def ZtReq.posted (r : ZtReq) : Bool := r.flags.getLsbD 0
def ZtReq.tsync (r : ZtReq) : Bool := r.flags.getLsbD 1

/-- The check of a header (R71): 0, 1 BAD_REQUEST, 2 BAD_LENGTH or 3 BAD_ALIGN, in this order. [DEDUCED: assumption
209] -/
def headerCheck (op : Nat) (r : ZtReq) : Nat :=
  if op = 0 ∨ 8 < op ∨ r.flags.toNat / 4 ≠ 0 ∨ r.rsv ≠ 0 ∨ (ZtReq.tsync r = true ∧ op ≠ 8) ∨
      (ZtReq.posted r = true ∧ opWrites op = false) then 1
  else if (if op = 7 then r.count.toNat ≠ 0
      else if op = 8 then r.count.toNat ≠ (if ZtReq.tsync r then 4 else 0)
      else r.count.toNat = 0 ∨ 16384 < r.count.toNat) then 2
  else if r.addr.toNat % 4 ≠ 0 then 3
  else 0

/-- The addresses of the words that a request covers. -/
def covered (op : Nat) (r : ZtReq) : List Nat :=
  if op = 2 ∨ op = 4 then [r.addr.toNat] else (List.range r.count.toNat).map fun i => r.addr.toNat + 4 * i

/-- Whether a request lies in one block (R67). -/
def oneBlock (as : List Nat) : Bool := (blockOf (as.headD 0)).isSome && as.all fun a => blockOf a == blockOf (as.headD 0)

/-- Whether a request reaches beyond the Cord region through the DRAM window (R85). [DEDUCED: assumption 59] -/
def State.beyond (s : State) (d : Nat) (as : List Nat) : Bool :=
  as.any fun a =>
    decide (0x80000000 ≤ a) && (match s.windowAt d a with
      | some (c, o) => decide (c.size < o + 4)
      | none => true)

/-- The data ports whose DP_DATA a request covers. -/
def portsOf (as : List Nat) : List Nat := as.filterMap fun a => dataPortOf (plainAddr a)

/-- Whether a request reads or writes DP_DATA: a SET, a CLEAR or a write through an alias does not (R514). [DEDUCED:
assumption 60] -/
def movesData (op : Nat) (r : ZtReq) : Bool := opReads op || ((op == 1 || op == 2) && decide (r.addr.toNat < 0x10000000))

/-- The check of the addresses of a well-formed request: 0, 4 BAD_ADDRESS, 10 PERMISSION, 9 UNSUPPORTED or 7 UNBOUND.
[DEDUCED: assumptions 57, 58] -/
def State.addressCheck (s : State) (d op : Nat) (r : ZtReq) : Nat :=
  let as := covered op r
  if !oneBlock as then 4
  else if !as.all fun a => s.sees d a (opWrites op) then 10
  else if (op = 5 ∨ op = 6) ∧ 0x10000000 ≤ r.addr.toNat then 9
  else if s.beyond d as then 4
  else if movesData op r && (portsOf as).any fun p => !(s.port d p).bound then 7
  else 0

/-! ### Responses (R74 to R77) -/

/-- Write a response to bulk IN. -/
def State.respond (s : State) (d op : Nat) (r : ZtReq) (status : Nat) (words : List Word) (detail : Nat) : State :=
  let h := s.host d
  s.setHost d { h with responses := h.responses ++ [⟨(op + 128) % 256, r.tag.toNat, status, words, detail⟩] }

/-- The detail of a request that is done in full: LEVEL of the data port that it covers, else 0. [DEDUCED: assumption
61] -/
def State.okDetail (s : State) (d : Nat) (as : List Nat) : Nat :=
  match portsOf as with
  | p :: _ => (s.port d p).level
  | [] => 0

/-- Answer a request that writes (R76): a posted one is silent when all is well. -/
def State.answerWrite (s : State) (d op : Nat) (r : ZtReq) (status detail : Nat) : State :=
  if ZtReq.posted r && status == 0 then s else s.respond d op r status [] detail

/-! ### Requests that read or write -/

/-- How a write opcode meets its target. -/
def opMerge (op : Nat) : Merge := if op = 5 then .or else if op = 6 then .andNot else .write

/-- The inbound DP_DATA to which WRITE_FIX appends, or the outbound one from which READ_FIX takes (R81, R82). -/
def State.fixPort (s : State) (d op : Nat) (r : ZtReq) : Option Nat :=
  match dataPortOf (if op = 2 then r.addr.toNat else plainAddr r.addr.toNat) with
  | some p => if (s.port d p).outbound == (op == 4) && (op == 2 || op == 4) then some p else none
  | none => none

/-- A request that reads or writes as it begins: what does not fit an inbound ring is discarded and counted at once,
and what an outbound ring does not hold is not read. -/
def State.begin (s : State) (d op : Nat) (r : ZtReq) : State × Active :=
  let n := r.count.toNat
  let all := if opReads op then List.replicate n 0 else r.words.take n
  let x : Active := { op := op, req := r }
  match s.fixPort d op r with
  | some p =>
    let fit := min n (s.port d p).level
    if op = 2 ∧ fit < n then
      (s.bump (regKey d (0x1000C + p * 256)) (n - fit), { x with todo := all.take fit, status := 6 })
    else (s, { x with todo := all.take fit })
  | none =>
    if op = 4 ∧ (dataPortOf (plainAddr r.addr.toNat)).isSome then (s, { x with got := all, done := n })
    else (s, { x with todo := all })

/-- Perform the next `k` words of a request in progress (R70, R73, R81, R82): a word that cannot be updated or read ends
it with MEMORY_ERROR. -/
def State.someWords (s : State) (d : Nat) (x : Active) (k : Nat) : State × Active :=
  let a := x.req.addr.toNat
  let ws := x.todo.take k
  let upd (t : State) (st n : Nat) (vs : List Word) : State × Active :=
    (t, { x with todo := if st = 8 then [] else x.todo.drop k, done := n, status := max x.status st, got := x.got ++ vs })
  match s.fixPort d x.op x.req with
  | some p =>
    if x.op = 2 then
      let y := s.portAppend d p ws
      upd y.1 y.2.2 (x.done + y.2.1) []
    else
      let y := s.portRemove d p ws.length
      upd y.1 y.2.2 (x.done + y.2.1.length) y.2.1
  | none =>
    if opReads x.op then
      let step := if x.op = 4 then 0 else 4
      let y := s.readSeq d (a + step * x.done) step ws.length []
      upd y.1.st y.1.status (x.done + y.1.done) y.2
    else
      let y := if x.op = 2 then s.writeAll d a x.done ws
        else s.writeSeq d (a + 4 * x.done) (opMerge x.op) 0 x.done ws
      upd y.st y.status y.done []

/-- The response of a request whose words are done (R74 to R76, R81, R82). -/
def State.endRequest (s : State) (d : Nat) (x : Active) : State :=
  if x.lost then s
  else
    let detail :=
      if x.status = 0 then s.okDetail d (covered x.op x.req)
      else if x.status = 6 ∧ x.op ≠ 2 then 0
      else x.done
    if opReads x.op then s.respond d x.op x.req x.status x.got detail
    else s.answerWrite d x.op x.req x.status detail

/-- A request in progress goes on to its end (R68, R79). A data port of its remaining words that has been unbound
meanwhile ends it with UNBOUND (R84). -/
def State.finishRequest (s : State) (d : Nat) : State :=
  match (s.host d).active with
  | none => s
  | some x =>
    let t := s.setHost d { s.host d with active := none }
    let rest := if x.op = 2 ∨ x.op = 4 then covered x.op x.req else (covered x.op x.req).drop x.done
    if movesData x.op x.req && (portsOf rest).any fun p => !(s.port d p).bound then
      t.endRequest d { x with todo := [], status := 7 }
    else
      let y := t.someWords d x x.todo.length
      y.1.endRequest d y.2

/-- Perform a request that reads or writes: all of its words, or those before other accesses fall in (R79). -/
def State.performWords (s : State) (d op : Nat) (r : ZtReq) : State :=
  let b := s.begin d op r
  if 0 < r.pause ∧ r.pause < b.2.todo.length then
    let y := b.1.someWords d b.2 r.pause
    if y.2.todo = [] then y.1.endRequest d y.2 else y.1.setHost d { y.1.host d with active := some y.2 }
  else
    let y := b.1.someWords d b.2 b.2.todo.length
    y.1.endRequest d y.2

/-! ### Time synchronisation (R89 to R91) -/

/-- A u64 of two payload words. -/
def word64 (ws : List Word) (i : Nat) : Nat := (ws.getD i 0).toNat + (ws.getD (i + 1) 0).toNat * 2 ^ 32

/-- The exchange that begins with (t1, t2, t3) and is completed by t4 (R89); the division truncates towards zero. -/
def exchangeOf (x : Nat × Nat × Nat) (t4 : Nat) : Exchange :=
  let (t1, t2, t3) := x
  { t1 := t1
    offset := toS64 ((((t2 : Int) - t1) + ((t3 : Int) - t4)).tdiv 2)
    delay := ((t4 : Int) - t1) - ((t3 : Int) - t2) }

/-- rate_ppb of 16 exchanges (R90); where both of its exchanges have one t1, `free` within the bounds. [DESIGN CHOICE:
assumption 16] -/
def rateOf (es : List Exchange) (free : BitVec 64) : Int :=
  match leastDelay (es.take 8), leastDelay (es.drop 8) with
  | some o, some m =>
    let dt := toS64 ((m.t1 : Int) - o.t1)
    if dt = 0 then (free.toNat % 2000001 : Nat) - 1000000
    else max (-1000000) (min 1000000 (((m.offset - o.offset) * 1000000000).tdiv dt))
  | _, _ => 0

/-- The mapping after a complete exchange (R90). -/
def HostPort.remap (h : HostPort) (free : BitVec 64) : HostPort :=
  match leastDelay h.exchanges with
  | some b => { h with refHost := b.t1, offset := b.offset
                       ratePpb := if h.exchanges.length = 16 then rateOf h.exchanges free else 0 }
  | none => h

/-- A complete exchange (R89, R90): one of negative delay is discarded, and 16 are kept. [DEDUCED: assumption 68] -/
def State.completeExchange (s : State) (d : Nat) (e : Exchange) : State :=
  if e.delay < 0 then s
  else
    let h := s.host d
    let es := h.exchanges ++ [e]
    let h1 : HostPort := { h with exchanges := es.drop (es.length - 16), mapped := true }
    if s.manual d then s.setHost d h1
    else (s.draw.2.setHost d (h1.remap s.draw.1)).event d 0x0105 0 h1.exchanges.length

/-- TSYNC_EXCHANGE (R89): the request arrived at `t2`, and its response leaves at `t3`. [DEDUCED: assumption 67] -/
def State.tsyncPerform (s : State) (d : Nat) (r : ZtReq) (t2 t3 : Nat) : State :=
  let t1 := word64 r.words 0
  let t4 := word64 r.words 2
  let s1 := match (s.host d).open1 with
    | some x => if t4 = 0 then s else s.completeExchange d (exchangeOf x t4)
    | none => s
  let half (x i : Nat) : Word := BitVec.ofNat 32 (x / 2 ^ (32 * i))
  (s1.setHost d { s1.host d with open1 := some (t1, t2, t3) }).respond d 8 r 0 [half t2 0, half t2 1, half t3 0, half t3 1] 0

/-! ### Requests (R69 to R78) -/

/-- The opcode, the request and the response latency of a command that is a request. -/
def requestOf : Instr → Option (Nat × ZtReq × Nat)
  | .writeInc _ r => some (1, r, 0)
  | .writeFix _ r => some (2, r, 0)
  | .readInc _ r => some (3, r, 0)
  | .readFix _ r => some (4, r, 0)
  | .set _ r => some (5, r, 0)
  | .ztClear _ r => some (6, r, 0)
  | .ztFence _ r => some (7, r, 0)
  | .ztNop _ op r => some (op.toNat, r, 0)
  | .tsyncExchange _ r l => some (8, r, l)
  | _ => none

/-- A request begins, after the one in progress has ended (R78): it is checked and performed. A FENCE stays open until
FENCE_COMPLETE. [DEDUCED: assumption 54] -/
def State.perform (s0 : State) (d op : Nat) (r : ZtReq) (arrival latency : Nat) : State :=
  let s := s0.finishRequest d
  let bad := headerCheck op r
  if bad ≠ 0 then s.respond d op r bad [] 0
  else if op = 7 then s.setHost d { s.host d with fence := some r.tag.toNat }
  else if op = 8 then
    (if ZtReq.tsync r then s.tsyncPerform d r arrival (s.time + latency) else s.respond d op r 0 [] 0)
  else
    let st := s.addressCheck d op r
    if st ≠ 0 then s.respond d op r st [] 0
    else s.performWords d op r

/-- A transfer with bad framing (R72). -/
def State.badFrame (s : State) (d : Nat) : State :=
  let t := s.bump (regKey d 0x1014) 1
  t.event d 0x0104 0 (t.reg (regKey d 0x1014)).toNat

/-- Whether the payload of a request is missing: the transfer ends inside it (R72). [DEDUCED: assumption 66] -/
def cutShort (op : Nat) (r : ZtReq) : Bool :=
  (opWrites op || (op == 8 && ZtReq.tsync r)) && decide (r.words.length < r.count.toNat)

/-- Whether a tag is outstanding (R77): that of an open FENCE, of a request in progress, or of one held behind a
FENCE. -/
def HostPort.outstanding (h : HostPort) (tag : Nat) : Bool :=
  h.fence == some tag || (h.active.any fun x => x.req.tag.toNat == tag && !ZtReq.posted x.req && !x.lost) ||
  h.behind.any fun e =>
    match requestOf e.2 with
    | some (_, r, _) => r.tag.toNat == tag && !ZtReq.posted r
    | none => false

/-- A request arrives at port `d` (R72, R77, R78): behind an open FENCE it is held, or refused for its tag. [DEDUCED:
assumption 55; DESIGN CHOICE: assumption 56] -/
def State.arrive (s : State) (d : Nat) (c : Instr) : State :=
  match requestOf c with
  | none => s
  | some (op, r, latency) =>
    let h := s.host d
    if !s.live || h.rate == 0 then s
    else if cutShort op r then s.badFrame d
    else if !ZtReq.posted r && h.outstanding r.tag.toNat then
      let bad := headerCheck op r
      s.respond d op r (if bad ≠ 0 then bad else 5) [] 0
    else if h.fence.isNone then s.perform d op r s.time latency
    else s.setHost d { h with behind := h.behind ++ [(s.time, c)] }

/-- Held requests begin in order, up to the next FENCE. -/
def State.runHeld (s : State) (d : Nat) : List (Nat × Instr) → State
  | [] => s
  | (t, c) :: rest =>
    match (s.host d).fence with
    | some _ => s.setHost d { s.host d with behind := (t, c) :: rest }
    | none =>
      match requestOf c with
      | some (op, r, latency) => (s.perform d op r t latency).runHeld d rest
      | none => s.runHeld d rest

/-- FENCE_COMPLETE (R78). -/
def State.fenceDone (s0 : State) (d : Nat) : State :=
  let s := s0.finishRequest d
  let h := s.host d
  match h.fence with
  | none => s
  | some tag =>
    (s.setHost d { h with fence := none, behind := [], responses := h.responses ++ [⟨0x87, tag, 0, [], 0⟩] }).runHeld d
      h.behind

def execWriteInc (d : Nat) (r : ZtReq) (s : State) : Out := withUnit (hostOk d) (s.arrive d (.writeInc d r))
def execWriteFix (d : Nat) (r : ZtReq) (s : State) : Out := withUnit (hostOk d) (s.arrive d (.writeFix d r))
def execReadInc (d : Nat) (r : ZtReq) (s : State) : Out := withUnit (hostOk d) (s.arrive d (.readInc d r))
def execReadFix (d : Nat) (r : ZtReq) (s : State) : Out := withUnit (hostOk d) (s.arrive d (.readFix d r))
def execSet (d : Nat) (r : ZtReq) (s : State) : Out := withUnit (hostOk d) (s.arrive d (.set d r))
def execZtClear (d : Nat) (r : ZtReq) (s : State) : Out := withUnit (hostOk d) (s.arrive d (.ztClear d r))
def execZtFence (d : Nat) (r : ZtReq) (s : State) : Out := withUnit (hostOk d) (s.arrive d (.ztFence d r))
def execFenceComplete (d : Nat) (s : State) : Out := withUnit (hostOk d) (if s.live then s.fenceDone d else s)

/-- ZT_NOP (R70, R71): `op` is the opcode of a NOP, or one that R70 does not define. -/
def execZtNop (d : Nat) (op : BitVec 8) (r : ZtReq) (s : State) : Out :=
  withUnit (hostOk d) (if op = 0 ∨ 8 ≤ op.toNat then s.arrive d (.ztNop d op r) else s)

/-- TSYNC_EXCHANGE (R89): the response leaves `latency` ns after the exchange begins. -/
def execTsyncExchange (d : Nat) (r : ZtReq) (latency : Nat) (s : State) : Out :=
  withUnit (hostOk d) (s.arrive d (.tsyncExchange d r latency))

/-- FRAMING_ERROR (R72): no request begins where one should. -/
def execFramingError (x : BadTail) (s : State) : Out :=
  withUnit (hostOk x.d)
    (if s.live && (s.host x.d).rate != 0 && !x.tail.isEmpty && (ztRequest x.tail).isNone then s.badFrame x.d else s)

/-! ### Events (R86, R87) -/

/-- EVENT_TRANSFER (R86): the records that wait, at most 64, go to the host, and the losses are reported when space
returns. [DESIGN CHOICE: assumption 212] -/
def State.transferEvents (s : State) (d : Nat) : State :=
  let h := s.host d
  let t := s.setHost d { h with delivered := h.delivered ++ h.events.take 64, events := h.events.drop 64, lost := 0 }
  if h.lost = 0 then t else t.event d 0x0103 0 h.lost
def execEventTransfer (d : Nat) (s : State) : Out :=
  withUnit (hostOk d)
    (if s.live && (s.host d).rate != 0 && !(s.host d).events.isEmpty then s.transferEvents d else s)

end Sys2Proof.Machine
end

