-- ==== Sys2Proof/Machine/Rotation.lean ====
section
/-! DEFINITION. Kiln tests, the rotating structural test and the core-test library (R474 to R481). Hearth operands of
these rows are physical, but for CORE_TEST. -/

namespace Sys2Proof.Machine

/-- A Hearth of the tested set (R476): ordinary or spare, in service, and under no other test. -/
def State.tested (s : State) (p : Nat) : Bool :=
  decide ((s.phy p).service ≤ 1) && !s.underTest p &&
  (match s.logicalOf p with
   | some h => s.lay.isSome && s.roleOf h != 2
   | none => false)

/-- The Hearth of the next slot, and whether the rotation begins again with it. -/
def State.nextTested (s : State) : Option (Nat × Bool) :=
  let set := (List.range 48).filter s.tested
  match set.find? fun p => (match s.flt.lastSlot with
    | some l => decide (l < p)
    | none => true) with
  | some p => some (p, s.flt.lastSlot.isNone)
  | none => set.head?.map fun p => (p, true)

/-- ROTATION_SLOT (R476): the job of the Hearth pauses and is copied to the lowest-numbered spare. -/
def State.beginSlot (s : State) : State :=
  match s.spares, s.nextTested with
  | q :: _, some (p, again) =>
    let h := (s.logicalOf p).getD p
    let moved := if (s.hearth h).job.isSome then some (h, q) else none
    let f := s.flt
    let period := match f.rotStart with
      | some t => (s.time - t) / 1000
      | none => f.rotPeriod
    { s with flt := { f with
        slot := some { hearth := p, start := s.time, moved := moved, phase := if moved.isSome then 0 else 1 }
        slotAt := some s.time
        lastSlot := some p
        rotStart := if again then some s.time else f.rotStart
        rotPeriod := if again then period else f.rotPeriod } }
  | _, _ => s

/-- The slots are 2,000 µs apart. -/
def State.rotationDue (s : State) : Bool :=
  match s.flt.slotAt with
  | some t => decide (t + 2000000 ≤ s.time)
  | none => true
def execRotationSlot (s : State) : Out :=
  withUnit true (if s.live && (s.reg 0x280004).getLsbD 1 && s.flt.slot.isNone && s.rotationDue then s.beginSlot else s)

def State.setSlot (s : State) (x : Option Slot) : State := { s with flt := { s.flt with slot := x } }

/-- MIGRATION_COPY_DONE (R476): the copy takes 149.5 µs, and then the logical Hearth moves to the spare; a spare that
has meanwhile been lost takes nothing, and the slot ends. [DEDUCED: assumptions 190, 191] -/
def State.copyDone (s : State) : State :=
  match s.flt.slot with
  | some sl =>
    (match sl.moved with
     | some (h, q) =>
       if sl.phase ≠ 0 ∨ s.time < sl.start + 149500 then s
       else if (s.phy q).service ≠ 0 then s.setSlot none
       else (((s.swapPlaces h ((s.logicalOf q).getD q)).setSlot (some { sl with phase := 1 })).bump 0x280048 1)
     | none => s)
  | none => s
def execMigrationCopyDone (s : State) : Out := withUnit true (if s.live then s.copyDone else s)

/-- The four Kilns of a Hearth have passed the functional test; they are READY again if they all were tested (R474). -/
def State.kilnsPassed (s : State) (p : Nat) (ready : Bool) : State :=
  let v := s.phy p
  s.setPhy p { v with tested := some s.time
                      kilnTests := ([0, 1, 2, 3] : List Nat).map fun k => (k, s.time + 1)
                      kilns := if ready then [] else v.kilns }

/-- The host spare keeps a logical Hearth whose own Hearth has failed (R478). -/
def State.keepOnSpare (s : State) (p h q : Nat) : State :=
  let s1 := (s.setHearthState p 3).hearthEvent q 0x1102 p
  let s2 := (s1.logFault (originHearth p) 0x05 p h q).hearthEvent q 0x1104 (p + q * 256)
  s2.spareGone true

/-- STRUCTURAL_TEST_DONE in a rotation slot (R476, R478). -/
def State.slotTested (s : State) (sl : Slot) (pass : Bool) (vector : Nat) : State :=
  let p := sl.hearth
  if pass then
    let s1 := s.kilnsPassed p false
    s1.setSlot (if sl.moved.isSome then some { sl with phase := 2 } else none)
  else
    let s1 := (s.logFault (originHearth p) 0x03 p 2 vector).setSlot none
    match sl.moved with
    | some (h, q) => s1.keepOnSpare p h q
    | none => s1.quarantine p

/-- STRUCTURAL_TEST_DONE of a test run alone (R479, R481): `code` is 3 for an idle Hearth, 4 for a SUSPECT one.
[DEDUCED: assumption 189] -/
def State.aloneTested (s : State) (p code : Nat) (pass : Bool) (vector : Nat) : State :=
  let s1 : State := { s with flt := { s.flt with alone := s.flt.alone.filter fun e => e.1 != p } }
  if !pass then (s1.logFault (originHearth p) 0x03 p code vector).quarantine p
  else if code = 4 then ((s1.kilnsPassed p true).setHearthState p 0).hearthEvent p 0x1103 p
  else s1.kilnsPassed p false

/-- STRUCTURAL_TEST_DONE: a slot's test begins 180 µs after the slot, and a pass takes at least the 500 µs of the Kiln
functional test (R474, R476). -/
def State.structuralDone (s : State) (p : Nat) (pass : Bool) (vector : Nat) : State :=
  let least := if pass then 500000 else 0
  match s.flt.alone.find? fun e => e.1 == p with
  | some e => if s.time < e.2.2 + least then s else s.aloneTested p e.2.1 pass vector
  | none =>
    match s.flt.slot with
    | some sl => if sl.hearth = p ∧ sl.phase = 1 ∧ sl.start + 180000 + least ≤ s.time then s.slotTested sl pass vector else s
    | none => s
def execStructuralTestDone (h : Nat) (pass : Bool) (vector : Nat) (s : State) : Out :=
  withUnit (hearthOk h) (if s.live then s.structuralDone h pass vector else s)

/-- COPY_BACK_DONE (R476): after a copy that begins at 1,780 µs, the logical Hearth returns; a spare that became
SUSPECT may now be tested (R478). -/
def State.copyBack (s : State) : State :=
  match s.flt.slot with
  | some sl =>
    (match sl.moved with
     | some (h, q) =>
       if sl.phase ≠ 2 ∨ s.time < sl.start + 1780000 + 149500 then s
       else
         let own := (s.logicalOf sl.hearth).getD sl.hearth
         ((s.swapPlaces h own).setSlot none).startRecovery ((s.logicalOf q).getD own)
     | none => s)
  | none => s
def execCopyBackDone (s : State) : Out := withUnit true (if s.live then s.copyBack else s)

/-- IDLE_TEST (R479): without a spare, an ordinary Hearth in service without a job for 2,000 µs is tested alone. -/
def State.idleTest (s : State) (p : Nat) : State :=
  let v := s.phy p
  match s.logicalOf p with
  | some h =>
    if s.spares.isEmpty && v.service == 0 && s.tested p && s.hearthFree h && decide (v.idleSince + 2000000 ≤ s.time) then
      { s with flt := { s.flt with alone := s.flt.alone ++ [(p, 3, s.time)] } }
    else s
  | none => s
def execIdleTest (h : Nat) (s : State) : Out := withUnit (hearthOk h) (if s.live then s.idleTest h else s)

/-- A Kiln passes its functional test (R474, R481): the Hearth returns to service once every Kiln is READY. -/
def State.kilnPass (s : State) (p k : Nat) : State :=
  let v := s.phy p
  let kilns := v.kilns.put (fun _ => 0) k 0
  let done := kilns.isEmpty
  let s1 := s.setPhy p { v with kilns := kilns, kilnTests := v.kilnTests.put (fun _ => 0) k (s.time + 1)
                                testing := if done then 0 else v.testing
                                why := v.why.put (fun _ => 0) k 0, started := v.started || done }
  if !done ∨ v.service ≠ 1 then s1
  else
    let s2 := s1.setHearthState p 0
    if v.testing = 3 then s2.hearthEvent p 0x1103 p else s2

/-- A Kiln fails its functional test: at start-up or in the field it is quarantined, and handled as after a failed check
(R481): the job of the Hearth is torn down, and the recovery test follows the zeroing. In recovery the Hearth is
quarantined. -/
def State.kilnFail (s : State) (p k vector : Nat) : State :=
  let v := s.phy p
  let h := (s.logicalOf p).getD p
  let s1 := s.logFault (originHearth p) 0x03 p (if v.why.look (fun _ => 0) k = 1 then 1 else 5) vector
  if v.why.look (fun _ => 0) k = 3 then s1.quarantine p
  else
    let s2 := s1.suspect h k
    (if (s2.hearth h).job = (s.hearth h).job then s2.tearHearth h else s2).startRecovery h

/-- KILN_TEST_DONE (R474): a Kiln that passes has run the test for 500 µs. -/
def State.kilnTested (s : State) (p k : Nat) (pass : Bool) (vector : Nat) : State :=
  let v := s.phy p
  if v.kilns.look (fun _ => 0) k ≠ 1 ∨ (pass ∧ s.time < v.testFrom.look (fun _ => 0) k + 500000) then s
  else if pass then s.kilnPass p k else s.kilnFail p k vector
def execKilnTestDone (h k : Nat) (pass : Bool) (vector : Nat) (s : State) : Out :=
  withUnit (kilnOk h k) (if s.live then s.kilnTested h k pass vector else s)

/-- The core-test library finds a core bad (R480, R481): its job is torn down and the Hearth is SUSPECT. -/
def State.coreBad (s : State) (h c : Nat) : State :=
  let p := s.physOf h
  let s1 := s.logFault (originHearth p) 0x02 (p + c * 256) (s.jobOf h) 0x10
  let s2 := s1.setCore h c { s1.core h c with state := 3, faulted := true }
  let s3 := s2.suspect h (4 + c)
  (if (s3.hearth h).job = (s.hearth h).job then s3.tearHearth h else s3).startRecovery h

/-- CORE_TEST (R480): a run on a core of logical Hearth `h`, counted; the core's state is restored. -/
def execCoreTest (h c : Nat) (pass : Bool) (s : State) : Out :=
  withUnit (coreOk h c)
    (if s.live && (s.reg 0x280004).getLsbD 0 then
      (let s1 := s.bump 0x28004C 1
       if pass then s1 else s1.coreBad h c)
     else s)

end Sys2Proof.Machine
end

