-- ==== Sys2Proof/Machine/Astc.lean ====
section
/-! DEFINITION. ASTC blocks of 4 × 4 and 8 × 8 texels under the LDR profile (R301). The manual names the standard and
does not repeat it: the decoding is the standard's. [PRESUMED: assumption 224] -/

namespace Sys2Proof.Machine

/-! ### Integer sequences -/

/-- The quantisation levels of the standard in ascending order, as (bits, kind): kind 1 adds a trit, 2 a quint. -/
def astcLevels : List (Nat × Nat) :=
  [(1, 0), (0, 1), (2, 0), (0, 2), (1, 1), (3, 0), (1, 2), (2, 1), (4, 0), (2, 2), (3, 1), (5, 0), (3, 2), (4, 1), (6, 0),
   (4, 2), (5, 1), (7, 0), (5, 2), (6, 1), (8, 0)]

def astcLevel (q : Nat) : Nat × Nat := astcLevels.getD q (1, 0)

/-- Bits of a sequence of n values at level q. -/
def iseBits (n q : Nat) : Nat :=
  let (b, k) := astcLevel q
  n * b + (if k = 1 then (8 * n + 4) / 5 else if k = 2 then (7 * n + 2) / 3 else 0)

/-- The five trits of a packed byte, lowest first. -/
def unpackTrits (t : Nat) : List Nat :=
  let f (x lo n : Nat) : Nat := x / 2 ^ lo % 2 ^ n
  let c := if f t 2 3 = 7 then f t 5 3 * 4 + f t 0 2 else f t 0 5
  let (t3, t4) := if f t 2 3 = 7 then (2, 2) else if f t 5 2 = 3 then (f t 7 1, 2) else (f t 5 2, f t 7 1)
  let low (hi lo : Nat) : Nat := hi * 2 + lo * (1 - hi)
  let (t0, t1, t2) :=
    if f c 0 2 = 3 then (low (f c 3 1) (f c 2 1), f c 4 1, 2)
    else if f c 2 2 = 3 then (f c 0 2, 2, 2)
    else (low (f c 1 1) (f c 0 1), f c 2 2, f c 4 1)
  [t0, t1, t2, t3, t4]

/-- The three quints of seven packed bits, lowest first. -/
def unpackQuints (q : Nat) : List Nat :=
  let f (x lo n : Nat) : Nat := x / 2 ^ lo % 2 ^ n
  if f q 1 2 = 3 ∧ f q 5 2 = 0 then
    let q0 := f q 0 1
    [4, 4, q0 * 4 + f q 4 1 * (1 - q0) * 2 + f q 3 1 * (1 - q0)]
  else
    let (c, q2) := if f q 1 2 = 3 then (f q 3 2 * 8 + (3 - f q 5 2) * 2 + f q 0 1, 4) else (f q 0 5, f q 5 2)
    if f c 0 3 = 5 then [f c 3 2, 4, q2] else [f c 0 3, f c 3 2, q2]

/-- Value i of a sequence of n values at level q whose bits are `m`: its trit or quint, and its bits. -/
def iseValue (m n q i : Nat) : Nat × Nat :=
  let (b, k) := astcLevel q
  let m := m % 2 ^ iseBits n q
  let f (lo w : Nat) : Nat := m / 2 ^ lo % 2 ^ w
  if k = 1 then
    let at' := i / 5 * (8 + 5 * b)
    let t := f (at' + b) 2 + f (at' + 2 * b + 2) 2 * 4 + f (at' + 3 * b + 4) 1 * 16 + f (at' + 4 * b + 5) 2 * 32 +
      f (at' + 5 * b + 7) 1 * 128
    ((unpackTrits t).getD (i % 5) 0, f (at' + i % 5 * b + ([0, 2, 4, 5, 7] : List Nat).getD (i % 5) 0) b)
  else if k = 2 then
    let at' := i / 3 * (7 + 3 * b)
    let t := f (at' + b) 3 + f (at' + 2 * b + 3) 2 * 8 + f (at' + 3 * b + 5) 2 * 32
    ((unpackQuints t).getD (i % 3) 0, f (at' + i % 3 * b + ([0, 3, 5] : List Nat).getD (i % 3) 0) b)
  else (0, f (i * b) b)

/-- b bits repeated to n. -/
def repeatBits (b n m : Nat) : Nat :=
  let r := (n + b - 1) / b
  m * ((2 ^ (b * r) - 1) / (2 ^ b - 1)) / 2 ^ (b * r - n)

/-- Unquantise a colour value to 8 bits. -/
def colourValue (q : Nat) (v : Nat × Nat) : Nat :=
  let (b, k) := astcLevel q
  let x := v.2 / 2
  let all := if v.2 % 2 = 1 then 511 else 0
  let mix (c y : Nat) : Nat := (if v.2 % 2 = 1 then 128 else 0) ||| ((v.1 * c + y) ^^^ all) / 4
  if k = 0 then repeatBits b 8 v.2
  else if k = 1 then
    mix (([204, 93, 44, 22, 11, 5] : List Nat).getD (b - 1) 0)
      (if b = 1 then 0 else if b = 2 then x * 278 else if b = 3 then x * 133 else if b = 4 then x * 65
       else if b = 5 then x * 32 + x / 4 else x * 16 + x / 16)
  else
    mix (([113, 54, 26, 13, 6] : List Nat).getD (b - 1) 0)
      (if b = 1 then 0 else if b = 2 then x * 268 else if b = 3 then x * 130 + x / 2 else if b = 4 then x * 64 + x / 2
       else x * 32 + x / 8)

/-- Unquantise a weight to 0 to 64. -/
def weightValue (q : Nat) (v : Nat × Nat) : Nat :=
  let (b, k) := astcLevel q
  let x := v.2 / 2
  let all := if v.2 % 2 = 1 then 127 else 0
  let mix (c y : Nat) : Nat := (if v.2 % 2 = 1 then 32 else 0) ||| ((v.1 * c + y) ^^^ all) / 4
  let w := if k = 0 then repeatBits b 6 v.2
    else if k = 1 then
      (if b = 0 then ([0, 32, 63] : List Nat).getD v.1 0
       else if b = 1 then mix 50 0 else if b = 2 then mix 23 (x * 69) else mix 11 (x * 33))
    else if b = 0 then ([0, 16, 32, 47, 63] : List Nat).getD v.1 0
    else if b = 1 then mix 28 0 else mix 13 (x * 66)
  if 32 < w then w + 1 else w

/-! ### Block modes and partitions -/

/-- What the block mode of a block gives: the weight grid, two planes, and the level of the weights. -/
structure AstcMode where
  w    : Nat
  h    : Nat
  dual : Bool
  q    : Nat
  deriving DecidableEq, Repr

/-- The block mode; `none` for a reserved one. -/
def astcMode (m : Nat) : Option AstcMode :=
  let f (lo n : Nat) : Nat := m / 2 ^ lo % 2 ^ n
  let a := f 5 2
  let r := if f 0 2 ≠ 0 then f 4 1 + f 0 2 * 2 else f 4 1 + f 2 2 * 2
  let mk (w h : Nat) (plain : Bool) : Option AstcMode :=
    some { w := w, h := h, dual := !plain && f 10 1 == 1, q := r - 2 + (if plain then 0 else 6 * f 9 1) }
  if f 0 2 ≠ 0 then
    let b := f 7 2
    if f 2 2 = 0 then mk (b + 4) (a + 2) false
    else if f 2 2 = 1 then mk (b + 8) (a + 2) false
    else if f 2 2 = 2 then mk (a + 2) (b + 8) false
    else if f 8 1 = 1 then mk (b % 2 + 2) (a + 2) false
    else mk (a + 2) (b % 2 + 6) false
  else if f 2 2 = 0 then none
  else if f 7 2 = 0 then mk 12 (a + 2) false
  else if f 7 2 = 1 then mk (a + 2) 12 false
  else if f 7 2 = 2 then mk (a + 6) (f 9 2 + 6) true
  else if a = 0 then mk 6 10 false
  else if a = 1 then mk 10 6 false
  else none

/-- The standard's hash of a partition seed. -/
def hash52 (seed : Nat) : Nat :=
  let w : Nat := 2 ^ 32
  let p := seed ^^^ seed / 2 ^ 15
  let p := (p + (w - p * 2 ^ 17 % w)) % w
  let p := (p + p * 2 ^ 7) % w
  let p := (p + p * 2 ^ 4) % w
  let p := p ^^^ p / 2 ^ 5
  let p := (p + p * 2 ^ 16) % w
  let p := p ^^^ p / 2 ^ 7
  let p := p ^^^ p / 2 ^ 3
  let p := p ^^^ p * 2 ^ 6 % w
  p ^^^ p / 2 ^ 17

/-- The partition of texel (x, y) among `n`; a block of fewer than 31 texels counts doubled coordinates. -/
def astcPartition (index n side x y : Nat) : Nat :=
  let big := if side * side < 31 then 2 else 1
  let seed := index + (n - 1) * 1024
  let r := hash52 seed
  let nib (k : Nat) : Nat := (r / 2 ^ k % 16) ^ 2
  let s2 := if seed / 2 % 2 = 1 then 4 else 5
  let s3 := if n = 3 then 6 else 5
  let (sh1, sh2) := if seed % 2 = 1 then (s2, s3) else (s3, s2)
  let mix (i j lo : Nat) : Nat :=
    (nib i / 2 ^ sh1 * (x * big) + nib j / 2 ^ sh2 * (y * big) + r / 2 ^ lo) % 64
  let a := mix 0 4 14
  let b := mix 8 12 10
  let c := if n < 3 then 0 else mix 16 20 6
  let d := if n < 4 then 0 else mix 24 28 2
  if b ≤ a ∧ c ≤ a ∧ d ≤ a then 0
  else if c ≤ b ∧ d ≤ b then 1
  else if d ≤ c then 2
  else 3

/-! ### Endpoints -/

def clampByte (x : Int) : Nat := (max 0 (min x 255)).toNat

/-- The two RGBA endpoints of a partition's values; `none` for an HDR mode. -/
def astcEndpoints (mode : Nat) (v : Nat → Nat) : Option (List Nat × List Nat) :=
  let i (k : Nat) : Int := v k
  -- an offset and its base (the standard's bit transfer), for the pair that begins at k
  let off (k : Nat) : Int := let a := v (k + 1) / 2 % 64; if a < 32 then (a : Int) else (a : Int) - 64
  let base (k : Nat) : Int := (v k / 2 + (if 128 ≤ v (k + 1) then 128 else 0) : Nat)
  let contract (c : List Int) : List Nat :=
    let b := c.getD 2 0
    [clampByte ((c.getD 0 0 + b) / 2), clampByte ((c.getD 1 0 + b) / 2), clampByte b, clampByte (c.getD 3 0)]
  let plain (c : List Int) : List Nat := c.map clampByte
  let direct (e0 e1 : List Int) : List Nat × List Nat :=
    if (e0.take 3).sum ≤ (e1.take 3).sum then (plain e0, plain e1) else (contract e1, contract e0)
  let offset (e0 d : List Int) : List Nat × List Nat :=
    let e1 := List.zipWith (· + ·) e0 d
    if 0 ≤ (d.take 3).sum then (plain e0, plain e1) else (contract e1, contract e0)
  if mode = 0 then some ([v 0, v 0, v 0, 255], [v 1, v 1, v 1, 255])
  else if mode = 1 then
    let l := v 0 / 4 + v 1 / 64 * 64
    let h := min 255 (l + v 1 % 64)
    some ([l, l, l, 255], [h, h, h, 255])
  else if mode = 4 then some ([v 0, v 0, v 0, v 2], [v 1, v 1, v 1, v 3])
  else if mode = 5 then
    let e0 := [base 0, base 0, base 0, base 2]
    some (plain e0, plain (List.zipWith (· + ·) e0 [off 0, off 0, off 0, off 2]))
  else if mode = 6 ∨ mode = 10 then
    let s (k : Nat) : Nat := v k * v 3 / 256
    let (a0, a1) := if mode = 6 then (255, 255) else (v 4, v 5)
    some ([s 0, s 1, s 2, a0], [v 0, v 1, v 2, a1])
  else if mode = 8 then some (direct [i 0, i 2, i 4, 255] [i 1, i 3, i 5, 255])
  else if mode = 9 then some (offset [base 0, base 2, base 4, 255] [off 0, off 2, off 4, 0])
  else if mode = 12 then some (direct [i 0, i 2, i 4, i 6] [i 1, i 3, i 5, i 7])
  else if mode = 13 then some (offset [base 0, base 2, base 4, base 6] [off 0, off 2, off 4, off 6])
  else none

/-! ### Blocks -/

/-- The code of four 8-bit components. -/
def rgba8 (v : List Nat) : Nat :=
  v.getD 0 0 + v.getD 1 0 * 2 ^ 8 + v.getD 2 0 * 2 ^ 16 + v.getD 3 0 * 2 ^ 24

/-- The standard's error colour. -/
def astcError : Nat := rgba8 [255, 0, 255, 255]

/-- A void-extent block; one of HDR values or with an illegal extent is an error. -/
def astcVoid (m : Nat) : Nat :=
  let f (lo n : Nat) : Nat := m / 2 ^ lo % 2 ^ n
  let s0 := f 12 13
  let s1 := f 25 13
  let t0 := f 38 13
  let t1 := f 51 13
  let none' := s0 == 8191 && s1 == 8191 && t0 == 8191 && t1 == 8191
  if f 9 1 = 1 ∨ f 10 2 ≠ 3 ∨ (!none' ∧ (s1 ≤ s0 ∨ t1 ≤ t0)) then astcError
  else rgba8 [f 72 8, f 88 8, f 104 8, f 120 8]

/-- The weight of texel (x, y) from the grid (weights `g` by index). -/
def gridWeight (b : AstcMode) (side x y : Nat) (g : Nat → Nat) : Nat :=
  let scale := (1024 + side / 2) / (side - 1)
  let gs := (scale * x * (b.w - 1) + 32) / 64
  let gt := (scale * y * (b.h - 1) + 32) / 64
  let fs := gs % 16
  let ft := gt % 16
  let v := gs / 16 + gt / 16 * b.w
  let w11 := (fs * ft + 8) / 16
  (g v * (16 + w11 - fs - ft) + g (v + 1) * (fs - w11) + g (v + b.w) * (ft - w11) + g (v + b.w + 1) * w11 + 8) / 16

/-- The colour modes of the partitions, and the number of their bits above the weights. -/
def astcModes (m parts below : Nat) : List Nat × Nat :=
  let f (lo n : Nat) : Nat := m / 2 ^ lo % 2 ^ n
  if parts = 1 then ([f 13 4], 0)
  else
    let extra := 3 * parts - 4
    let cem := f 23 6 + f (below - extra) extra * 64
    if cem % 4 = 0 then (List.replicate parts (f 25 4), 0)
    else ((List.range parts).map fun i =>
      (cem % 4 - 1 + cem / 2 ^ (2 + i) % 2) * 4 + cem / 2 ^ (2 + parts + 2 * i) % 4, extra)

/-- A block that is not of the void-extent kind. -/
def astcPlain (m side x y : Nat) (b : AstcMode) : Nat :=
  let f (lo n : Nat) : Nat := m / 2 ^ lo % 2 ^ n
  let planes := if b.dual then 2 else 1
  let count := b.w * b.h * planes
  let wbits := iseBits count b.q
  let parts := f 11 2 + 1
  let (modes, extra) := astcModes m parts (128 - wbits)
  let values := (modes.map fun k => (k / 4 + 1) * 2).sum
  let room := (if parts = 1 then 111 else 99) - wbits - extra - (if b.dual then 2 else 0)
  let q := ((List.range 21).filter fun q => decide (iseBits values q ≤ room)).getLast?.getD 0
  if side < b.w ∨ side < b.h ∨ 64 < count ∨ wbits < 24 ∨ 96 < wbits ∨ (b.dual ∧ parts = 4) ∨ 18 < values ∨ q < 4 then
    astcError
  else
    let part := if parts = 1 then 0 else astcPartition (f 13 10) parts side x y
    let first := ((modes.take part).map fun k => (k / 4 + 1) * 2).sum
    let stream := m / 2 ^ (if parts = 1 then 17 else 29)
    let value (k : Nat) : Nat := colourValue q (iseValue stream values q (first + k))
    let rev := (List.range 128).foldl (fun r i => r * 2 + m / 2 ^ i % 2) 0
    let grid (p i : Nat) : Nat :=
      if b.w * b.h ≤ i then 0 else weightValue b.q (iseValue rev count b.q (i * planes + p))
    let second := f (128 - wbits - extra - 2) 2
    if modes.any fun k => (astcEndpoints k fun _ => 0).isNone then astcError
    else match astcEndpoints (modes.getD part 0) value with
      | none => astcError
      | some (e0, e1) =>
        let w0 := gridWeight b side x y (grid 0)
        let w1 := if b.dual then gridWeight b side x y (grid 1) else w0
        rgba8 ((List.range 4).map fun k =>
          let w := if b.dual ∧ k = second then w1 else w0
          (e0.getD k 0 * 257 * (64 - w) + e1.getD k 0 * 257 * w + 32) / 64 / 256)

/-- Texel (x, y) of a 16-byte block of `side` × `side` texels, as an RGBA8 code. -/
def astcTexel (bs : List Byte) (side x y : Nat) : Nat :=
  let m := leNat (bs.take 16)
  if m % 512 = 508 then astcVoid m
  else match astcMode (m % 2048) with
    | none => astcError
    | some b => astcPlain m side x y b

end Sys2Proof.Machine
end

