-- ==== Sys2Proof/Machine/Texture.lean ====
section
/-! DEFINITION. The texture unit and VTEX (R211, R299 to R302): descriptors, levels, level of detail, filtering and
sparse residency. -/

namespace Sys2Proof.Machine

/-! ### Descriptors and levels (R299, R300) -/

/-- A texture descriptor. -/
structure Tex where
  fmt    : Nat
  levels : Nat
  filter : Nat
  wrap   : Nat
  width  : Nat
  height : Nat
  addr   : Nat
  flags  : Nat
  minRes : Nat
  resMap : Nat
  deriving DecidableEq, Repr

def readTex (b : List Byte) : Tex :=
  { fmt := leAt b 0 1, levels := leAt b 1 1, filter := leAt b 2 1, wrap := leAt b 3 1, width := leAt b 4 2
    height := leAt b 6 2, addr := leAt b 8 8, flags := leAt b 16 1, minRes := leAt b 17 1, resMap := leAt b 24 8 }

/-- The side of an ASTC block, 1 for other formats; bytes per texel or block. -/
def Tex.side (t : Tex) : Nat := if t.fmt = 9 then 4 else if t.fmt = 10 then 8 else 1
def Tex.unit (t : Tex) : Nat := if t.side = 1 then fmtBytes t.fmt else 16

/-- Width and height of level l. -/
def Tex.levelW (t : Tex) (l : Nat) : Nat := max 1 (t.width / 2 ^ l)
def Tex.levelH (t : Tex) (l : Nat) : Nat := max 1 (t.height / 2 ^ l)

/-- Row pitch and bytes of level l. -/
def Tex.pitch (t : Tex) (l : Nat) : Nat := ((t.levelW l + t.side - 1) / t.side * t.unit + 63) / 64 * 64
def Tex.levelBytes (t : Tex) (l : Nat) : Nat := t.pitch l * ((t.levelH l + t.side - 1) / t.side)

/-- Offset of level l from `addr`. -/
def Tex.levelAt (t : Tex) : Nat → Nat
  | 0 => 0
  | l + 1 => (t.levelAt l + t.levelBytes l + 65535) / 65536 * 65536

/-- Bytes of the texture, its pages, and the bytes of a page bitmap up to the next multiple of 64. -/
def Tex.bytes (t : Tex) : Nat := t.levelAt (t.levels - 1) + t.levelBytes (t.levels - 1)
def Tex.pages (t : Tex) : Nat := (t.bytes + 65535) / 65536
def Tex.mapBytes (t : Tex) : Nat := ((t.pages + 7) / 8 + 63) / 64 * 64
def Tex.sparse (t : Tex) : Bool := t.flags.testBit 0

/-- Whether a descriptor is valid (R299). [DEDUCED: assumption 143] -/
def texOk (size : Nat) (b : List Byte) : Bool :=
  let t := readTex b
  decide (1 ≤ t.fmt) && decide (t.fmt ≤ 10) && t.fmt != 5 && decide (1 ≤ t.levels) && decide (t.levels ≤ 14) &&
  decide (t.filter < 3) && decide (t.wrap < 16) && decide (t.wrap % 4 < 3) && decide (t.wrap / 4 < 3) &&
  decide (1 ≤ t.width) && decide (t.width ≤ 8192) && decide (1 ≤ t.height) && decide (t.height ≤ 8192) &&
  t.addr % 65536 == 0 && decide (t.addr + t.bytes ≤ size) && decide (t.flags < 2) && decide (t.minRes < t.levels) &&
  zeroAt b 18 6 &&
  (if t.sparse then t.resMap % 64 == 0 && decide (t.resMap + 2 * t.mapBytes ≤ size) else t.resMap == 0)

/-- The texel that a coordinate wraps to (R301). -/
def wrapTexel (mode n : Nat) (i : Int) : Nat :=
  if mode = 0 then (i % n).toNat
  else if mode = 1 then
    let k := (i % (2 * n : Nat)).toNat
    if k < n then k else 2 * n - 1 - k
  else (max 0 (min i ((n : Int) - 1))).toNat

/-- A texel that a sample needs: its level, column and row. -/
structure Texel where
  level : Nat
  x     : Nat
  y     : Nat
  deriving DecidableEq, Repr

/-- Offset from `addr` of a texel, or of its block. -/
def Tex.offset (t : Tex) (e : Texel) : Nat :=
  t.levelAt e.level + e.y / t.side * t.pitch e.level + e.x / t.side * t.unit

/-- The four fp32 components of a texel (R301). -/
def State.texel (s : State) (c : CordCfg) (t : Tex) (e : Texel) : List Nat :=
  let bs := s.cordBytes c (t.addr + t.offset e) t.unit
  if t.side = 1 then texelOf t.fmt (leNat bs)
  else texelOf 3 (astcTexel bs t.side (e.x % t.side) (e.y % t.side))

/-! ### Level of detail and filtering (R301) -/

/-- Squaring steps of a binary logarithm: `y` in [1, 2) scaled by 2^192 gives the next `n` bits of log2 y. -/
def log2Bits : Nat → Nat → Nat → Nat
  | 0, _, acc => acc
  | n + 1, y, acc =>
    let z := y * y / 2 ^ 192
    if 2 ^ 193 ≤ z then log2Bits n (z / 2) (2 * acc + 1) else log2Bits n z (2 * acc)

/-- log2 in fp32, rounded once; `none` where it has no value that the manual states. [DEDUCED: assumption 140] -/
def f32log2 (v : Nat) : Option Nat :=
  match fp32.decode v with
  | .fin false m e =>
    if m = 0 then none
    else
      let k := Nat.log2 m
      let frac := log2Bits 100 (m * 2 ^ 192 / 2 ^ k) 0
      let total : Int := (e + k) * (2 ^ 100 : Nat) + frac
      if m = 2 ^ k then some (f32ofInt (e + k))
      else some (fp32.pack (.fin (decide (total < 0)) (2 * total + 1).natAbs (-101)))
  | _ => none

/-- |a − b| × n in fp32. -/
def f32absDiff (a b n : Nat) : Nat := f32mul (f32sub a b % 2 ^ 31) (f32ofInt n)

/-- λ of the quad of lane i; an open one is a draw (R301). -/
def Tex.lod (t : Tex) (u v : Nat → Nat) (on : Nat → Bool) (i : Nat) (free : BitVec 64) : Nat :=
  let q := i / 4 * 4
  let diff (f : Nat → Nat) (k n : Nat) : Nat := if on q && on (q + k) then f32absDiff (f (q + k)) (f q) n else 0
  let m := fltMax fp32 (fltMax fp32 (diff u 1 t.width) (diff v 1 t.height))
    (fltMax fp32 (diff u 2 t.width) (diff v 2 t.height))
  (f32log2 m).getD (free.toNat % 2 ^ 32)

/-- A level number clamped to the texture's levels. -/
def Tex.clampLevel (t : Tex) (l : Int) : Nat := (max 0 (min l ((t.levels : Int) - 1))).toNat

/-- The levels that a sample at λ blends, with the blend weight of the second. -/
def Tex.levelsAt (t : Tex) (lod : Nat) : List Nat × Nat :=
  if t.filter = 2 then ([t.clampLevel (f32floor lod), t.clampLevel (f32floor lod + 1)], f32frac lod)
  else ([t.clampLevel (f32roundTe lod)], 0)

/-- Whether an fp32 value is finite. -/
def f32finite (v : Nat) : Bool :=
  match fp32.decode v with
  | .fin _ _ _ => true
  | _ => false

/-- The texels of a sample at one level, and the bilinear fractions; `none` for coordinates that are not finite. [DESIGN
CHOICE: assumption 141; DEDUCED: assumption 142] -/
def Tex.footprint (t : Tex) (u v l : Nat) : Option (List Texel × Nat × Nat) :=
  let w := t.levelW l
  let h := t.levelH l
  let x := f32mul u (f32ofInt w)
  let y := f32mul v (f32ofInt h)
  let at' (i j : Int) : Texel := ⟨l, wrapTexel (t.wrap % 4) w i, wrapTexel (t.wrap / 4) h j⟩
  if !f32finite x || !f32finite y then none
  else if t.filter = 0 then some ([at' (f32floor x) (f32floor y)], 0, 0)
  else
    let xs := f32sub x f32half
    let ys := f32sub y f32half
    let i := f32floor xs
    let j := f32floor ys
    some ([at' i j, at' (i + 1) j, at' i (j + 1), at' (i + 1) (j + 1)], f32frac xs, f32frac ys)

/-- The RGBA of a footprint. -/
def State.filtered (s : State) (c : CordCfg) (t : Tex) (f : List Texel × Nat × Nat) : List Nat :=
  let px := f.1.map (s.texel c t)
  (List.range 4).map fun k =>
    let p (n : Nat) : Nat := (px.getD n []).getD k 0
    if t.filter = 0 then p 0 else f32bilinear f.2.1 f.2.2 (p 0) (p 1) (p 2) (p 3)

/-! ### Residency (R302) -/

/-- The first non-resident page that a list of texels lies on. -/
def State.missingPage (s : State) (c : CordCfg) (t : Tex) (es : List Texel) : Option Nat :=
  if !t.sparse then none
  else (es.map fun e => t.offset e / 65536).find? fun p => !(s.cordByte c (t.resMap + p / 8)).toNat.testBit (p % 8)

/-- A sparse miss of page p: its feedback bit, the count, and the first event of the pass. -/
def State.sparseMiss (s : State) (c : CordCfg) (j : Job) (t : Tex) (index p : Nat) : State :=
  let a := t.resMap + t.mapBytes + p / 8
  let old := (s.cordByte c a).toNat
  let bit := if old.testBit (p % 8) then old else old + 2 ^ (p % 8)
  s.jobWrite j.sub c a [BitVec.ofNat 8 bit] fun s =>
  let s1 := s.bump (cordAddr j.cord 0xE018) 1
  match s1.job? j.sub with
  | some x => if x.pass.missSent then s1
    else (s1.eventCordBlock j.cord 0x0A02 index).modJob j.sub fun x => { x with pass := { x.pass with missSent := true } }
  | none => s1

/-- The spans of footprints. -/
def Tex.spans (t : Tex) (fs : List (List Texel × Nat × Nat)) : List Span :=
  fs.flatMap fun f => f.1.map fun e => { hearth := none, addr := t.addr + t.offset e, len := t.unit }

/-- What a sample gives: RGBA, an open value (coordinates that are not finite), or the end of the job. -/
inductive TexOut where
  | rgba (v : List Nat)
  | open'
  | ended
  deriving DecidableEq, Repr

/-- Sample at levels `ls`; a miss retries one level coarser, at most `n` times (R302). -/
def State.sampleAt (s : State) (c : CordCfg) (j : Job) (t : Tex) (index u v wt : Nat) :
    Nat → List Nat → State × TexOut
  | n, ls =>
    let fs := ls.map (t.footprint u v)
    if fs.any Option.isNone then (s, .open')
    else
      let fs := fs.filterMap id
      match s.missingPage c t (fs.flatMap Prod.fst) with
      | none =>
        (match (t.spans fs).find? (s.spanUe c) with
         | some x => ((s.noteSpanUe c x).endJob j.sub stTorn, .ended)
         | none =>
           let cols := fs.map (s.filtered c t)
           (s, .rgba ((List.range 4).map fun k =>
             let a := (cols.getD 0 []).getD k 0
             if ls.length = 1 then a
             else f32add (f32mul (f32sub f32one wt) a) (f32mul wt ((cols.getD 1 []).getD k 0)))))
      | some p =>
        let s1 := s.sparseMiss c j t index p
        match n with
        | 0 => (s1, .rgba [0, 0, 0, 0])
        | n + 1 =>
          if t.minRes ≤ ls.headD 0 then (s1, .rgba [0, 0, 0, 0])
          else s1.sampleAt c j t index u v wt n (ls.map fun (l : Nat) => t.clampLevel ((l : Int) + 1))

/-! ### VTEX (R211) -/

/-- The results of the lanes so far: `none` once the job has ended. -/
structure TexRun where
  state : State
  rgba  : Option (List (Nat × List Nat))
  deriving DecidableEq, Repr

/-- One lane's sample. -/
def TexRun.lane (r : TexRun) (c : CordCfg) (j : Job) (t : Tex) (index : Nat) (u v : Nat → Nat) (on : Nat → Bool)
    (i : Nat) : TexRun :=
  match r.rgba with
  | none => r
  | some out =>
    let s := r.state
    let lod := t.lod u v on i (Config.freeValue (s.draws + i / 4))
    let (ls, wt) := t.levelsAt lod
    let free (k : Nat) : Nat := (Config.freeValue (s.draws + 4 + 4 * i + k)).toNat % 2 ^ 32
    match s.sampleAt c j t index (u i) (v i) wt 14 ls with
    | (s1, .rgba q) => ⟨s1, some ((i, q) :: out)⟩
    | (s1, .open') => ⟨s1, some ((i, (List.range 4).map free) :: out)⟩
    | (s1, .ended) => ⟨s1, none⟩

/-- The texture descriptor table of a job: its base and count; a job without a pass has none. -/
def Job.texTable (j : Job) : Nat × Nat := if j.kind = 2 then (leAt j.desc 48 8, leAt j.desc 56 2) else (0, 0)

/-- VTEX on the machine. -/
def State.vtex (s : State) (h c : Nat) (vd vs1 vs2 : BitVec 5) (pr : BitVec 3) : State :=
  let k := s.core h c
  match (s.hearth h).job.bind s.job? with
  | none => s
  | some j =>
    match s.cordCfg j.cord with
    | none => s
    | some g =>
      let (base, count) := j.texTable
      let index := k.texsel.toNat % 256
      let u (i : Nat) : Nat := Sys2Proof.Machine.lane false (k.readV vs1) i
      let v (i : Nat) : Nat := Sys2Proof.Machine.lane false (k.readV vs2) i
      let on (i : Nat) : Bool := (k.readP pr).toNat.testBit i
      if count ≤ index then s.failRaster j 3
      else if s.cordUe g (base + 32 * index) 32 then (s.noteCordUe g (base + 32 * index) 32).endJob j.sub stTorn
      else
        let b := s.cordBytes g (base + 32 * index) 32
        if !texOk g.size b then s.failRaster j 3
        else
          let r := ((List.range 16).filter on).foldl
            (fun (r : TexRun) i => r.lane g j (readTex b) index u v on i) ⟨s, some []⟩
          match r.rgba with
          | none => r.state
          | some out =>
            let val (i n : Nat) : Nat := (((out.find? fun x => x.1 == i).map Prod.snd).getD []).getD n 0
            let put (x : Core) (n : Nat) : Core :=
              let q := vd + BitVec.ofNat 5 n
              x.writeV q (maskLanes false (x.readP pr) (x.readV q) fun i => val i n)
            let s1 : State := { r.state with draws := r.state.draws + 68 }
            s1.coreNext h c fun x => ([0, 1, 2, 3] : List Nat).foldl put x

/-- VTEX (R211). [DEDUCED: assumption 87] -/
def execVtex (h c : Nat) (vd vs1 vs2 : BitVec 5) (pr : BitVec 3) (w16 : Bool) (s : State) : Out :=
  withUnit (coreOk h c) (s.coreStep h c (encV 0x33 0x00 vd vs1 vs2 pr w16) maskAll fun s => s.vtex h c vd vs1 vs2 pr)

end Sys2Proof.Machine
end

