-- ==== Sys2Proof/Machine/Dispatch.lean ====
section
/-! DEFINITION. One arm for each constructor of `Instr`: the call of its meaning. -/

namespace Sys2Proof.Machine

/-- The effect of a command on everything but the queue. -/
def exec (i : Instr) (s : State) : Host.Outcome State Fault Refusal :=
  match i with
  | .powerUp => Sys2Proof.Machine.execPowerUp s
  | .moduleResetEnd => Sys2Proof.Machine.execModuleResetEnd s
  | .fwStart => Sys2Proof.Machine.execFwStart s
  | .resetNAssert => Sys2Proof.Machine.execResetNAssert s
  | .resetNRelease => Sys2Proof.Machine.execResetNRelease s
  | .fuseTrip => Sys2Proof.Machine.execFuseTrip s
  | .fuseRetry persists => Sys2Proof.Machine.execFuseRetry persists s
  | .vinOvervoltage => Sys2Proof.Machine.execVinOvervoltage s
  | .vinOvervoltageClear => Sys2Proof.Machine.execVinOvervoltageClear s
  | .brownoutEnter mv => Sys2Proof.Machine.execBrownoutEnter mv s
  | .supplyRecover => Sys2Proof.Machine.execSupplyRecover s
  | .holdEnd => Sys2Proof.Machine.execHoldEnd s
  | .supplyReset => Sys2Proof.Machine.execSupplyReset s
  | .supplyFault rail nominal measured => Sys2Proof.Machine.execSupplyFault rail nominal measured s
  | .clockMonitorWindow clock measuredKHz => Sys2Proof.Machine.execClockMonitorWindow clock measuredKHz s
  | .pllRelock => Sys2Proof.Machine.execPllRelock s
  | .relockTimeout => Sys2Proof.Machine.execRelockTimeout s
  | .dividerChange h => Sys2Proof.Machine.execDividerChange h s
  | .flitReceive link cls flit crcOk => Sys2Proof.Machine.execFlitReceive link cls flit crcOk s
  | .sensorSample readings mv => Sys2Proof.Machine.execSensorSample readings mv s
  | .draughtEpoch activity => Sys2Proof.Machine.execDraughtEpoch activity s
  | .correctionUpdate meanMw => Sys2Proof.Machine.execCorrectionUpdate meanMw s
  | .targetPowerUpdate => Sys2Proof.Machine.execTargetPowerUpdate s
  | .inputClamp mw => Sys2Proof.Machine.execInputClamp mw s
  | .clampRelease => Sys2Proof.Machine.execClampRelease s
  | .drgCap d w => Sys2Proof.Machine.execDrgCap d w s
  | .writeInc d r => Sys2Proof.Machine.execWriteInc d r s
  | .writeFix d r => Sys2Proof.Machine.execWriteFix d r s
  | .readInc d r => Sys2Proof.Machine.execReadInc d r s
  | .readFix d r => Sys2Proof.Machine.execReadFix d r s
  | .set d r => Sys2Proof.Machine.execSet d r s
  | .ztClear d r => Sys2Proof.Machine.execZtClear d r s
  | .ztFence d r => Sys2Proof.Machine.execZtFence d r s
  | .fenceComplete d => Sys2Proof.Machine.execFenceComplete d s
  | .ztNop d op r => Sys2Proof.Machine.execZtNop d op r s
  | .tsyncExchange d r latency => Sys2Proof.Machine.execTsyncExchange d r latency s
  | .framingError x => Sys2Proof.Machine.execFramingError x s
  | .eventTransfer d => Sys2Proof.Machine.execEventTransfer d s
  | .usbLinkUp d rate flip => Sys2Proof.Machine.execUsbLinkUp d rate flip s
  | .usbLinkDown d => Sys2Proof.Machine.execUsbLinkDown d s
  | .ccOpenTimeout d => Sys2Proof.Machine.execCcOpenTimeout d s
  | .dpDataWrite d p words => Sys2Proof.Machine.execDpDataWrite d p words s
  | .dpDataRead d p count => Sys2Proof.Machine.execDpDataRead d p count s
  | .outboundRingResume d p => Sys2Proof.Machine.execOutboundRingResume d p s
  | .dataPortStall d p => Sys2Proof.Machine.execDataPortStall d p s
  | .tsyncReset d => Sys2Proof.Machine.execTsyncReset d s
  | .registerWrite d addr w => Sys2Proof.Machine.execRegisterWrite d addr w s
  | .readClear d addr => Sys2Proof.Machine.execReadClear d addr s
  | .loRead d addr => Sys2Proof.Machine.execLoRead d addr s
  | .setAliasWrite d addr w => Sys2Proof.Machine.execSetAliasWrite d addr w s
  | .clearAliasWrite d addr w => Sys2Proof.Machine.execClearAliasWrite d addr w s
  | .layOpen d => Sys2Proof.Machine.execLayOpen d s
  | .layData d w => Sys2Proof.Machine.execLayData d w s
  | .layVerify d => Sys2Proof.Machine.execLayVerify d s
  | .verifyDone => Sys2Proof.Machine.execVerifyDone s
  | .layApply d policy => Sys2Proof.Machine.execLayApply d policy s
  | .layCancel d => Sys2Proof.Machine.execLayCancel d s
  | .layDrainTimeout => Sys2Proof.Machine.execLayDrainTimeout s
  | .drainEnd => Sys2Proof.Machine.execDrainEnd s
  | .applyComplete memError => Sys2Proof.Machine.execApplyComplete memError s
  | .mac h k chk => Sys2Proof.Machine.execMac h k chk s
  | .merge h k chk => Sys2Proof.Machine.execMerge h k chk s
  | .kilnClear h k => Sys2Proof.Machine.execKilnClear h k s
  | .quench h chk => Sys2Proof.Machine.execQuench h chk s
  | .rows h => Sys2Proof.Machine.execRows h s
  | .diag h => Sys2Proof.Machine.execDiag h s
  | .diagmax h => Sys2Proof.Machine.execDiagmax h s
  | .mtable h => Sys2Proof.Machine.execMtable h s
  | .regroup h => Sys2Proof.Machine.execRegroup h s
  | .splice h => Sys2Proof.Machine.execSplice h s
  | .spliceAcked h ok => Sys2Proof.Machine.execSpliceAcked h ok s
  | .release h => Sys2Proof.Machine.execRelease h s
  | .streamOpen h stream => Sys2Proof.Machine.execStreamOpen h stream s
  | .add h c rd rs1 rs2 => Sys2Proof.Machine.execAdd h c rd rs1 rs2 s
  | .sub h c rd rs1 rs2 => Sys2Proof.Machine.execSub h c rd rs1 rs2 s
  | .and h c rd rs1 rs2 => Sys2Proof.Machine.execAnd h c rd rs1 rs2 s
  | .or h c rd rs1 rs2 => Sys2Proof.Machine.execOr h c rd rs1 rs2 s
  | .xor h c rd rs1 rs2 => Sys2Proof.Machine.execXor h c rd rs1 rs2 s
  | .sll h c rd rs1 rs2 => Sys2Proof.Machine.execSll h c rd rs1 rs2 s
  | .srl h c rd rs1 rs2 => Sys2Proof.Machine.execSrl h c rd rs1 rs2 s
  | .sra h c rd rs1 rs2 => Sys2Proof.Machine.execSra h c rd rs1 rs2 s
  | .slt h c rd rs1 rs2 => Sys2Proof.Machine.execSlt h c rd rs1 rs2 s
  | .sltu h c rd rs1 rs2 => Sys2Proof.Machine.execSltu h c rd rs1 rs2 s
  | .min h c rd rs1 rs2 => Sys2Proof.Machine.execMin h c rd rs1 rs2 s
  | .max h c rd rs1 rs2 => Sys2Proof.Machine.execMax h c rd rs1 rs2 s
  | .minu h c rd rs1 rs2 => Sys2Proof.Machine.execMinu h c rd rs1 rs2 s
  | .maxu h c rd rs1 rs2 => Sys2Proof.Machine.execMaxu h c rd rs1 rs2 s
  | .mul h c rd rs1 rs2 => Sys2Proof.Machine.execMul h c rd rs1 rs2 s
  | .mulh h c rd rs1 rs2 => Sys2Proof.Machine.execMulh h c rd rs1 rs2 s
  | .mulhu h c rd rs1 rs2 => Sys2Proof.Machine.execMulhu h c rd rs1 rs2 s
  | .div h c rd rs1 rs2 => Sys2Proof.Machine.execDiv h c rd rs1 rs2 s
  | .divu h c rd rs1 rs2 => Sys2Proof.Machine.execDivu h c rd rs1 rs2 s
  | .rem h c rd rs1 rs2 => Sys2Proof.Machine.execRem h c rd rs1 rs2 s
  | .remu h c rd rs1 rs2 => Sys2Proof.Machine.execRemu h c rd rs1 rs2 s
  | .addi h c rd rs1 imm => Sys2Proof.Machine.execAddi h c rd rs1 imm s
  | .andi h c rd rs1 imm => Sys2Proof.Machine.execAndi h c rd rs1 imm s
  | .ori h c rd rs1 imm => Sys2Proof.Machine.execOri h c rd rs1 imm s
  | .xori h c rd rs1 imm => Sys2Proof.Machine.execXori h c rd rs1 imm s
  | .slli h c rd rs1 imm => Sys2Proof.Machine.execSlli h c rd rs1 imm s
  | .srli h c rd rs1 imm => Sys2Proof.Machine.execSrli h c rd rs1 imm s
  | .srai h c rd rs1 imm => Sys2Proof.Machine.execSrai h c rd rs1 imm s
  | .slti h c rd rs1 imm => Sys2Proof.Machine.execSlti h c rd rs1 imm s
  | .sltiu h c rd rs1 imm => Sys2Proof.Machine.execSltiu h c rd rs1 imm s
  | .lui h c rd rs1 imm => Sys2Proof.Machine.execLui h c rd rs1 imm s
  | .jalr h c rd rs1 imm => Sys2Proof.Machine.execJalr h c rd rs1 imm s
  | .csrr h c rd rs1 imm => Sys2Proof.Machine.execCsrr h c rd rs1 imm s
  | .csrw h c rd rs1 imm => Sys2Proof.Machine.execCsrw h c rd rs1 imm s
  | .lb h c rd base off => Sys2Proof.Machine.execLb h c rd base off s
  | .lbu h c rd base off => Sys2Proof.Machine.execLbu h c rd base off s
  | .lh h c rd base off => Sys2Proof.Machine.execLh h c rd base off s
  | .lhu h c rd base off => Sys2Proof.Machine.execLhu h c rd base off s
  | .lw h c rd base off => Sys2Proof.Machine.execLw h c rd base off s
  | .lwu h c rd base off => Sys2Proof.Machine.execLwu h c rd base off s
  | .ld h c rd base off => Sys2Proof.Machine.execLd h c rd base off s
  | .sb h c rs base off => Sys2Proof.Machine.execSb h c rs base off s
  | .sh h c rs base off => Sys2Proof.Machine.execSh h c rs base off s
  | .sw h c rs base off => Sys2Proof.Machine.execSw h c rs base off s
  | .sd h c rs base off => Sys2Proof.Machine.execSd h c rs base off s
  | .vld h c vd base off => Sys2Proof.Machine.execVld h c vd base off s
  | .vst h c vs base off => Sys2Proof.Machine.execVst h c vs base off s
  | .setw h c rs base off => Sys2Proof.Machine.execSetw h c rs base off s
  | .clrw h c rs base off => Sys2Proof.Machine.execClrw h c rs base off s
  | .beq h c rs1 rs2 off => Sys2Proof.Machine.execBeq h c rs1 rs2 off s
  | .bne h c rs1 rs2 off => Sys2Proof.Machine.execBne h c rs1 rs2 off s
  | .blt h c rs1 rs2 off => Sys2Proof.Machine.execBlt h c rs1 rs2 off s
  | .bge h c rs1 rs2 off => Sys2Proof.Machine.execBge h c rs1 rs2 off s
  | .bltu h c rs1 rs2 off => Sys2Proof.Machine.execBltu h c rs1 rs2 off s
  | .bgeu h c rs1 rs2 off => Sys2Proof.Machine.execBgeu h c rs1 rs2 off s
  | .jal h c rd off => Sys2Proof.Machine.execJal h c rd off s
  | .bpany h c pr off => Sys2Proof.Machine.execBpany h c pr off s
  | .bpnone h c pr off => Sys2Proof.Machine.execBpnone h c pr off s
  | .vadd h c vd vs1 vs2 pr w16 => Sys2Proof.Machine.execVadd h c vd vs1 vs2 pr w16 s
  | .vsub h c vd vs1 vs2 pr w16 => Sys2Proof.Machine.execVsub h c vd vs1 vs2 pr w16 s
  | .vadds h c vd vs1 vs2 pr w16 => Sys2Proof.Machine.execVadds h c vd vs1 vs2 pr w16 s
  | .vmul h c vd vs1 vs2 pr w16 => Sys2Proof.Machine.execVmul h c vd vs1 vs2 pr w16 s
  | .vmulh h c vd vs1 vs2 pr w16 => Sys2Proof.Machine.execVmulh h c vd vs1 vs2 pr w16 s
  | .vmac h c vd vs1 vs2 pr w16 => Sys2Proof.Machine.execVmac h c vd vs1 vs2 pr w16 s
  | .vmacw h c vd vs1 vs2 pr w16 => Sys2Proof.Machine.execVmacw h c vd vs1 vs2 pr w16 s
  | .vrshr h c vd vs1 vs2 pr w16 => Sys2Proof.Machine.execVrshr h c vd vs1 vs2 pr w16 s
  | .vrshrw h c vd vs1 vs2 pr w16 => Sys2Proof.Machine.execVrshrw h c vd vs1 vs2 pr w16 s
  | .vsll h c vd vs1 vs2 pr w16 => Sys2Proof.Machine.execVsll h c vd vs1 vs2 pr w16 s
  | .vsra h c vd vs1 vs2 pr w16 => Sys2Proof.Machine.execVsra h c vd vs1 vs2 pr w16 s
  | .vsrl h c vd vs1 vs2 pr w16 => Sys2Proof.Machine.execVsrl h c vd vs1 vs2 pr w16 s
  | .vand h c vd vs1 vs2 pr w16 => Sys2Proof.Machine.execVand h c vd vs1 vs2 pr w16 s
  | .vor h c vd vs1 vs2 pr w16 => Sys2Proof.Machine.execVor h c vd vs1 vs2 pr w16 s
  | .vxor h c vd vs1 vs2 pr w16 => Sys2Proof.Machine.execVxor h c vd vs1 vs2 pr w16 s
  | .vmin h c vd vs1 vs2 pr w16 => Sys2Proof.Machine.execVmin h c vd vs1 vs2 pr w16 s
  | .vmax h c vd vs1 vs2 pr w16 => Sys2Proof.Machine.execVmax h c vd vs1 vs2 pr w16 s
  | .vminu h c vd vs1 vs2 pr w16 => Sys2Proof.Machine.execVminu h c vd vs1 vs2 pr w16 s
  | .vmaxu h c vd vs1 vs2 pr w16 => Sys2Proof.Machine.execVmaxu h c vd vs1 vs2 pr w16 s
  | .vlut h c vd vs1 vs2 pr w16 => Sys2Proof.Machine.execVlut h c vd vs1 vs2 pr w16 s
  | .vcmpeq h c pd vs1 vs2 pr w16 => Sys2Proof.Machine.execVcmpeq h c pd vs1 vs2 pr w16 s
  | .vcmplt h c pd vs1 vs2 pr w16 => Sys2Proof.Machine.execVcmplt h c pd vs1 vs2 pr w16 s
  | .vcmpltu h c pd vs1 vs2 pr w16 => Sys2Proof.Machine.execVcmpltu h c pd vs1 vs2 pr w16 s
  | .vsel h c vd vs1 vs2 pr w16 => Sys2Proof.Machine.execVsel h c vd vs1 vs2 pr w16 s
  | .vfadd h c vd vs1 vs2 pr w16 => Sys2Proof.Machine.execVfadd h c vd vs1 vs2 pr w16 s
  | .vfsub h c vd vs1 vs2 pr w16 => Sys2Proof.Machine.execVfsub h c vd vs1 vs2 pr w16 s
  | .vfmul h c vd vs1 vs2 pr w16 => Sys2Proof.Machine.execVfmul h c vd vs1 vs2 pr w16 s
  | .vfma h c vd vs1 vs2 pr w16 => Sys2Proof.Machine.execVfma h c vd vs1 vs2 pr w16 s
  | .vfmin h c vd vs1 vs2 pr w16 => Sys2Proof.Machine.execVfmin h c vd vs1 vs2 pr w16 s
  | .vfmax h c vd vs1 vs2 pr w16 => Sys2Proof.Machine.execVfmax h c vd vs1 vs2 pr w16 s
  | .vfcmplt h c pd vs1 vs2 pr w16 => Sys2Proof.Machine.execVfcmplt h c pd vs1 vs2 pr w16 s
  | .vfcmpeq h c pd vs1 vs2 pr w16 => Sys2Proof.Machine.execVfcmpeq h c pd vs1 vs2 pr w16 s
  | .vcvtif h c vd vs1 vs2 pr w16 => Sys2Proof.Machine.execVcvtif h c vd vs1 vs2 pr w16 s
  | .vcvtfi h c vd vs1 vs2 pr w16 => Sys2Proof.Machine.execVcvtfi h c vd vs1 vs2 pr w16 s
  | .vcvtfb h c vd vs1 vs2 pr w16 => Sys2Proof.Machine.execVcvtfb h c vd vs1 vs2 pr w16 s
  | .vcvtbf h c vd vs1 vs2 pr w16 => Sys2Proof.Machine.execVcvtbf h c vd vs1 vs2 pr w16 s
  | .vcvtfh h c vd vs1 vs2 pr w16 => Sys2Proof.Machine.execVcvtfh h c vd vs1 vs2 pr w16 s
  | .vcvthf h c vd vs1 vs2 pr w16 => Sys2Proof.Machine.execVcvthf h c vd vs1 vs2 pr w16 s
  | .vbcast h c vd vs1 vs2 pr w16 => Sys2Proof.Machine.execVbcast h c vd vs1 vs2 pr w16 s
  | .vmvx h c vd vs1 vs2 pr w16 => Sys2Proof.Machine.execVmvx h c vd vs1 vs2 pr w16 s
  | .vredadd h c vd vs1 vs2 pr w16 => Sys2Proof.Machine.execVredadd h c vd vs1 vs2 pr w16 s
  | .vfredadd h c vd vs1 vs2 pr w16 => Sys2Proof.Machine.execVfredadd h c vd vs1 vs2 pr w16 s
  | .vredmax h c vd vs1 vs2 pr w16 => Sys2Proof.Machine.execVredmax h c vd vs1 vs2 pr w16 s
  | .pand h c pd vs1 vs2 pr w16 => Sys2Proof.Machine.execPand h c pd vs1 vs2 pr w16 s
  | .por h c pd vs1 vs2 pr w16 => Sys2Proof.Machine.execPor h c pd vs1 vs2 pr w16 s
  | .pxor h c pd vs1 vs2 pr w16 => Sys2Proof.Machine.execPxor h c pd vs1 vs2 pr w16 s
  | .pnot h c pd vs1 vs2 pr w16 => Sys2Proof.Machine.execPnot h c pd vs1 vs2 pr w16 s
  | .psetn h c pd vs1 vs2 pr w16 => Sys2Proof.Machine.execPsetn h c pd vs1 vs2 pr w16 s
  | .vtex h c vd vs1 vs2 pr w16 => Sys2Proof.Machine.execVtex h c vd vs1 vs2 pr w16 s
  | .kissue h c rs1 target off => Sys2Proof.Machine.execKissue h c rs1 target off s
  | .kwait h c target => Sys2Proof.Machine.execKwait h c target s
  | .kpoll h c rd target => Sys2Proof.Machine.execKpoll h c rd target s
  | .signal h c rs1 rs2 => Sys2Proof.Machine.execSignal h c rs1 rs2 s
  | .wait h c rs1 rs2 => Sys2Proof.Machine.execWait h c rs1 rs2 s
  | .trywait h c rd rs1 rs2 => Sys2Proof.Machine.execTrywait h c rd rs1 rs2 s
  | .arm h c rs1 rs2 => Sys2Proof.Machine.execArm h c rs1 rs2 s
  | .nop h c => Sys2Proof.Machine.execNop h c s
  | .halt h c => Sys2Proof.Machine.execHalt h c s
  | .fence h c => Sys2Proof.Machine.execFence h c s
  | .ppoint h c => Sys2Proof.Machine.execPpoint h c s
  | .trap h c code => Sys2Proof.Machine.execTrap h c code s
  | .setd h c v => Sys2Proof.Machine.execSetd h c v s
  | .blk h c adj d sb => Sys2Proof.Machine.execBlk h c adj d sb s
  | .hinfo h => Sys2Proof.Machine.execHinfo h s
  | .hread h => Sys2Proof.Machine.execHread h s
  | .happend h => Sys2Proof.Machine.execHappend h s
  | .wfetch h => Sys2Proof.Machine.execWfetch h s
  | .rtuNext h => Sys2Proof.Machine.execRtuNext h s
  | .rtuRetire h => Sys2Proof.Machine.execRtuRetire h s
  | .rtuVdone h => Sys2Proof.Machine.execRtuVdone h s
  | .drawAssembly sub => Sys2Proof.Machine.execDrawAssembly sub s
  | .tileRender sub k => Sys2Proof.Machine.execTileRender sub k s
  | .visionTile sub => Sys2Proof.Machine.execVisionTile sub s
  | .postJob sub => Sys2Proof.Machine.execPostJob sub s
  | .inputRecord sub => Sys2Proof.Machine.execInputRecord sub s
  | .jpegDecode decoder => Sys2Proof.Machine.execJpegDecode decoder s
  | .augmentation => Sys2Proof.Machine.execAugmentation s
  | .cacheStoreComplete n id => Sys2Proof.Machine.execCacheStoreComplete n id s
  | .batchTrailer sub => Sys2Proof.Machine.execBatchTrailer sub s
  | .dictLoad sub => Sys2Proof.Machine.execDictLoad sub s
  | .sensorRecord sub => Sys2Proof.Machine.execSensorRecord sub s
  | .bundleEmit sub => Sys2Proof.Machine.execBundleEmit sub s
  | .intakeWindowEnd n => Sys2Proof.Machine.execIntakeWindowEnd n s
  | .intCacheCfg d n w => Sys2Proof.Machine.execIntCacheCfg d n w s
  | .cacheReset d n w => Sys2Proof.Machine.execCacheReset d n w s
  | .ppCommit d p w => Sys2Proof.Machine.execPpCommit d p w s
  | .teEvent p => Sys2Proof.Machine.execTeEvent p s
  | .syntheticTe p => Sys2Proof.Machine.execSyntheticTe p s
  | .commitLine p => Sys2Proof.Machine.execCommitLine p s
  | .pushEnd p => Sys2Proof.Machine.execPushEnd p s
  | .teLost p => Sys2Proof.Machine.execTeLost p s
  | .ppModeReq d p w => Sys2Proof.Machine.execPpModeReq d p w s
  | .modeChangeLp11 p => Sys2Proof.Machine.execModeChangeLp11 p s
  | .modeChangeReprogram p => Sys2Proof.Machine.execModeChangeReprogram p s
  | .modeChangeHsEntry p => Sys2Proof.Machine.execModeChangeHsEntry p s
  | .bringup d p w => Sys2Proof.Machine.execBringup d p w s
  | .portDisable d p w => Sys2Proof.Machine.execPortDisable d p w s
  | .dcsReadResponse p clean => Sys2Proof.Machine.execDcsReadResponse p clean s
  | .bringupReadTimeout p => Sys2Proof.Machine.execBringupReadTimeout p s
  | .bringupRetry p => Sys2Proof.Machine.execBringupRetry p s
  | .panelContention p => Sys2Proof.Machine.execPanelContention p s
  | .ppDcs d p w => Sys2Proof.Machine.execPpDcs d p w s
  | .ppPanel d p w => Sys2Proof.Machine.execPpPanel d p w s
  | .panelOutputDeferred p output => Sys2Proof.Machine.execPanelOutputDeferred p output s
  | .fsgSplit d w => Sys2Proof.Machine.execFsgSplit d w s
  | .pushBandWrite sub => Sys2Proof.Machine.execPushBandWrite sub s
  | .copyJob sub => Sys2Proof.Machine.execCopyJob sub s
  | .sessionOpen d n w => Sys2Proof.Machine.execSessionOpen d n w s
  | .sessionClose d n w => Sys2Proof.Machine.execSessionClose d n w s
  | .submitLc d n w => Sys2Proof.Machine.execSubmitLc d n w s
  | .submitBe d n w => Sys2Proof.Machine.execSubmitBe d n w s
  | .dispAbort d n w => Sys2Proof.Machine.execDispAbort d n w s
  | .dispCqSize d n w => Sys2Proof.Machine.execDispCqSize d n w s
  | .jobDispatch n => Sys2Proof.Machine.execJobDispatch n s
  | .weightShareLoaded sub h => Sys2Proof.Machine.execWeightShareLoaded sub h s
  | .sliceEnd sub => Sys2Proof.Machine.execSliceEnd sub s
  | .budgetExpiry sub => Sys2Proof.Machine.execBudgetExpiry sub s
  | .jobSave sub overrunNs boundNs => Sys2Proof.Machine.execJobSave sub overrunNs boundNs s
  | .saveEnd sub => Sys2Proof.Machine.execSaveEnd sub s
  | .restore sub => Sys2Proof.Machine.execRestore sub s
  | .swap n => Sys2Proof.Machine.execSwap n s
  | .jobRetire sub => Sys2Proof.Machine.execJobRetire sub s
  | .teardownZeroDone h => Sys2Proof.Machine.execTeardownZeroDone h s
  | .histWindowEnd n busyPct => Sys2Proof.Machine.execHistWindowEnd n busyPct s
  | .slotDecision n session => Sys2Proof.Machine.execSlotDecision n session s
  | .fillForce d n w => Sys2Proof.Machine.execFillForce d n w s
  | .fillRecSize d n w => Sys2Proof.Machine.execFillRecSize d n w s
  | .fillWindowEnd n => Sys2Proof.Machine.execFillWindowEnd n s
  | .hitchOperationArrival k src op => Sys2Proof.Machine.execHitchOperationArrival k src op s
  | .hitchCancel k src => Sys2Proof.Machine.execHitchCancel k src s
  | .hitchCount d k w => Sys2Proof.Machine.execHitchCount d k w s
  | .hitchSignal d k w => Sys2Proof.Machine.execHitchSignal d k w s
  | .hitchTry d k w => Sys2Proof.Machine.execHitchTry d k w s
  | .hitchPoisonClear d k => Sys2Proof.Machine.execHitchPoisonClear d k s
  | .bankWake h bank => Sys2Proof.Machine.execBankWake h bank s
  | .regionTest => Sys2Proof.Machine.execRegionTest s
  | .regionTestDone result => Sys2Proof.Machine.execRegionTestDone result s
  | .scrubLine ch errors => Sys2Proof.Machine.execScrubLine ch errors s
  | .rotationSlot => Sys2Proof.Machine.execRotationSlot s
  | .migrationCopyDone => Sys2Proof.Machine.execMigrationCopyDone s
  | .structuralTestDone h pass vector => Sys2Proof.Machine.execStructuralTestDone h pass vector s
  | .copyBackDone => Sys2Proof.Machine.execCopyBackDone s
  | .idleTest h => Sys2Proof.Machine.execIdleTest h s
  | .kilnTestDone h k pass vector => Sys2Proof.Machine.execKilnTestDone h k pass vector s
  | .coreTest h c pass => Sys2Proof.Machine.execCoreTest h c pass s
  | .fltLogSel d w => Sys2Proof.Machine.execFltLogSel d w s
  | .trustChgSel d w => Sys2Proof.Machine.execTrustChgSel d w s
  | .attReq d => Sys2Proof.Machine.execAttReq d s
  | .attestReady => Sys2Proof.Machine.execAttestReady s
  | .trustAttNonce d ix w => Sys2Proof.Machine.execTrustAttNonce d ix w s
  | .ownOpen d => Sys2Proof.Machine.execOwnOpen d s
  | .trustOwnData d w => Sys2Proof.Machine.execTrustOwnData d w s
  | .ownVerify d => Sys2Proof.Machine.execOwnVerify d s
  | .ownVerifyDone => Sys2Proof.Machine.execOwnVerifyDone s
  | .ownCommit d => Sys2Proof.Machine.execOwnCommit d s
  | .ownerRecordCurrent readBackOk => Sys2Proof.Machine.execOwnerRecordCurrent readBackOk s
  | .ownCancel d => Sys2Proof.Machine.execOwnCancel d s
  | .recOpen d => Sys2Proof.Machine.execRecOpen d s
  | .trustRecData d w => Sys2Proof.Machine.execTrustRecData d w s
  | .recVerify d => Sys2Proof.Machine.execRecVerify d s
  | .recVerifyDone => Sys2Proof.Machine.execRecVerifyDone s
  | .recBoot d => Sys2Proof.Machine.execRecBoot d s
  | .recProgram d => Sys2Proof.Machine.execRecProgram d s
  | .recOwner d => Sys2Proof.Machine.execRecOwner d s
  | .outputFault group sig kind => Sys2Proof.Machine.execOutputFault group sig kind s
  | .outputRetry group sig still => Sys2Proof.Machine.execOutputRetry group sig still s
  | .syncOutPulse => Sys2Proof.Machine.execSyncOutPulse s
  | .smbReadStatus => Sys2Proof.Machine.execSmbReadStatus s
  | .smbReadResetCause => Sys2Proof.Machine.execSmbReadResetCause s
  | .smbReadService => Sys2Proof.Machine.execSmbReadService s
  | .smbReadTj => Sys2Proof.Machine.execSmbReadTj s
  | .smbReadVoltage => Sys2Proof.Machine.execSmbReadVoltage s
  | .smbReadCurrent => Sys2Proof.Machine.execSmbReadCurrent s
  | .smbReadPower => Sys2Proof.Machine.execSmbReadPower s
  | .smbReadLogSequences => Sys2Proof.Machine.execSmbReadLogSequences s
  | .smbReadFaultEntry => Sys2Proof.Machine.execSmbReadFaultEntry s
  | .smbReadChangeEntry => Sys2Proof.Machine.execSmbReadChangeEntry s
  | .smbReadInterfaceFaults => Sys2Proof.Machine.execSmbReadInterfaceFaults s
  | .smbTimeout => Sys2Proof.Machine.execSmbTimeout s
  | .illegalInstruction h c w => Sys2Proof.Machine.execIllegalInstruction h c w s
  | .railReturn => Sys2Proof.Machine.execRailReturn s
  | .recProgramDone readBackOk => Sys2Proof.Machine.execRecProgramDone readBackOk s

end Sys2Proof.Machine
end

