-- ==== Sys2Proof/Machine/Tick.lean ====
section
/-! DEFINITION. The passing of time (R4, R19, R21, R22). -/

namespace Sys2Proof.Machine

/-- The requests in progress, whose words other accesses may fall between, go on to their ends (R68, R79). -/
def State.finishRequests (s : State) : State := ([0, 1, 2, 3] : List Nat).foldl State.finishRequest s

/-- Count ns of device time in the counter at `k`, in CLK_B cycles of 2 ns, if `busy`. -/
def State.countB (s : State) (k ns : Nat) (busy : Bool) : State := if busy then s.bumpUnits k 2 ns else s

/-- The busy counters of the engines that run jobs (R521, R522): an engine is taken to process tiles while a job holds
it. [DESIGN CHOICE: assumption 8] -/
def State.countEngines (s : State) (ns : Nat) : State :=
  let held (kind u : Nat) : Bool := s.jobs.any fun j => j.resident && j.kind == kind && j.units.contains u
  let s1 := ([0, 1, 2, 3] : List Nat).foldl (fun t u => t.countB (0x250004 + 4 * u) ns (held 2 u)) s
  let s2 := ([0, 1, 2, 3] : List Nat).foldl (fun t u => t.countB (0x26000C + 4 * u) ns (held 4 (4 + u))) s1
  let s3 := s2.countB 0x26001C ns (([8, 9, 10, 11] : List Nat).any (held 4))
  let s4 := s3.countB 0x260020 ns (held 5 12)
  s4.countB 0x260024 ns (s.unitOwner 12 == 0xFE && held 5 12 &&
    s.jobs.any fun j => j.kind == 5 && j.phase == 0 && !s.behind j)

/-- `DISP_SC_WAIT`: queued jobs whose descriptor found no room in the session cache (R397). -/
def State.countCacheWaits (s : State) (ns : Nat) : State :=
  let waiting := (s.jobs.filter fun j => j.queued && !s.sessCache.contains j.session).map Job.cord
  waiting.eraseDups.foldl (fun t n => t.countB (cordAddr n 0x64) ns true) s

/-- `RAS_SHADE_WAIT`: a raster tile unit holds fragment batches that no core has taken (R305); cycles of the CLK_A of
the first such Hearth. -/
def State.countShades (s : State) (ns : Nat) : State :=
  s.jobs.foldl (fun t j =>
    match (j.hearths.zip j.pass.stretches).find? fun e => j.resident && e.2.tile.any fun x => !x.todo.isEmpty with
    | some e => t.bumpUnits (cordAddr j.cord 0xE014) (s.phy (s.physOf e.1)).div (8 * ns)
    | none => t) s

/-- The registers that count time under a condition; `DRG_THROTTLE_US` and `DRG_BE_WAIT_US` count in a relock too (R459,
R464). -/
def State.countTime (s : State) (ns : Nat) : State :=
  let s0 := if s.clk.relocking then s
    else ((((s.countIntake ns).countPanels ns).countEngines ns).countCacheWaits ns).countShades ns
  let s1 := if s.drg.overCap then s0.bumpUnits 0x270024 1000 ns else s0
  if s1.drg.queue.isEmpty then s1 else s1.bumpUnits 0x270028 1000 ns

/-- Every divider that is requested comes into force (R21). -/
def State.takeDivReqs (s : State) : State :=
  (s.phys.filterMap fun e => if e.2.divReq.isSome then some e.1 else none).foldl State.takeDivReq s

/-- One tick of the time base. With the PLL locked it is 1 ns of device time and 8 cycles of the root clock (R4, R19);
during a relock it is one cycle of the crystal, 40 ns, which keeps the time base (R486). In reset, or without power, no
device time passes, and the CLK_S cycle in which a reset began is over (R519). [DESIGN CHOICE: assumption 4] -/
def State.tick (s0 : State) : State :=
  if !s0.live then { s0 with wall := s0.wall + 1, pwr := { s0.pwr with fresh := false } }
  else
    let s := s0.finishRequests
    let dt := if s.clk.relocking then 40 - s.time % 40 else 1
    let root := if s.clk.relocking then s.clk.root else s.clk.root + 8
    let s1 : State := { s.countTime dt with time := s.time + dt, wall := s.wall + dt, clk := { s.clk with root := root } }
    (if root % dividerPeriod = 0 then s1.takeDivReqs else s1).demoteLate.endAllAborted.noteBlocked

end Sys2Proof.Machine
end

