-- ==== Sys2Proof/Machine/KDecode.lean ====
section
/-! DEFINITION. The instruction words of the Kindling cores (R186, R187): the word of each core command with the bits
that its encoding fixes, and the command that a word spells. -/

namespace Sys2Proof.Machine

/-- The Hearth and core of a core command, its word, and the mask of the bits that its encoding fixes; none for the
other commands. -/
def kword : Instr → Option ((Nat × Nat) × Word × Word)
  | .add h c rd rs1 rs2 => some ((h, c), encA 0x000 rd rs1 rs2, maskAll)
  | .sub h c rd rs1 rs2 => some ((h, c), encA 0x001 rd rs1 rs2, maskAll)
  | .and h c rd rs1 rs2 => some ((h, c), encA 0x002 rd rs1 rs2, maskAll)
  | .or h c rd rs1 rs2 => some ((h, c), encA 0x003 rd rs1 rs2, maskAll)
  | .xor h c rd rs1 rs2 => some ((h, c), encA 0x004 rd rs1 rs2, maskAll)
  | .sll h c rd rs1 rs2 => some ((h, c), encA 0x005 rd rs1 rs2, maskAll)
  | .srl h c rd rs1 rs2 => some ((h, c), encA 0x006 rd rs1 rs2, maskAll)
  | .sra h c rd rs1 rs2 => some ((h, c), encA 0x007 rd rs1 rs2, maskAll)
  | .slt h c rd rs1 rs2 => some ((h, c), encA 0x008 rd rs1 rs2, maskAll)
  | .sltu h c rd rs1 rs2 => some ((h, c), encA 0x009 rd rs1 rs2, maskAll)
  | .min h c rd rs1 rs2 => some ((h, c), encA 0x00A rd rs1 rs2, maskAll)
  | .max h c rd rs1 rs2 => some ((h, c), encA 0x00B rd rs1 rs2, maskAll)
  | .minu h c rd rs1 rs2 => some ((h, c), encA 0x00C rd rs1 rs2, maskAll)
  | .maxu h c rd rs1 rs2 => some ((h, c), encA 0x00D rd rs1 rs2, maskAll)
  | .mul h c rd rs1 rs2 => some ((h, c), encA 0x010 rd rs1 rs2, maskAll)
  | .mulh h c rd rs1 rs2 => some ((h, c), encA 0x011 rd rs1 rs2, maskAll)
  | .mulhu h c rd rs1 rs2 => some ((h, c), encA 0x012 rd rs1 rs2, maskAll)
  | .div h c rd rs1 rs2 => some ((h, c), encA 0x013 rd rs1 rs2, maskAll)
  | .divu h c rd rs1 rs2 => some ((h, c), encA 0x014 rd rs1 rs2, maskAll)
  | .rem h c rd rs1 rs2 => some ((h, c), encA 0x015 rd rs1 rs2, maskAll)
  | .remu h c rd rs1 rs2 => some ((h, c), encA 0x016 rd rs1 rs2, maskAll)
  | .addi h c rd rs1 imm => some ((h, c), encI 0x01 rd rs1 imm, maskAll)
  | .andi h c rd rs1 imm => some ((h, c), encI 0x02 rd rs1 imm, maskAll)
  | .ori h c rd rs1 imm => some ((h, c), encI 0x03 rd rs1 imm, maskAll)
  | .xori h c rd rs1 imm => some ((h, c), encI 0x04 rd rs1 imm, maskAll)
  | .slli h c rd rs1 imm => some ((h, c), encI 0x05 rd rs1 imm, maskAll)
  | .srli h c rd rs1 imm => some ((h, c), encI 0x06 rd rs1 imm, maskAll)
  | .srai h c rd rs1 imm => some ((h, c), encI 0x07 rd rs1 imm, maskAll)
  | .slti h c rd rs1 imm => some ((h, c), encI 0x08 rd rs1 imm, maskAll)
  | .sltiu h c rd rs1 imm => some ((h, c), encI 0x09 rd rs1 imm, maskAll)
  | .lui h c rd rs1 imm => some ((h, c), encI 0x0A rd rs1 imm, maskAll)
  | .jalr h c rd rs1 imm => some ((h, c), encI 0x0B rd rs1 imm, maskAll)
  | .csrr h c rd rs1 imm => some ((h, c), encI 0x0C rd rs1 imm, maskAll)
  | .csrw h c rd rs1 imm => some ((h, c), encI 0x0D rd rs1 imm, maskAll)
  | .lb h c rd base off => some ((h, c), encI 0x10 rd base off, maskAll)
  | .lbu h c rd base off => some ((h, c), encI 0x11 rd base off, maskAll)
  | .lh h c rd base off => some ((h, c), encI 0x12 rd base off, maskAll)
  | .lhu h c rd base off => some ((h, c), encI 0x13 rd base off, maskAll)
  | .lw h c rd base off => some ((h, c), encI 0x14 rd base off, maskAll)
  | .lwu h c rd base off => some ((h, c), encI 0x15 rd base off, maskAll)
  | .ld h c rd base off => some ((h, c), encI 0x16 rd base off, maskAll)
  | .sb h c rs base off => some ((h, c), encI 0x17 rs base off, maskAll)
  | .sh h c rs base off => some ((h, c), encI 0x18 rs base off, maskAll)
  | .sw h c rs base off => some ((h, c), encI 0x19 rs base off, maskAll)
  | .sd h c rs base off => some ((h, c), encI 0x1A rs base off, maskAll)
  | .vld h c vd base off => some ((h, c), encI 0x1B vd base off, maskAll)
  | .vst h c vs base off => some ((h, c), encI 0x1C vs base off, maskAll)
  | .setw h c rs base off => some ((h, c), encI 0x1D rs base off, maskAll)
  | .clrw h c rs base off => some ((h, c), encI 0x1E rs base off, maskAll)
  | .beq h c rs1 rs2 off => some ((h, c), encB 0x20 rs1 rs2 off, maskAll)
  | .bne h c rs1 rs2 off => some ((h, c), encB 0x21 rs1 rs2 off, maskAll)
  | .blt h c rs1 rs2 off => some ((h, c), encB 0x22 rs1 rs2 off, maskAll)
  | .bge h c rs1 rs2 off => some ((h, c), encB 0x23 rs1 rs2 off, maskAll)
  | .bltu h c rs1 rs2 off => some ((h, c), encB 0x24 rs1 rs2 off, maskAll)
  | .bgeu h c rs1 rs2 off => some ((h, c), encB 0x25 rs1 rs2 off, maskAll)
  | .jal h c rd off => some ((h, c), encB 0x26 rd 0 off, maskAll)
  | .bpany h c pr off => some ((h, c), encBP 0x27 pr off, maskPd)
  | .bpnone h c pr off => some ((h, c), encBP 0x28 pr off, maskPd)
  | .vadd h c vd vs1 vs2 pr w16 => some ((h, c), encV 0x30 0x00 vd vs1 vs2 pr w16, maskAll)
  | .vsub h c vd vs1 vs2 pr w16 => some ((h, c), encV 0x30 0x01 vd vs1 vs2 pr w16, maskAll)
  | .vadds h c vd vs1 vs2 pr w16 => some ((h, c), encV 0x30 0x02 vd vs1 vs2 pr w16, maskAll)
  | .vmul h c vd vs1 vs2 pr w16 => some ((h, c), encV 0x30 0x03 vd vs1 vs2 pr w16, maskAll)
  | .vmulh h c vd vs1 vs2 pr w16 => some ((h, c), encV 0x30 0x04 vd vs1 vs2 pr w16, maskAll)
  | .vmac h c vd vs1 vs2 pr w16 => some ((h, c), encV 0x30 0x05 vd vs1 vs2 pr w16, maskAll)
  | .vmacw h c vd vs1 vs2 pr w16 => some ((h, c), encV 0x30 0x06 vd vs1 vs2 pr w16, maskAll)
  | .vrshr h c vd vs1 vs2 pr w16 => some ((h, c), encV 0x30 0x07 vd vs1 vs2 pr w16, maskAll)
  | .vrshrw h c vd vs1 vs2 pr w16 => some ((h, c), encV 0x30 0x08 vd vs1 vs2 pr w16, maskAll)
  | .vsll h c vd vs1 vs2 pr w16 => some ((h, c), encV 0x30 0x09 vd vs1 vs2 pr w16, maskAll)
  | .vsra h c vd vs1 vs2 pr w16 => some ((h, c), encV 0x30 0x0A vd vs1 vs2 pr w16, maskAll)
  | .vsrl h c vd vs1 vs2 pr w16 => some ((h, c), encV 0x30 0x0B vd vs1 vs2 pr w16, maskAll)
  | .vand h c vd vs1 vs2 pr w16 => some ((h, c), encV 0x30 0x0C vd vs1 vs2 pr w16, maskAll)
  | .vor h c vd vs1 vs2 pr w16 => some ((h, c), encV 0x30 0x0D vd vs1 vs2 pr w16, maskAll)
  | .vxor h c vd vs1 vs2 pr w16 => some ((h, c), encV 0x30 0x0E vd vs1 vs2 pr w16, maskAll)
  | .vmin h c vd vs1 vs2 pr w16 => some ((h, c), encV 0x30 0x0F vd vs1 vs2 pr w16, maskAll)
  | .vmax h c vd vs1 vs2 pr w16 => some ((h, c), encV 0x30 0x10 vd vs1 vs2 pr w16, maskAll)
  | .vminu h c vd vs1 vs2 pr w16 => some ((h, c), encV 0x30 0x11 vd vs1 vs2 pr w16, maskAll)
  | .vmaxu h c vd vs1 vs2 pr w16 => some ((h, c), encV 0x30 0x12 vd vs1 vs2 pr w16, maskAll)
  | .vlut h c vd vs1 vs2 pr w16 => some ((h, c), encV 0x30 0x13 vd vs1 vs2 pr w16, maskAll)
  | .vcmpeq h c pd vs1 vs2 pr w16 => some ((h, c), encVP 0x30 0x14 pd vs1 vs2 pr w16, maskPd)
  | .vcmplt h c pd vs1 vs2 pr w16 => some ((h, c), encVP 0x30 0x15 pd vs1 vs2 pr w16, maskPd)
  | .vcmpltu h c pd vs1 vs2 pr w16 => some ((h, c), encVP 0x30 0x16 pd vs1 vs2 pr w16, maskPd)
  | .vsel h c vd vs1 vs2 pr w16 => some ((h, c), encV 0x30 0x17 vd vs1 vs2 pr w16, maskAll)
  | .vfadd h c vd vs1 vs2 pr w16 => some ((h, c), encV 0x31 0x00 vd vs1 vs2 pr w16, maskAll)
  | .vfsub h c vd vs1 vs2 pr w16 => some ((h, c), encV 0x31 0x01 vd vs1 vs2 pr w16, maskAll)
  | .vfmul h c vd vs1 vs2 pr w16 => some ((h, c), encV 0x31 0x02 vd vs1 vs2 pr w16, maskAll)
  | .vfma h c vd vs1 vs2 pr w16 => some ((h, c), encV 0x31 0x03 vd vs1 vs2 pr w16, maskAll)
  | .vfmin h c vd vs1 vs2 pr w16 => some ((h, c), encV 0x31 0x04 vd vs1 vs2 pr w16, maskAll)
  | .vfmax h c vd vs1 vs2 pr w16 => some ((h, c), encV 0x31 0x05 vd vs1 vs2 pr w16, maskAll)
  | .vfcmplt h c pd vs1 vs2 pr w16 => some ((h, c), encVP 0x31 0x06 pd vs1 vs2 pr w16, maskPd)
  | .vfcmpeq h c pd vs1 vs2 pr w16 => some ((h, c), encVP 0x31 0x07 pd vs1 vs2 pr w16, maskPd)
  | .vcvtif h c vd vs1 vs2 pr w16 => some ((h, c), encV 0x32 0x00 vd vs1 vs2 pr w16, maskAll)
  | .vcvtfi h c vd vs1 vs2 pr w16 => some ((h, c), encV 0x32 0x01 vd vs1 vs2 pr w16, maskAll)
  | .vcvtfb h c vd vs1 vs2 pr w16 => some ((h, c), encV 0x32 0x02 vd vs1 vs2 pr w16, maskAll)
  | .vcvtbf h c vd vs1 vs2 pr w16 => some ((h, c), encV 0x32 0x03 vd vs1 vs2 pr w16, maskAll)
  | .vcvtfh h c vd vs1 vs2 pr w16 => some ((h, c), encV 0x32 0x04 vd vs1 vs2 pr w16, maskAll)
  | .vcvthf h c vd vs1 vs2 pr w16 => some ((h, c), encV 0x32 0x05 vd vs1 vs2 pr w16, maskAll)
  | .vbcast h c vd vs1 vs2 pr w16 => some ((h, c), encV 0x32 0x06 vd vs1 vs2 pr w16, maskAll)
  | .vmvx h c vd vs1 vs2 pr w16 => some ((h, c), encV 0x32 0x07 vd vs1 vs2 pr w16, maskAll)
  | .vredadd h c vd vs1 vs2 pr w16 => some ((h, c), encV 0x32 0x08 vd vs1 vs2 pr w16, maskAll)
  | .vfredadd h c vd vs1 vs2 pr w16 => some ((h, c), encV 0x32 0x09 vd vs1 vs2 pr w16, maskAll)
  | .vredmax h c vd vs1 vs2 pr w16 => some ((h, c), encV 0x32 0x0A vd vs1 vs2 pr w16, maskAll)
  | .pand h c pd vs1 vs2 pr w16 => some ((h, c), encVP 0x32 0x0B pd vs1 vs2 pr w16, maskPd)
  | .por h c pd vs1 vs2 pr w16 => some ((h, c), encVP 0x32 0x0C pd vs1 vs2 pr w16, maskPd)
  | .pxor h c pd vs1 vs2 pr w16 => some ((h, c), encVP 0x32 0x0D pd vs1 vs2 pr w16, maskPd)
  | .pnot h c pd vs1 vs2 pr w16 => some ((h, c), encVP 0x32 0x0E pd vs1 vs2 pr w16, maskPd)
  | .psetn h c pd vs1 vs2 pr w16 => some ((h, c), encVP 0x32 0x0F pd vs1 vs2 pr w16, maskPd)
  | .vtex h c vd vs1 vs2 pr w16 => some ((h, c), encV 0x33 0x00 vd vs1 vs2 pr w16, maskAll)
  | .kissue h c rs1 target off => some ((h, c), encK 0x38 rs1 0 target off, maskKissue)
  | .kwait h c target => some ((h, c), encK 0x39 0 0 target 0, maskKwait)
  | .kpoll h c rd target => some ((h, c), encK 0x3A 0 rd target 0, maskKpoll)
  | .signal h c rs1 rs2 => some ((h, c), encH 0 0 rs1 rs2, maskAll)
  | .wait h c rs1 rs2 => some ((h, c), encH 1 0 rs1 rs2, maskAll)
  | .trywait h c rd rs1 rs2 => some ((h, c), encH 2 rd rs1 rs2, maskAll)
  | .arm h c rs1 rs2 => some ((h, c), encH 3 0 rs1 rs2, maskAll)
  | .nop h c => some ((h, c), encSys 0 0x00, maskSys)
  | .halt h c => some ((h, c), encSys 0 0x01, maskSys)
  | .fence h c => some ((h, c), encSys 0 0x02, maskSys)
  | .ppoint h c => some ((h, c), encSys 0 0x03, maskSys)
  | .trap h c code => some ((h, c), encSys (code.zeroExtend 12) 0x04, maskTrap)
  | .setd h c v => some ((h, c), encSys v 0x05, maskAll)
  | .blk h c adj d s => some ((h, c), encBlk adj d s, maskAll)
  | _ => none

/-! ### Fields (R186) -/

/-- Register fields [25:21], [20:16] and [15:11]. -/
def fD (w : Word) : BitVec 5 := w.extractLsb' 21 5
def f1 (w : Word) : BitVec 5 := w.extractLsb' 16 5
def f2 (w : Word) : BitVec 5 := w.extractLsb' 11 5
/-- The 16-bit immediate or offset [15:0]. -/
def fImm (w : Word) : BitVec 16 := w.extractLsb' 0 16
/-- Predicate fields [23:21] and [10:8], and the 16-bit form bit [7]. -/
def fPd (w : Word) : BitVec 3 := w.extractLsb' 21 3
def fPr (w : Word) : BitVec 3 := w.extractLsb' 8 3
def f16 (w : Word) : Bool := w.getLsbD 7

/-! ### The decoder (R186, R187, R190) -/

/-- A format by funct (R187). -/
def kdecodeA (h c : Nat) (w : Word) (fn : Nat) : Option Instr :=
  match fn with
  | 0x000 => some (.add h c (fD w) (f1 w) (f2 w))
  | 0x001 => some (.sub h c (fD w) (f1 w) (f2 w))
  | 0x002 => some (.and h c (fD w) (f1 w) (f2 w))
  | 0x003 => some (.or h c (fD w) (f1 w) (f2 w))
  | 0x004 => some (.xor h c (fD w) (f1 w) (f2 w))
  | 0x005 => some (.sll h c (fD w) (f1 w) (f2 w))
  | 0x006 => some (.srl h c (fD w) (f1 w) (f2 w))
  | 0x007 => some (.sra h c (fD w) (f1 w) (f2 w))
  | 0x008 => some (.slt h c (fD w) (f1 w) (f2 w))
  | 0x009 => some (.sltu h c (fD w) (f1 w) (f2 w))
  | 0x00A => some (.min h c (fD w) (f1 w) (f2 w))
  | 0x00B => some (.max h c (fD w) (f1 w) (f2 w))
  | 0x00C => some (.minu h c (fD w) (f1 w) (f2 w))
  | 0x00D => some (.maxu h c (fD w) (f1 w) (f2 w))
  | 0x010 => some (.mul h c (fD w) (f1 w) (f2 w))
  | 0x011 => some (.mulh h c (fD w) (f1 w) (f2 w))
  | 0x012 => some (.mulhu h c (fD w) (f1 w) (f2 w))
  | 0x013 => some (.div h c (fD w) (f1 w) (f2 w))
  | 0x014 => some (.divu h c (fD w) (f1 w) (f2 w))
  | 0x015 => some (.rem h c (fD w) (f1 w) (f2 w))
  | 0x016 => some (.remu h c (fD w) (f1 w) (f2 w))
  | _ => none

/-- V format, major opcode 0x30, by funct (R187). -/
def kdecodeV30 (h c : Nat) (w : Word) (fn : Nat) : Option Instr :=
  match fn with
  | 0x00 => some (.vadd h c (fD w) (f1 w) (f2 w) (fPr w) (f16 w))
  | 0x01 => some (.vsub h c (fD w) (f1 w) (f2 w) (fPr w) (f16 w))
  | 0x02 => some (.vadds h c (fD w) (f1 w) (f2 w) (fPr w) (f16 w))
  | 0x03 => some (.vmul h c (fD w) (f1 w) (f2 w) (fPr w) (f16 w))
  | 0x04 => some (.vmulh h c (fD w) (f1 w) (f2 w) (fPr w) (f16 w))
  | 0x05 => some (.vmac h c (fD w) (f1 w) (f2 w) (fPr w) (f16 w))
  | 0x06 => some (.vmacw h c (fD w) (f1 w) (f2 w) (fPr w) (f16 w))
  | 0x07 => some (.vrshr h c (fD w) (f1 w) (f2 w) (fPr w) (f16 w))
  | 0x08 => some (.vrshrw h c (fD w) (f1 w) (f2 w) (fPr w) (f16 w))
  | 0x09 => some (.vsll h c (fD w) (f1 w) (f2 w) (fPr w) (f16 w))
  | 0x0A => some (.vsra h c (fD w) (f1 w) (f2 w) (fPr w) (f16 w))
  | 0x0B => some (.vsrl h c (fD w) (f1 w) (f2 w) (fPr w) (f16 w))
  | 0x0C => some (.vand h c (fD w) (f1 w) (f2 w) (fPr w) (f16 w))
  | 0x0D => some (.vor h c (fD w) (f1 w) (f2 w) (fPr w) (f16 w))
  | 0x0E => some (.vxor h c (fD w) (f1 w) (f2 w) (fPr w) (f16 w))
  | 0x0F => some (.vmin h c (fD w) (f1 w) (f2 w) (fPr w) (f16 w))
  | 0x10 => some (.vmax h c (fD w) (f1 w) (f2 w) (fPr w) (f16 w))
  | 0x11 => some (.vminu h c (fD w) (f1 w) (f2 w) (fPr w) (f16 w))
  | 0x12 => some (.vmaxu h c (fD w) (f1 w) (f2 w) (fPr w) (f16 w))
  | 0x13 => some (.vlut h c (fD w) (f1 w) (f2 w) (fPr w) (f16 w))
  | 0x14 => some (.vcmpeq h c (fPd w) (f1 w) (f2 w) (fPr w) (f16 w))
  | 0x15 => some (.vcmplt h c (fPd w) (f1 w) (f2 w) (fPr w) (f16 w))
  | 0x16 => some (.vcmpltu h c (fPd w) (f1 w) (f2 w) (fPr w) (f16 w))
  | 0x17 => some (.vsel h c (fD w) (f1 w) (f2 w) (fPr w) (f16 w))
  | _ => none

/-- V format, major opcode 0x31, by funct (R187). -/
def kdecodeV31 (h c : Nat) (w : Word) (fn : Nat) : Option Instr :=
  match fn with
  | 0x00 => some (.vfadd h c (fD w) (f1 w) (f2 w) (fPr w) (f16 w))
  | 0x01 => some (.vfsub h c (fD w) (f1 w) (f2 w) (fPr w) (f16 w))
  | 0x02 => some (.vfmul h c (fD w) (f1 w) (f2 w) (fPr w) (f16 w))
  | 0x03 => some (.vfma h c (fD w) (f1 w) (f2 w) (fPr w) (f16 w))
  | 0x04 => some (.vfmin h c (fD w) (f1 w) (f2 w) (fPr w) (f16 w))
  | 0x05 => some (.vfmax h c (fD w) (f1 w) (f2 w) (fPr w) (f16 w))
  | 0x06 => some (.vfcmplt h c (fPd w) (f1 w) (f2 w) (fPr w) (f16 w))
  | 0x07 => some (.vfcmpeq h c (fPd w) (f1 w) (f2 w) (fPr w) (f16 w))
  | _ => none

/-- V format, major opcode 0x32, by funct (R187). -/
def kdecodeV32 (h c : Nat) (w : Word) (fn : Nat) : Option Instr :=
  match fn with
  | 0x00 => some (.vcvtif h c (fD w) (f1 w) (f2 w) (fPr w) (f16 w))
  | 0x01 => some (.vcvtfi h c (fD w) (f1 w) (f2 w) (fPr w) (f16 w))
  | 0x02 => some (.vcvtfb h c (fD w) (f1 w) (f2 w) (fPr w) (f16 w))
  | 0x03 => some (.vcvtbf h c (fD w) (f1 w) (f2 w) (fPr w) (f16 w))
  | 0x04 => some (.vcvtfh h c (fD w) (f1 w) (f2 w) (fPr w) (f16 w))
  | 0x05 => some (.vcvthf h c (fD w) (f1 w) (f2 w) (fPr w) (f16 w))
  | 0x06 => some (.vbcast h c (fD w) (f1 w) (f2 w) (fPr w) (f16 w))
  | 0x07 => some (.vmvx h c (fD w) (f1 w) (f2 w) (fPr w) (f16 w))
  | 0x08 => some (.vredadd h c (fD w) (f1 w) (f2 w) (fPr w) (f16 w))
  | 0x09 => some (.vfredadd h c (fD w) (f1 w) (f2 w) (fPr w) (f16 w))
  | 0x0A => some (.vredmax h c (fD w) (f1 w) (f2 w) (fPr w) (f16 w))
  | 0x0B => some (.pand h c (fPd w) (f1 w) (f2 w) (fPr w) (f16 w))
  | 0x0C => some (.por h c (fPd w) (f1 w) (f2 w) (fPr w) (f16 w))
  | 0x0D => some (.pxor h c (fPd w) (f1 w) (f2 w) (fPr w) (f16 w))
  | 0x0E => some (.pnot h c (fPd w) (f1 w) (f2 w) (fPr w) (f16 w))
  | 0x0F => some (.psetn h c (fPd w) (f1 w) (f2 w) (fPr w) (f16 w))
  | _ => none

/-- K format (R186): rs1 in [25:21], rd in [20:16], the target in [15:13], the offset in [11:0]. -/
def kdecodeK (h c : Nat) (w : Word) (op : Nat) : Option Instr :=
  match op with
  | 0x38 => some (.kissue h c (fD w) (w.extractLsb' 13 3) (w.extractLsb' 0 12))
  | 0x39 => some (.kwait h c (w.extractLsb' 13 3))
  | _ => some (.kpoll h c (f1 w) (w.extractLsb' 13 3))

/-- H format by its operation (R186, R187). -/
def kdecodeH (h c : Nat) (w : Word) (fn : Nat) : Option Instr :=
  match fn with
  | 0 => some (.signal h c (f1 w) (f2 w))
  | 1 => some (.wait h c (f1 w) (f2 w))
  | 2 => some (.trywait h c (fD w) (f1 w) (f2 w))
  | _ => some (.arm h c (f1 w) (f2 w))

/-- SYS by its operation (R187). -/
def kdecodeSys (h c : Nat) (w : Word) (fn : Nat) : Option Instr :=
  match fn with
  | 0 => some (.nop h c)
  | 1 => some (.halt h c)
  | 2 => some (.fence h c)
  | 3 => some (.ppoint h c)
  | 4 => some (.trap h c (w.extractLsb' 8 8))
  | _ => some (.setd h c (w.extractLsb' 8 12))

/-- The command that a legal word spells to core c of Hearth h, by major opcode. -/
def kdecodeOp (h c : Nat) (w : Word) (op : Nat) : Option Instr :=
  match op with
  | 0x00 => kdecodeA h c w (field w 0 11)
  | 0x01 => some (.addi h c (fD w) (f1 w) (fImm w))
  | 0x02 => some (.andi h c (fD w) (f1 w) (fImm w))
  | 0x03 => some (.ori h c (fD w) (f1 w) (fImm w))
  | 0x04 => some (.xori h c (fD w) (f1 w) (fImm w))
  | 0x05 => some (.slli h c (fD w) (f1 w) (fImm w))
  | 0x06 => some (.srli h c (fD w) (f1 w) (fImm w))
  | 0x07 => some (.srai h c (fD w) (f1 w) (fImm w))
  | 0x08 => some (.slti h c (fD w) (f1 w) (fImm w))
  | 0x09 => some (.sltiu h c (fD w) (f1 w) (fImm w))
  | 0x0A => some (.lui h c (fD w) (f1 w) (fImm w))
  | 0x0B => some (.jalr h c (fD w) (f1 w) (fImm w))
  | 0x0C => some (.csrr h c (fD w) (f1 w) (fImm w))
  | 0x0D => some (.csrw h c (fD w) (f1 w) (fImm w))
  | 0x10 => some (.lb h c (fD w) (f1 w) (fImm w))
  | 0x11 => some (.lbu h c (fD w) (f1 w) (fImm w))
  | 0x12 => some (.lh h c (fD w) (f1 w) (fImm w))
  | 0x13 => some (.lhu h c (fD w) (f1 w) (fImm w))
  | 0x14 => some (.lw h c (fD w) (f1 w) (fImm w))
  | 0x15 => some (.lwu h c (fD w) (f1 w) (fImm w))
  | 0x16 => some (.ld h c (fD w) (f1 w) (fImm w))
  | 0x17 => some (.sb h c (fD w) (f1 w) (fImm w))
  | 0x18 => some (.sh h c (fD w) (f1 w) (fImm w))
  | 0x19 => some (.sw h c (fD w) (f1 w) (fImm w))
  | 0x1A => some (.sd h c (fD w) (f1 w) (fImm w))
  | 0x1B => some (.vld h c (fD w) (f1 w) (fImm w))
  | 0x1C => some (.vst h c (fD w) (f1 w) (fImm w))
  | 0x1D => some (.setw h c (fD w) (f1 w) (fImm w))
  | 0x1E => some (.clrw h c (fD w) (f1 w) (fImm w))
  | 0x20 => some (.beq h c (fD w) (f1 w) (fImm w))
  | 0x21 => some (.bne h c (fD w) (f1 w) (fImm w))
  | 0x22 => some (.blt h c (fD w) (f1 w) (fImm w))
  | 0x23 => some (.bge h c (fD w) (f1 w) (fImm w))
  | 0x24 => some (.bltu h c (fD w) (f1 w) (fImm w))
  | 0x25 => some (.bgeu h c (fD w) (f1 w) (fImm w))
  | 0x26 => some (.jal h c (fD w) (fImm w))
  | 0x27 => some (.bpany h c (fPd w) (fImm w))
  | 0x28 => some (.bpnone h c (fPd w) (fImm w))
  | 0x33 => some (.vtex h c (fD w) (f1 w) (f2 w) (fPr w) (f16 w))
  | 0x30 => kdecodeV30 h c w (field w 0 7)
  | 0x31 => kdecodeV31 h c w (field w 0 7)
  | 0x32 => kdecodeV32 h c w (field w 0 7)
  | 0x38 => kdecodeK h c w 0x38
  | 0x39 => kdecodeK h c w 0x39
  | 0x3A => kdecodeK h c w 0x3A
  | 0x3C => kdecodeH h c w (field w 0 3)
  | 0x3E => kdecodeSys h c w (field w 0 8)
  | 0x3F => some (.blk h c (w.getLsbD 25) (w.extractLsb' 12 12) (w.extractLsb' 0 12))
  | _ => none

/-- The command that an instruction word spells to core c of Hearth h; an illegal word spells none (R190). -/
def kdecode (h c : Nat) (w : Word) : Option Instr :=
  if legalWord w then kdecodeOp h c w (field w 26 6) else none

end Sys2Proof.Machine
end

