-- ==== Sys2Proof/Safety.lean ====
section
/-! DEFINITION. What counts as a safe outcome of a command, and the terms in which statements say what a command
changes and what it leaves alone. -/

namespace Sys2Proof.Machine

/-- An outcome that is a next state, and that state satisfies `P`. -/
def Completes (o : Host.Outcome State Fault Refusal) (P : State → Prop) : Prop := ∃ t, o = .next t ∧ P t

/-- Core c of Hearth h is about to execute word `w`: it runs, no migration holds its Hearth, no double-bit error
stands at its pc, the word is legal, and it is a BLK where R205 asks for one. -/
def State.standsAt (s : State) (h c : Nat) (w : Word) : Bool :=
  let k := s.core h c
  coreOk h c && k.runs && !s.paused h && !k.imemUe.contains (k.pc / 8) && (k.fetch == w) &&
    (!k.blkPending || isBlk w) && legalWord w

/-- The counter of instructions retired of core c of Hearth h, `KC_RETIRED` (R215). -/
def retiredKey (h c : Nat) : Nat := kcKey 8 h c

/-- Its counters of cycles with two instructions issued, `KC_DUAL`, and stalled on the store, `KC_MEM_STALL` (R215). -/
def dualKey (h c : Nat) : Nat := kcKey 12 h c
def memStallKey (h c : Nat) : Nat := kcKey 16 h c

/-- A 32-bit counter that saturates at 0xFFFF_FFFF, one higher. -/
def counted (w : Word) : Word := if w = 0xFFFFFFFF then w else w + 1

/-- From s to t only core c of Hearth h changes, to `k`, and its instruction is counted; where it may have issued as
the second of a pair, the pair may be counted too (the model's choice: assumption 8). -/
structure CoreTo (s t : State) (h c : Nat) (k : Core) : Prop where
  core     : t.core h c = k
  cores    : ∀ d, d ≠ c → t.core h d = s.core h d
  hearth   : { t.hearth h with cores := (s.hearth h).cores } = s.hearth h
  hearths  : ∀ g, g ≠ h → t.hearth g = s.hearth g
  retired  : t.reg (retiredKey h c) = counted (s.reg (retiredKey h c))
  dual     : t.reg (dualKey h c) = s.reg (dualKey h c) ∨
             ((s.core h c).mayPair = true ∧ t.reg (dualKey h c) = counted (s.reg (dualKey h c)))
  regs     : ∀ x, x ≠ retiredKey h c → x ≠ dualKey h c → t.reg x = s.reg x
  rest     : { t with hearths := s.hearths, regs := s.regs, draws := s.draws } = s

/-- The counter of bank wake-ups, `DRG_WAKES` (R463). -/
def wakesKey : Nat := 0x27002C

/-- The same for an instruction that accesses the Hearth store, whose bytes a store may change: besides, the banks of
its physical Hearth are noted as used and may wake (R440), and the core may have been stalled (R194). -/
structure CoreMemTo (s t : State) (h c : Nat) (k : Core) : Prop where
  core     : t.core h c = k
  cores    : ∀ d, d ≠ c → t.core h d = s.core h d
  hearth   : { t.hearth h with cores := (s.hearth h).cores, store := (s.hearth h).store,
                               storeUe := (s.hearth h).storeUe } = s.hearth h
  hearths  : ∀ g, g ≠ h → t.hearth g = s.hearth g
  banks    : let p := s.physOf h
             { t.phy p with retention := (s.phy p).retention, bankUse := (s.phy p).bankUse } = s.phy p
  phys     : ∀ p, p ≠ s.physOf h → t.phy p = s.phy p
  retired  : t.reg (retiredKey h c) = counted (s.reg (retiredKey h c))
  dual     : t.reg (dualKey h c) = s.reg (dualKey h c) ∨
             ((s.core h c).mayPair = true ∧ t.reg (dualKey h c) = counted (s.reg (dualKey h c)))
  regs     : ∀ x, x ≠ retiredKey h c → x ≠ dualKey h c → x ≠ memStallKey h c → x ≠ wakesKey → t.reg x = s.reg x
  rest     : { t with hearths := s.hearths, phys := s.phys, regs := s.regs, draws := s.draws } = s

/-- The core at its next instruction in sequence. -/
def Core.advanced (k : Core) : Core := { k with pc := (k.pc + 4) % 32768, state := 1, blkPending := false }

/-- The core after a taken jump to `target`, which R205 has yet to check. -/
def Core.jumped (k : Core) (target : Nat) : Core := { k with pc := target, state := 1, blkPending := true }

/-- The command completes, and changes nothing but core c of Hearth h: `f` acts on it and the pc advances. -/
def CoreDoes (i : Instr) (s : State) (h c : Nat) (f : Core → Core) : Prop :=
  Completes (exec i s) fun t => CoreTo s t h c (f (s.core h c)).advanced

/-- Lane i of a vector in 32-bit and in 16-bit form (R183). -/
def lane32 (v : VWord) (i : Nat) : BitVec 32 := v.extractLsb' (32 * i) 32
def lane16 (v : VWord) (i : Nat) : BitVec 16 := v.extractLsb' (16 * i) 16

/-- The command completes, and changes nothing but core c of Hearth h, whose pc advances and whose vector register
vd takes a value that satisfies `P`. -/
def VecDoes (i : Instr) (s : State) (h c : Nat) (vd : BitVec 5) (P : VWord → Prop) : Prop :=
  Completes (exec i s) fun t => ∃ v, P v ∧ CoreTo s t h c ((s.core h c).writeV vd v).advanced

/-- The same for predicate register pd. -/
def PredDoes (i : Instr) (s : State) (h c : Nat) (pd : BitVec 3) (P : Word → Prop) : Prop :=
  Completes (exec i s) fun t => ∃ v, P v ∧ CoreTo s t h c ((s.core h c).writeP pd v).advanced

/-- The state with the stop of core c of Hearth h recorded (R214): the core halts with its cause and pc, and the other
core halts. -/
def State.stopped (s : State) (h c cause : Nat) (faulted : Bool) : State :=
  let k := s.core h c
  let s1 := s.setCore h c { k with state := 3, cause := cause, faultPc := k.pc, waitsOn := none
                                   faulted := k.faulted || faulted }
  let o := s1.core h (1 - c)
  s1.setCore h (1 - c) { o with state := if o.state = 0 then 0 else 3 }

/-- Entry `e`, of operation `op`, is the head of target t's queue on Hearth h, before `rest`, and may start. -/
abbrev State.headStarts (s : State) (h t op : Nat) (e : QEntry) (rest : List QEntry) : Prop :=
  s.queueOf h t = e :: rest ∧ s.mayStart h t e = true ∧ (e.cmd.getD 0 0).toNat = op

/-- From s to t an engine of Hearth h has acted: only that Hearth, the record of its banks' use and plain counters
may have changed; the queue of target q is now `rest`. Free counts may have been drawn. -/
structure EngineTo (s t : State) (h q : Nat) (rest : List QEntry) : Prop where
  queue    : t.queueOf h q = rest
  queues   : ∀ x, x ≠ q → t.queueOf h x = s.queueOf h x
  hearths  : ∀ g, g ≠ h → t.hearth g = s.hearth g
  phys     : ∀ p, p ≠ s.physOf h → t.phy p = s.phy p
  job      : (t.hearth h).job = (s.hearth h).job
  hist     : (t.hearth h).hist = (s.hearth h).hist
  rest     : { t with hearths := s.hearths, phys := s.phys, regs := s.regs, draws := s.draws } = s

/-- A command of host domain d that writes the register at plain address a reaches it: the die is live and the
domain's view holds the address. -/
abbrev State.mayWrite (s : State) (d a : Nat) : Prop := hostOk d = true ∧ s.live = true ∧ s.sees d a true = true

/-- Hitch k is a counter that nothing waits on: no waiter, no poison, no barrier, and no job waits to start or to
begin its pass on it. -/
abbrev State.idleHitch (s : State) (k : Nat) : Prop :=
  hitchOk k = true ∧ (s.hitch k).queue = [] ∧ (s.hitch k).poison = false ∧ (s.hitch k).barrier = false ∧
  ∀ j ∈ s.jobs, (j.startEn = false ∨ j.startHitch ≠ k) ∧ j.pass.waitsOn ≠ some k

/-- From s to t only Hitch k changes, to `x`. -/
structure HitchTo (s t : State) (k : Nat) (x : Hitch) : Prop where
  hitch   : t.hitch k = x
  others  : ∀ i, i ≠ k → t.hitch i = s.hitch i
  rest    : { t with hitches := s.hitches } = s

/-- From s to t one event was queued for host domain d, if its queue had room (R86, R87). -/
def Queued (s t : State) (d code block arg : Nat) : Prop :=
  (s.host d).events.length < 256 →
    (t.host d).events = (s.host d).events ++ [⟨code, block, .ofNat 32 arg, s.time⟩]

/-- The newest entry of a log has this kind and these fields. -/
def Log.newest (l : Log) (kind : Nat) (addr old new : Word) : Prop :=
  ∃ e, l.entries.head? = some e ∧ e.kind = kind ∧ e.addr = addr ∧ e.old = old ∧ e.new = new

/-- A log as R488 forms it: at most 16,384 entries, newest first; the newest one carries the log's last check and the
sequence before the next; and each entry follows the one behind it, in its sequence and in its check. -/
structure Log.Chained (l : Log) : Prop where
  size   : l.entries.length ≤ 16384
  newest : ∀ e, l.entries.head? = some e → e.check = l.check ∧ (e.seq + 1) % 2 ^ 32 = l.next
  links  : ∀ i a b, l.entries[i]? = some a → l.entries[i + 1]? = some b →
             a.seq = (b.seq + 1) % 2 ^ 32 ∧
             a.check = crc32 (logBytes a.time a.origin a.kind a.addr a.old a.new a.seq ++ natLe b.check.toNat 4)

end Sys2Proof.Machine
end

