-- ==== Sys2Proof/Certificates/Slice0/Obligations.lean ====
section
/-! DEFINITION. The statements for the provers. -/

open Sys2Proof Sys2Proof.Machine

/-- For every command c, every queue rest and every state s: one step of s with c at the front of its queue and rest
behind it is exec of c on s with the queue rest. (chapter 3 (Host link and transport)) -/
def Obligations.StepRunsFrontCommand : Prop :=
  ∀ (s : State) (c : Instr) (rest : List Instr),
    step { s with pending := c :: rest } = exec c { s with pending := rest }

/-- With an empty queue, a live die, no host request in progress, no late slot of the frame fill and no job being
aborted, a step completes; device time grows by 1 ns and the root clock by 8 cycles, or, during a relock, device
time goes to the next multiple of 40 ns; the time of the surroundings grows as much; host ports, Hearths, DRAM, the
flash, the frame store, the Hitches and both logs stay as they are; and unless the root clock comes to a multiple
of 240 cycles, no divider changes. That time passes on an empty queue is the model's choice (assumption 4). (R4,
R19, R21, R486, assumption 4) -/
def Obligations.IdleStepPassesTime : Prop :=
  ∀ s : State, s.pending = [] → s.live = true → (∀ d, (s.host d).active = none) →
    (∀ x ∈ s.slots, s.time + 40 ≤ x.deadline) → (∀ j ∈ s.jobs, j.aborting = false) →
    ∃ t, step s = .next t ∧
      (s.clk.relocking = false → t.time = s.time + 1 ∧ t.clk.root = s.clk.root + 8) ∧
      (s.clk.relocking = true → s.time < t.time ∧ t.time ≤ s.time + 40 ∧ t.time % 40 = 0 ∧ t.clk = s.clk) ∧
      t.wall + s.time = s.wall + t.time ∧ (t.clk.root % 240 ≠ 0 → t.phys = s.phys) ∧
      t.pending = [] ∧ t.hosts = s.hosts ∧ t.hearths = s.hearths ∧ t.dram = s.dram ∧ t.flash = s.flash ∧
      t.frame = s.frame ∧ t.hitches = s.hitches ∧ t.flt = s.flt ∧ t.trust = s.trust ∧ t.lay = s.lay

/-- Right after module reset that follows power-on: device time is 0, `DEV_RESET_CAUSE` is POWER_ON, no Lay is active
and the loader is EMPTY with `LAY_DRAIN_TIMEOUT` 10,000, every host port is down with no events and no responses,
every Hitch has count 0 and is not poisoned, every Hearth is IN_SERVICE at its own place with idle cores and no
job, no job is in flight and the first submission number is 1, the panel ports are OFF with `PP_MODE` 2,
`FSG_SPLIT` is 192, `FLT_CTRL` and `MEM_CTRL` are 3, `HIST_HOLD` of every Cord is 90, and both logs are empty,
hence well chained. (R6, R26, R86, R183, R391, R402, R426, R472, R488, R518) -/
def Obligations.ResetLeaves : Prop :=
  let s := State.reset
  s.time = 0 ∧ s.pwr.cause = 0 ∧ s.lay = none ∧ s.loader.state = 0 ∧ s.reg 0x200018 = 10000 ∧
  (∀ d, (s.host d).rate = 0 ∧ (s.host d).events = [] ∧ (s.host d).responses = []) ∧
  (∀ k, (s.hitch k).count = 0 ∧ (s.hitch k).poison = false ∧ (s.hitch k).queue = []) ∧
  (∀ h, s.physOf h = h ∧ (s.phy h).service = 0 ∧ (s.hearth h).job = none ∧
    ∀ c, (s.core h c).state = 0 ∧ (s.core h c).pc = 0 ∧ ∀ r, (s.core h c).readX r = 0) ∧
  s.jobs = [] ∧ s.nextSub = 1 ∧
  (∀ p, (s.panels.look (fun _ => {}) p).state = 0 ∧ (s.panels.look (fun _ => {}) p).mode = 2) ∧
  s.reg 0x230000 = 192 ∧ s.reg 0x280004 = 3 ∧ s.reg 0x2A0004 = 3 ∧
  (∀ n, n < 16 → s.reg (cordAddr n 0xC004) = 90) ∧
  s.flt.log.entries = [] ∧ s.trust.chg.entries = [] ∧ s.flt.log.next = 0 ∧ s.trust.chg.next = 0 ∧
  s.flt.log.Chained ∧ s.trust.chg.Chained

/-- For every command and every state, exec answers a next state if every Hearth, core, Kiln, host domain, port, Cord,
Hitch, channel, link, clock and land that the command names exists, and otherwise stops with the fault noSuchUnit;
it never answers a refusal. (R11, R14, R37, R62, R80, R366, R425, R489, R529) -/
def Obligations.CommandsCompleteExactlyOnExistingUnits : Prop :=
  ∀ (c : Instr) (s : State),
    (c.wf = true → ∃ t, exec c s = .next t) ∧ (c.wf = false → exec c s = .fault .noSuchUnit)

/-- For every state and every command: if the fault log and the change log are each at most 16,384 entries, of which
every one has the sequence after the one before it and a check over its own bytes and the check before it, and the
newest carries the log's last check and the sequence before the next, and a step answers a next state, then both
logs are so in that state. (R488, R505) -/
def Obligations.LogsStayChained : Prop :=
  ∀ s t : State, s.flt.log.Chained → s.trust.chg.Chained → step s = .next t →
    t.flt.log.Chained ∧ t.trust.chg.Chained

/-- For every core: x0 reads 0 and p0 reads all ones; a write to x0 or to p0 changes nothing of the core; after a write
of v to x register r that is not x0, or to predicate register r that is not p0, or to any vector register r, that
register reads v and every other register of all three files reads as before. (R183) -/
def Obligations.HardwiredRegisters : Prop :=
  ∀ k : Core,
    k.readX 0 = 0 ∧ k.readP 0 = 0xFFFFFFFF ∧
    (∀ v, k.writeX 0 v = k) ∧ (∀ v, k.writeP 0 v = k) ∧
    (∀ r v q, r ≠ 0 → (k.writeX r v).readX q = (if q = r then v else k.readX q)) ∧
    (∀ r v q, r ≠ 0 → (k.writeP r v).readP q = (if q = r then v else k.readP q)) ∧
    (∀ r v q, (k.writeV r v).readV q = (if q = r then v else k.readV q)) ∧
    (∀ r v q, (k.writeX r v).readV q = k.readV q) ∧ (∀ r v q, (k.writeX r v).readP q = k.readP q) ∧
    (∀ r v q, (k.writeV r v).readX q = k.readX q) ∧ (∀ r v q, (k.writeV r v).readP q = k.readP q) ∧
    (∀ r v q, (k.writeP r v).readX q = k.readX q) ∧ (∀ r v q, (k.writeP r v).readV q = k.readV q)

/-- Each encoding of the example of R206 decodes to the instruction that stands beside it: BLK with and without ADJ,
LUI, ADDI with a positive and a negative immediate, SETD, KISSUE, BNE with offset −5, KWAIT and HALT. (R186, R187,
R206) -/
def Obligations.KindlingExampleWords : Prop :=
  ∀ h c : Nat,
    kdecode h c 0xFC3A13A1 = some (.blk h c false 0x3A1 0x3A1) ∧
    kdecode h c 0x28A00032 = some (.lui h c 5 0 0x0032) ∧
    kdecode h c 0x04C00028 = some (.addi h c 6 0 40) ∧
    kdecode h c 0xF8000005 = some (.setd h c 0) ∧
    kdecode h c 0xFE6655C4 = some (.blk h c true 0x665 0x5C4) ∧
    kdecode h c 0xE0A00000 = some (.kissue h c 5 0 0) ∧
    kdecode h c 0x04A50020 = some (.addi h c 5 5 32) ∧
    kdecode h c 0x04C6FFFF = some (.addi h c 6 6 0xFFFF) ∧
    kdecode h c 0xF8066505 = some (.setd h c 0x665) ∧
    kdecode h c 0x84C0FFFB = some (.bne h c 6 0 0xFFFB) ∧
    kdecode h c 0xFC5340F0 = some (.blk h c false 0x534 0x0F0) ∧
    kdecode h c 0xE4000000 = some (.kwait h c 0) ∧
    kdecode h c 0xF8000001 = some (.halt h c)

/-- For every core instruction i of core c of Hearth h, with every operand at every value: if its encoding is v with
the bits of mask m fixed, then every legal word that agrees with v on the bits of m decodes to i, operands
included; so no legal word spells two instructions and no operand bit is dropped. (R186, R187, R190) -/
def Obligations.KindlingDecodeOfEncode : Prop :=
  ∀ (i : Instr) (h c : Nat) (v m w : Word), kword i = some ((h, c), v, m) → legalWord w = true →
    w &&& m = v &&& m → kdecode h c w = some i

/-- For every word w: it decodes to some instruction exactly if it is legal; and if core c of Hearth h decodes it to i,
then i is an instruction of that core and w agrees with the encoding of i on every bit that the encoding fixes.
(R186, R187, R190) -/
def Obligations.KindlingEncodeOfDecode : Prop :=
  ∀ (h c : Nat) (w : Word), (kdecode h c w).isSome = legalWord w ∧
    ∀ i, kdecode h c w = some i → ∃ v m, kword i = some ((h, c), v, m) ∧ w &&& m = v &&& m

/-- If a core stands at a word, then the command of any core instruction of that core whose encoding the word does not
match completes and leaves the whole state as it was; and the command of a core that is not running, that has
stopped, that waits on a Hitch or that a migration holds leaves the whole state as it was. That such a command
changes nothing is the model's choice (assumption 10). (R187, R207, R476, assumption 10) -/
def Obligations.OnlyTheFetchedInstructionExecutes : Prop :=
  ∀ (s : State) (i : Instr) (h c : Nat) (v m : Word), kword i = some ((h, c), v, m) → coreOk h c = true →
    (∀ w, s.standsAt h c w = true → w &&& m ≠ v &&& m → exec i s = .next s) ∧
    ((s.core h c).runs = false ∨ s.paused h = true → exec i s = .next s)

/-- A core that stands at an A-format word completes its instruction: x[rd] becomes the sum, difference, AND, OR, XOR,
the shift by rs2 [5:0], the signed or unsigned comparison as 1 or 0, the lesser or greater, the low or high half of
the product, or the quotient or remainder of 64-bit two's-complement values (divisor 0: all ones and the dividend;
−2^63 / −1: −2^63 and 0); a write to x0 is discarded; the pc advances by 4, the instruction is counted, and no
other register, memory byte or counter changes. (R183, R186, R187, R188, R215) -/
def Obligations.ScalarRegisterOps : Prop :=
  ∀ (s : State) (h c : Nat) (rd rs1 rs2 : BitVec 5),
    let a := (s.core h c).readX rs1
    let b := (s.core h c).readX rs2
    let row := fun (funct : BitVec 11) (i : Instr) (v : DWord) =>
      s.standsAt h c (0#6 ++ rd ++ rs1 ++ rs2 ++ funct) = true → CoreDoes i s h c fun k => k.writeX rd v
    let n := b.toNat % 64
    row 0x000 (.add h c rd rs1 rs2) (a + b) ∧
    row 0x001 (.sub h c rd rs1 rs2) (a - b) ∧
    row 0x002 (.and h c rd rs1 rs2) (a &&& b) ∧
    row 0x003 (.or h c rd rs1 rs2) (a ||| b) ∧
    row 0x004 (.xor h c rd rs1 rs2) (a ^^^ b) ∧
    row 0x005 (.sll h c rd rs1 rs2) (a <<< n) ∧
    row 0x006 (.srl h c rd rs1 rs2) (a >>> n) ∧
    row 0x007 (.sra h c rd rs1 rs2) (a.sshiftRight n) ∧
    row 0x008 (.slt h c rd rs1 rs2) (if a.slt b then 1 else 0) ∧
    row 0x009 (.sltu h c rd rs1 rs2) (if a.ult b then 1 else 0) ∧
    row 0x00A (.min h c rd rs1 rs2) (if a.slt b then a else b) ∧
    row 0x00B (.max h c rd rs1 rs2) (if a.slt b then b else a) ∧
    row 0x00C (.minu h c rd rs1 rs2) (if a.ult b then a else b) ∧
    row 0x00D (.maxu h c rd rs1 rs2) (if a.ult b then b else a) ∧
    row 0x010 (.mul h c rd rs1 rs2) (a * b) ∧
    row 0x011 (.mulh h c rd rs1 rs2) ((a.signExtend 128 * b.signExtend 128).extractLsb' 64 64) ∧
    row 0x012 (.mulhu h c rd rs1 rs2) ((a.zeroExtend 128 * b.zeroExtend 128).extractLsb' 64 64) ∧
    row 0x013 (.div h c rd rs1 rs2) (if b = 0 then BitVec.allOnes 64 else a.sdiv b) ∧
    row 0x014 (.divu h c rd rs1 rs2) (if b = 0 then BitVec.allOnes 64 else a / b) ∧
    row 0x015 (.rem h c rd rs1 rs2) (if b = 0 then a else a.srem b) ∧
    row 0x016 (.remu h c rd rs1 rs2) (if b = 0 then a else a % b)

/-- A core that stands at an I-format word completes its instruction: ADDI, SLTI and SLTIU use the sign-extended
immediate, ANDI, ORI and XORI the zero-extended one, the shifts the immediate's bits [5:0], and LUI writes the sign
extension of imm << 16; a write to x0 is discarded; the pc advances by 4, the instruction is counted, and nothing
else changes. (R183, R186, R187, R188, R215) -/
def Obligations.ScalarImmediateOps : Prop :=
  ∀ (s : State) (h c : Nat) (rd rs1 : BitVec 5) (imm : BitVec 16),
    let a := (s.core h c).readX rs1
    let sx : DWord := imm.signExtend 64
    let zx : DWord := imm.zeroExtend 64
    let n := imm.toNat % 64
    let row := fun (op : BitVec 6) (i : Instr) (v : DWord) =>
      s.standsAt h c (op ++ rd ++ rs1 ++ imm) = true → CoreDoes i s h c fun k => k.writeX rd v
    row 0x01 (.addi h c rd rs1 imm) (a + sx) ∧
    row 0x02 (.andi h c rd rs1 imm) (a &&& zx) ∧
    row 0x03 (.ori h c rd rs1 imm) (a ||| zx) ∧
    row 0x04 (.xori h c rd rs1 imm) (a ^^^ zx) ∧
    row 0x05 (.slli h c rd rs1 imm) (a <<< n) ∧
    row 0x06 (.srli h c rd rs1 imm) (a >>> n) ∧
    row 0x07 (.srai h c rd rs1 imm) (a.sshiftRight n) ∧
    row 0x08 (.slti h c rd rs1 imm) (if a.slt sx then 1 else 0) ∧
    row 0x09 (.sltiu h c rd rs1 imm) (if a.ult sx then 1 else 0) ∧
    row 0x0A (.lui h c rd rs1 imm) (sx <<< 16)

/-- A core that stands at a branch completes it: with the condition true (equal, not equal, less or not less as signed
or unsigned values, any or no bit of the predicate) the pc becomes (pc + 4 × offset) mod 32,768 and the target is
marked to be checked by R205; with the condition false the pc advances by 4. JAL and JALR write pc + 4 to rd and
take the target, JALR's being (x[rs1] + imm) with bits [1:0] cleared, mod 32,768. The instruction is counted, and
nothing but the core changes. (R183, R186, R187, R188, R205, R215) -/
def Obligations.JumpsAndBranches : Prop :=
  ∀ (s : State) (h c : Nat) (rd rs1 rs2 : BitVec 5) (pr : BitVec 3) (free : BitVec 2) (off : BitVec 16),
    let k := s.core h c
    let a := k.readX rs1
    let b := k.readX rs2
    let target := (((k.pc : Int) + 4 * off.toInt) % 32768).toNat
    let jumps := fun (i : Instr) (k' : Core) => Completes (exec i s) fun t => CoreTo s t h c k'
    let branch := fun (op : BitVec 6) (i : Instr) (taken : Bool) =>
      s.standsAt h c (op ++ rs1 ++ rs2 ++ off) = true → jumps i (if taken then k.jumped target else k.advanced)
    let pbranch := fun (op : BitVec 6) (i : Instr) (taken : Bool) =>
      s.standsAt h c (op ++ free ++ pr ++ 0#5 ++ off) = true →
        jumps i (if taken then k.jumped target else k.advanced)
    branch 0x20 (.beq h c rs1 rs2 off) (a == b) ∧
    branch 0x21 (.bne h c rs1 rs2 off) (a != b) ∧
    branch 0x22 (.blt h c rs1 rs2 off) (a.slt b) ∧
    branch 0x23 (.bge h c rs1 rs2 off) (b.sle a) ∧
    branch 0x24 (.bltu h c rs1 rs2 off) (a.ult b) ∧
    branch 0x25 (.bgeu h c rs1 rs2 off) (b.ule a) ∧
    pbranch 0x27 (.bpany h c pr off) (k.readP pr != 0) ∧
    pbranch 0x28 (.bpnone h c pr off) (k.readP pr == 0) ∧
    (s.standsAt h c (0x26#6 ++ rd ++ 0#5 ++ off) = true →
      jumps (.jal h c rd off) ((k.writeX rd (BitVec.ofNat 64 (k.pc + 4))).jumped target)) ∧
    (s.standsAt h c (0x0B#6 ++ rd ++ rs1 ++ off) = true →
      jumps (.jalr h c rd rs1 off) ((k.writeX rd (BitVec.ofNat 64 (k.pc + 4))).jumped
        ((a + off.signExtend 64).toNat % 32768 / 4 * 4)))

/-- A core that stands at a CSRR of index 0 to 0x00D except CYCLE completes it and writes rd with: the Hearth and core
number, the job's Cord, session and arguments, VPATH and PPOINT_ONLY, device time, `row_first` and `row_count`, G,
D, `TEXSEL` or `SCRATCH`; a CSRR of CYCLE writes rd with some value and only counts the draw beside; a CSRW of
0x00C writes `TEXSEL` [7:0] and one of 0x00D `SCRATCH`. Nothing else changes but the pc and the count of
instructions. The value of CYCLE is free (assumption 8). (R185, R186, R187, R188, assumption 8) -/
def Obligations.ControlRegisterAccess : Prop :=
  ∀ (s : State) (h c : Nat) (r : BitVec 5),
    let k := s.core h c
    let reads := fun (idx : BitVec 16) (v : DWord) =>
      s.standsAt h c (0x0C#6 ++ r ++ 0#5 ++ idx) = true →
        CoreDoes (.csrr h c r 0 idx) s h c fun k => k.writeX r v
    let bit := fun (b : Bool) => if b then 1 else 0
    reads 0 (.ofNat 64 h) ∧ reads 1 (.ofNat 64 c) ∧ reads 2 (.ofNat 64 k.cord) ∧ reads 3 (.ofNat 64 k.session) ∧
    reads 4 (k.arg0.zeroExtend 64) ∧ reads 5 (k.arg1.zeroExtend 64) ∧
    reads 6 (.ofNat 64 (bit k.vpath + 2 * bit k.ppointOnly)) ∧ reads 7 (.ofNat 64 s.time) ∧
    reads 9 (.ofNat 64 (k.rowFirst % 65536 + 65536 * (k.rowCount % 65536))) ∧
    reads 10 (k.g.zeroExtend 64) ∧ reads 11 (k.d.zeroExtend 64) ∧ reads 12 (k.texsel.zeroExtend 64) ∧
    reads 13 k.scratch ∧
    (s.standsAt h c (0x0C#6 ++ r ++ 0#5 ++ 8#16) = true →
      Completes (exec (.csrr h c r 0 8) s) fun t => ∃ v,
        CoreTo s t h c ((k.writeX r v).advanced)) ∧
    (s.standsAt h c (0x0D#6 ++ 0#5 ++ r ++ 0x0C#16) = true →
      CoreDoes (.csrw h c 0 r 0x0C) s h c fun k => { k with texsel := (k.readX r).truncate 32 &&& 0xFF }) ∧
    (s.standsAt h c (0x0D#6 ++ 0#5 ++ r ++ 0x0D#16) = true →
      CoreDoes (.csrw h c 0 r 0x0D) s h c fun k => { k with scratch := k.readX r })

/-- A core that stands at a load whose address x[base] + sext(offset) is aligned to its size, lies in the 4 MiB Hearth
store and meets no uncorrectable word completes it: rd takes the sign- or zero-extended little-endian bytes, or vd
the 64 bytes; the pc advances and the instruction is counted. No byte of any memory changes, nor any other
register: beside the core only the record of bank use and wake-ups of its own physical Hearth the counter of bank
wake-ups and the counter of cycles stalled on the store may change. (R183, R186, R188, R193, R439, R440) -/
def Obligations.LoadsReadTheHearthStore : Prop :=
  ∀ (s : State) (h c : Nat) (rd base : BitVec 5) (off : BitVec 16),
    let k := s.core h c
    let a := (k.readX base + off.signExtend 64).toNat
    let load := fun (op : BitVec 6) (i : Instr) (n : Nat) (f : Nat → Core) =>
      s.standsAt h c (op ++ rd ++ base ++ off) = true → a % n = 0 → a < 4194304 →
      (s.hearth h).meetsUe a n = false →
        Completes (exec i s) fun t =>
          CoreMemTo s t h c (f ((s.hearth h).store.readLe a n)).advanced ∧
          (t.hearth h).store = (s.hearth h).store ∧ (t.hearth h).storeUe = (s.hearth h).storeUe
    load 0x10 (.lb h c rd base off) 1 (fun x => k.writeX rd ((BitVec.ofNat 8 x).signExtend 64)) ∧
    load 0x11 (.lbu h c rd base off) 1 (fun x => k.writeX rd ((BitVec.ofNat 8 x).zeroExtend 64)) ∧
    load 0x12 (.lh h c rd base off) 2 (fun x => k.writeX rd ((BitVec.ofNat 16 x).signExtend 64)) ∧
    load 0x13 (.lhu h c rd base off) 2 (fun x => k.writeX rd ((BitVec.ofNat 16 x).zeroExtend 64)) ∧
    load 0x14 (.lw h c rd base off) 4 (fun x => k.writeX rd ((BitVec.ofNat 32 x).signExtend 64)) ∧
    load 0x15 (.lwu h c rd base off) 4 (fun x => k.writeX rd ((BitVec.ofNat 32 x).zeroExtend 64)) ∧
    load 0x16 (.ld h c rd base off) 8 (fun x => k.writeX rd (BitVec.ofNat 64 x)) ∧
    load 0x1B (.vld h c rd base off) 64 (fun x => k.writeV rd (BitVec.ofNat 512 x))

/-- A core that stands at a store, SETW or CLRW whose address x[base] + sext(offset) is aligned to its size, lies in
the Hearth store at or above the job's weight share and covers no uncorrectable word in part completes it: the
bytes from that address, as many as its size, read afterwards as the low bytes of x[rs], the 64 bytes of v[rs], or
the old word ORed with, or ANDed with the complement of, x[rs] [31:0]; every byte outside them reads as before, no
register changes but the pc, and no other Hearth or memory changes. (R183, R186, R188, R193, R439, R440) -/
def Obligations.StoresWriteTheHearthStore : Prop :=
  ∀ (s : State) (h c : Nat) (rs base : BitVec 5) (off : BitVec 16),
    let k := s.core h c
    let a := (k.readX base + off.signExtend 64).toNat
    let old := BitVec.ofNat 32 ((s.hearth h).store.readLe a 4)
    let store := fun (op : BitVec 6) (i : Instr) (n : Nat) (x : Nat) =>
      s.standsAt h c (op ++ rs ++ base ++ off) = true → a % n = 0 → a < 4194304 →
      (∀ g, s.cordCfg k.cord = some g → g.weightShare ≤ a) → (s.hearth h).partUe a n = false →
        Completes (exec i s) fun t =>
          (t.hearth h).store.readLe a n = x % 2 ^ (8 * n) ∧
          (∀ y, (y < a ∨ a + n ≤ y) →
            (t.hearth h).store.look zeroByte y = (s.hearth h).store.look zeroByte y) ∧
          CoreMemTo s t h c k.advanced
    store 0x17 (.sb h c rs base off) 1 (k.readX rs).toNat ∧
    store 0x18 (.sh h c rs base off) 2 (k.readX rs).toNat ∧
    store 0x19 (.sw h c rs base off) 4 (k.readX rs).toNat ∧
    store 0x1A (.sd h c rs base off) 8 (k.readX rs).toNat ∧
    store 0x1C (.vst h c rs base off) 64 (k.readV rs).toNat ∧
    store 0x1D (.setw h c rs base off) 4 (old ||| (k.readX rs).truncate 32).toNat ∧
    store 0x1E (.clrw h c rs base off) 4 (old &&& ~~~(k.readX rs).truncate 32).toNat

/-- A core that stands at a load, store, SETW, CLRW, VLD or VST stops with cause 3 MISALIGNED if its address is not a
multiple of its size, wherever the address lies, and with cause 4 ADDRESS if it is aligned but beyond 0x003F_FFFF,
or, for a store, SETW or CLRW, below the weight share of the job's Cord: the core's pc and cause are recorded, both
cores halt, nothing is written, and the job that holds the Hearth, if any, is torn down. (R193, R214) -/
def Obligations.ForbiddenAccessesStopTheCore : Prop :=
  ∀ (s : State) (h c : Nat) (r base : BitVec 5) (off : BitVec 16),
    let k := s.core h c
    let a := (k.readX base + off.signExtend 64).toNat
    let access := fun (op : BitVec 6) (i : Instr) (n : Nat) (isStore : Bool) =>
      s.standsAt h c (op ++ r ++ base ++ off) = true →
        (a % n ≠ 0 → exec i s = .next ((s.stopped h c 3 false).tearHearth h)) ∧
        (a % n = 0 → 4194304 ≤ a → exec i s = .next ((s.stopped h c 4 false).tearHearth h)) ∧
        (a % n = 0 → isStore = true → (∃ g, s.cordCfg k.cord = some g ∧ a < g.weightShare) →
          exec i s = .next ((s.stopped h c 4 false).tearHearth h))
    access 0x10 (.lb h c r base off) 1 false ∧ access 0x11 (.lbu h c r base off) 1 false ∧
    access 0x12 (.lh h c r base off) 2 false ∧ access 0x13 (.lhu h c r base off) 2 false ∧
    access 0x14 (.lw h c r base off) 4 false ∧ access 0x15 (.lwu h c r base off) 4 false ∧
    access 0x16 (.ld h c r base off) 8 false ∧ access 0x17 (.sb h c r base off) 1 true ∧
    access 0x18 (.sh h c r base off) 2 true ∧ access 0x19 (.sw h c r base off) 4 true ∧
    access 0x1A (.sd h c r base off) 8 true ∧ access 0x1B (.vld h c r base off) 64 false ∧
    access 0x1C (.vst h c r base off) 64 true ∧ access 0x1D (.setw h c r base off) 4 true ∧
    access 0x1E (.clrw h c r base off) 4 true

/-- A core that stands at one of VADD, VSUB, VADDS, VMUL, VMULH, VMAC, VRSHR, VSLL, VSRA, VSRL, VAND, VOR, VXOR, VMIN,
VMAX, VMINU, VMAXU, in 32-bit or 16-bit form, completes it: each lane of vd whose predicate bit is 1 becomes the
operation of the lanes (wrapping; VADDS saturating; VMULH the signed high half; shift amounts the low bits of the
vs2 lane; VRSHR rounding to nearest, ties to even), every other lane keeps its value, and nothing changes but vd,
the pc and the count of instructions. (R106, R183, R184, R186, R187, R188) -/
def Obligations.VectorLaneOps : Prop :=
  ∀ (s : State) (h c : Nat) (vd vs1 vs2 : BitVec 5) (pr : BitVec 3),
    let k := s.core h c
    let form := fun (n : Nat) (get : VWord → Nat → BitVec n) (w16 : BitVec 1) (lanes : Nat) (funct : BitVec 7)
        (i : Instr) (f : BitVec n → BitVec n → BitVec n → BitVec n) =>
      s.standsAt h c (0x30#6 ++ vd ++ vs1 ++ vs2 ++ pr ++ w16 ++ funct) = true →
        VecDoes i s h c vd fun v => ∀ j, j < lanes →
          get v j = if (k.readP pr).getLsbD j
            then f (get (k.readV vd) j) (get (k.readV vs1) j) (get (k.readV vs2) j) else get (k.readV vd) j
    let row := fun (funct : BitVec 7) (i : Bool → Instr)
        (f : (n : Nat) → BitVec n → BitVec n → BitVec n → BitVec n) =>
      form 32 lane32 0 16 funct (i false) (f 32) ∧ form 16 lane16 1 32 funct (i true) (f 16)
    row 0x00 (.vadd h c vd vs1 vs2 pr) (fun _ _ a b => a + b) ∧
    row 0x01 (.vsub h c vd vs1 vs2 pr) (fun _ _ a b => a - b) ∧
    row 0x02 (.vadds h c vd vs1 vs2 pr) (fun n _ a b => BitVec.ofInt n (satS n (a.toInt + b.toInt))) ∧
    row 0x03 (.vmul h c vd vs1 vs2 pr) (fun _ _ a b => a * b) ∧
    row 0x04 (.vmulh h c vd vs1 vs2 pr) (fun n _ a b => BitVec.ofInt n (a.toInt * b.toInt / (2 ^ n : Nat))) ∧
    row 0x05 (.vmac h c vd vs1 vs2 pr) (fun _ d a b => d + a * b) ∧
    row 0x07 (.vrshr h c vd vs1 vs2 pr) (fun n _ a b => BitVec.ofInt n (rshiftRne a.toInt (b.toNat % n))) ∧
    row 0x09 (.vsll h c vd vs1 vs2 pr) (fun n _ a b => a <<< (b.toNat % n)) ∧
    row 0x0A (.vsra h c vd vs1 vs2 pr) (fun n _ a b => a.sshiftRight (b.toNat % n)) ∧
    row 0x0B (.vsrl h c vd vs1 vs2 pr) (fun n _ a b => a >>> (b.toNat % n)) ∧
    row 0x0C (.vand h c vd vs1 vs2 pr) (fun _ _ a b => a &&& b) ∧
    row 0x0D (.vor h c vd vs1 vs2 pr) (fun _ _ a b => a ||| b) ∧
    row 0x0E (.vxor h c vd vs1 vs2 pr) (fun _ _ a b => a ^^^ b) ∧
    row 0x0F (.vmin h c vd vs1 vs2 pr) (fun _ _ a b => if a.slt b then a else b) ∧
    row 0x10 (.vmax h c vd vs1 vs2 pr) (fun _ _ a b => if a.slt b then b else a) ∧
    row 0x11 (.vminu h c vd vs1 vs2 pr) (fun _ _ a b => if a.ult b then a else b) ∧
    row 0x12 (.vmaxu h c vd vs1 vs2 pr) (fun _ _ a b => if a.ult b then b else a)

/-- A core that stands at one of them completes it and changes nothing else. VMACW adds the exact signed product to the
64-bit pair {v(d+1) : vd} of each predicated lane, where the sum fits (where it does not the value is free:
assumption 13); VRSHRW writes sat32 of the pair {v(s1+1) : vs1} shifted right by [5:0] of the vs2 lane, ties to
even; VLUT takes the vs2 lane that the vs1 lane numbers, modulo the lanes of the form; VSEL writes every lane, from
vs1 where the predicate bit is 1 and from vs2 elsewhere; VCMPEQ, VCMPLT and VCMPLTU write pd with the comparison of
each predicated lane and 0 in every other bit. (R106, R183, R184, R186, R187, R188, assumption 13) -/
def Obligations.VectorPairsTablesAndComparisons : Prop :=
  ∀ (s : State) (h c : Nat) (vd vs1 vs2 : BitVec 5) (pd pr : BitVec 3) (free : BitVec 2),
    let k := s.core h c
    let on := fun j => (k.readP pr).getLsbD j
    let at' := fun (w16 : BitVec 1) (funct : BitVec 7) =>
      s.standsAt h c (0x30#6 ++ vd ++ vs1 ++ vs2 ++ pr ++ w16 ++ funct) = true
    let pat := fun (w16 : BitVec 1) (funct : BitVec 7) =>
      s.standsAt h c (0x30#6 ++ free ++ pd ++ vs1 ++ vs2 ++ pr ++ w16 ++ funct) = true
    let pair := fun (r : BitVec 5) j => lane32 (k.readV (r + 1)) j ++ lane32 (k.readV r) j
    (at' 0 0x06 → Completes (exec (.vmacw h c vd vs1 vs2 pr false) s) fun t => ∃ lo hi : VWord,
      (∀ j, j < 16 →
        let sum := (pair vd j).toInt + (lane32 (k.readV vs1) j).toInt * (lane32 (k.readV vs2) j).toInt
        let r : BitVec 64 := lane32 hi j ++ lane32 lo j
        (on j = true → -(2 ^ 63) ≤ sum → sum < 2 ^ 63 → r.toInt = sum) ∧ (on j = false → r = pair vd j)) ∧
      CoreTo s t h c ((k.writeV vd lo).writeV (vd + 1) hi).advanced) ∧
    (at' 0 0x08 → VecDoes (.vrshrw h c vd vs1 vs2 pr false) s h c vd fun v => ∀ j, j < 16 →
      lane32 v j = if on j
        then .ofInt 32 (satS 32 (rshiftRne (pair vs1 j).toInt ((lane32 (k.readV vs2) j).toNat % 64)))
        else lane32 (k.readV vd) j) ∧
    (at' 0 0x13 → VecDoes (.vlut h c vd vs1 vs2 pr false) s h c vd fun v => ∀ j, j < 16 →
      lane32 v j = if on j then lane32 (k.readV vs2) ((lane32 (k.readV vs1) j).toNat % 16)
        else lane32 (k.readV vd) j) ∧
    (at' 1 0x13 → VecDoes (.vlut h c vd vs1 vs2 pr true) s h c vd fun v => ∀ j, j < 32 →
      lane16 v j = if on j then lane16 (k.readV vs2) ((lane16 (k.readV vs1) j).toNat % 32)
        else lane16 (k.readV vd) j) ∧
    (at' 0 0x17 → VecDoes (.vsel h c vd vs1 vs2 pr false) s h c vd fun v => ∀ j, j < 16 →
      lane32 v j = if on j then lane32 (k.readV vs1) j else lane32 (k.readV vs2) j) ∧
    (at' 1 0x17 → VecDoes (.vsel h c vd vs1 vs2 pr true) s h c vd fun v => ∀ j, j < 32 →
      lane16 v j = if on j then lane16 (k.readV vs1) j else lane16 (k.readV vs2) j) ∧
    (let cmp := fun (funct : BitVec 7) (i : Bool → Instr) (f : (n : Nat) → BitVec n → BitVec n → Bool) =>
      (pat 0 funct → PredDoes (i false) s h c pd fun v => ∀ j, j < 32 →
        v.getLsbD j = (decide (j < 16) && on j && f 32 (lane32 (k.readV vs1) j) (lane32 (k.readV vs2) j))) ∧
      (pat 1 funct → PredDoes (i true) s h c pd fun v => ∀ j, j < 32 →
        v.getLsbD j = (on j && f 16 (lane16 (k.readV vs1) j) (lane16 (k.readV vs2) j)))
     cmp 0x14 (.vcmpeq h c pd vs1 vs2 pr) (fun _ a b => a == b) ∧
     cmp 0x15 (.vcmplt h c pd vs1 vs2 pr) (fun _ a b => a.slt b) ∧
     cmp 0x16 (.vcmpltu h c pd vs1 vs2 pr) (fun _ a b => a.ult b))

/-- A core that stands at one of VFADD, VFSUB, VFMUL, VFMA, VFMIN, VFMAX, VCVTIF, VCVTFI, in fp32 or fp16, completes
it: each predicated lane of vd becomes the exact sum, difference, product or vd + product of the decoded lanes,
rounded once, the lesser or greater, or the conversion; the other lanes keep their values. VFCMPLT and VFCMPEQ
write pd with the comparison of each predicated lane, false with a NaN, and 0 in every other bit. VCVTFB and VCVTFH
write 16-bit lanes 0 to 15 from 32-bit lanes and leave lanes 16 to 31; the bf16 of a NaN is left open (assumption
15); VCVTBF and VCVTHF write 32-bit lanes from 16-bit lanes 0 to 15. Nothing else changes. (R183, R184, R186, R187,
R188, R189, assumption 15) -/
def Obligations.VectorFloatOps : Prop :=
  ∀ (s : State) (h c : Nat) (vd vs1 vs2 : BitVec 5) (pd pr : BitVec 3) (free : BitVec 2),
    let k := s.core h c
    let on := fun j => (k.readP pr).getLsbD j
    let at' := fun (op : BitVec 6) (w16 : BitVec 1) (funct : BitVec 7) =>
      s.standsAt h c (op ++ vd ++ vs1 ++ vs2 ++ pr ++ w16 ++ funct) = true
    let op := fun (major : BitVec 6) (funct : BitVec 7) (i : Bool → Instr) (f : Fmt → Nat → Nat → Nat → Nat → Nat) =>
      (at' major 0 funct → VecDoes (i false) s h c vd fun v => ∀ j, j < 16 → lane32 v j = if on j
        then .ofNat 32 (f fp32 32 (lane32 (k.readV vd) j).toNat (lane32 (k.readV vs1) j).toNat
          (lane32 (k.readV vs2) j).toNat) else lane32 (k.readV vd) j) ∧
      (at' major 1 funct → VecDoes (i true) s h c vd fun v => ∀ j, j < 32 → lane16 v j = if on j
        then .ofNat 16 (f fp16 16 (lane16 (k.readV vd) j).toNat (lane16 (k.readV vs1) j).toNat
          (lane16 (k.readV vs2) j).toNat) else lane16 (k.readV vd) j)
    let cmp := fun (funct : BitVec 7) (i : Bool → Instr) (f : FVal → FVal → Bool) =>
      (s.standsAt h c (0x31#6 ++ free ++ pd ++ vs1 ++ vs2 ++ pr ++ 0#1 ++ funct) = true →
        PredDoes (i false) s h c pd fun v => ∀ j, j < 32 → v.getLsbD j = (decide (j < 16) && on j &&
          f (fp32.decode (lane32 (k.readV vs1) j).toNat) (fp32.decode (lane32 (k.readV vs2) j).toNat))) ∧
      (s.standsAt h c (0x31#6 ++ free ++ pd ++ vs1 ++ vs2 ++ pr ++ 1#1 ++ funct) = true →
        PredDoes (i true) s h c pd fun v => ∀ j, j < 32 → v.getLsbD j = (on j &&
          f (fp16.decode (lane16 (k.readV vs1) j).toNat) (fp16.decode (lane16 (k.readV vs2) j).toNat)))
    let narrow := fun (funct : BitVec 7) (w16 : Bool) (i : Instr) (F : Fmt) =>
      at' 0x32 (if w16 then 1 else 0) funct → VecDoes i s h c vd fun v => ∀ j, j < 32 →
        lane16 v j = if on j && decide (j < 16) then .ofNat 16 (F.pack (fp32.decode (lane32 (k.readV vs1) j).toNat))
          else lane16 (k.readV vd) j
    let widen := fun (funct : BitVec 7) (w16 : Bool) (i : Instr) (F : Fmt) =>
      at' 0x32 (if w16 then 1 else 0) funct → VecDoes i s h c vd fun v => ∀ j, j < 16 →
        lane32 v j = if on j then .ofNat 32 (fp32.pack (F.decode (lane16 (k.readV vs1) j).toNat))
          else lane32 (k.readV vd) j
    let sgn := fun (n x : Nat) => (BitVec.ofNat n x).toInt
    op 0x31 0x00 (.vfadd h c vd vs1 vs2 pr) (fun F _ _ a b => F.pack ((F.decode a).add (F.decode b))) ∧
    op 0x31 0x01 (.vfsub h c vd vs1 vs2 pr) (fun F _ _ a b => F.pack ((F.decode a).add (F.decode b).neg)) ∧
    op 0x31 0x02 (.vfmul h c vd vs1 vs2 pr) (fun F _ _ a b => F.pack ((F.decode a).mul (F.decode b))) ∧
    op 0x31 0x03 (.vfma h c vd vs1 vs2 pr)
      (fun F _ d a b => F.pack (((F.decode a).mul (F.decode b)).add (F.decode d))) ∧
    op 0x31 0x04 (.vfmin h c vd vs1 vs2 pr) (fun F _ _ a b => fltMin F a b) ∧
    op 0x31 0x05 (.vfmax h c vd vs1 vs2 pr) (fun F _ _ a b => fltMax F a b) ∧
    cmp 0x06 (.vfcmplt h c pd vs1 vs2 pr) FVal.lt ∧
    cmp 0x07 (.vfcmpeq h c pd vs1 vs2 pr) FVal.eq ∧
    op 0x32 0x00 (.vcvtif h c vd vs1 vs2 pr) (fun F n _ a _ => F.pack (FVal.ofInt (sgn n a))) ∧
    op 0x32 0x01 (.vcvtfi h c vd vs1 vs2 pr) (fun F n _ a _ => cvtFI F n a) ∧
    (∀ w16 : Bool, at' 0x32 (if w16 then 1 else 0) 0x02 →
      Completes (exec (.vcvtfb h c vd vs1 vs2 pr w16) s) fun t => ∃ v,
        (∀ j, j < 32 →
          let x := fp32.decode (lane32 (k.readV vs1) j).toNat
          (on j = true → j < 16 → x ≠ .nan → lane16 v j = .ofNat 16 (bf16.pack x)) ∧
          (on j = false ∨ 16 ≤ j → lane16 v j = lane16 (k.readV vd) j)) ∧
        CoreTo s t h c (k.writeV vd v).advanced) ∧
    (∀ w16, widen 0x03 w16 (.vcvtbf h c vd vs1 vs2 pr w16) bf16) ∧
    (∀ w16, narrow 0x04 w16 (.vcvtfh h c vd vs1 vs2 pr w16) fp16) ∧
    (∀ w16, widen 0x05 w16 (.vcvthf h c vd vs1 vs2 pr w16) fp16)

/-- In fp32 and fp16, for every operand: adding, multiplying, or taking the lesser or greater with a NaN operand gives
the NaN 0x7FC0_0000 or 0x7E00; the lesser of +0 and −0 is −0 and the greater +0, in either order; VCVTFI maps every
NaN to 0, +∞ to the largest and −∞ to the smallest integer of its width. (R189) -/
def Obligations.FloatSpecialValues : Prop :=
  fp32.qnan = 0x7FC00000 ∧ fp16.qnan = 0x7E00 ∧
  ∀ F n, ((F = fp32 ∧ n = 32) ∨ (F = fp16 ∧ n = 16)) →
    (∀ a b, F.decode a = .nan ∨ F.decode b = .nan →
      F.pack ((F.decode a).add (F.decode b)) = F.qnan ∧ F.pack ((F.decode a).mul (F.decode b)) = F.qnan ∧
      fltMin F a b = F.qnan ∧ fltMax F a b = F.qnan) ∧
    fltMin F 0 F.sign = F.sign ∧ fltMin F F.sign 0 = F.sign ∧ fltMax F 0 F.sign = 0 ∧ fltMax F F.sign 0 = 0 ∧
    (∀ a, F.decode a = .nan → cvtFI F n a = 0) ∧
    cvtFI F n F.inf = 2 ^ (n - 1) - 1 ∧ cvtFI F n (F.sign + F.inf) = 2 ^ (n - 1)

/-- A core that stands at one of them completes it and changes nothing else. VBCAST writes each predicated lane with
x[vs1] truncated; VMVX writes x[vd] with the sign-extended lane of vs1 that the vs2 field numbers; VREDADD, VREDMAX
and VFREDADD write lane 0 with the wrapping sum, the signed maximum or the floating-point sum in ascending lane
order of the predicated lanes (0 where there is none) and every other lane with 0; PAND, POR, PXOR and PNOT write
pd with the operation on whole predicates; PSETN sets bits 0 to n − 1 of pd for n = x[vs1] as an unsigned value.
(R183, R184, R186, R187, R188, R189) -/
def Obligations.MovesReductionsAndPredicates : Prop :=
  ∀ (s : State) (h c : Nat) (vd vs1 vs2 : BitVec 5) (pd pr : BitVec 3) (free : BitVec 2) (w16 : Bool),
    let k := s.core h c
    let on := fun j => (k.readP pr).getLsbD j
    let wb : BitVec 1 := if w16 then 1 else 0
    let at' := fun (w16 : BitVec 1) (funct : BitVec 7) =>
      s.standsAt h c (0x32#6 ++ vd ++ vs1 ++ vs2 ++ pr ++ w16 ++ funct) = true
    let sel32 := ((List.range 16).filter on).map (lane32 (k.readV vs1))
    let sel16 := ((List.range 32).filter on).map (lane16 (k.readV vs1))
    let red32 := fun (funct : BitVec 7) (i : Bool → Instr) (x : BitVec 32) =>
      at' 0 funct → VecDoes (i false) s h c vd fun v => ∀ j, j < 16 → lane32 v j = if j = 0 then x else 0
    let red16 := fun (funct : BitVec 7) (i : Bool → Instr) (x : BitVec 16) =>
      at' 1 funct → VecDoes (i true) s h c vd fun v => ∀ j, j < 32 → lane16 v j = if j = 0 then x else 0
    let fsum := fun (F : Fmt) (xs : List Nat) => match xs with
      | [] => 0
      | x :: rest => rest.foldl (fun t y => F.pack ((F.decode t).add (F.decode y))) (F.pack (F.decode x))
    let top : (n : Nat) → List (BitVec n) → BitVec n := fun n xs => match xs with
      | [] => 0#n
      | x :: rest => rest.foldl (fun m y => if m.slt y then y else m) x
    let pop := fun (funct : BitVec 7) (i : Instr) (v : Word) =>
      s.standsAt h c (0x32#6 ++ free ++ pd ++ vs1 ++ vs2 ++ pr ++ wb ++ funct) = true →
        PredDoes i s h c pd fun x => x = v
    let p1 := k.readP (vs1.truncate 3)
    let p2 := k.readP (vs2.truncate 3)
    (at' 0 0x06 → VecDoes (.vbcast h c vd vs1 vs2 pr false) s h c vd fun v => ∀ j, j < 16 →
      lane32 v j = if on j then (k.readX vs1).truncate 32 else lane32 (k.readV vd) j) ∧
    (at' 1 0x06 → VecDoes (.vbcast h c vd vs1 vs2 pr true) s h c vd fun v => ∀ j, j < 32 →
      lane16 v j = if on j then (k.readX vs1).truncate 16 else lane16 (k.readV vd) j) ∧
    (at' 0 0x07 → CoreDoes (.vmvx h c vd vs1 vs2 pr false) s h c fun k =>
      k.writeX vd ((lane32 (k.readV vs1) (vs2.toNat % 16)).signExtend 64)) ∧
    (at' 1 0x07 → CoreDoes (.vmvx h c vd vs1 vs2 pr true) s h c fun k =>
      k.writeX vd ((lane16 (k.readV vs1) vs2.toNat).signExtend 64)) ∧
    red32 0x08 (.vredadd h c vd vs1 vs2 pr) sel32.sum ∧ red16 0x08 (.vredadd h c vd vs1 vs2 pr) sel16.sum ∧
    red32 0x09 (.vfredadd h c vd vs1 vs2 pr) (.ofNat 32 (fsum fp32 (sel32.map BitVec.toNat))) ∧
    red16 0x09 (.vfredadd h c vd vs1 vs2 pr) (.ofNat 16 (fsum fp16 (sel16.map BitVec.toNat))) ∧
    red32 0x0A (.vredmax h c vd vs1 vs2 pr) (top 32 sel32) ∧ red16 0x0A (.vredmax h c vd vs1 vs2 pr) (top 16 sel16) ∧
    pop 0x0B (.pand h c pd vs1 vs2 pr w16) (p1 &&& p2) ∧ pop 0x0C (.por h c pd vs1 vs2 pr w16) (p1 ||| p2) ∧
    pop 0x0D (.pxor h c pd vs1 vs2 pr w16) (p1 ^^^ p2) ∧ pop 0x0E (.pnot h c pd vs1 vs2 pr w16) (~~~p1) ∧
    (s.standsAt h c (0x32#6 ++ free ++ pd ++ vs1 ++ vs2 ++ pr ++ wb ++ 0x0F#7) = true →
      PredDoes (.psetn h c pd vs1 vs2 pr w16) s h c pd fun v => ∀ j, j < 32 →
        v.getLsbD j = decide (j < (k.readX vs1).toNat))

/-- A core that stands at a KISSUE whose address x[rs1] + 32 × offset is a multiple of 32 with 32 bytes in the store
that meet no uncorrectable word, to a target that accepts the command with fewer than four entries queued (and,
under VPATH, no window command ROWS or MTABLE): the command's bytes join the end of that target's queue, the core's
count of commands issued to it grows by 1, and the pc advances (a QUENCH that reaches the head of its queue at once
is judged there too: InvalidEngineCommandsAreRefused). A command that its target does not accept is refused. With
four entries queued the core stalls at the KISSUE, unchanged but for its state, and only `KC_CMD_STALL` may count.
KWAIT advances once no command that the core issued to the target is outstanding, and stalls otherwise; KPOLL
writes rd with the free entries. A misaligned address stops the core with MISALIGNED, one beyond the store with
ADDRESS, a forbidden VPATH command with VPATH_ISSUE. (R186, R187, R190, R196, R197, R198, R199, R212, R214) -/
def Obligations.CommandIssue : Prop :=
  ∀ (s : State) (h c : Nat) (rs1 rd : BitVec 5) (target : BitVec 3) (off : BitVec 12) (a5 b5 : BitVec 5),
    let k := s.core h c
    let q := s.queueOf h target.toNat
    let a := (k.readX rs1 + BitVec.ofNat 64 (32 * off.toNat)).toNat
    let bs := (s.hearth h).store.lookList zeroByte a 32
    let barred := target = 4 ∧ k.vpath = true ∧ (bs.getD 0 0 = 0x21 ∨ bs.getD 0 0 = 0x22)
    let stalls := fun (i : Instr) => Completes (exec i s) fun t =>
      { t with regs := s.regs, draws := s.draws } = s.setCore h c { k with state := 2 } ∧
      ∀ x, x ≠ kcKey 20 h c → t.reg x = s.reg x
    (s.standsAt h c (0x38#6 ++ rs1 ++ a5 ++ target ++ 0#1 ++ off) = true →
      (a % 32 ≠ 0 → exec (.kissue h c rs1 target off) s = .next ((s.stopped h c 3 false).tearHearth h)) ∧
      (a % 32 = 0 → 4194304 < a + 32 →
        exec (.kissue h c rs1 target off) s = .next ((s.stopped h c 4 false).tearHearth h)) ∧
      (a % 32 = 0 → a + 32 ≤ 4194304 → (s.hearth h).meetsUe a 32 = false →
        (barred → exec (.kissue h c rs1 target off) s = .next ((s.stopped h c 6 false).tearHearth h)) ∧
        (¬ barred → 4 ≤ q.length → stalls (.kissue h c rs1 target off)) ∧
        (¬ barred → q.length < 4 → s.cmdAccepted h target.toNat bs = false →
          exec (.kissue h c rs1 target off) s =
            .next (s.refuseCmd h target.toNat ⟨bs, c, k.pc⟩ (if target.toNat < 4 then 7 else 1))) ∧
        (¬ barred → q.length < 4 → s.cmdAccepted h target.toNat bs = true → target ≠ 5 ∨ q ≠ [] →
          Completes (exec (.kissue h c rs1 target off) s) fun t =>
            t.queueOf h target.toNat = q ++ [⟨bs, c, k.pc⟩] ∧
            (∀ u, u ≠ target.toNat → t.queueOf h u = s.queueOf h u) ∧
            t.core h c = { k with issued := k.issued.modify (fun _ => 0) target.toNat (· + 1) }.advanced ∧
            (t.hearth h).store = (s.hearth h).store ∧ (∀ g, g ≠ h → t.hearth g = s.hearth g) ∧
            t.dram = s.dram ∧ t.hitches = s.hitches ∧ t.jobs = s.jobs))) ∧
    (s.standsAt h c (0x39#6 ++ a5 ++ b5 ++ target ++ 0#1 ++ off) = true →
      if k.issued.look (fun _ => 0) target.toNat = 0 then CoreDoes (.kwait h c target) s h c id
      else stalls (.kwait h c target)) ∧
    (s.standsAt h c (0x3A#6 ++ a5 ++ rd ++ target ++ 0#1 ++ off) = true →
      CoreDoes (.kpoll h c rd target) s h c fun k => k.writeX rd (BitVec.ofNat 64 (4 - q.length)))

/-- A core that stands at a Hitch instruction naming a Hitch of its Cord completes it. SIGNAL of n that no job's start
or pass waits for does the signal on the Hitch and the pc advances; with no waiters and no overflow the sum is the
count, the job notes the Hitch, and nothing else changes. WAIT of n ≤ count on an unpoisoned counter Hitch without
waiters takes n and the pc advances; with a lower count, behind a waiter that is not granted, or at a barrier, it
queues behind the others and stalls. TRYWAIT succeeds exactly on an unpoisoned counter Hitch without waiters and
with count ≥ n, takes n and writes 1, and otherwise writes 0 and leaves the Hitch. ARM with bit 31 clear sets the
count and counter mode; with 2^31 + t, t from 1 to 65,535, a barrier of t parties. A Hitch outside the Cord stops
the core with HITCH_RANGE. (R186, R187, R200, R214, R426, R427, R428) -/
def Obligations.HitchInstructions : Prop :=
  ∀ (s : State) (h c : Nat) (rd rs1 rs2 : BitVec 5),
    let k := s.core h c
    let x := (k.readX rs2).toNat % 65536
    let n := (k.readX rs1).toNat % 4294967296
    let y := s.hitch x
    let at' := fun (oper : BitVec 3) (rd : BitVec 5) =>
      s.standsAt h c (0x3C#6 ++ rd ++ rs1 ++ rs2 ++ 0#8 ++ oper) = true
    let alone := y.queue = [] ∧ y.poison = false
    let unwatched := ∀ j ∈ s.jobs, (j.startEn = false ∨ j.startHitch ≠ x) ∧ j.pass.waitsOn ≠ some x
    let stops := fun i => s.hitchIn k.cord x = false →
      exec i s = .next ((s.stopped h c 5 false).tearHearth h)
    (at' 0 0 → stops (.signal h c rs1 rs2) ∧
      (s.hitchIn k.cord x = true → unwatched → Completes (exec (.signal h c rs1 rs2) s) fun t =>
        t.hitch x = (y.signal n).1 ∧ (∀ z, z ≠ x → t.hitch z = s.hitch z) ∧ t.core h c = k.advanced ∧
        ∀ j ∈ t.jobs, j.sub = s.jobOf h → x ∈ j.signalled) ∧
      (s.hitchIn k.cord x = true → alone → unwatched → y.barrier = false → y.count + n ≤ 0xFFFFFFFF →
        Completes (exec (.signal h c rs1 rs2) s) fun t =>
          t.hitch x = { y with count := y.count + n } ∧ (∀ z, z ≠ x → t.hitch z = s.hitch z) ∧
          CoreTo s { t with hitches := s.hitches, jobs := s.jobs } h c k.advanced)) ∧
    (at' 1 0 → stops (.wait h c rs1 rs2) ∧
      (s.hitchIn k.cord x = true → alone → y.barrier = false → n ≤ y.count →
        Completes (exec (.wait h c rs1 rs2) s) fun t =>
          t.hitch x = { y with count := y.count - n } ∧ (∀ z, z ≠ x → t.hitch z = s.hitch z) ∧
          CoreTo s { t with hitches := s.hitches } h c k.advanced) ∧
      (s.hitchIn k.cord x = true → y.poison = false →
        (y.barrier = true ∨ (y.queue = [] ∧ y.count < n) ∨ ∃ w rest, y.queue = w :: rest ∧ y.count < w.n) →
        Completes (exec (.wait h c rs1 rs2) s) fun t =>
          t.hitch x = { y with queue := y.queue ++ [⟨.core h c, n⟩] } ∧ (∀ z, z ≠ x → t.hitch z = s.hitch z) ∧
          t.core h c = { k with state := 2, waitsOn := some x } ∧ t.jobs = s.jobs ∧ t.hosts = s.hosts ∧
          t.dram = s.dram ∧ ∀ g, g ≠ h → t.hearth g = s.hearth g)) ∧
    (at' 2 rd → stops (.trywait h c rd rs1 rs2) ∧
      (s.hitchIn k.cord x = true →
        let ok := decide (y.queue = []) && !y.poison && !y.barrier && decide (n ≤ y.count)
        Completes (exec (.trywait h c rd rs1 rs2) s) fun t =>
          t.hitch x = (if ok then { y with count := y.count - n } else y) ∧
          (∀ z, z ≠ x → t.hitch z = s.hitch z) ∧
          CoreTo s { t with hitches := s.hitches } h c (k.writeX rd (if ok then 1 else 0)).advanced)) ∧
    (at' 3 0 → stops (.arm h c rs1 rs2) ∧
      (s.hitchIn k.cord x = true →
        (alone → unwatched → n < 2147483648 → Completes (exec (.arm h c rs1 rs2) s) fun t =>
          t.hitch x = { y with count := n, barrier := false } ∧ (∀ z, z ≠ x → t.hitch z = s.hitch z) ∧
          CoreTo s { t with hitches := s.hitches } h c k.advanced) ∧
        (2147483648 < n → n ≤ 2147483648 + 65535 → Completes (exec (.arm h c rs1 rs2) s) fun t =>
          t.hitch x = { y with count := 0, target := n - 2147483648, barrier := true } ∧
          (∀ z, z ≠ x → t.hitch z = s.hitch z) ∧
          CoreTo s { t with hitches := s.hitches } h c k.advanced)))

/-- A core that stands at a SYS or BLK word completes it. NOP and FENCE only advance the pc; PPOINT also stops the core
if a pre-emption request is pending; HALT leaves the core halted past it; SETD sets D to its value; a BLK with G
XOR d XOR (D if ADJ) = s sets G to s, advances, and counts in `KC_BLOCKS`; TRAP stops the core with cause TRAP, its
code and pc recorded, both cores halted and the job torn down; a core at an illegal word stops with cause ILLEGAL
in the same way. Bits [19:8] of NOP, HALT, FENCE and PPOINT and [19:16] of TRAP are free. (R186, R187, R190, R195,
R203, R204, R207, R214, R215) -/
def Obligations.SystemInstructionsAndSignatures : Prop :=
  ∀ (s : State) (h c : Nat) (v : BitVec 12) (code : BitVec 8) (hi : BitVec 4) (adj : Bool) (d sig : BitVec 12),
    let k := s.core h c
    let sys := fun (v : BitVec 12) (oper : BitVec 8) =>
      s.standsAt h c (0x3E#6 ++ 0#6 ++ v ++ oper) = true
    (sys v 0 → CoreDoes (.nop h c) s h c id) ∧
    (sys v 1 → Completes (exec (.halt h c) s) fun t => CoreTo s t h c { k.advanced with state := 3 }) ∧
    (sys v 2 → CoreDoes (.fence h c) s h c id) ∧
    (sys v 3 → CoreDoes (.ppoint h c) s h c fun k => { k with stopped := k.stopReq }) ∧
    (sys (hi ++ code) 4 → exec (.trap h c code) s =
      .next (((s.setCore h c { k with trapCode := code.toNat }).stopped h c 8 false).tearHearth h)) ∧
    (sys v 5 → CoreDoes (.setd h c v) s h c fun k => { k with d := v }) ∧
    (s.standsAt h c (0x3F#6 ++ (if adj then 1#1 else 0#1) ++ 0#1 ++ d ++ sig) = true →
      k.g ^^^ d ^^^ (if adj then k.d else 0) = sig →
      let blocks := hKey (0xB01C + h * 0x40 + c * 0x20)
      Completes (exec (.blk h c adj d sig) s) fun t =>
        t.core h c = ({ k with g := sig } : Core).advanced ∧ (∀ e, e ≠ c → t.core h e = s.core h e) ∧
        { t.hearth h with cores := (s.hearth h).cores } = s.hearth h ∧ (∀ f, f ≠ h → t.hearth f = s.hearth f) ∧
        t.reg blocks = counted (s.reg blocks) ∧ t.reg (retiredKey h c) = counted (s.reg (retiredKey h c)) ∧
        (∀ x, x ≠ blocks → x ≠ retiredKey h c → t.reg x = s.reg x) ∧
        { t with hearths := s.hearths, regs := s.regs } = s) ∧
    (coreOk h c = true → k.runs = true → s.paused h = false → k.imemUe.contains (k.pc / 8) = false →
      k.blkPending = false → legalWord k.fetch = false →
      exec (.illegalInstruction h c k.fetch) s = .next ((s.stopped h c 2 false).tearHearth h))

/-- A core of a Hearth without a job and without an earlier suspected fault that executes a BLK whose folded G differs
from its signature, or that is about to execute the target of a taken jump that is not a BLK, or that fetches from
a pair of instructions with a double-bit error, halts with cause SIGNATURE, SIGNATURE or IMEM_ECC, its pc recorded
and FAULTED set, whichever core instruction is commanded; the other core halts. (R204, R205, R206, R214) -/
def Obligations.SuspectedCoreFaults : Prop :=
  ∀ (s : State) (h c : Nat) (adj : Bool) (d sig : BitVec 12) (i : Instr) (v m : Word),
    let k := s.core h c
    (s.hearth h).job = none → coreOk h c = true → (s.phy (s.physOf h)).suspects = [] →
    let halts := fun (i : Instr) (cause : Nat) => Completes (exec i s) fun t =>
      (t.core h c).state = 3 ∧ (t.core h c).cause = cause ∧ (t.core h c).faultPc = k.pc ∧
      (t.core h c).faulted = true ∧ (t.core h c).pc = k.pc ∧ (t.core h c).x = k.x ∧
      ((s.core h (1 - c)).state ≠ 0 → (t.core h (1 - c)).state = 3) ∧
      (t.hearth h).store = (s.hearth h).store ∧ t.dram = s.dram
    (s.standsAt h c (0x3F#6 ++ (if adj then 1#1 else 0#1) ++ 0#1 ++ d ++ sig) = true →
      k.g ^^^ d ^^^ (if adj then k.d else 0) ≠ sig → halts (.blk h c adj d sig) 1) ∧
    (kword i = some ((h, c), v, m) → k.runs = true → s.paused h = false →
      (k.imemUe.contains (k.pc / 8) = true → halts i 7) ∧
      (k.imemUe.contains (k.pc / 8) = false → k.fetch &&& m = v &&& m → k.blkPending = true → isBlk k.fetch = false →
        halts i 1))

/-- A core of a Hearth whose RASTER job has a texture table that holds descriptor `TEXSEL`, valid and readable, in a
machine without uncorrectable DRAM words, that stands at a VTEX, completes it: each lane that the predicate selects
takes, in v[vd] to v[vd + 3], the four components of the sample at the lane's coordinates and its quad's level of
detail, every other lane of those registers keeps its value, every other register keeps its value, and the pc
advances. No memory changes. A sparse texture is sampled the same way, where missing pages set their feedback bits
and may end the sample at 0. Values for non-finite coordinates or levels are free. (R184, R187, R211, R302) -/
def Obligations.TextureSamplesWriteSelectedLanes : Prop :=
  ∀ (s : State) (h c : Nat) (vd vs1 vs2 : BitVec 5) (pr : BitVec 3) (w16 : Bool) (j : Job) (g : CordCfg),
    let k := s.core h c
    let index := k.texsel.toNat % 256
    let d := leAt j.desc 48 8 + 32 * index
    s.standsAt h c (0x33#6 ++ vd ++ vs1 ++ vs2 ++ pr ++ (if w16 then 1#1 else 0#1) ++ 0#7) = true →
    ((s.hearth h).job.bind s.job?) = some j → j.kind = 2 → s.cordCfg j.cord = some g →
    index < leAt j.desc 56 2 → s.dramUe = [] → texOk g.size (s.cordBytes g d 32) = true →
    let tex := readTex (s.cordBytes g d 32)
    let u := fun l => (lane32 (k.readV vs1) l).toNat
    let v := fun l => (lane32 (k.readV vs2) l).toNat
    let sample := fun l => let lv := tex.levelsAt (tex.lod u v (fun i => (k.readP pr).toNat.testBit i) l
        (Config.freeValue (s.draws + l / 4)))
      (s.sampleAt g j tex index (u l) (v l) lv.2 14 lv.1).2
    Completes (exec (.vtex h c vd vs1 vs2 pr w16) s) fun t =>
      (t.core h c).pc = (k.pc + 4) % 32768 ∧ (t.core h c).x = k.x ∧ (t.core h c).p = k.p ∧
      (∀ r, r ≠ vd → r ≠ vd + 1 → r ≠ vd + 2 → r ≠ vd + 3 → (t.core h c).readV r = k.readV r) ∧
      (∀ n, n < 4 → ∀ l, l < 16 → (k.readP pr).getLsbD l = false →
        lane32 ((t.core h c).readV (vd + .ofNat 5 n)) l = lane32 (k.readV (vd + .ofNat 5 n)) l) ∧
      (tex.sparse = false → t.dram = s.dram ∧ t.hosts = s.hosts ∧ t.jobs = s.jobs ∧
        ∀ n, n < 4 → ∀ l, l < 16 → (k.readP pr).getLsbD l = true → ∀ q, sample l = .rgba q →
          lane32 ((t.core h c).readV (vd + .ofNat 5 n)) l = .ofNat 32 (q.getD n 0)) ∧
      (∀ e, e ≠ c → t.core h e = s.core h e) ∧ (∀ f, f ≠ h → t.hearth f = s.hearth f) ∧
      (t.hearth h).store = (s.hearth h).store ∧ t.frame = s.frame

/-- For every accumulator entry and every activation and weight: the new value is the exact sum of the old value and
the product, clamped to 32 bits; the clamp bit is set if the clamp acted, and stays set; and if the entry passes
the residue comparison of R116 before the accumulation, it passes it after. An entry that starts from zero passes.
(R99, R104, R115, R116) -/
def Obligations.AccumulatorsSaturateAndKeepTheirResidue : Prop :=
  (∀ (e : Acc) (a w : Int) (mode : Nat),
    let x := e.val.toInt + a * w
    (accStep e a w).val.toInt = max (-2147483648) (min x 2147483647) ∧
    ((accStep e a w).clamp = true ↔ e.clamp = true ∨ x < -2147483648 ∨ 2147483647 < x) ∧
    (residueOk mode e = true → residueOk mode (accStep e a w) = true)) ∧
  ∀ mode, residueOk mode {} = true

/-- A MAC at the head of a READY Kiln's queue, with its stream open, valid, with as many terms as the stream, a slot
that the Quench unit does not hold, and no uncorrectable word in what it reads, completes. With a dense stream, if
the residue comparisons pass, each entry of its slot becomes the term-by-term accumulation, from the bias, its old
value (CONT) or zero; with a diagonal stream that fits its mode, if the comparisons pass, the folded diagonal
result; every other accumulator entry, the other Kilns, the Hearth store and every other memory are unchanged; the
slot joins the held slots with LAST, with the command's `channel_base`; the command leaves the queue. (R94, R95,
R100, R103, R104, R107, R109, R111, R168, R170, R197) -/
def Obligations.MacAccumulatesItsStream : Prop :=
  ∀ (s : State) (h k : Nat) (e : QEntry) (rest : List QEntry),
    let v := s.hearth h
    let c := readKilnCmd (cmdMem e.cmd) 0
    let st := v.win.streams.look (fun _ => {}) c.stream
    let kiln := s.kiln h k
    let book := fun a => ((readCodebook v.store a).map Prod.snd).getD []
    kilnOk h k = true → s.headStarts h k 1 e rest → s.kilnReady h k = true → st.phase = 2 →
    st.taken.contains k = false → kilnCmdOk v.store c st.fmt = true → st.terms.length = c.terms →
    meetsHeld kiln.held c.mode c.slot = false → s.readsUe h (kilnReads v.store c) = none →
    (st.diag = 0 → (macResult v.store c st.terms kiln.acc).2 = true →
      Completes (exec (.mac h k .none) s) fun t =>
        EngineTo s t h k rest ∧
        (∀ r ch, r < 16 → ch < modeChannels c.mode →
          (t.kiln h k).acc.look accZero (accIndex c.mode c.slot r ch) =
            macFold v.store c (book c.wcb) (book c.acb) ch 0 (st.terms.map fun x => x.getD r .zero)
              (accInit v.store c (kiln.acc.look accZero (accIndex c.mode c.slot r ch)) ch)) ∧
        (∀ x, (∀ r ch, r < 16 → ch < modeChannels c.mode → x ≠ accIndex c.mode c.slot r ch) →
          (t.kiln h k).acc.look accZero x = kiln.acc.look accZero x) ∧
        (t.kiln h k).held = (if c.isLast then kiln.held ++ [⟨c.slot, c.mode, c.chBase⟩] else kiln.held) ∧
        (t.kiln h k).mode = c.mode ∧ (t.kiln h k).faulted = kiln.faulted ∧
        (∀ j, j ≠ k → t.kiln h j = s.kiln h j) ∧ (t.hearth h).store = v.store) ∧
    (st.diag ≠ 0 → diagFits c.mode st = true → (diagResult v.store c st kiln.acc).2 = true →
      Completes (exec (.mac h k .none) s) fun t =>
        EngineTo s t h k rest ∧ (t.kiln h k).acc = (diagResult v.store c st kiln.acc).1 ∧
        (∀ x, (∀ r ch, r < 16 → ch < modeChannels c.mode → x ≠ accIndex c.mode c.slot r ch) →
          (t.kiln h k).acc.look accZero x = kiln.acc.look accZero x) ∧
        (t.kiln h k).held = (if c.isLast then kiln.held ++ [⟨diagSlot c.mode c.slot, diagMode c.mode, c.chBase⟩] else kiln.held) ∧
        (∀ j, j ≠ k → t.kiln h j = s.kiln h j) ∧ (t.hearth h).store = v.store)

/-- A valid MERGE at the head of a READY Kiln's queue whose slots the Quench unit does not hold and whose table has no
uncorrectable word completes: each entry of its slot becomes the exact sum of the source entries times their
multipliers, shifted right with rounding to nearest even, and clamped, with its clamp bit telling whether it was
clamped and its residue lane true. A valid CLEAR makes each entry of its slot zero with a clear clamp bit. Every
other entry, the other Kilns, the store and every other memory are unchanged; the slot is handed over with LAST;
the command leaves the queue. (R94, R105, R106, R107, R108, R111, R118, R197) -/
def Obligations.MergeAndClearWriteTheirSlot : Prop :=
  ∀ (s : State) (h k : Nat) (e : QEntry) (rest : List QEntry),
    let v := s.hearth h
    let c := readKilnCmd (cmdMem e.cmd) 0
    let kiln := s.kiln h k
    let tab := (readMergeTable v.store c.wAddr c.sources).getD []
    let at' := fun (m : SMap Acc) slot r ch => m.look accZero (accIndex c.mode slot r ch)
    let done := fun (t : State) (new : Nat → Nat → Acc) =>
      EngineTo s t h k rest ∧
      (∀ r ch, r < 16 → ch < modeChannels c.mode → at' (t.kiln h k).acc c.slot r ch = new r ch) ∧
      (∀ x, (∀ r ch, r < 16 → ch < modeChannels c.mode → x ≠ accIndex c.mode c.slot r ch) →
        (t.kiln h k).acc.look accZero x = kiln.acc.look accZero x) ∧
      (t.kiln h k).held = (if c.isLast then kiln.held ++ [⟨c.slot, c.mode, c.chBase⟩] else kiln.held) ∧
      (∀ j, j ≠ k → t.kiln h j = s.kiln h j) ∧ (t.hearth h).store = v.store
    kilnOk h k = true → s.kilnReady h k = true → kilnCmdOk v.store c 0 = true →
    (s.headStarts h k 2 e rest → ((kilnCmdSlots v.store c).any fun x => meetsHeld kiln.held c.mode x) = false →
      s.readsUe h (kilnReads v.store c) = none →
      Completes (exec (.merge h k .none) s) fun t => done t fun r ch =>
        let w := rshiftRne ((tab.map fun x => (at' kiln.acc x.1 r ch).val.toInt * (x.2 : Int)).sum) c.shift
        { val := .ofInt 32 (satS 32 w), clamp := decide (satS 32 w ≠ w), lane := .ofNat 3 (satS 32 w % 7).toNat }) ∧
    (s.headStarts h k 3 e rest → meetsHeld kiln.held c.mode c.slot = false →
      Completes (exec (.kilnClear h k) s) fun t => done t fun _ _ => { val := 0, clamp := false, lane := 0 })

/-- A MERGE or a dense MAC that may start on a READY Kiln and is valid, but meets a check that fails (residue 1, table
parity 2, weight parity 3, codebook parity 4, H16 5, merge 6), on a Hearth in service without an earlier suspected
fault: the Kiln reads FAULTED with that cause and the command's mode, its service state is QUARANTINED, its Hearth
is RECOVERING, a KILN_FAULT entry that names Hearth, Kiln and cause is logged, and then the job that holds the
Hearth is torn down. (R115, R120, R123, R475, R481, R489, R542) -/
def Obligations.FailedChecksFaultTheKiln : Prop :=
  ∀ (s : State) (h k : Nat) (e : QEntry) (rest : List QEntry) (chk : KilnCheck),
    let v := s.hearth h
    let p := s.physOf h
    let c := readKilnCmd (cmdMem e.cmd) 0
    let st := v.win.streams.look (fun _ => {}) c.stream
    let faults := fun (i : Instr) => ∃ u : State, exec i s = .next (u.tearHearth h) ∧
      (u.kiln h k).faulted = true ∧ (u.kiln h k).cause = kilnCause chk ∧ (u.kiln h k).mode = c.mode ∧
      (u.kiln h k).acc = (s.kiln h k).acc ∧ (u.phy p).kilns.look (fun _ => 0) k = 2 ∧ (u.phy p).service = 1 ∧
      (∃ x ∈ u.flt.log.entries, x.kind = 1 ∧ x.addr = .ofNat 32 (p + k * 256) ∧ x.new = .ofNat 32 (kilnCause chk))
    kilnOk h k = true → s.kilnReady h k = true → (s.phy p).service = 0 → (s.phy p).suspects = [] →
    s.flt.slot = none → chk ≠ .none → s.readsUe h (kilnReads v.store c) = none →
    (s.headStarts h k 2 e rest → kilnCmdOk v.store c 0 = true →
      ((kilnCmdSlots v.store c).any fun x => meetsHeld (s.kiln h k).held c.mode x) = false → faults (.merge h k chk)) ∧
    (s.headStarts h k 1 e rest → st.phase = 2 → st.diag = 0 → st.taken.contains k = false →
      kilnCmdOk v.store c st.fmt = true → st.terms.length = c.terms →
      meetsHeld (s.kiln h k).held c.mode c.slot = false → faults (.mac h k chk))

/-- A command at the head of its queue that may start, reads no uncorrectable word but is invalid is refused: by a Kiln
with cause 7 (MAC with its stream open, MERGE, CLEAR), by the Quench unit with cause 1 (bad fields, or a slot that
is not held and that no command will hand over), by the window unit with cause 1 (ROWS, DIAG, DIAGMAX, MTABLE,
REGROUP, SPLICE, RELEASE with bad fields, a stream whose terms or mode do not fit its MAC, a stream whose fan-out
the MACs do not match) or 2 (rows outside the stripe and its halos); the cause is recorded in the target and the
issuing core stops with cause COMMAND. (R109, R147, R181, R199, R214) -/
def Obligations.InvalidEngineCommandsAreRefused : Prop :=
  ∀ (s : State) (h k : Nat) (e : QEntry) (rest : List QEntry),
    let m := (s.hearth h).store
    let c := readKilnCmd (cmdMem e.cmd) 0
    let st := (s.hearth h).win.streams.look (fun _ => {}) c.stream
    let q := readQCmd (cmdMem e.cmd) 0
    let w := readWinCmd (cmdMem e.cmd) 0
    let b := readBlock m w.params
    let x := readSplice (cmdMem e.cmd) 0
    let refuses := fun (i : Instr) (t cause : Nat) => exec i s = .next (s.refuseCmd h t e cause)
    kilnOk h k = true →
    (s.kilnReady h k = true →
      (s.headStarts h k 1 e rest → st.phase = 2 → st.taken.contains k = false →
        let fits := st.diag = 0 ∨ diagFits c.mode st = true
        let reads := s.readsUe h (kilnReads m c) = none
        (fits → reads → kilnCmdOk m c st.fmt = false → ∀ chk, refuses (.mac h k chk) k 7) ∧
        (¬ fits ∨ (reads ∧ kilnCmdOk m c st.fmt = true ∧ st.terms.length ≠ c.terms) →
          ∀ chk, exec (.mac h k chk) s = .next (s.refuseCmd h 4 st.entry 1))) ∧
      (s.headStarts h k 2 e rest → s.readsUe h (kilnReads m c) = none → kilnCmdOk m c 0 = false → ∀ chk, refuses (.merge h k chk) k 7) ∧
      (s.headStarts h k 3 e rest → kilnCmdOk m c 0 = false → refuses (.kilnClear h k) k 7)) ∧
    (s.headStarts h 5 0x10 e rest → s.readsUe h [(q.params, 64), (q.list, 4 * (q.nslots + 1))] = none →
      quenchFieldsOk m q = false ∨ (∃ x ∈ readSlotList m q, s.heldTile h x = none ∧ s.willHand h x.1 x.2.1 = false) →
      ∀ chk, refuses (.quench h chk) 5 1) ∧
    (∀ id, id < 4 →
      let y := (s.hearth h).win.streams.look (fun _ => {}) id
      y.phase ≠ 0 → s.fanoutBad h id y = true →
      exec (.streamOpen h id) s = .next (s.refuseCmd h 4 y.entry 1)) ∧
    (winCmdOk m w = false → s.readsUe h [(w.params, 64)] = none →
      (s.headStarts h 4 0x20 e rest → refuses (.rows h) 4 1) ∧ (s.headStarts h 4 0x21 e rest → refuses (.diag h) 4 1) ∧
      (s.headStarts h 4 0x22 e rest → refuses (.diagmax h) 4 1) ∧
      (s.headStarts h 4 0x23 e rest → refuses (.mtable h) 4 1)) ∧
    (winCmdOk m w = true → rowsInRange b w = false → s.readsUe h [(w.params, 64)] = none →
      (s.headStarts h 4 0x20 e rest → refuses (.rows h) 4 2) ∧ (s.headStarts h 4 0x21 e rest → refuses (.diag h) 4 2) ∧
      (s.headStarts h 4 0x22 e rest → refuses (.diagmax h) 4 2) ∧
      (s.headStarts h 4 0x23 e rest → refuses (.mtable h) 4 2)) ∧
    (s.headStarts h 4 0x24 e rest → regroupKind m w = none → s.readsUe h [(w.params, 64), (w.aux, 64)] = none →
      refuses (.regroup h) 4 1) ∧
    (s.headStarts h 4 0x25 e rest → spliceOk m x = false → s.readsUe h [(x.params, 64)] = none → refuses (.splice h) 4 1) ∧
    (s.headStarts h 4 0x26 e rest → s.readsUe h [(x.params, 64)] = none → x.nrows ≠ 0 ∨ x.dst ≠ 0 ∨ addrOk x.params 64 64 = false →
      refuses (.release h) 4 1)

/-- For every codebook that is not empty, every zp, every value y and every scale with mant positive and exp not
positive: let t = (y × 2^−16) / (mant × 2^exp), exactly, and the levels v_k = entry[k] − zp. The code chosen
numbers a level, no level is nearer to t, among the equally near levels none has a larger magnitude, and among
those no lower code exists. The value saturates exactly when t is above every level or below every level. (R131) -/
def Obligations.NearestCodeOfAValue : Prop :=
  ∀ (entry : List Int) (zp y : Int) (mant : Nat) (exp : Int), entry ≠ [] → 0 < mant → exp ≤ 0 →
    let lv := entry.map fun x => x - zp
    let t : ℚ := (y : ℚ) * 2 ^ (-16 : ℤ) / ((mant : ℚ) * 2 ^ exp)
    let v := fun k => ((entry.getD k 0 - zp : ℤ) : ℚ)
    let c := nearestCode lv (tNum y exp) (tDen mant)
    c < entry.length ∧
    (∀ k, k < entry.length →
      |t - v c| ≤ |t - v k| ∧ (|t - v k| = |t - v c| → |v k| ≤ |v c|) ∧
      (|t - v k| = |t - v c| → |v k| = |v c| → c ≤ k)) ∧
    (saturates lv (tNum y exp) (tDen mant) = true ↔
      (∀ k, k < entry.length → v k < t) ∨ ∀ k, k < entry.length → t < v k)

/-- A valid QUENCH at the head of the queue, whose slots are all held, whose map row is in order and whose parameters
and list have no uncorrectable word, and which needs no other uncorrectable word of the store, with checks that
pass, completes: the Hearth store becomes the store with the group's elements, row headers, tracks and statistics,
each slot of its list leaves the held slots of its Kiln and no other does, the accumulators keep their values, and
the command leaves the queue; the QUENCH behind it, if any, is then judged as it reaches the head (R147). (R111,
R126, R143, R146, R147, R197) -/
def Obligations.QuenchFreesItsSlots : Prop :=
  ∀ (s : State) (h : Nat) (e : QEntry) (rest : List QEntry),
    let v := s.hearth h
    let c := readQCmd (cmdMem e.cmd) 0
    let slots := readSlotList v.store c
    let tiles := slots.filterMap (s.heldTile h)
    let dk := match (s.hearthJob h).bind fun j => (s.cordCfg j.cord).bind fun g => s.jobModel g j with
      | some m => m.scaleK
      | none => 1
    hearthOk h = true → s.headStarts h 5 0x10 e rest → (∀ x ∈ slots, (s.heldTile h x).isSome = true) →
    quenchOk v.store v.mapRows c tiles = true → s.readsUe h [(c.params, 64), (c.list, 4 * (c.nslots + 1))] = none →
    let group := fun m => (quenchGroup m c (readParams v.store c.params) dk (fun k => (s.kiln h k).acc) tiles).1
    v.needs group = none →
    ∃ t : State, exec (.quench h .none) s = .next (t.quenchReach h) ∧ (rest = [] → t.quenchReach h = t) ∧
      EngineTo s t h 5 rest ∧
      (t.hearth h).store = group v.store ∧ (∀ w ∈ (t.hearth h).storeUe, w ∈ v.storeUe ∧ wordUse group v.store w = .unused) ∧
      ∀ k, (t.kiln h k).acc = (s.kiln h k).acc ∧ (t.kiln h k).held =
        (s.kiln h k).held.filter fun y => !slots.any fun x => x.1 == k && x.2.1 == y.slot

/-- A valid ROWS, DIAG or DIAGMAX at the head of the queue, with its rows in the stripe, its stream closed and no
uncorrectable word in its block, completes: it leaves the queue and its stream is set up with the command, the
block's format and the fan-out of its stream byte, waiting for no halo. A stream that is set up, needs no halo that
is absent, whose fan-out its MACs may match, and whose lines fit beside those that stay in the line buffer opens
when it is commanded: its terms are those of the lines for its command, and the line of each row and channel it
needs is the row as the store holds it; STREAM_OPEN writes no byte of the store except the scale word of a DIAG
command whose flag asks for it. (R153, R154, R155, R160, R161, R162, R163, R168, R169, R172, R178) -/
def Obligations.WindowStreamsSetUpAndOpen : Prop :=
  ∀ (s : State) (h id : Nat) (e : QEntry) (rest : List QEntry),
    let v := s.hearth h
    let c := readWinCmd (cmdMem e.cmd) 0
    let b := readBlock v.store c.params
    let stream := fun (t : State) i => (t.hearth h).win.streams.look (fun _ => {}) i
    let setup := fun (i : Instr) (op diag : Nat) => s.headStarts h 4 op e rest →
      Completes (exec i s) fun t => EngineTo s t h 4 rest ∧
        stream t (c.stream % 4) = {
          phase := 1, cmd := e.cmd, core := e.core, pc := e.pc, fmt := b.fmt, fanout := c.stream / 4 % 4 + 1, diag := diag,
          nky := c.nky, nkx := c.nkx, nc := c.nc } ∧
        (∀ i, i ≠ c.stream % 4 → stream t i = stream s i) ∧ (t.hearth h).store = v.store
    (hearthOk h = true → winCmdOk v.store c = true → rowsInRange b c = true →
      (stream s (c.stream % 4)).phase = 0 → haloSides b (cmdRows b c) = [] → s.readsUe h [(c.params, 64)] = none →
      setup (.rows h) 0x20 0 ∧ setup (.diag h) 0x21 1 ∧ setup (.diagmax h) 0x22 2) ∧
    (let st := stream s id
     let oc := readWinCmd (cmdMem st.cmd) 0
     let ob := readBlock v.store oc.params
     hearthOk h = true → id < 4 → st.phase = 1 →
     haloMissing v.win (haloId oc.params ob) (haloSides ob (cmdRows ob oc)) = [] →
     s.fanoutBad h id st = false →
     let ls := s.streamLines h id
     lineRoom ls.1 + lineRoom ls.2 ≤ 262144 →
     s.readsUe h (winReads ob oc (ls.2.map fun x => (x.row, x.chan))) = none →
     let name := haloId oc.params ob
     let line := lineOf (ls.1 ++ ls.2) name (ob.lineOwner id)
     (∀ x ∈ cmdLines ob oc, line x.1 x.2 = (fetchLine v.store ob name (ob.lineOwner id) x).bytes) ∧
     Completes (exec (.streamOpen h id) s) fun t =>
       (t.hearth h).win.lines = ls.1 ++ ls.2 ∧
       (let terms := if st.diag = 0 then rowsTerms v.store line ob oc else diagTerms v.store line ob oc
        let mults := if st.diag = 0 then [] else diagMults v.store ob oc
        stream t id = { st with phase := 2, terms := terms, mults := mults }) ∧
       (∀ i, i ≠ id → stream t i = stream s i) ∧
       (st.diag = 0 ∨ oc.flags.testBit 0 = false → (t.hearth h).store = v.store) ∧
       (∀ a, a < oc.aux ∨ oc.aux + 8 ≤ a →
         (t.hearth h).store.look zeroByte a = v.store.look zeroByte a) ∧
       (∀ g, g ≠ h → t.hearth g = s.hearth g) ∧ t.dram = s.dram ∧ t.hitches = s.hitches)

/-- A valid MTABLE whose halos are present writes its merge table and reference scale; a valid REGROUP writes its
regrouped map; both leave the queue. A valid SPLICE whose FREE Hitch has a count of 1 or more and no waiter takes 1
from it, writes its rows into the destination's halo buffer and leaves the queue; on a count of 0 it waits there.
SPLICE_ACKED of good writes ends the SPLICE and adds 1 to the destination's FULL Hitch. A valid RELEASE ends the
side's presence and adds 1 to the Hearth's own FREE Hitch. Hitches named here are idle counters that no job waits
to start on, and none of these commands needs an uncorrectable word. (R164, R167, R177, R178, R180, R197, R426) -/
def Obligations.TablesRegroupsAndHalos : Prop :=
  ∀ (s : State) (h : Nat) (e : QEntry) (rest : List QEntry),
    let v := s.hearth h
    let c := readWinCmd (cmdMem e.cmd) 0
    let b := readBlock v.store c.params
    let x := readSplice (cmdMem e.cmd) 0
    let xb := readBlock v.store x.params
    let idle := fun k => (s.hitch k).queue = [] ∧ (s.hitch k).poison = false ∧ (s.hitch k).barrier = false
    let quiet := ∀ j ∈ s.jobs, j.startEn = false ∧ j.pass.waitsOn = none
    hearthOk h = true →
    (s.headStarts h 4 0x23 e rest → winCmdOk v.store c = true → rowsInRange b c = true →
      haloMissing v.win (haloId c.params b) (haloSides b (cmdRows b c)) = [] →
      s.readsUe h [(c.params, 64)] = none → s.readsUe h ((cmdRows b c).map fun n => (b.hdrAddr n, 8)) = none →
      v.needs (fun m => mtableWrite m c) = none →
      Completes (exec (.mtable h) s) fun t => EngineTo s t h 4 rest ∧
        (t.hearth h).store = mtableWrite v.store c ∧ (t.hearth h).kilns = v.kilns) ∧
    (∀ f toSpace, s.headStarts h 4 0x24 e rest → regroupKind v.store c = some (f, toSpace) →
      regroupInRange v.store c f toSpace = true → s.readsUe h [(c.params, 64), (c.aux, 64)] = none →
      v.needs (fun m => regroupWrite m c f toSpace) = none →
      Completes (exec (.regroup h) s) fun t => EngineTo s t h 4 rest ∧
        (t.hearth h).store = regroupWrite v.store c f toSpace ∧ (t.hearth h).kilns = v.kilns) ∧
    (let k := x.hitch + 2 + x.side
     s.headStarts h 4 0x25 e rest → spliceOk v.store x = true → (s.members (s.core h e.core).cord).contains x.dst = true →
     spliceInRange v.store x = true → v.win.splice = none → idle k → x.dst ≠ h →
     s.readsUe h [(x.params, 64)] = none → s.spliceUe h x = none →
     (1 ≤ (s.hitch k).count → Completes (exec (.splice h) s) fun t =>
       (t.hearth x.dst).store = spliceWrite v.store (s.hearth x.dst).store x ∧ t.queueOf h 4 = rest ∧
       (t.hearth h).win.splice = some ⟨e.cmd, e.core, true, none⟩ ∧ (t.hearth h).store = v.store ∧
       (t.hitch k).count = (s.hitch k).count - 1 ∧ (∀ g, g ≠ h → g ≠ x.dst → t.hearth g = s.hearth g)) ∧
     ((s.hitch k).count = 0 → Completes (exec (.splice h) s) fun t =>
       (t.hitch k).queue = [⟨.splice h, 1⟩] ∧ (t.hearth h).win.splice = some ⟨e.cmd, e.core, false, none⟩ ∧
       t.queueOf h 4 = e :: rest ∧ (t.hearth x.dst).store = (s.hearth x.dst).store)) ∧
    (∀ sp, v.win.splice = some sp → sp.written = true → sp.ue = none →
      let y := readSplice (cmdMem sp.cmd) 0
      idle (y.hitch + y.side) → quiet → (s.hitch (y.hitch + y.side)).count < 0xFFFFFFFF →
      Completes (exec (.spliceAcked h true) s) fun t =>
        (t.hearth h).win.splice = none ∧
        (t.hitch (y.hitch + y.side)).count = (s.hitch (y.hitch + y.side)).count + 1 ∧
        (∀ z, z ≠ y.hitch + y.side → t.hitch z = s.hitch z) ∧ (t.hearth h).store = v.store) ∧
    (s.headStarts h 4 0x26 e rest → x.flags < 2 → x.row0 = 0 → x.nrows = 0 → x.parity = 0 → x.hitch = 0 → x.dst = 0 →
      x.rsv = 0 → x.dstHalo = 0 → x.rsv2 = 0 → addrOk x.params 64 64 = true → xb.ok = true →
      s.readsUe h [(x.params, 64)] = none →
      let k := xb.haloHitch + 2 + x.flags % 2
      idle k → quiet → (s.hitch k).count < 0xFFFFFFFF →
      Completes (exec (.release h) s) fun t =>
        t.queueOf h 4 = rest ∧ (t.hitch k).count = (s.hitch k).count + 1 ∧ (∀ z, z ≠ k → t.hitch z = s.hitch z) ∧
        (t.hearth h).win.present = v.win.present.filter (· ≠ (haloId x.params xb, x.flags % 2)) ∧
        (t.hearth h).store = v.store)

/-- For every Hitch that is no poisoned one and every signal of n that does not overflow: in counter mode the granted
waiters are the front of the queue, the new count is the old one plus n less what they asked for, and the waiter
that is left at the head asks for more than is left; in barrier mode all waiters are granted and the target is
taken from the count if the count reaches the target, else none. A poisoned Hitch grants none. A signal beyond
0xFFFF_FFFF leaves the count at or below it and sets overflow. TRYWAIT succeeds exactly on a Hitch that is no
barrier, is not poisoned, has no waiter and has the count, from which it takes n. (R426, R427, R428, R429) -/
def Obligations.WaitersAreServedInOrder : Prop :=
  ∀ (x : Hitch) (n : Nat),
    let y := (x.signal n).1
    let g := (x.signal n).2
    (x.poison = false → x.barrier = false → x.count + n ≤ 0xFFFFFFFF →
      ∃ front, x.queue = front ++ y.queue ∧ g = front.map Waiter.agent ∧
        x.count + n = y.count + (front.map Waiter.n).sum ∧ (∀ w, y.queue.head? = some w → y.count < w.n) ∧
        y.ovf = x.ovf) ∧
    (x.poison = false → x.barrier = true → x.count + n ≤ 0xFFFFFFFF →
      (x.target ≤ x.count + n → g = x.queue.map Waiter.agent ∧ y.queue = [] ∧ y.count + x.target = x.count + n) ∧
      (x.count + n < x.target → g = [] ∧ y.queue = x.queue ∧ y.count = x.count + n) ∧
      y.barrier = true ∧ y.target = x.target) ∧
    (x.poison = true → g = [] ∧ y.queue = x.queue) ∧
    (0xFFFFFFFF < x.count + n → y.count ≤ 0xFFFFFFFF ∧ y.ovf = true) ∧
    ((x.tryWait n).2 = true ↔ x.poison = false ∧ x.barrier = false ∧ x.queue = [] ∧ n ≤ x.count) ∧
    ((x.tryWait n).2 = true → (x.tryWait n).1 = { x with count := x.count - n }) ∧
    ((x.tryWait n).2 = false → (x.tryWait n).1 = x)

/-- On a counter with no waiter and no job that waits on it: a host's HITCH_COUNT sets the count; HITCH_SIGNAL adds its
value, nothing for 0; HITCH_TRY takes its value and reads as succeeded, or changes nothing and reads as failed; the
same operations of a source that may use the Hitch do the same, where a core that waits nowhere may also WAIT (it
takes the value, or joins the queue) and ARM (a set, or a barrier of 1 to 65,535 parties); HITCH_CANCEL takes its
source's one entry out, and a core whose WAIT it was runs again at the same pc. HITCH_POISON_CLEAR of a poisoned
Hitch logs a POISON_CLEAR entry and leaves count 0, no poison, no barrier; else it changes nothing. Every other
Hitch and all else is unchanged, but that a job notes what it signalled. (R426, R427, R429, R431, R433, R505) -/
def Obligations.HitchCommandsAct : Prop :=
  ∀ (s : State) (k d : Nat) (w : Word),
    let x := s.hitch k
    let gets := fun (i : Instr) (y : Hitch) => Completes (exec i s) fun t => HitchTo s t k y
    let others := x.tryOk.filter fun y => y != d
    (s.idleHitch k →
      (s.mayWrite d (hitchAddr k 0) → gets (.hitchCount d k w) { x with count := w.toNat }) ∧
      (s.mayWrite d (hitchAddr k 4) →
        (w = 0 → exec (.hitchSignal d k w) s = .next s) ∧
        (x.count + w.toNat ≤ 0xFFFFFFFF → gets (.hitchSignal d k w) { x with count := x.count + w.toNat })) ∧
      (s.mayWrite d (hitchAddr k 8) →
        (w.toNat ≤ x.count → gets (.hitchTry d k w) { x with count := x.count - w.toNat, tryOk := d :: others }) ∧
        (x.count < w.toNat → gets (.hitchTry d k w) { x with tryOk := others })) ∧
      (∀ src n, agentOk src = true → s.live = true → s.mayUse k src = true →
        (x.count + n ≤ 0xFFFFFFFF → Completes (exec (.hitchOperationArrival k src (.signal n)) s) fun t =>
          t.hitch k = { x with count := x.count + n } ∧ (∀ i, i ≠ k → t.hitch i = s.hitch i) ∧
          { t with hitches := s.hitches, jobs := s.jobs } = s) ∧
        (src = .host d →
          (n ≤ x.count → gets (.hitchOperationArrival k src (.tryWait n))
            { x with count := x.count - n, tryOk := d :: others }) ∧
          gets (.hitchOperationArrival k src (.setCount n)) { x with count := n % 4294967296 }) ∧
        (∀ h c, src = .core h c → (s.core h c).waitsOn ≠ some k →
          (∀ e ∈ s.hitches, ∀ w ∈ e.2.queue, w.agent ≠ src) →
          (n ≤ x.count → gets (.hitchOperationArrival k src (.wait n)) { x with count := x.count - n }) ∧
          (x.count < n → gets (.hitchOperationArrival k src (.wait n)) { x with queue := [⟨src, n⟩] }) ∧
          gets (.hitchOperationArrival k src (.setCount n)) { x with count := n % 4294967296 } ∧
          (n < 2147483648 → gets (.hitchOperationArrival k src (.arm n)) { x with count := n }) ∧
          (0 < n → n ≤ 65535 → gets (.hitchOperationArrival k src (.arm (2147483648 + n)))
            { x with count := 0, target := n, barrier := true })))) ∧
    (∀ src n, hitchOk k = true → agentOk src = true → x.queue = [⟨src, n⟩] → x.poison = false → x.barrier = false →
      Completes (exec (.hitchCancel k src) s) fun t =>
        t.hitch k = { x with queue := [] } ∧ (∀ i, i ≠ k → t.hitch i = s.hitch i) ∧
        (∀ h c, src = .core h c → (s.core h c).waitsOn = some k →
          t.core h c = { s.core h c with waitsOn := none, state := 1 }) ∧
        (∀ h c, src ≠ .core h c → t.core h c = s.core h c) ∧
        { t with hitches := s.hitches, hearths := s.hearths } = s) ∧
    (hitchOk k = true → s.mayWrite d (hitchAddr k 12) →
      (x.poison = true → Completes (exec (.hitchPoisonClear d k) s) fun t =>
        t.hitch k = { x with poison := false, count := 0, barrier := false } ∧
        (∀ i, i ≠ k → t.hitch i = s.hitch i) ∧
        t.trust = { s.trust with chg := s.trust.chg.append s.time d 0x107 (.ofNat 32 k) 0 0 } ∧
        { t with hitches := s.hitches, trust := s.trust } = s) ∧
      (x.poison = false → exec (.hitchPoisonClear d k) s = .next s))

/-- BANK_WAKE takes a bank out of retention and counts a wake, and does nothing to a bank that is on. REGION_TEST, once
at each multiple of 15 µs and when the test is enabled and idle, takes the next region in order under test; a
region that passes unused (its test stopped, its bank off) ends its slot at once, and the last region ends a pass.
REGION_TEST_DONE without failing rows ends the slot; an uncorrectable word that its copies find in a Hearth store
is remembered and counted; a failing row of a Hearth bank with a spare left takes one, and is counted and logged; a
failure elsewhere stops that memory's test, keeps the region on its spare and sets its service cause. SCRUB_LINE,
at the channel's pace, of an error-free line moves to the next line, and from the last to the first with one pass
more, and counts the link errors of its read; a correctable word is counted once for its channel and once for the
module; an uncorrectable one is remembered and counted. That a slot comes once at a multiple of its period, and the
pace of SCRUB_LINE, are the model's choice (assumption 4). (assumption 4, R33, R440, R441, R442, R443, R444, R446,
R447, R448, R463) -/
def Obligations.MemoryTestAndScrubAct : Prop :=
  ∀ s : State,
    (∀ h b, hearthOk h = true → b < 16 →
      let p := s.physOf h
      let v := s.phy p
      (v.retention.look (fun _ => 0) b = 1 → Completes (exec (.bankWake h b) s) fun t =>
        t.phy p = { v with retention := v.retention.put (fun _ => 0) b 0
                           bankUse := v.bankUse.put (fun _ => 0) b s.time } ∧
        (∀ q, q ≠ p → t.phy q = s.phy q) ∧ t.reg 0x27002C = counted (s.reg 0x27002C) ∧
        (∀ x, x ≠ 0x27002C → t.reg x = s.reg x) ∧ { t with phys := s.phys, regs := s.regs } = s) ∧
      (v.retention.look (fun _ => 0) b ≠ 1 → exec (.bankWake h b) s = .next s)) ∧
    (let r := s.mem.region
     let due := s.time % 15000 = 0 ∧ s.came.look (fun _ => 0) 4 < s.time
     s.live = true → (s.reg 0x2A0004).getLsbD 0 = true → s.mem.running = none →
      (¬ due → exec .regionTest s = .next s) ∧
      (due → Completes (exec .regionTest s) fun t =>
        t.mem.region = (r + 1) % 65536 ∧
        t.mem.running = (if s.regionSkipped r = true then none else some r) ∧
        t.mem.passes = (if s.regionSkipped r = true ∧ r = 65535 then s.mem.passes + 1 else s.mem.passes) ∧
        t.mem.stopped = s.mem.stopped ∧ t.mem.channels = s.mem.channels ∧
        { t with mem := s.mem, phys := s.phys, regs := s.regs, came := s.came } = s)) ∧
    (∀ r, s.mem.running = some r → s.regionUe r = [] →
      (∀ h w, r < 49152 → s.logicalOf (r / 1024) = some h → w < 512 →
        Completes (exec (.regionTestDone ⟨[], ⟨[], [w]⟩⟩) s) fun t =>
          (t.hearth h).storeUe.contains (r % 1024 * 512 + w) = true ∧ t.mem.running = none ∧
          t.reg 0x2A0014 = counted (s.reg 0x2A0014) ∧ (∃ x ∈ t.flt.log.entries, x.kind = 0x10)) ∧
      (Completes (exec (.regionTestDone ⟨[], ⟨[], []⟩⟩) s) fun t =>
        t.mem.running = none ∧ t.mem.passes = (if r = 65535 then s.mem.passes + 1 else s.mem.passes) ∧
        t.mem.stopped = s.mem.stopped ∧ t.mem.region = s.mem.region ∧ { t with mem := s.mem } = s) ∧
      (∀ b, b < 16 → r < 49152 → (s.phy (r / 1024)).spareRows.look (fun _ => 0) b < 8 →
        Completes (exec (.regionTestDone ⟨[b], ⟨[], []⟩⟩) s) fun t =>
          t.mem.running = none ∧ t.reg 0x2A0018 = counted (s.reg 0x2A0018) ∧
          (t.phy (r / 1024)).spareRows.look (fun _ => 0) b = (s.phy (r / 1024)).spareRows.look (fun _ => 0) b + 1 ∧
          (t.flt.log.entries.take 2).map LogEntry.kind = [0x12, 0x11] ∧ t.flt.service = s.flt.service) ∧
      (∀ rows, rows ≠ [] → 49152 ≤ r → Completes (exec (.regionTestDone ⟨rows, ⟨[], []⟩⟩) s) fun t =>
        t.mem.running = none ∧ t.mem.stopped.contains (memInstance r) = true ∧ t.mem.redirected.contains r = true ∧
        t.reg 0x2A0018 = counted (s.reg 0x2A0018) ∧ t.flt.service.testBit 5 = true ∧ t.phys = s.phys)) ∧
    (∀ ch, channelOk ch = true → s.live = true → (s.reg 0x2A0004).getLsbD 1 = true →
      s.flt.retiredCh.contains ch = false →
      (s.time < (s.channel ch).scrubFrom → ∀ x, exec (.scrubLine ch x) s = .next s) ∧
      (let v := s.channel ch
      let word := fun i => ch * (chBytes / 8) + v.scrubLine * 8 + i
      let from' := s.time + scrubGap
      v.scrubFrom ≤ s.time → (∀ i, i < 8 → s.dramUe.contains (word i) = false) →
      (∀ n, Completes (exec (.scrubLine ch ⟨⟨[], []⟩, none, n⟩) s) fun t =>
        (v.scrubLine + 1 ≠ chLines → t.channel ch = { v with scrubLine := v.scrubLine + 1, scrubFrom := from' }) ∧
        (v.scrubLine + 1 = chLines →
          t.channel ch = { v with scrubLine := 0, scrubFrom := from', passes := v.passes + 1, seen := [] }) ∧
        t.reg 0x2A0024 = .ofNat 32 (min ((s.reg 0x2A0024).toNat + n) 0xFFFFFFFF) ∧
        (∀ x, x ≠ 0x2A0024 → t.reg x = s.reg x) ∧
        (∀ c, c ≠ ch → t.channel c = s.channel c) ∧ { t with mem := s.mem, regs := s.regs } = s) ∧
      (∀ i, i < 8 → (v.seen.filter fun e => e.1 == (v.scrubLine * 8 + i) / 8192).length < 2 →
        Completes (exec (.scrubLine ch ⟨⟨[i], []⟩, none, 0⟩) s) fun t =>
        (t.channel ch).corrected = v.corrected + 1 ∧ (t.channel ch).uncorrectable = v.uncorrectable ∧
        t.reg 0x2A001C = counted (s.reg 0x2A001C)) ∧
      (∀ i, i < 8 → v.ueBlocks.length < 3 →
        Completes (exec (.scrubLine ch ⟨⟨[], [i]⟩, none, 0⟩) s) fun t =>
          t.dramUe.contains (word i) = true ∧ (t.channel ch).uncorrectable = v.uncorrectable + 1 ∧
          (t.channel ch).corrected = v.corrected ∧ t.reg 0x2A0020 = counted (s.reg 0x2A0020) ∧ t.dram = s.dram)))

/-- ROTATION_SLOT with a spare, 2 ms after the last one, puts the next Hearth of the tested set under test, and moves
its job to the first spare if it has one. MIGRATION_COPY_DONE, 149.5 µs after the slot began, exchanges the places
of the logical Hearth and the spare's and counts a migration; COPY_BACK_DONE, 1,929.5 µs after it began, exchanges
them back and ends the slot. A passed structural test, at the earliest 680 µs after the slot began, records its
time and goes on to the copy back, or ends the slot; a failed one whose job moved quarantines the Hearth. IDLE_TEST
of a Hearth that may be tested alone puts it under test. A passed Kiln test, after 500 µs, makes the Kiln READY and
records its time; a failed one at start-up on a Hearth without a job logs HEARTH_TEST_FAIL, and the Kiln is under
test again for recovery. CORE_TEST counts a run; a bad core is halted, and logged as CORE_FAULT. (R472, R474, R476,
R478, R479, R480, R481, R489) -/
def Obligations.HearthTestsAct : Prop :=
  ∀ s : State, s.live = true →
    (∀ q qs p again, (s.reg 0x280004).getLsbD 1 = true → s.flt.slot = none → s.spares = q :: qs →
      s.nextTested = some (p, again) → s.rotationDue = true →
      let h := (s.logicalOf p).getD p
      let busy := (s.hearth h).job.isSome
      Completes (exec .rotationSlot s) fun t =>
        (let moved := if busy = true then some (h, q) else none
         let phase := if busy = true then 0 else 1
         t.flt.slot = some { hearth := p, start := s.time, moved := moved, phase := phase }) ∧
        t.flt.lastSlot = some p ∧ t.flt.log = s.flt.log ∧ { t with flt := s.flt } = s) ∧
    (∀ sl h q, s.flt.slot = some sl → sl.moved = some (h, q) →
      (let own := (s.logicalOf q).getD q
       sl.phase = 0 → sl.start + 149500 ≤ s.time → (s.phy q).service = 0 → own ≠ h → Completes (exec .migrationCopyDone s) fun t =>
        t.physOf h = s.physOf own ∧ t.physOf own = s.physOf h ∧
        (∀ x, x ≠ h → x ≠ own → t.physOf x = s.physOf x) ∧ t.flt.slot = some { sl with phase := 1 } ∧
        t.reg 0x280048 = counted (s.reg 0x280048) ∧ { t with place := s.place, flt := s.flt, regs := s.regs } = s) ∧
      (let own := (s.logicalOf sl.hearth).getD sl.hearth
       sl.phase = 2 → sl.start + 1929500 ≤ s.time → own ≠ h → Completes (exec .copyBackDone s) fun t =>
        t.flt.slot = none ∧ t.physOf h = s.physOf own ∧ t.physOf own = s.physOf h ∧ t.hearths = s.hearths ∧
        t.jobs = s.jobs)) ∧
    (∀ sl vec, s.flt.slot = some sl → sl.phase = 1 → hearthOk sl.hearth = true →
      (s.flt.alone.find? fun e => e.1 == sl.hearth) = none →
      let p := sl.hearth
      (sl.start + 680000 ≤ s.time → Completes (exec (.structuralTestDone p true vec) s) fun t =>
        (t.phy p).tested = some s.time ∧ (t.phy p).service = (s.phy p).service ∧
        (t.phy p).kilns = (s.phy p).kilns ∧ (∀ x, x ≠ p → t.phy x = s.phy x) ∧
        t.flt.slot = (if sl.moved.isSome then some { sl with phase := 2 } else none) ∧
        { t with flt := s.flt, phys := s.phys } = s) ∧
      (sl.start + 180000 ≤ s.time → sl.moved.isSome = true → Completes (exec (.structuralTestDone p false vec) s) fun t =>
        (t.phy p).service = 3 ∧ t.flt.slot = none ∧ t.place = s.place ∧
        (∃ x ∈ t.flt.log.entries, x.kind = 3 ∧ x.old = 2))) ∧
    (∀ p h, hearthOk p = true → s.logicalOf p = some h → s.spares = [] → (s.phy p).service = 0 → s.tested p = true →
      s.hearthFree h = true → (s.phy p).idleSince + 2000000 ≤ s.time → Completes (exec (.idleTest p) s) fun t =>
        t.underTest p = true ∧ t.flt.log = s.flt.log ∧ { t with flt := s.flt } = s) ∧
    (∀ h k vec, kilnOk h k = true → (s.phy h).kilns.look (fun _ => 0) k = 1 →
      ((s.phy h).testFrom.look (fun _ => 0) k + 500000 ≤ s.time →
        Completes (exec (.kilnTestDone h k true vec) s) fun t =>
        (t.phy h).kilns.look (fun _ => 0) k = 0 ∧ (t.phy h).kilnTests.look (fun _ => 0) k = s.time + 1 ∧
        (∀ j, j ≠ k → (t.phy h).kilns.look (fun _ => 0) j = (s.phy h).kilns.look (fun _ => 0) j) ∧
        (∀ x, x ≠ h → t.phy x = s.phy x)) ∧
      (∀ lh, (s.phy h).why.look (fun _ => 0) k = 1 → (s.phy h).service = 0 → (s.phy h).suspects = [] →
        s.flt.slot = none → s.logicalOf h = some lh → (s.hearth lh).job = none → (s.hearth lh).zeroing = false →
        Completes (exec (.kilnTestDone h k false vec) s) fun t =>
          (t.phy h).kilns.look (fun _ => 0) k = 1 ∧ (t.phy h).testing = 3 ∧ (t.phy h).service = 1 ∧
          (∃ x ∈ t.flt.log.entries, x.kind = 3 ∧ x.old = 1 ∧ x.new = .ofNat 32 vec))) ∧
    (∀ h c, coreOk h c = true → (s.reg 0x280004).getLsbD 0 = true →
      (Completes (exec (.coreTest h c true) s) fun t =>
        t.reg 0x28004C = counted (s.reg 0x28004C) ∧ (∀ x, x ≠ 0x28004C → t.reg x = s.reg x) ∧
        { t with regs := s.regs } = s) ∧
      ((s.hearth h).job = none → (s.phy (s.physOf h)).suspects = [] → (s.phy (s.physOf h)).service = 0 →
        s.flt.slot = none → Completes (exec (.coreTest h c false) s) fun t =>
        (t.core h c).state = 3 ∧ (t.core h c).faulted = true ∧ (t.phy (s.physOf h)).service = 2 ∧
        (∃ x ∈ t.flt.log.entries, x.kind = 2 ∧ x.addr = .ofNat 32 (s.physOf h + c * 256))))

/-- Through a trust block that is not writing the flash: OWN_OPEN empties the staging area and receives, TRUST_OWN_DATA
appends a word up to 3,040 bytes and marks any more, OWN_VERIFY starts and OWN_VERIFY_DONE reports the
verification, keeping a record that passes; OWN_COMMIT starts the write of a verified record and OWN_CANCEL
discards it. OWNER_RECORD_CURRENT makes the staged record current, in the copy of the flash that did not hold the
old one; a failed read-back leaves the old one current with result 9. ATT_REQ signs a quote with the identity key
or fails without one, ATTEST_READY makes it valid and tells the owner, a nonce write makes it invalid. FLT_LOG_SEL
and TRUST_CHG_SEL copy the entry of the sequence selected if it is held. (R490, R495, R501, R502, R503, R506) -/
def Obligations.OwnerRecordsAttestationAndLogs : Prop :=
  ∀ (s : State) (d : Nat) (w : Word),
    let u := s.trust
    let gets := fun (i : Instr) (v : Trust) => exec i s = .next { s with trust := v }
    (s.mayWrite d 0x290004 → s.flashBusy = false →
      gets (.ownOpen d) { u with ownState := 1, ownStaged := [], ownOver := false, ownCommit := false } ∧
      gets (.ownCancel d) { u with ownState := 0, ownStaged := [], ownOver := false, ownCommit := false } ∧
      (u.ownState = 1 → gets (.ownVerify d) { u with ownState := 2 }) ∧
      (u.ownState = 3 → gets (.ownCommit d) { u with ownState := 2, ownCommit := true })) ∧
    (s.mayWrite d 0x290014 → u.ownState = 1 →
      (u.ownStaged.length < 3040 → gets (.trustOwnData d w) { u with ownStaged := u.ownStaged ++ natLe w.toNat 4 }) ∧
      (3040 ≤ u.ownStaged.length → gets (.trustOwnData d w) { u with ownOver := true })) ∧
    (s.live = true → u.ownState = 2 → u.ownCommit = false →
      let r := s.ownResult
      let st := if r = 1 then 3 else 0
      let kept := if r = 1 then u.ownStaged else []
      gets .ownVerifyDone { u with ownResult := r, ownState := st, ownStaged := kept, ownOver := false }) ∧
    (s.live = true → s.flashBusy = true → u.ownStaged.length = 3040 →
      (Completes (exec (.ownerRecordCurrent true) s) fun t =>
        t.trust.owner = readOwner u.ownStaged s.freeCopy ∧ t.trust.ownState = 0 ∧ t.trust.ownResult = 1 ∧
        t.trust.ownStaged = [] ∧ t.trust.ownCommit = false ∧
        t.flash.lookList erasedByte (ownerCopyAt s.freeCopy) 3040 = u.ownStaged ∧
        (∀ a, a < ownerCopyAt s.freeCopy ∨ ownerCopyAt s.freeCopy + 65536 ≤ a →
          t.flash.look erasedByte a = s.flash.look erasedByte a) ∧
        (∃ x ∈ t.trust.chg.entries, x.kind = 0x105 ∧ x.old = .ofNat 32 u.owner.host)) ∧
      (Completes (exec (.ownerRecordCurrent false) s) fun t =>
        t.trust = { u with ownState := 0, ownResult := 9, ownStaged := [], ownCommit := false } ∧
        (∀ a, a < ownerCopyAt s.freeCopy ∨ ownerCopyAt s.freeCopy + 65536 ≤ a →
          t.flash.look erasedByte a = s.flash.look erasedByte a))) ∧
    (s.mayWrite d 0x290004 → u.attBusy = false →
      (u.idKey = none → gets (.attReq d) { u with attFailed := true }) ∧
      (∀ k, u.idKey = some k →
        let body := s.quoteBody
        let sig := Config.ecdsaSign k body
        let q := body ++ hashBytes sig.1 ++ hashBytes sig.2
        gets (.attReq d) { u with attBusy := true, attValid := false, attFailed := false, quote := q })) ∧
    (s.live = true → u.attBusy = true → Completes (exec .attestReady s) fun t =>
      t.trust = { u with attBusy := false, attValid := true } ∧ Queued s t u.owner.host 0x1202 0x29 0) ∧
    (∀ i, i < 8 → s.mayWrite d (0x290060 + 4 * i) → Completes (exec (.trustAttNonce d i w) s) fun t =>
      t.reg (0x290060 + 4 * i) = w ∧ t.trust = { u with attValid := false } ∧
      (∀ x, x ≠ 0x290060 + 4 * i → t.reg x = s.reg x) ∧ { t with regs := s.regs, trust := s.trust } = s) ∧
    (s.mayWrite d 0x280010 → Completes (exec (.fltLogSel d w) s) fun t =>
      t.flt.log.entries = s.flt.log.entries ∧ t.flt.log.sel = w ∧
      (s.flt.log.selStatus w.toNat = 1 → t.flt.log.copied = s.flt.log.entries.find? fun e => e.seq == w.toNat) ∧
      { t with flt := s.flt } = s) ∧
    (s.mayWrite d 0x290024 → Completes (exec (.trustChgSel d w) s) fun t =>
      t.trust.chg.entries = u.chg.entries ∧ t.trust.chg.sel = w ∧
      (u.chg.selStatus w.toNat = 1 → t.trust.chg.copied = u.chg.entries.find? fun e => e.seq == w.toNat) ∧
      { t with trust := u } = s)

/-- FW_START in ROM runs an image of the flash that passes its checks and logs it, and goes to recovery on any other.
In recovery: REC_OPEN zeroes Hearth stores 0 to 7 and opens staging; TRUST_REC_DATA stores a word in them in order
and marks what is beyond 33,554,432 bytes; REC_VERIFY starts and REC_VERIFY_DONE reports the check of the staged
image; of a verified image REC_BOOT runs it as recovered, and REC_PROGRAM with REC_PROGRAM_DONE writes it to the
flash and runs it, or reports 9; REC_OWNER installs a staged record that passes its checks and reports the result.
(R493, R497, R498, R501, R505, R506) -/
def Obligations.BootAndRecovery : Prop :=
  ∀ (s : State) (d : Nat) (w : Word),
    let u := s.trust
    let gets := fun (i : Instr) (v : Trust) => exec i s = .next { s with trust := v }
    let runs := fun (i : Instr) (img : List Byte) (rec' : Bool) => Completes (exec i s) fun t =>
      t.trust.boot = 2 ∧ t.trust.recovered = rec' ∧ t.trust.fwVersion = leAt img 16 4 ∧
      t.trust.fwHash = Config.sha384 (fwRange img) ∧ (t.trust.chg.entries.head?.map LogEntry.kind) = some 0x10A ∧
      (∀ h, h < 8 → (t.hearth h).store = []) ∧ (∀ h, 8 ≤ h → t.hearth h = s.hearth h) ∧
      t.trust.owner = u.owner ∧ t.jobs = s.jobs
    (s.live = true → u.boot = 0 →
      let img := s.flashBytes 0 (leAt (s.flashBytes 0 256) 8 4)
      (fwResult u.owner.minFw img = 1 → runs .fwStart img false) ∧
      (fwResult u.owner.minFw img ≠ 1 → gets .fwStart { u with boot := 1 })) ∧
    (u.boot = 1 →
      (s.mayWrite d 0x290300 →
        (u.recBusy = false → Completes (exec (.recOpen d) s) fun t =>
          t.trust = { u with recOpen := true, recCount := 0, recOver := false, recVerified := false } ∧
          (∀ h, h < 8 → (t.hearth h).store = []) ∧ (∀ h, 8 ≤ h → t.hearth h = s.hearth h) ∧
          { t with trust := u, hearths := s.hearths } = s) ∧
        (u.recOpen = true → u.recBusy = false →
          gets (.recVerify d) { u with recOpen := false, recBusy := true }) ∧
        (u.recVerified = true → u.recBusy = false →
          runs (.recBoot d) s.recImage true ∧
          gets (.recProgram d) { u with recBusy := true, recProgramming := true }) ∧
        (u.ownState = 1 → u.recProgramming = false →
          (s.ownResult = 1 → Completes (exec (.recOwner d) s) fun t =>
            t.trust.owner = readOwner u.ownStaged s.freeCopy ∧ t.trust.recResult = 1 ∧ t.trust.ownResult = 1 ∧
            t.trust.ownState = 0 ∧ t.trust.recVerified = false) ∧
          (s.ownResult ≠ 1 →
            let r := s.ownResult
            gets (.recOwner d) { u with ownState := 0, ownStaged := [], ownOver := false, recResult := r, ownResult := r }))) ∧
      (s.mayWrite d 0x290304 → u.recOpen = true →
        let n := u.recCount
        (n < 33554432 → n % 4 = 0 → Completes (exec (.trustRecData d w) s) fun t =>
          t.trust = { u with recCount := n + 4 } ∧
          (t.hearth (n / 4194304)).store.readLe (n % 4194304) 4 = w.toNat ∧
          (∀ a, a < n % 4194304 ∨ n % 4194304 + 4 ≤ a → (t.hearth (n / 4194304)).store.look zeroByte a =
            (s.hearth (n / 4194304)).store.look zeroByte a) ∧
          (∀ h, h ≠ n / 4194304 → t.hearth h = s.hearth h)) ∧
        (33554432 ≤ n → gets (.trustRecData d w) { u with recOver := true })) ∧
      (s.live = true → u.recBusy = true → u.recProgramming = false →
        let r := if u.recOver = true then 8 else fwResult u.owner.minFw s.recImage
        let good := r == 1
        gets .recVerifyDone { u with recResult := r, ownResult := r, recBusy := false, recVerified := good }) ∧
      (s.live = true → u.recProgramming = true →
        runs (.recProgramDone true) s.recImage false ∧
        (u.recCount ≤ 33554432 → ∀ t, exec (.recProgramDone true) s = .next t →
          t.flash.lookList erasedByte 0 u.recCount = s.recImage) ∧
        (Completes (exec (.recProgramDone false) s) fun t =>
          t.trust = { u with recResult := 9, ownResult := 9, recBusy := false, recProgramming := false } ∧
          ∀ a, 33554432 ≤ a → u.recCount ≤ 33554432 → t.flash.look erasedByte a = s.flash.look erasedByte a)))

/-- OUTPUT_FAULT of an output that is judged disables it and logs a new fault; OUTPUT_RETRY of a disabled output whose
land has not just changed, 1 s after it last drove, enables it and clears the fault if the fault is gone, and
leaves it disabled otherwise. SYNC_OUT_PULSE raises the land at a multiple of 1 ms of device time. CC_OPEN_TIMEOUT
of a port that has been down for 500 ms records its fault. Each SMBus read, of a target without a fault, returns
its data and changes nothing else; SMB_TIMEOUT leaves no data and a fault, and the next read clears that fault.
(R488, R537, R538, R539, R540, R541) -/
def Obligations.LandsAndSmbusAct : Prop :=
  ∀ s : State, s.pwr.powered = true →
    let l := s.lands
    let faulty := fun (x : State) (g i : Nat) => x.lands.faults.any fun e => e.1 == g && e.2.1 == i
    (∀ g i kind, outputOk g i = true →
      (s.judged g i kind = true → l.disabled.contains (g, i) = false → faulty s g i = false →
        Completes (exec (.outputFault g i kind) s) fun t =>
          t.lands = { l with
            faults := (g, i, kind) :: l.faults, disabled := (g, i) :: l.disabled
            drove := l.drove.put (fun _ => 0) (g * 256 + i) s.wall } ∧
          t.flt.log.newest 0x32 (.ofNat 32 (g + i * 256)) 0 (.ofNat 32 kind) ∧
          { t with lands := l, flt := s.flt } = s) ∧
      (l.disabled.contains (g, i) = true → s.panelOutFresh g i = false →
        l.drove.look (fun _ => 0) (g * 256 + i) + 1000000000 ≤ s.wall →
        (Completes (exec (.outputRetry g i false) s) fun t =>
          t.lands.disabled.contains (g, i) = false ∧ faulty t g i = false ∧
          (∀ x, x ≠ (g, i) → t.lands.disabled.contains x = l.disabled.contains x) ∧
          { t with lands := l, flt := s.flt, panels := s.panels } = s) ∧
        (Completes (exec (.outputRetry g i true) s) fun t =>
          t.lands = { l with drove := l.drove.put (fun _ => 0) (g * 256 + i) s.wall } ∧
          { t with lands := l, panels := s.panels } = s))) ∧
    (s.live = true → s.time % 1000000 = 0 → l.disabled.contains (0x30, 1) = false →
      (let now := some s.time
       exec .syncOutPulse s = .next { s with lands := { l with syncOut := now } })) ∧
    (∀ d, hostOk d = true → s.live = true → (s.host d).rate = 0 → (s.host d).downSince + 500000000 ≤ s.time →
      faulty s (0x10 + d) 5 = false →
      Completes (exec (.ccOpenTimeout d) s) fun t =>
        t.lands = { l with faults := (0x10 + d, 5, 3) :: l.faults } ∧
        t.flt.log.newest 0x32 (.ofNat 32 (0x10 + d + 5 * 256)) 0 3) ∧
    (let gives := fun (i : Instr) (bs : List Byte) =>
       let data := some bs
       exec i s = .next { s with lands := { l with smbData := data } }
     faulty s 0x34 0 = false →
       gives .smbReadStatus (natLe (s.peek 0 0x2000).toNat 2) ∧ gives .smbReadResetCause (natLe s.pwr.cause 1) ∧
       gives .smbReadService (natLe s.flt.service 1) ∧ gives .smbReadTj (natLe (s16bits s.drg.tj.1) 2) ∧
       gives .smbReadVoltage (natLe s.pwr.vinMv 2) ∧ gives .smbReadCurrent (natLe s.pwr.iinMa 2) ∧
       gives .smbReadPower (natLe s.pwr.inputMw 4) ∧
       gives .smbReadLogSequences (natLe s.flt.log.next 4 ++ natLe s.trust.chg.next 4) ∧
       (∀ e es, s.flt.log.entries = e :: es → gives .smbReadFaultEntry e.bytes) ∧
       (∀ e es, s.trust.chg.entries = e :: es → gives .smbReadChangeEntry e.bytes) ∧
       gives .smbReadInterfaceFaults (natLe s.faultBits 16)) ∧
    (Completes (exec .smbTimeout s) fun t => t.lands.smbData = none ∧ faulty t 0x34 0 = true ∧
      t.lands.disabled = l.disabled ∧ { t with lands := l, flt := s.flt } = s) ∧
    (∀ i ∈ [Instr.smbReadStatus, .smbReadResetCause, .smbReadService, .smbReadTj, .smbReadVoltage, .smbReadCurrent,
        .smbReadPower, .smbReadLogSequences, .smbReadInterfaceFaults],
      Completes (exec i s) fun t => faulty t 0x34 0 = false ∧ t.lands.smbData.isSome = true)

/-- POWER_UP, a fuse that closes again and an over-voltage that ends give power to a module that has no other reason to
stay off, and hold it in a power-on reset; the fuse tries 1 s after its trip or last try. FUSE_TRIP,
VIN_OVERVOLTAGE and SUPPLY_RESET take power, with all state but the flash; RESET_N_ASSERT and SUPPLY_FAULT of a
rail outside 5 % reset the die with their cause and keep the logs of the always-powered domain. MODULE_RESET_END
does nothing while something holds the die, and otherwise starts device time at 0 with the recorded cause, the cap
of the straps and everything else at its reset value. RESET_N_RELEASE and RAIL_RETURN end their holds, and the
times of R536 and R485 run from them. BROWNOUT_ENTER below 10.4 V starts a hold and asks every Hearth for division
by 16; SUPPLY_RECOVER starts its timer and HOLD_END after 10 ms ends and logs it. (R451, R467, R485, R518, R519,
R534, R535, R536) -/
def Obligations.SupplyAndModuleReset : Prop :=
  ∀ s : State,
    let p := s.pwr
    let comesUp := fun (i : Instr) (q : Power) =>
      let first := some 0
      exec i s = .next { s with
        pwr := { q with powered := true, inReset := true, nextCause := first, fresh := false }
        clk := { s.clk with relocking := false } }
    let goesOff := fun (i : Instr) (fuse over' : Bool) => Completes (exec i s) fun t =>
      t.pwr.powered = false ∧ t.live = false ∧ t.pwr.fuseOpen = fuse ∧ t.pwr.overvolt = over' ∧ t.flash = s.flash ∧
      t.hearths = [] ∧ t.dram = [] ∧ t.jobs = [] ∧ t.flt.log.entries = [] ∧ t.trust.chg.entries = [] ∧
      t.pending = s.pending
    let resets := fun (i : Instr) (cause : Nat) => Completes (exec i s) fun t =>
      t.pwr.powered = true ∧ t.pwr.inReset = true ∧ t.pwr.nextCause = some cause ∧ t.flash = s.flash ∧
      t.hearths = [] ∧ t.dram = [] ∧ t.jobs = [] ∧ t.lay = none ∧ t.trust.chg = s.trust.chg ∧ t.pending = s.pending
    (p.powered = false →
      (p.fuseOpen = false → p.overvolt = false → comesUp .powerUp p) ∧
      (p.fuseOpen = true → p.overvolt = false → p.fuseAt + 1000000000 ≤ s.wall →
        comesUp (.fuseRetry false) { p with fuseOpen := false }) ∧
      (p.overvolt = true → p.fuseOpen = false → comesUp .vinOvervoltageClear { p with overvolt := false })) ∧
    (let now := s.wall
     p.fuseOpen = true → p.fuseAt + 1000000000 ≤ s.wall →
       exec (.fuseRetry true) s = .next { s with pwr := { p with fuseAt := now } }) ∧
    (∀ x, p.fuseOpen = false ∨ s.wall < p.fuseAt + 1000000000 → exec (.fuseRetry x) s = .next s) ∧
    (p.powered = true →
      goesOff .fuseTrip true p.overvolt ∧ goesOff .vinOvervoltage p.fuseOpen true ∧
      goesOff .supplyReset p.fuseOpen p.overvolt ∧
      (p.inReset = false →
        resets .resetNAssert 1 ∧
        (∀ t, exec .resetNAssert s = .next t → t.flt.log = s.flt.log ∧ t.pwr.resetNLow = true) ∧
        (∀ rail a b, rail < 3 → (b * 100 < a * 95 ∨ a * 105 < b * 100) → resets (.supplyFault rail a b) 3 ∧
          ∀ t, exec (.supplyFault rail a b) s = .next t → t.pwr.railHold = true ∧
            t.flt.log.newest 0x22 (.ofNat 32 rail) (.ofNat 32 a) (.ofNat 32 b)) ∧
        (∀ rail a b, rail < 3 → a * 95 ≤ b * 100 → b * 100 ≤ a * 105 → exec (.supplyFault rail a b) s = .next s)) ∧
      (p.inReset = true → p.resetNLow = true ∨ s.wall < p.resetNHigh + 1000000 ∨ p.thermalHold = true ∨
        p.railHold = true ∨ s.wall < p.railBack + 100000000 ∨ s.clk.relocking = true → exec .moduleResetEnd s = .next s) ∧
      (p.inReset = true → p.resetNLow = false → p.resetNHigh + 1000000 ≤ s.wall → p.thermalHold = false →
        p.railHold = false → p.railBack + 100000000 ≤ s.wall → s.clk.relocking = false →
        Completes (exec .moduleResetEnd s) fun t =>
          let cap := 60 + 20 * (p.pwrCapPins % 4)
          t.live = true ∧ t.time = 0 ∧ t.pwr.cause = p.nextCause.getD 0 ∧ t.pwr.strapCapW = cap ∧
          t.drg.capW = cap ∧ t.drg.target = cap * 1000 ∧ t.trust.boot ≤ 1 ∧
          (p.recoveryN = false → t.trust.boot = 1) ∧ t.flash = s.flash ∧ t.pending = s.pending ∧
          t.flt = {} ∧ t.trust.chg = {} ∧ t.hearths = [] ∧ t.dram = [] ∧ t.hitches = [] ∧ t.regs = [] ∧ t.hosts = [] ∧
          t.jobs = [] ∧ t.lay = none ∧ t.panels = [] ∧ t.frame = [])) ∧
    (let later := s.wall + 1
     (p.resetNLow = true → exec .resetNRelease s = .next { s with pwr := { p with resetNLow := false, resetNHigh := later } }) ∧
     (p.railHold = true → exec .railReturn s = .next { s with pwr := { p with railHold := false, railBack := later } })) ∧
    (p.resetNLow = false → exec .resetNRelease s = .next s) ∧ (p.railHold = false → exec .railReturn s = .next s) ∧
    (s.live = true →
      (∀ mv, 10400 ≤ mv → exec (.brownoutEnter mv) s = .next s) ∧
      (∀ mv, mv < 10400 → p.holdSince = none → Completes (exec (.brownoutEnter mv) s) fun t =>
        t.pwr.vinMv = mv ∧ t.pwr.holdSince = some s.time ∧ t.pwr.holdLowest = mv ∧ t.reg 0x270034 = counted (s.reg 0x270034) ∧
        (∀ q, q < 48 → (t.phy q).divReq = if (s.phy q).div = 16 then none else some 16)) ∧
      (∀ mv t0, mv < 10400 → p.holdSince = some t0 →
        let low := min p.holdLowest mv
        exec (.brownoutEnter mv) s =
          .next { s with pwr := { p with holdLowest := low, exitTimer := none, vinMv := mv } }) ∧
      (p.holdSince.isSome = true → p.exitTimer = none →
        let now := some s.time
        exec .supplyRecover s = .next { s with pwr := { p with exitTimer := now } }) ∧
      (∀ t0 t1, p.holdSince = some t0 → p.exitTimer = some t1 → t1 + 10000000 ≤ s.time →
        Completes (exec .holdEnd s) fun t =>
          t.pwr = { p with holdSince := none, holdLowest := 0, exitTimer := none } ∧
          t.flt.log.newest 0x25 0 0 (.ofNat 32 p.holdLowest) ∧
          Queued s t s.owner 0x1008 0x27 ((s.time - t0) / 1000)))

/-- A 10 µs monitor window within 1 % clears a clock's suspicion, the first one outside raises it, a second in a row
logs CLOCK_FAULT and, for a clock that is not one Hearth's, begins a relock, which PLL_RELOCK ends and
RELOCK_TIMEOUT, after more than 10 ms, turns into a reset of cause CLOCK. DIVIDER_CHANGE puts a requested divider
in force at a root cycle that is a multiple of 240. A flit that its sender lets go (assumption 214) and that passes
its CRC moves its lane's number on, and is delivered at its destination or held for its next hop; a bad one is
counted and retransmitted before any other, and its eighth failed retry disables half of the link; one that may not
go changes nothing. USB_LINK_UP and USB_LINK_DOWN set and end a link's rate; the loss drops responses and requests
that wait, is counted and logged. (R16, R17, R18, R21, R65, R88, R434, R483, R486, assumption 214) -/
def Obligations.ClocksAndLinksAct : Prop :=
  ∀ s : State, s.live = true →
    (∀ k m, clockOk k = true → s.clk.relocking = false → s.time % 10000 = 0 →
      s.came.look (fun _ => 0) (0x100000 + k) < s.time →
      let rest := s.clk.suspect.filter fun x => x.1 != k
      let seen := s.came.put (fun _ => 0) (0x100000 + k) s.time
      let bad := m * 100 < s.clockKhz k * 99 ∨ s.clockKhz k * 101 < m * 100
      let again := ∃ x ∈ s.clk.suspect, x.1 = k ∧ x.2 + 10000 = s.time
      (¬bad → exec (.clockMonitorWindow k m) s = .next { s with clk := { s.clk with suspect := rest }, came := seen }) ∧
      (bad → ¬again →
        let more := (k, s.time) :: rest
        exec (.clockMonitorWindow k m) s = .next { s with clk := { s.clk with suspect := more }, came := seen }) ∧
      (bad → again → k < 8 → s.jobs = [] → Completes (exec (.clockMonitorWindow k m) s) fun t =>
        t.clk.relocking = true ∧ t.clk.suspect = rest ∧ t.clk.lostLock = s.time ∧
        t.clk.faultTimes = s.time :: s.clk.faultTimes ∧
        (∃ x ∈ t.flt.log.entries, x.kind = 0x21 ∧ x.addr = .ofNat 32 k ∧ x.new = .ofNat 32 m) ∧
        ∀ d, d < 4 → (t.host d).rate = 0)) ∧
    exec .pllRelock s = .next { s with clk := { s.clk with relocking := false } } ∧
    (s.clk.relocking = true → s.clk.lostLock + 10000000 < s.time → Completes (exec .relockTimeout s) fun t =>
      t.pwr.inReset = true ∧ t.pwr.nextCause = some 4 ∧ t.flash = s.flash ∧ t.flt.log = s.flt.log) ∧
    (∀ h, hearthOk h = true →
      let p := s.physOf h
      let v := s.phy p
      (∀ x, v.divReq = some x → s.clk.root % 240 = 0 → Completes (exec (.dividerChange h) s) fun t =>
        t.phy p = { v with div := x, divReq := none } ∧ (∀ q, q ≠ p → t.phy q = s.phy q) ∧
        { t with phys := s.phys } = s) ∧
      (v.divReq = none ∨ s.clk.root % 240 ≠ 0 → exec (.dividerChange h) s = .next s)) ∧
    (∀ l dir c f src dst, linkOk l = true → dir < 2 → c < 3 → nodeOk src = true → nodeOk dst = true →
      (s.link l).halves ≠ 0 → f = (s.link l).nextFlit.look (fun _ => 0) (dir * 3 + c) →
      let lane := dir * 3 + c
      let v := s.link l
      let fails := v.fails.look (fun _ => 0) lane
      let here := (linkEnds l dir).2
      let fit := (src, dst)
      (s.flitLeaves l dir c fit = none → ∀ good, exec (.flitReceive l c ⟨dir, f, src, dst⟩ good) s = .next s) ∧
      (v.replayOf lane = none → v.credits dir c ≠ 0 → 48 ≤ (linkEnds l dir).1 → src = (linkEnds l dir).1 →
        s.flitLeaves l dir c fit = some s) ∧
      (∀ u, s.flitLeaves l dir c fit = some u →
        (Completes (exec (.flitReceive l c ⟨dir, f, src, dst⟩ true) s) fun t =>
          (t.link l).nextFlit.look (fun _ => 0) lane = f + 1 ∧ (t.link l).replayOf lane = none ∧
          (t.link l).fails.look (fun _ => 0) lane = 0 ∧ (t.link l).halves = v.halves ∧
          (t.link l).heldOf lane = (u.link l).heldOf lane ++ (if here = dst then [] else [fit]) ∧
          (∀ x, x ≠ l → t.link x = u.link x) ∧ { t with links := s.links } = s) ∧
        (v.replayOf lane = none → v.retries = [] →
          Completes (exec (.flitReceive l c ⟨dir, f, src, dst⟩ false) s) fun t =>
            (t.link l).replayOf lane = some fit ∧ (t.link l).fails.look (fun _ => 0) lane = 0 ∧
            (t.link l).nextFlit = v.nextFlit ∧ (t.link l).halves = v.halves ∧ (t.link l).held = (u.link l).held ∧
            t.reg 0x280050 = counted (s.reg 0x280050) ∧ { t with links := s.links, regs := s.regs } = s)) ∧
      (v.replayOf lane = some fit → fails = 7 → v.halves = 2 →
        Completes (exec (.flitReceive l c ⟨dir, f, src, dst⟩ false) s) fun t =>
          (t.link l).halves = 1 ∧ t.flt.service.testBit 4 = true ∧
          (∃ x ∈ t.flt.log.entries, x.kind = 0x20 ∧ x.addr = .ofNat 32 l ∧ x.old = 0 ∧ x.new = 1))) ∧
    (∀ d rate flip, hostOk d = true → 1 ≤ rate → rate ≤ 5 → s.clk.relocking = false → s.jobs = [] →
      Completes (exec (.usbLinkUp d rate flip) s) fun t =>
        (t.host d).rate = rate ∧ (t.host d).flip = flip ∧ (t.host d).events = (s.host d).events ∧
        (t.host d).responses = (s.host d).responses ∧ ∀ x, x ≠ d → t.host x = s.host x) ∧
    (∀ d, hostOk d = true → (s.host d).rate ≠ 0 → s.jobs = [] →
      Completes (exec (.usbLinkDown d) s) fun t =>
        let x := s.host d
        let n := min (x.downs + 1) 0xFFFF
        let ended := x.active.map fun (a : Active) => { a with lost := true }
        t.host d = { x with
          rate := 0, responses := [], fence := none, behind := [], downs := n, downSince := s.time, active := ended } ∧
        (∀ e, e ≠ d → t.host e = s.host e) ∧
        t.flt.log.newest 0x31 (.ofNat 32 d) (.ofNat 32 x.rate) 0)

/-- SENSOR_SAMPLE, 10 µs after the last, takes the readings and the input voltage; below 90 °C with no level in effect
it does nothing else, at 95 °C or more (below 105 °C) it enters THERMAL_WARN, and the second sample in a row at 115
°C or more resets the die with cause THERMAL and holds it. DRAUGHT_EPOCH, once per 10 µs, adds the epoch's estimate
to the last ten and to the running millisecond. CORRECTION_UPDATE, once per millisecond, sets the factor to input
power over estimate, rounded and kept within 1 and 1.5, and starts a new millisecond; the draws of the model's free
values are counted beside (assumption 17). TARGET_POWER_UPDATE, once per millisecond, lowers the target by 2 W
under a warning, not below 40 W or its value, and raises it by 2 W below 90 °C up to the cap. DRG_CAP bounds the
cap by 40 W and the straps and logs the write. INPUT_CLAMP above the strap cap clamps and logs; CLAMP_RELEASE ends
the clamp after 10 ms. (R452, R453, R454, R456, R462, R464, R465, R466, assumption 17) -/
def Obligations.DraughtGovernorActs : Prop :=
  ∀ s : State, s.live = true →
    let g := s.drg
    let due := fun (k p : Nat) => s.time % p = 0 ∧ s.came.look (fun _ => 0) k < s.time
    (∀ rs mv, rs.length = 64 → s.sampleDue = true →
      let tj := ({ g with sensors := rs } : Draught).tj.1
      let at' := some s.wall
      let low := if s.pwr.holdSince.isSome = true then min s.pwr.holdLowest mv else s.pwr.holdLowest
      (tj < 1440 → g.warn = false → g.limit = false → exec (.sensorSample rs mv) s = .next { s with
        drg := { g with sensors := rs, hot := 0 }, pwr := { s.pwr with vinMv := mv, sampled := at', holdLowest := low } }) ∧
      (1520 ≤ tj → tj < 1680 → g.warn = false → g.limit = false → Completes (exec (.sensorSample rs mv) s) fun t =>
        t.drg = { g with sensors := rs, hot := 0, warn := true } ∧
        Queued s t s.owner 0x1002 0x27 (s32bits (tj / 16))) ∧
      (1840 ≤ tj → 1 ≤ g.hot → Completes (exec (.sensorSample rs mv) s) fun t =>
        t.pwr.inReset = true ∧ t.pwr.thermalHold = true ∧ t.pwr.nextCause = some 2 ∧
        t.flt.log.entries.head?.map LogEntry.kind = some 0x23)) ∧
    (∀ rs mv, s.sampleDue = false → exec (.sensorSample rs mv) s = .next s) ∧
    (¬due 2 10000 → ∀ as, exec (.draughtEpoch as) s = .next s) ∧
    (¬due 1 1000000 → ∀ mw, exec (.correctionUpdate mw) s = .next s) ∧
    (¬due 3 1000000 → exec .targetPowerUpdate s = .next s) ∧
    (∀ as, due 2 10000 → Completes (exec (.draughtEpoch as) s) fun t =>
      t.drg.recent = (((as.map fun a => g.factor * s.rawEnergy a / 4096).sum / 10 + 15000) :: g.recent).take 10 ∧
      t.drg.estNj = g.estNj + (as.map s.rawEnergy).sum + 150000 ∧ t.drg.sensors = g.sensors ∧ t.drg.target = g.target) ∧
    (∀ mw, due 1 1000000 → Completes (exec (.correctionUpdate mw) s) fun t =>
      (g.estNj ≠ 0 → t.drg.k = max 4096 (min 6144 (divRne (4096 * mw * 1000 : Nat) g.estNj).toNat)) ∧
      4096 ≤ t.drg.k ∧ t.drg.k ≤ 6144 ∧ t.drg.estNj = 0 ∧ t.pwr.inputMw = mw ∧
      { t with drg := g, pwr := s.pwr, came := s.came } = { s with draws := s.draws + 2 }) ∧
    (due 3 1000000 → Completes (exec .targetPowerUpdate s) fun t =>
      (g.warn = true → t.drg.target = min g.target (max 40000 (g.target - 2000))) ∧
      (g.warn = false → g.tj.1 < 1440 → t.drg.target = min (g.capW * 1000) (g.target + 2000)) ∧
      (g.warn = false → 1440 ≤ g.tj.1 → t.drg.target = g.target) ∧ t.drg.capW = g.capW ∧
      { t with drg := g, hosts := s.hosts, regs := s.regs, came := s.came } = s) ∧
    (∀ d w, s.mayWrite d 0x270004 → Completes (exec (.drgCap d w) s) fun t =>
      t.drg.capW = max 40 (min (w.toNat % 256) s.pwr.strapCapW) ∧ t.drg.target = min g.target (t.drg.capW * 1000) ∧
      t.trust.chg.newest 0x101 0x270004 (s.peek d 0x270004) (.ofNat 32 (t.drg.capW + w.toNat / 256 * 256))) ∧
    (∀ mw, (mw ≤ s.pwr.strapCapW * 1000 ∨ g.clampSince.isSome = true →
        exec (.inputClamp mw) s = .next { s with pwr := { s.pwr with inputMw := mw } }) ∧
      (s.pwr.strapCapW * 1000 < mw → g.clampSince = none → Completes (exec (.inputClamp mw) s) fun t =>
        t.drg.clampSince = some s.time ∧ t.drg.overCap = true ∧ t.reg 0x270030 = counted (s.reg 0x270030) ∧
        t.flt.log.newest 0x24 0 (.ofNat 32 (s.pwr.strapCapW * 1000)) (.ofNat 32 mw) ∧
        ∀ q, q < 48 → (t.phy q).divReq = if (s.phy q).div = 16 then none else some 16)) ∧
    (∀ t0, g.clampSince = some t0 → t0 + 10000000 ≤ s.time → Completes (exec .clampRelease s) fun t =>
      t.drg.clampSince = none ∧ t.hearths = s.hearths ∧ t.flt = s.flt)

/-- For a write that reaches a Cord of the active Lay: SESSION_OPEN reports RANGE for a session out of range or with
bad fields, STATE for one that is not free, PORT for a bound port, NO_RESOURCE for a track block beyond the scale
area, and otherwise, with its resources at hand, opens the session and binds its ports; SESSION_CLOSE reports STATE
for one that is not open and closes one without jobs at once. SUBMIT_LC and SUBMIT_BE of a descriptor that passes
admission and waits on no Hitch append a job with the next submission number, of the class of its window or, for an
ingestion job, of its model (assumption 222); one that fails leaves the jobs alone and takes a completion record.
DISP_ABORT answers 0 and ends a queued job, 1 for a running POST job, which stops at its own end, 2 for an ended
one, 3 for one that it does not know. DISP_CQ_SIZE takes a power of two from 64 to 524,288, else 0, and restarts
the ring. (R80, R395, R396, R398, R401, R402, R409, R418, R419, R420, assumption 222) -/
def Obligations.SessionsAndSubmissions : Prop :=
  ∀ (s : State) (d n : Nat) (w : Word) (c : CordCfg), cordOk n = true → s.cordCfg n = some c →
    let i := w.toNat % 2 ^ 20
    let answers := fun (x : Instr) (r : Nat) => Completes (exec x s) fun t =>
      (t.cordRt n).sessResult = .ofNat 32 (i + r * 2 ^ 24) ∧ t.dram = s.dram ∧ t.jobs = s.jobs
    (s.mayWrite d (cordAddr n 4) →
      (c.hasSession i = false ∨ s.sessFieldsOk c i = false → answers (.sessionOpen d n w) 1) ∧
      (c.hasSession i = true → s.sessFieldsOk c i = true →
        (s.sessLe c i 0 1 ≠ 0 → answers (.sessionOpen d n w) 2) ∧
        (s.sessLe c i 0 1 = 0 → (∃ p ∈ s.sessPorts c i, (s.port c.ownerHost p.1).bound = true) →
          answers (.sessionOpen d n w) 3) ∧
        (s.sessLe c i 0 1 = 0 → (∀ p ∈ s.sessPorts c i, (s.port c.ownerHost p.1).bound = false) →
          c.scaleBytes < s.sessLe c i 0x28 4 → answers (.sessionOpen d n w) 4) ∧
        (s.sessLe c i 0 1 = 0 → (∀ p ∈ s.sessPorts c i, (s.port c.ownerHost p.1).bound = false) →
          s.sessLe c i 0x28 4 ≤ c.scaleBytes → (s.sessLe c i 0x44 2 = 0 ∨ (s.freeBlock c).isSome = true) →
          Completes (exec (.sessionOpen d n w) s) fun t =>
            (t.cordRt n).sessResult = .ofNat 32 i ∧ t.sessLe c i 0 1 = 1 ∧
            (∀ p ∈ s.sessPorts c i, (t.port c.ownerHost p.1).bound = true ∧ (t.port c.ownerHost p.1).held = 0) ∧
            t.jobs = s.jobs ∧ t.hearths = s.hearths ∧ t.hitches = s.hitches))) ∧
    (s.mayWrite d (cordAddr n 8) →
      (c.hasSession i = false ∨ s.sessLe c i 0 1 ≠ 1 → answers (.sessionClose d n w) 5) ∧
      (c.hasSession i = true → s.sessLe c i 0 1 = 1 → (∀ j ∈ s.jobs, j.cord ≠ n ∨ j.session ≠ i) →
        Completes (exec (.sessionClose d n w) s) fun t =>
          (t.cordRt n).sessResult = .ofNat 32 i ∧ t.sessLe c i 0 1 = 0 ∧ t.jobs = s.jobs ∧
          ∀ p, p < 16 → (t.port c.ownerHost p).bound = true → (t.port c.ownerHost p).cord = n →
            (t.port c.ownerHost p).session ≠ i)) ∧
    (let r := s.cordRt n
     let submits := fun (x : Instr) (lc : Bool) (s1 : State) (bs : List Byte) =>
       let j := s1.classOf c (readJob n c.ownerHost lc bs)
       (s.draining n = true → Completes (exec x s) fun t => t.jobs = s.jobs ∧ t.nextSub = s.nextSub) ∧
       (s.draining n = false → s1.admission c j bs = none → j.startEn = false → (∀ q ∈ s.jobs, q.sub ≠ s.nextSub) →
         Completes (exec x s) fun t =>
           (∃ q, t.jobs = s.jobs ++ [q] ∧ q.sub = s.nextSub ∧ q.phase = 0 ∧ q.waitOk = true ∧ q.lc = j.lc ∧
             q.cord = n ∧ q.kind = j.kind ∧ q.session = j.session ∧ q.deadline = j.deadline ∧ q.tag = j.tag) ∧
           t.nextSub = (if s.nextSub = 2 ^ 32 - 1 then 1 else s.nextSub + 1) ∧
           (t.cordRt n).accepted = r.accepted + 1 ∧ t.hearths = s.hearths) ∧
       (∀ st, s.draining n = false → s1.admission c j bs = some st → Completes (exec x s) fun t =>
           t.jobs = s.jobs ∧ t.nextSub = s.nextSub ∧ (t.cordRt n).accepted = r.accepted ∧
           (s.reg (cordAddr n 0x1C) ≠ 0 → (t.cordRt n).cqWr = (r.cqWr + 1) % 2 ^ 32))
     let lc := r.stagedLc.put (fun _ => 0) 15 w
     let be := r.stagedBe.put (fun _ => 0) 15 w
     (s.mayWrite d (cordAddr n 0x13C) →
       submits (.submitLc d n w) true (s.setCordRt n { r with stagedLc := lc }) (windowBytes lc)) ∧
     (s.mayWrite d (cordAddr n 0x17C) →
       submits (.submitBe d n w) false (s.setCordRt n { r with stagedBe := be }) (windowBytes be))) ∧
    (s.mayWrite d (cordAddr n 0x10) →
      (∀ j, s.job? w.toNat = some j → j.cord = n → j.phase = 0 → j.doneEn = false →
        Completes (exec (.dispAbort d n w) s) fun t =>
          (t.cordRt n).abortResult = 0 ∧ t.job? w.toNat = none ∧ t.ended.contains (w.toNat, n) = true) ∧
      (∀ j, s.job? w.toNat = some j → j.cord = n → j.phase = 2 → j.kind = 5 → j.ringWait = false →
        Completes (exec (.dispAbort d n w) s) fun t =>
          (t.cordRt n).abortResult = 1 ∧ t.job? w.toNat = some { j with phase := 3, aborting := true }) ∧
      (s.job? w.toNat = none → Completes (exec (.dispAbort d n w) s) fun t =>
        (t.cordRt n).abortResult = (if s.ended.contains (w.toNat, n) then 2 else 3) ∧ t.jobs = s.jobs)) ∧
    (s.mayWrite d (cordAddr n 0x1C) → Completes (exec (.dispCqSize d n w) s) fun t =>
      (∀ k, 6 ≤ k → k ≤ 19 → i = 2 ^ k → t.reg (cordAddr n 0x1C) = .ofNat 32 i) ∧
      ((∀ k, 6 ≤ k → k ≤ 19 → i ≠ 2 ^ k) → t.reg (cordAddr n 0x1C) = 0) ∧
      (t.cordRt n).cqWr = 0 ∧ t.reg (cordAddr n 0x24) = 0 ∧
      (∀ x, x ≠ cordAddr n 0x1C → x ≠ cordAddr n 0x24 → t.reg x = s.reg x) ∧
      { t with regs := s.regs, cords := s.cords } = s)

/-- JOB_DISPATCH with a brown-out hold or a relock changes nothing, and where no job is queued, aborted or held it
changes no register, job or memory. The only queued job of a Cord, a latency-critical NET job that the scan does
not pass over and for which R405 finds Hearths without its model's image, takes them and begins to load.
WEIGHT_SHARE_LOADED of a Hearth of it puts the first bytes of the model's resident image in the share, tags it and
counts a reload; after the last one the job runs. TEARDOWN_ZERO_DONE zeroes everything of a Hearth above its weight
share and its accumulators. (R217, R404, R405, R417, R467, R486) -/
def Obligations.JobsStartAndLoad : Prop :=
  ∀ s : State,
    (∀ n, cordOk n = true →
      (s.pwr.holdSince.isSome = true ∨ s.clk.relocking = true → exec (.jobDispatch n) s = .next s) ∧
      ((∀ j ∈ s.jobs, j.aborting = false ∧ (j.cord = n → j.queued = false)) → (s.cordRt n).heldSince = none →
        Completes (exec (.jobDispatch n) s) fun t =>
          { t with cords := s.cords } = s ∧ ∀ m, t.cordRt m = s.cordRt m) ∧
      (∀ c j hs, s.cordCfg n = some c → s.jobs = [j] → j.cord = n → j.inLc = true → j.phase = 0 → j.kind = 1 →
        j.chained = false → s.pwr.holdSince = none → s.clk.relocking = false → s.skips c j = false →
        s.sessCache.contains j.session = true → s.pickHearths c j = some hs → hs ≠ [] →
        (∀ h ∈ hs, (s.hearth h).tag ≠ some (n, s.jobModelId c j)) →
        Completes (exec (.jobDispatch n) s) fun t =>
          (∃ q, t.jobs = [q] ∧ q.sub = j.sub ∧ q.phase = 1 ∧ q.hearths = hs ∧ q.loaded = [] ∧
            q.firstStart = some s.time ∧ q.cuts = j.stretchCuts hs.length) ∧
          (∀ h ∈ hs, (t.hearth h).job = some j.sub ∧ (t.hearth h).store = (s.hearth h).store) ∧
          (∀ h, h ∉ hs → t.hearth h = s.hearth h) ∧ t.dram = s.dram)) ∧
    (∀ j h c m, hearthOk h = true → s.job? j.sub = some j → j.phase = 1 → h ∈ j.hearths → h ∉ j.loaded → s.cordCfg j.cord = some c →
      s.jobModel c j = some m → s.dramUe = [] →
      (j.loaded.length + 1 ≠ j.hearths.length → Completes (exec (.weightShareLoaded j.sub h) s) fun t =>
        (t.hearth h).tag = some (c.cord, m.modelId) ∧ (t.hearth h).job = (s.hearth h).job ∧
        (∀ i, i < min m.need c.weightShare →
          (t.hearth h).store.look zeroByte i = (s.residentImage c m (min m.need c.weightShare)).getD i 0) ∧
        (∀ i, min m.need c.weightShare ≤ i →
          (t.hearth h).store.look zeroByte i = (s.hearth h).store.look zeroByte i) ∧
        t.reg (cordAddr j.cord 0xC018) = counted (s.reg (cordAddr j.cord 0xC018)) ∧
        (t.job? j.sub).map Job.loaded = some (h :: j.loaded) ∧ (t.job? j.sub).map Job.phase = some 1 ∧
        (∀ g, g ≠ h → t.hearth g = s.hearth g) ∧ t.dram = s.dram) ∧
      (j.loaded.length + 1 = j.hearths.length → j.kind = 1 → Completes (exec (.weightShareLoaded j.sub h) s) fun t =>
        (t.job? j.sub).map Job.phase = some 2 ∧ (t.hearth h).tag = some (c.cord, m.modelId))) ∧
    (∀ h, hearthOk h = true →
      ((s.hearth h).zeroing = false → exec (.teardownZeroDone h) s = .next s) ∧
      (∀ n c, (s.hearth h).zeroing = true → s.cordOfHearth h = some n → s.cordCfg n = some c →
        Completes (exec (.teardownZeroDone h) s) fun t =>
          (t.hearth h).zeroing = false ∧
          (∀ a, a < c.weightShare → (t.hearth h).store.look zeroByte a = (s.hearth h).store.look zeroByte a) ∧
          (∀ a, c.weightShare ≤ a → a < 4194304 → (t.hearth h).store.look zeroByte a = 0) ∧
          (∀ k, k < 4 → (t.kiln h k).acc = []) ∧ (∀ g, g ≠ h → t.hearth g = s.hearth g) ∧ t.jobs = s.jobs))

/-- SLICE_END of a running best-effort job lets it go on when nothing is queued or its slice is not over, and otherwise
stops it for a pre-emption when the head of the queue lacks Hearths. BUDGET_EXPIRY makes a running latency-critical
job whose budget is used up best-effort. JOB_SAVE of a stopped job at its point takes free save records; SAVE_END
of a one-Hearth job frees the Hearth and keeps its context, and RESTORE gives it back and the job runs on. SWAP,
where every resident job has been blocked for 50 µs and a saved runnable one lacks Hearths, stops the job; with no
resident job it changes nothing. JOB_RETIRE of a job at its retirement point ends it and frees its Hearths, and of
any other changes nothing. (R203, R210, R407, R409, R411, R412, R414, R415, R416) -/
def Obligations.JobsGiveWayAndEnd : Prop :=
  ∀ (s : State) (j : Job), s.job? j.sub = some j →
    let after := fun (i : Instr) (p : Job → Prop) => Completes (exec i s) fun t => ∃ q, t.job? j.sub = some q ∧ p q
    ((∀ q ∈ s.jobs, q.cord = j.cord → q.queued = false) ∨ j.sliceOver s.time = false →
      exec (.sliceEnd j.sub) s = .next s) ∧
    (∀ c q, s.jobs = [j, q] → j.inLc = false → j.phase = 2 → j.kind = 1 → j.hearths ≠ [] → j.sliceStart + j.sliceLeft ≤ s.time →
      q.sub ≠ j.sub → q.cord = j.cord → q.inLc = false → q.phase = 0 → q.mustHave = [] → 1 ≤ q.count →
      s.cordCfg j.cord = some c → s.skips c q = false → s.freeFor c q = [] →
      (∀ h ∈ s.members j.cord, (s.hearth h).zeroing = false) → s.noStarts = false →
      after (.sliceEnd j.sub) fun x => x.phase = 3 ∧ x.stopWhy = 3 ∧ x.preempts = j.preempts + 1) ∧
    (j.inLc = true → j.resident = true → j.budgetNs ≤ j.budgetUsed s.time →
      after (.budgetExpiry j.sub) fun x =>
        (let left := s.sliceNs
         x = { j with demoted := true, sliceStart := s.time, sliceLeft := left })) ∧
    (∀ c, s.cordCfg j.cord = some c →
      (∀ over' bound, j.phase = 3 → j.aborting = false → s.atPoint j = true → j.hearths.length ≤ (s.freeRecords c).length →
        after (.jobSave j.sub over' bound) fun x =>
          x.phase = 4 ∧ x.records = (s.freeRecords c).take j.hearths.length ∧ x.hearths = j.hearths) ∧
      (∀ h r, j.phase = 4 → j.hearths = [h] → j.records = [r] → j.stopWhy ≠ 2 → (s.hearth h).storeUe = [] →
        Completes (exec (.saveEnd j.sub) s) fun t =>
          (t.hearth h).job = none ∧ t.saved.look (fun _ => {}) (c.cord * 65536 + r) = s.hearth h ∧
          (t.hearth h).store = (s.hearth h).store ∧ (∀ g, g ≠ h → t.hearth g = s.hearth g) ∧
          (t.job? j.sub).map Job.phase = some 5) ∧
      (∀ h r, j.phase = 6 → j.hearths = [h] → j.records = [r] → s.dramUe = [] →
        let old := s.saved.look (fun _ => {}) (c.cord * 65536 + r)
        old.win.waiting = [] → Completes (exec (.restore j.sub) s) fun t =>
          (t.hearth h).job = some j.sub ∧ (t.hearth h).queues = old.queues ∧ (t.hearth h).hist = old.hist ∧
          (∀ g, g ≠ h → t.hearth g = s.hearth g) ∧
          (t.job? j.sub).map Job.phase = some 2 ∧ (t.job? j.sub).map Job.records = some []) ∧
      (∀ q, cordOk j.cord = true → s.jobs = [j, q] → q.sub ≠ j.sub → q.cord = j.cord → j.inLc = false →
        s.jobBlocked j = true → (∃ t0, j.blockedSince = some t0 ∧ t0 + 50000 ≤ s.time) →
        s.savedRunnable q = true → s.pickHearths c q = none → s.noStarts = false →
        s.shortfall c j = 0 → after (.swap j.cord) fun x => x.phase = 3 ∧ x.stopWhy = 2 ∧ x.hearths = j.hearths) ∧
      (cordOk j.cord = true → (∀ x ∈ s.jobs, x.cord = j.cord → x.resident = false) →
        exec (.swap j.cord) s = .next s) ∧
      (s.atRetirement j = true → s.appendsMatch j = true → j.doneEn = false →
        Completes (exec (.jobRetire j.sub) s) fun t =>
          t.job? j.sub = none ∧ (∀ h ∈ j.hearths, (t.hearth h).job = none) ∧ t.ended.contains (j.sub, j.cord) = true)) ∧
    (s.atRetirement j = false → exec (.jobRetire j.sub) s = .next s)

/-- SLOT_DECISION changes nothing while the slot is not due or another due slot comes first; jobs of the session that
stand at their retirement points retire before it decides; a mode N, U or G is chosen only if its predicted time
meets the deadline or the session is forced; a decision that chose one and submitted its chain keeps that chain's
jobs and adds the slot, with its deadline and mode. A due slot whose list is P alone, with no frame to present and
no record ring, is SKIPPED: the slot number moves on and the skip and the fallback are counted. FILL_FORCE sets or
ends a session's force and ignores what is out of range. FILL_REC_SIZE takes a power of two from 64 to 524,288,
else 0, and restarts the ring. FILL_WINDOW_END, at a multiple of 100 ms, compares the fallbacks with the threshold
and starts a new window. (R251, R261, R262, R263, R265, R270, R272, R273, R275) -/
def Obligations.FillGovernorActs : Prop :=
  ∀ (s : State) (n : Nat) (c : CordCfg), cordOk n = true → s.cordCfg n = some c →
    (∀ i, s.slotDue c i = false ∨ s.dueBefore (s.dueKey c i) = true → exec (.slotDecision n i) s = .next s) ∧
    (∀ i, s.slotDue c i = true → s.dueBefore (s.dueKey c i) = false →
      let r := s.retireReady c i
      let x := r.fillCtx c i
      let e := (r.countDelay (x.now - r.decisionPoint c i)).evalList c x
      (e.mode = 1 ∨ e.mode = 2 ∨ e.mode = 3 → e.pred ≤ x.due ∨ x.forced = true) ∧
      ((r.fillLe c i 54 1).testBit 2 = false → e.mode = 1 ∨ e.mode = 2 ∨ e.mode = 3 → e.subs ≠ [] →
        Completes (exec (.slotDecision n i) s) fun t =>
          t.jobs = e.st.jobs ∧ t.hearths = e.st.hearths ∧ t.hitches = e.st.hitches ∧
          ∃ sl, t.slots = e.st.slots ++ [sl] ∧ sl.cord = n ∧ sl.session = i ∧ sl.k = x.k ∧ sl.deadline = x.due ∧
            sl.mode = e.mode ∧ sl.subs = e.subs) ∧
      ((r.fillLe c i 54 1).testBit 2 = false → x.list = [(4, 0)] → x.pIn = false → x.forced = false →
        r.fillLe c i 0 1 ≠ 1 → (r.fillRt n).size = 0 → Completes (exec (.slotDecision n i) s) fun t =>
          t.fillLe c i 48 4 = (x.k + 1) % 2 ^ 32 ∧ t.jobs = r.jobs ∧ t.slots = r.slots ∧
          t.reg 0x220000 = counted (r.reg 0x220000) ∧
          t.reg (cordAddr n 0xD030) = counted (r.reg (cordAddr n 0xD030)) ∧
          (t.fillRt n).fallbacks = (r.fillRt n).fallbacks + 1)) ∧
    (∀ d w, s.mayWrite d (cordAddr n 0xD004) →
      let i := w.toNat % 2 ^ 20
      let mode := w.toNat / 2 ^ 20 % 8
      let scale := w.toNat / 2 ^ 24 % 8
      let count := w.toNat / 2 ^ 27
      let f := s.fillRt n
      let others := f.forces.filter fun x => x.session != i
      let gives := fun (l : List Force) => Completes (exec (.fillForce d n w) s) fun t =>
        t.fillRt n = { f with forces := l } ∧ (∀ m, m ≠ n → t.fillRt m = s.fillRt m) ∧
        { t with fills := s.fills, trust := s.trust } = s
      (w.getLsbD 23 = true ∨ c.hasSession i = false → gives f.forces) ∧
      (w.getLsbD 23 = false → c.hasSession i = true →
        (mode = 0 → gives others) ∧
        (mode ≠ 0 → (4 < mode ∨ count = 0 ∨ (scale = 0 ∧ mode = 2) ∨ (scale ≠ 0 ∧ mode ≠ 2)) → gives f.forces) ∧
        (1 ≤ mode → mode ≤ 4 → count ≠ 0 → (scale ≠ 0 ↔ mode = 2) →
          gives (others ++ [⟨i, mode, scale, count⟩])))) ∧
    (∀ d w, s.mayWrite d (cordAddr n 0xD00C) → Completes (exec (.fillRecSize d n w) s) fun t =>
      (t.fillRt n).wr = 0 ∧ t.reg (cordAddr n 0xD014) = 0 ∧
      (∀ k, 6 ≤ k → k ≤ 19 → w.toNat % 2 ^ 20 = 2 ^ k → (t.fillRt n).size = 2 ^ k) ∧
      ((∀ k, 6 ≤ k → k ≤ 19 → w.toNat % 2 ^ 20 ≠ 2 ^ k) → (t.fillRt n).size = 0) ∧
      (t.fillRt n).forces = (s.fillRt n).forces ∧ t.jobs = s.jobs ∧
      ∀ x ∈ t.slots, x.cord = n → x.record = none) ∧
    (let f := s.fillRt n
     let th := (s.reg (cordAddr n 0xD01C)).toNat % 65536
     let due := s.time % 100000000 = 0 ∧ s.came.look (fun _ => 0) (0x310000 + n) < s.time
     (¬due → exec (.fillWindowEnd n) s = .next s) ∧ (due → Completes (exec (.fillWindowEnd n) s) fun t =>
      (let hit := decide (th ≠ 0 ∧ th ≤ f.fallbacks)
       t.fillRt n = { f with saturated := hit, fallbacks := 0 }) ∧
      (th ≠ 0 → th ≤ f.fallbacks → Queued s t c.ownerHost 0x0901 (0x10 + n) f.fallbacks) ∧
      t.jobs = s.jobs ∧ t.hearths = s.hearths))

/-- A valid command at the head of a history mover's queue, with no uncorrectable word in memory, completes and leaves
the queue. HINFO writes its 64 bytes. HREAD delivers each frame from the history area, the history block or, for
one that does not exist, zeros, and the number of those missing in its status word. HAPPEND of one frame puts it in
its slot of the history block and of the history area, and counts a ring append, or a prefix append with its flag.
WFETCH within the model's spill image copies it from the spill window; one beyond it is refused with cause 3. A
command that fails the checks of R232 is refused with cause 1. HIST_WINDOW_END, at a multiple of 100 µs, records
the window's share and enters or leaves the ingestion hold. (R224, R225, R227, R228, R229, R230, R231, R232, R242,
R244) -/
def Obligations.HistoryMoverActs : Prop :=
  ∀ (s : State) (h : Nat) (e : QEntry) (rest : List QEntry) (j : Job) (c : CordCfg),
    hearthOk h = true → s.hearthJob h = some j → s.cordCfg j.cord = some c →
    let v := s.hearth h
    let x := v.hist
    let k := readHist e.cmd
    let refuses := fun (i : Instr) (cause : Nat) => exec i s = .next (s.refuseCmd h 6 e cause)
    (histCmdOk c j x k = false →
      (s.headStarts h 6 0x30 e rest → refuses (.hinfo h) 1) ∧ (s.headStarts h 6 0x31 e rest → refuses (.hread h) 1) ∧
      (s.headStarts h 6 0x32 e rest → refuses (.happend h) 1) ∧ (s.headStarts h 6 0x33 e rest → refuses (.wfetch h) 1)) ∧
    (histCmdOk c j x k = true →
      (s.headStarts h 6 0x30 e rest → Completes (exec (.hinfo h) s) fun t =>
        EngineTo s t h 6 rest ∧
        (t.hearth h).store = v.store.putList zeroByte k.addr (x.record ++ natLe x.stretch 4 ++ natLe c.frame 4 ++
          natLe c.historyAt 4 ++ natLe (if x.visible c = 0 then 0xFFFFFFFF else x.areaSlot 1) 4 ++ natLe x.p 4 ++
          natLe x.q 4 ++ natLe 0 8)) ∧
      (s.dramUe = [] → v.storeUe = [] →
        (s.headStarts h 6 0x31 e rest → Completes (exec (.hread h) s) fun t =>
          EngineTo s t h 6 rest ∧
          (t.hearth h).store.readLe k.status 4 =
            (((List.range k.count).filter fun i => (k.source c x i).isNone).length) % 2 ^ 32 ∧
          (∀ i b, i < k.count → b < c.frame →
            let a := k.addr + i * c.frame + b
            (a < k.status ∨ k.status + 4 ≤ a) → (t.hearth h).store.look zeroByte a =
              match k.source c x i with
              | some (.inl p) => v.store.look zeroByte (p + b)
              | some (.inr q) => s.cordByte c (q + b)
              | none => 0) ∧
          (∀ a, (a < k.status ∨ k.status + 4 ≤ a) → (a < k.addr ∨ k.addr + k.count * c.frame ≤ a) →
            (t.hearth h).store.look zeroByte a = v.store.look zeroByte a)) ∧
        (s.headStarts h 6 0x32 e rest → k.count = 1 → Completes (exec (.happend h) s) fun t =>
          let src := v.store.lookList zeroByte k.addr c.frame
          let b := leAt x.record 0 4
          let area := c.areaAddr ((x.steps + x.p) % 8)
          t.queueOf h 6 = rest ∧ (∀ g, g ≠ h → t.hearth g = s.hearth g) ∧ t.jobs = s.jobs ∧
          (k.flags = 1 →
            (let q := x.q + 1
             (t.hearth h).hist = { x with q := q }) ∧ (t.hearth h).store = v.store ∧
            t.dram = (s.putCordBytes c (c.frameAddr b x.stretch (x.prefixLen + x.q)) src).dram) ∧
          (k.flags = 0 →
            (let p := x.p + 1
             (t.hearth h).hist = { x with p := p }) ∧
            (t.hearth h).store = v.store.putList zeroByte area src ∧
            t.dram = (s.putCordBytes c (c.frameAddr b x.stretch (x.ringSlot ((x.head + x.p) % max 1 (x.cap c))))
              src).dram)) ∧
        (∀ m, s.headStarts h 6 0x33 e rest → s.jobModel c j = some m →
          (spillBytes c m < k.off + k.bytes → refuses (.wfetch h) 3) ∧
          (k.off + k.bytes ≤ spillBytes c m → Completes (exec (.wfetch h) s) fun t =>
            EngineTo s t h 6 rest ∧ (t.hearth h).store =
              v.store.putList zeroByte k.addr (s.cordBytes c (c.regionBase 5 + s.spillStart c m + k.off) k.bytes))))) ∧
    (∀ n pct, cordOk n = true → (s.cordCfg n).isSome = true →
      (s.time % 100000 ≠ 0 ∨ s.time ≤ s.came.look (fun _ => 0) (0x300000 + n) → exec (.histWindowEnd n pct) s = .next s) ∧
      (s.time % 100000 = 0 → s.came.look (fun _ => 0) (0x300000 + n) < s.time →
        Completes (exec (.histWindowEnd n pct) s) fun t =>
      let p := min pct 100
      let hold := (s.reg (cordAddr n 0xC004)).toNat
      let need := ∃ j ∈ s.jobs, j.cord = n ∧ j.lc = true ∧ j.demoted = false ∧
        ∃ g, s.cordCfg n = some g ∧ s.sessLe g j.session 0x44 2 ≠ 0
      t.reg (cordAddr n 0xC008) = .ofNat 32 p ∧ t.jobs = s.jobs ∧ t.hearths = s.hearths ∧
      (s.holdOn n = true → (t.holdOn n = true ↔ hold % 128 ≤ p + 10 ∧ need)) ∧
      (s.holdOn n = false → (t.holdOn n = true ↔ hold % 128 ≤ p ∧ hold / 128 % 2 = 0 ∧ need))))

/-- DRAW_ASSEMBLY waits while batches are out; with a bad vertex index the job fails with cause 2; for the last draw,
if numbers and list memory suffice, the bins grow, the primitives are counted and rendering begins. TILE_RENDER
waits its turn, and starts nothing while the job stops; a tile with fragments is loaded and its batches made, and
one without is resolved at once. NEXT without a pass is refused; it replies with a boundary that its core has to
take, or that a stop between draws or tiles gives it, with the end of the pass, or with the next vertex or fragment
batch in the lowest free slot, whose batch is then handed out. A NEXT without work waits, and a VDONE or RETIRE
behind such NEXTs goes on. VDONE stores the shaded vertices in list memory, and RETIRE blends its batch into the
tile and counts its lanes; each frees its slot, and is refused when no such batch is out. (R282, R283, R284, R287,
R291, R292, R294, R297, R298, R305) -/
def Obligations.RasterUnitsAct : Prop :=
  ∀ (s : State) (j : Job) (c : CordCfg) (sub : Nat),
    let p := j.pass
    let stretch := fun (t : State) (n k : Nat) (x : Stretch) =>
      ∃ y, t.job? n = some y ∧ y.pass.stretches.getD k {} = x
    (s.rasterJob sub = some (j, c) →
      let b := s.drawRecord c j p.draw
      let n := leAt b 16 4
      let ready := p.phase == 1 && p.waited && p.stretches.all fun x => x.todo.isEmpty && x.out.isEmpty
      let bad := (List.range n).any fun i => decide (leAt b 12 4 ≤ s.elemIndex c b i)
      let r0 : Binned := { counts := p.counts, chunks := p.chunks, seq := p.nextSeq, used := p.listUsed }
      let r := (List.range (triCount (leAt b 0 1) n)).foldl (s.binElem c j b) r0
      let q0 : Pass := { p with draw := p.draw + 1, nextSeq := r.seq, listUsed := r.used, counts := r.counts
                                chunks := r.chunks, prims := p.prims ++ r.prims.reverse }
      let q := q0.drawBoundary.beginRender j false
      (ready = false → exec (.drawAssembly sub) s = .next s) ∧
      (ready = true → s.dramUe = [] → bad = true →
        exec (.drawAssembly sub) s = .next ((s.failRaster j 2).segmentEnd c sub)) ∧
      (ready = true → s.dramUe = [] → bad = false → r.seq ≤ 4294967295 → r.used ≤ passListBytes j.desc →
        p.draw + 1 = passDraws j.desc → q.segmentOver = false → Completes (exec (.drawAssembly sub) s) fun t =>
          (∃ y, t.job? sub = some y ∧ y.pass = q) ∧
          t.reg (cordAddr j.cord 0xE008) =
            .ofNat 32 (min ((s.reg (cordAddr j.cord 0xE008)).toNat + r.prims.length) 0xFFFFFFFF) ∧
          t.hearths = s.hearths) ∧
      (∀ k, let x := p.stretches.getD k {}
        let h := j.hearths.getD k 0
        let may := j.phase == 2 && p.phase == 2 && x.tile.isNone && !s.owesBoundary j k &&
          decide (k < j.hearths.length) && !s.paused h
        (may = false → exec (.tileRender sub k) s = .next s) ∧
        (∀ i rest, may = true → k < p.stretches.length → x.tiles = i :: rest → s.dramUe = [] →
          (s.hearth h).storeUe = [] →
          let tile := (s.loadTile j c h (i % passTW j.desc) (i / passTW j.desc)).1.rasterise j.desc p.prims
          (tile.finished = false → Completes (exec (.tileRender sub k) s) fun t =>
            stretch t sub k { x with tiles := rest, tile := some tile } ∧ t.dram = s.dram ∧
            t.hearths = s.hearths) ∧
          (tile.finished = true → rest ≠ [] → j.stretchOf h = k → Completes (exec (.tileRender sub k) s) fun t =>
            stretch t sub k { x with tiles := rest, bound := [1, 1] } ∧
            ∃ y, t.job? sub = some y ∧ y.pass.rendered = (tile.ty * passTW j.desc + tile.tx) :: p.rendered)))) ∧
    (∀ h e rest, hearthOk h = true →
      let refuses := fun (i : Instr) => exec i s = .next (s.refuseCmd h 7 e 1)
      let starts := fun (op : Nat) (ns : List QEntry) => s.queueOf h 7 = ns ++ e :: rest ∧
        (∀ y ∈ ns, (y.cmd.getD 0 0).toNat = 0x40) ∧ (e.cmd.getD 0 0).toNat = op ∧ s.mayStart h 7 e = true
      (s.hearthPass h = none →
        (starts 0x40 [] → refuses (.rtuNext h)) ∧ (∀ ns, starts 0x41 ns → refuses (.rtuRetire h)) ∧
        (∀ ns, starts 0x42 ns → refuses (.rtuVdone h))) ∧
      (s.hearthPass h = some (j, c) →
        let k := j.stretchOf h
        let x := p.stretches.getD k {}
        let a := leAt e.cmd 4 4
        let m := (s.hearth h).store
        let slot := fun i => passBatch j.desc + 8192 * i
        let replies := fun (at' kind : Nat) (gets : Stretch) => Completes (exec (.rtuNext h) s) fun t =>
          t.queueOf h 7 = rest ∧ (t.hearth h).store.readLe a 8 = at' + kind * 2 ^ 32 ∧
          (∀ y, (y < a ∨ a + 8 ≤ y) → (kind = 2 ∨ kind = 3 ∨ y < at' ∨ at' + 8192 ≤ y) →
            (t.hearth h).store.look zeroByte y = m.look zeroByte y) ∧
          stretch t j.sub k gets ∧ t.dram = s.dram ∧ ∀ g, g ≠ h → t.hearth g = s.hearth g
        (starts 0x40 [] → k < p.stretches.length →
          (x.bound.getD e.core 0 ≠ 0 → replies 0 2 { x with bound := x.bound.set e.core 0 }) ∧
          (x.bound.getD e.core 0 = 0 → p.phase = 3 → replies 0 3 x) ∧
          (x.bound.getD e.core 0 = 0 → p.phase ≠ 3 → j.phase = 3 → p.stretchIdle k = true → replies 0 2 x) ∧
          (x.bound.getD e.core 0 = 0 → p.phase ≠ 3 → (j.phase = 3 → p.stretchIdle k = false) →
            x.freeSlot (passSlots j.desc) = none → (∀ y ∈ rest, (y.cmd.getD 0 0).toNat ≠ 0x40) →
            exec (.rtuNext h) s = .next s) ∧
          (∀ i b l, x.bound.getD e.core 0 = 0 → p.phase ≠ 3 → (j.phase = 3 → p.stretchIdle k = false) →
            x.freeSlot (passSlots j.desc) = some i → s.dramUe = [] →
            (let r := s.drawRecord c j p.draw
             x.todo = b :: l → leAt r 20 2 ≤ 512 → leAt r 10 2 ≤ 256 → b.mask ≤ 16 → slot i < 2 ^ 32 →
              replies (slot i) 0 { x with todo := l, out := { b with slot := i } :: x.out }) ∧
            (∀ t f, x.todo = [] → x.tile = some t → t.todo = b :: l →
              p.prims.find? (fun f => f.seq == b.item) = some f → f.vtx.length = 3 →
              leAt (s.drawRecord c j f.draw) 20 2 ≤ 512 → slot i < 2 ^ 32 →
              (let t' : TileRt := { t with todo := l, out := { b with slot := i } :: t.out }
               replies (slot i) 1 { x with tile := some t' }))))  ∧
        (∀ ns, starts 0x42 ns → (x.out.find? fun b => slot b.slot == a) = none → refuses (.rtuVdone h)) ∧
        (∀ b ns, starts 0x42 ns → (x.out.find? fun b => slot b.slot == a) = some b →
          (s.hearth h).storeUe = [] → Completes (exec (.rtuVdone h) s) fun t =>
            t.queueOf h 7 = ns ++ rest ∧ (t.hearth h).store = m ∧
            t.dram = (s.putCordBytes c (p.vtxBase + 64 * b.item) (m.lookList zeroByte (a + 4672) (64 * b.mask))).dram ∧
            stretch t j.sub k { x with out := x.out.filter fun y => y.slot != b.slot }) ∧
        (∀ ns, starts 0x41 ns →
          (x.tile = none → refuses (.rtuRetire h)) ∧
          (∀ t, x.tile = some t →
            ((t.out.find? fun b => slot b.slot == a) = none → refuses (.rtuRetire h)) ∧
            (∀ b f, (t.out.find? fun b => slot b.slot == a) = some b → (s.hearth h).storeUe = [] →
              p.prims.find? (fun f => f.seq == b.item) = some f →
              let t1 := t.blendBatch j.desc m f b a
              let t2 := { t1 with out := t1.out.filter fun y => y.slot != b.slot }
              let t3 := if t2.todo.isEmpty && t2.out.isEmpty then t2.advance j.desc t2.later else t2
              let n := ((List.range 16).filter fun l => b.mask.testBit l).length
              let moved := fun (u : State) => u.queueOf h 7 = ns ++ rest ∧ (u.hearth h).store = m ∧ u.dram = s.dram ∧
                stretch u j.sub k { x with tile := some t3 } ∧
                u.reg (cordAddr j.cord 0xE010) =
                  .ofNat 32 (min ((s.reg (cordAddr j.cord 0xE010)).toNat + n) 0xFFFFFFFF)
              (t3.finished = false → Completes (exec (.rtuRetire h) s) moved) ∧
              (t3.finished = true → ∃ u : State, moved u ∧
                exec (.rtuRetire h) s = .next ((u.resolveTile j c h t3).segmentEnd c j.sub)))))))

/-- A stopping vision job waits at its tile boundary. A vision job with a bad descriptor fails with cause 1, a post job
with cause 2. With no uncorrectable word in memory, a tile that is not the job's last completes: a FEATURES tile
appends the records of the corners kept, as far as 8,192 features go, and counts those kept and dropped; a STEREO
or FLOW tile writes the records of its pixels row by row and counts low texture, mismatches, search edges and
clamped predictions. A valid POST job writes its header and its boxes, counts them, and retires with its signal.
Suppression emits, in order, at most max_out entries, of which no later one overlaps an earlier one of its class by
more than the limit, and leaves out no other entry before it is full. (R307, R310, R311, R312, R314, R317, R319,
R325, R328, R329, R331) -/
def Obligations.VisionAndPostAct : Prop :=
  (∀ (s : State) (sub : Nat) (j : Job) (c : CordCfg), s.dramUe = [] → (∀ h, (s.hearth h).storeUe = []) →
    let d := j.desc
    let r := visTile d j.vis.tile
    let up := fun (t : State) o n => t.reg (cordAddr j.cord o) =
      .ofNat 32 (min ((s.reg (cordAddr j.cord o)).toNat + n) 0xFFFFFFFF)
    let vis := fun (t : State) (v : VisionRt) => ∃ y, t.job? sub = some y ∧ y.vis = v
    (s.engineJob sub 4 = some (j, c) →
      (j.phase = 3 → exec (.visionTile sub) s = .next s) ∧
      (j.phase = 2 → j.vis.tile = 0 → s.visionOk c j = false →
        exec (.visionTile sub) s = .next (s.visFail j 1 0x83)) ∧
      (j.phase = 2 → j.vis.tile ≠ 0 ∨ s.visionOk c j = true → j.vis.tile + 1 < visTiles d →
        (let i := readImg d 8
         let img := s.intensities c i j (r.grow d 16 16)
         let kept := tileCorners img d r
         let n := min kept.length (8192 - j.vis.features)
         let bytes := (kept.take n).flatMap (featureBytes img (s.cordBytes c (leAt d 64 8) 1024))
         visOp d = 1 → Completes (exec (.visionTile sub) s) fun t =>
          vis t ⟨j.vis.tile + 1, j.vis.features + n, j.vis.dropped + (kept.length - n)⟩ ∧ up t 0xF004 1 ∧
          up t 0xF008 n ∧ up t 0xF00C (kept.length - n) ∧ t.hearths = s.hearths ∧
          t.dram = (s.putCordBytes c (visOut d + 64 + 40 * j.vis.features) bytes).dram) ∧
        (let regs := visRegions d r (s.visCentre c d r)
         let img := fun (k : Nat) => match regs[k]? with
          | some x => s.intensities c x.1 j x.2
          | none => fun _ _ => 0
         let res := if visOp d = 2 then s.stereoTile c d (img 0) (img 1) r else s.flowTile c d (img 0) (img 1) r
         let count := fun code => (res.1.filter fun x => x.2.2.2 == code).length
         let row := fun y => (res.1.filter fun x => x.2.1 == y).flatMap fun x => x.2.2.1
         visOp d ≠ 1 → Completes (exec (.visionTile sub) s) fun t =>
          vis t { j.vis with tile := j.vis.tile + 1 } ∧ up t 0xF004 1 ∧ up t 0xF010 (count 0xFFF0) ∧
          up t 0xF014 (count 0xFFF1) ∧ up t 0xF018 (count 0xFFF2) ∧ up t 0xF01C res.2 ∧ t.hearths = s.hearths ∧
          t.dram = ((List.range r.h).foldl (fun (u : State) k =>
            u.putCordBytes c (visOut d + visRec d * ((r.y + k) * visW d + r.x)) (row (r.y + k))) s).dram))) ∧
    (s.engineJob sub 5 = some (j, c) →
      (s.postOk c j = false → exec (.postJob sub) s = .next (s.visFail j 2 0x84)) ∧
      (s.postOk c j = true →
        let nc := leAt d 2 2
        let cands := postCandidates (s.postLevels c d)
        let n := ((s.postLevels c d).map PostLevel.count).sum
        let exps := if leAt d 0 1 = 1 then s.cordBytes c (leAt d 40 8) 1024 else []
        let row := fun i => s.spanBytes c ⟨(postInput d n).hearth, (postInput d n).addr + i * postRow d, postRow d⟩
        let box := fun i => match cands[i]? with
          | some q => postBox (leAt d 0 1) exps q (row i) (s.draws + 2 * i)
          | none => []
        let entries := (List.range n).flatMap fun i =>
          ((List.range nc).map fun k => (⟨bf16At (row i) (8 + 2 * k), i, k⟩ : PostEntry)).filter fun e =>
            !f32isNan e.score && !f32isNan (leAt d 4 4) && !f32lt e.score (leAt d 4 4)
        let kept := (entries.mergeSort PostEntry.before).take 4096
        let out := suppress (leAt d 8 4) (leAt d 12 2) box kept []
        let lost := entries.length - kept.length
        ∃ u : State, exec (.postJob sub) s = .next (u.signalRetire j ((leAt d 14 1).testBit 0) (leAt d 48 2)) ∧
          u.jobs = s.jobs ∧ u.hearths = s.hearths ∧ up u 0xF020 out.length ∧ up u 0xF024 lost ∧
          u.dram = ((s.putCordBytes c (leAt d 24 8 + 64) (out.flatMap (postBytes box))).putCordBytes c (leAt d 24 8)
            (natLe out.length 4 ++ natLe entries.length 4 ++ natLe lost 4 ++ natLe 0 52)).dram))) ∧
  ∀ limit maxOut box (es : List PostEntry),
    let out := suppress limit maxOut box es []
    let meets := fun (a b : PostEntry) => a.cls = b.cls ∧ iouAbove limit (box a.cand) (box b.cand) = true
    out.length ≤ maxOut ∧ out.Sublist es ∧ out.Pairwise (fun a b => ¬ meets a b) ∧
    ∀ e ∈ es, e ∈ out ∨ out.length = maxOut ∨ ∃ a ∈ out, meets a e

/-- An INTAKE job with a bad descriptor fails with cause 1. INPUT_RECORD waits on a ring that lacks a header; an
invalid record empties the ring and fails the job with cause 2; a TRAILER record ends the job; a JPEG record joins
the samples, and a free decoder may take it; one over a limit fails while max_skips has room, else the job ends as
corrupt; a CACHED record whose store is in progress waits for it; a record whose failure would exceed max_skips
stays in the ring until it is decided (assumption 152). JPEG_DECODE takes on the sample that the decoder decodes
and AUGMENTATION the one that it serves; with none they change nothing. CACHE_STORE_COMPLETE writes the stored
bytes and the entry. BATCH_TRAILER waits for the positions; then it zeroes the unfilled ones in DRAM, writes the
trailer and ends the job. INTAKE_WINDOW_END, at a multiple of 100 ms, judges the decoders' share and starts a new
window. INT_CACHE_CFG and CACHE_RESET empty the cache, or wait for stores in progress. (R343, R351, R352, R353,
R354, R355, R356, R357, R359, R361, R369, assumption 152) -/
def Obligations.BatchIntakeActs : Prop :=
  ∀ (s : State) (sub : Nat) (j : Job) (c : CordCfg),
    let d := j.desc
    let r := j.intake
    let b := batchSize d
    let is := fun (t : State) (x : IntakeRt) => ∃ y, t.job? sub = some y ∧ y.intake = x
    (s.engineJob sub 3 = some (j, c) → j.phase = 2 →
      (r.checked = false → s.intakeOk c j = false →
        ∀ i ∈ [Instr.inputRecord sub, .batchTrailer sub, .dictLoad sub, .sensorRecord sub, .bundleEmit sub],
          exec i s = .next (s.intakeFail j 1 0x85)) ∧
      (r.checked = true → leAt d 0 1 = 1 → s.dramUe = [] →
        (∀ p, let undecided := (r.samples.filter fun x => decide (x.stage < 2)).length
          undecided = 0 ∨ r.failures.length + undecided + 1 ≤ leAt d 4 1 → r.front = none →
          r.ending = none → r.out = [] → r.consumed < b → r.head = [] → s.ringPort c j.session false = some p →
          (∀ x ∈ r.samples, x.stage ≠ 3) → (s.port c.ownerHost p).waiter = none →
          let x := s.port c.ownerHost p
          let bs := s.ringBytes c x
          let n := leAt bs 0 4
          let kind := leAt bs 4 1
          let id := leAt bs 8 8
          let pay := ((bs.take n).drop (32 + up4 (leAt bs 6 2))).take (leAt bs 16 4)
          let new : Sample := { order := r.consumed, id := id, kind := kind, stage := 0, ready := s.time
                                label := ((bs.take n).drop 32).take (leAt bs 6 2), payload := [] }
          let gives := fun (y : IntakeRt) => Completes (exec (.inputRecord sub) s) fun t =>
            is t y ∧ (t.port c.ownerHost p).held = x.held - n / 4 ∧
            (t.port c.ownerHost p).head = (x.head + n / 4) % max 1 x.size
          let stays := fun (t : State) (y : Sample) =>
            is t { r with front := some n, samples := r.samples ++ [y] } ∧ (t.port c.ownerHost p).held = x.held
          let room := decide (r.failures.length < leAt d 4 1)
          let limits := fun (f : JFrame) =>
            overLimit f.width f.height (if f.comps.length = 1 then 1 else 3) (s.sessLe c j.session 0x68 4)
              (s.sessLe c j.session 0x6C 4) || decide (4 * pay.length < f.claimed)
          let big := match jpegFrame pay with
            | .ok f => limits f
            | .error _ => false
          (bs.length < 32 → Completes (exec (.inputRecord sub) s) fun t =>
            (t.port c.ownerHost p).waiter = some (sub, s.time) ∧ ∃ y, t.job? sub = some y ∧ y.ringWait = true) ∧
          (32 ≤ bs.length → recordOk 1 bs = false → exec (.inputRecord sub) s = .next
            (((s.bump (regKey c.ownerHost (0x1000C + p * 256)) x.held).ringDrop c.ownerHost p x.held).intakeFail j 2
              0x87)) ∧
          (32 ≤ bs.length → recordOk 1 bs = true → n ≤ bs.length →
            (kind = 0 → gives { r with ending := some 0x86 }) ∧
            (kind = 1 → s.ownsDecoder c.cord = true → s.unitUsable c.cord 18 = true →
              (big = false → ∃ u : State, exec (.inputRecord sub) s = .next u.assignDecoders ∧
                (let y : Sample := { new with payload := pay }
                 (room = true → is u { r with consumed := r.consumed + 1, samples := r.samples ++ [y] } ∧
                  (u.port c.ownerHost p).held = x.held - n / 4) ∧
                 (room = false → stays u y))) ∧
              (big = true → room = true →
                gives { r with consumed := r.consumed + 1, failures := (r.consumed, id, 4) :: r.failures }) ∧
              (big = true → room = false → Completes (exec (.inputRecord sub) s) fun t =>
                is t { r with ending := some 8 })) ∧
            (kind = 5 → s.unitUsable c.cord 18 = true → (s.cordRt c.cord).stores.any (fun e => e.1 == id) = true →
              (room = true →
                gives { r with consumed := r.consumed + 1, samples := r.samples ++ [{ new with stage := 1 }] }) ∧
              (room = false → Completes (exec (.inputRecord sub) s) fun t => stays t { new with stage := 1 })))) ∧
        (let empty := (List.range b).filter fun p => !r.filled.any fun e => e.1 == p
         let zeroed := empty.foldl (fun (t : State) p =>
          t.putCordBytes c (intakeOut d + p * posStride d) (List.replicate (posStride d) 0)) s
         let at' := intakeOut d + b * posStride d
         (r.out ≠ [] ∨ r.last = true ∨ (r.filled.length ≠ b ∧ (r.ending = none ∨ r.samples ≠ [])) →
          exec (.batchTrailer sub) s = .next s) ∧
         (r.out = [] → r.last = false → r.filled.length = b ∨ (r.ending.isSome = true ∧ r.samples = []) →
          toDram d = true →
          ∃ u : State, exec (.batchTrailer sub) s = .next (u.intakeEnd sub) ∧ u.jobs = s.jobs ∧ u.hearths = s.hearths ∧
            u.dram = (zeroed.putCordBytes c at'
              ((trailerBytes d r (r.ending.getD (j.doneStatus s.time))).take (c.size - at'))).dram)))) ∧
    (∀ k, k < 2 →
      let s1 := s.assignDecoders
      (s1.decodes k = none → exec (.jpegDecode k) s = .next s1) ∧
      (∀ x, s1.decodes k = some (j, x) → s1.cordCfg j.cord = some c → s1.job? sub = some j →
        (∀ e, jpegDecode x.payload = .error e →
          exec (.jpegDecode k) s = .next (s1.sampleFails c sub x.order x.id e).assignDecoders) ∧
        (∀ p, jpegDecode x.payload = .ok p → r.front = none →
          ∃ u : State, exec (.jpegDecode k) s = .next u.assignDecoders ∧
          (let stored := (leAt d 1 1).testBit 1 && s.mayStore c x.id (p.stored.length / 64)
           (let y : Sample := { x with stage := 2, ready := s.time, fmt := p.fmt, width := p.width, height := p.height
                                       pixels := p.pixels, fromCache := false, stored := stored }
            is u { r with samples := r.samples.map fun z => if z.order = x.order then y else z }) ∧
           (u.cordRt c.cord).stores = (s.cordRt c.cord).stores ++ (if stored = true then [(x.id, p.stored)] else []) ∧
           u.dram = s.dram ∧ u.hearths = s.hearths)))) ∧
    ((s.augments = none → exec .augmentation s = .next s) ∧
     (∀ x, s.augments = some (j, x) → s.cordCfg j.cord = some c → s.job? sub = some j →
      (r.out ≠ [] → exec .augmentation s = .next s) ∧
      (r.out = [] → ∃ u : State, exec .augmentation s = .next (u.finished c sub x.order) ∧ u.hearths = s.hearths ∧
        u.dram = s.dram ∧
        (let p : Picture := { fmt := x.fmt, width := x.width, height := x.height, pixels := x.pixels }
         let y : Sample := { x with stage := 3, ready := s.time, pixels := [], payload := []
                                    out := augment d (s.sessLe c j.session 0x60 8) x.id x.label x.fromCache x.stored p s.draws }
         is u { r with samples := r.samples.map fun z => if z.order = x.order then y else z })))) ∧
    (∀ n, cordOk n = true → s.cordCfg n = some c →
      let v := s.cordRt n
      (∀ id, v.stores.find? (fun e => e.1 == id) = none → exec (.cacheStoreComplete n id) s = .next s) ∧
      (∀ id e slot found, c.cord = n → v.stores.find? (fun e => e.1 == id) = some e → v.cacheReset = false →
        s.probeId c id = some (slot, found) →
        (∀ y ∈ s.jobs, ∀ x ∈ y.intake.samples, x.stage = 1 → x.id ≠ id) →
        Completes (exec (.cacheStoreComplete n id) s) fun t =>
          (let len := e.2.length / 64
           t.cordRt n = { v with stores := v.stores.filter fun x => x.1 != id
                                 arena := v.arena + len, entries := v.entries + 1 } ∧
           t.dram = ((s.putCordBytes c (s.arenaBase c + v.arena * 64) e.2).putCordBytes c (c.regionBase 6 + 16 * slot)
            (natLe id 8 ++ natLe v.arena 4 ++ natLe len 4)).dram) ∧ t.jobs = s.jobs ∧ t.hearths = s.hearths) ∧
      (s.time % 100000000 ≠ 0 ∨ s.time ≤ s.came.look (fun _ => 0) (0x320000 + n) →
        exec (.intakeWindowEnd n) s = .next s) ∧
      (let pct := min 100 (v.decNs / 1000000)
       s.time % 100000000 = 0 → s.came.look (fun _ => 0) (0x320000 + n) < s.time →
       Completes (exec (.intakeWindowEnd n) s) fun t =>
        t.cordRt n = { v with saturated := decide (95 ≤ pct), late := 0, decNs := 0 } ∧ t.jobs = s.jobs ∧
        (v.late ≠ 0 → (pct < 95 ∨ v.saturated = true) → Queued s t c.ownerHost 0x0C03 (0x10 + n) v.late)) ∧
      (∀ h w, c.cord = n → s.mayWrite h (cordAddr n 0x7030) →
        let dir := min (w.toNat % 16) 12
        let key := cordAddr n 0x7030
        Completes (exec (.intCacheCfg h n w) s) fun t =>
          t.reg key = .ofNat 32 (w.toNat % 16) ∧ t.jobs = s.jobs ∧
          (v.stores = [] → t.cordRt n = { v with arena := 0, entries := 0, cacheReset := false, dir := dir }) ∧
          (v.stores ≠ [] → t.cordRt n = { v with cacheReset := true } ∧ t.dram = s.dram)) ∧
      (∀ h (w : Word), c.cord = n → s.mayWrite h (cordAddr n 0x7034) →
        let dir := min 12 (s.reg (cordAddr n 0x7030)).toNat
        Completes (exec (.cacheReset h n w) s) fun t =>
          t.jobs = s.jobs ∧ t.regs = s.regs ∧
          (w.getLsbD 0 = false → t.cordRt n = v ∧ t.dram = s.dram) ∧
          (w.getLsbD 0 = true → v.stores = [] →
            t.cordRt n = { v with arena := 0, entries := 0, cacheReset := false, dir := dir } ∧
            (t.cacheFits c = true → t.dram = ((List.range (2 ^ (8 + dir))).foldl (fun (u : State) i =>
              u.putCordLe c (c.regionBase 6 + 16 * i) 8 emptyId) s).dram)) ∧
          (w.getLsbD 0 = true → v.stores ≠ [] → t.cordRt n = { v with cacheReset := true } ∧ t.dram = s.dram)))

/-- A DICT_LOAD of an image that is outside the region, or no valid dictionary, or whose area does not fit, fails with
cause 3; else the Cord's dictionary at that area is the image's, and the job ends. SENSOR_RECORD of a record of an
unknown stream or with a wrong payload empties the ring and fails the job with cause 2; one without a clock
mapping, or late, or out of order is counted as late; one beyond the frame buffer is dropped and counted; else it
joins the samples that the next bundle may still need. BUNDLE_EMIT waits until the window has passed or every
stream has a sample at or after the target; then it writes the bundle, counts it, keeps the samples that the next
target needs, and the last bundle ends the job. (R344, R363, R364, R365, R366, R367, R368) -/
def Obligations.AlignerAndDictionariesAct : Prop :=
  ∀ (s : State) (sub : Nat) (j : Job) (c : CordCfg),
    let d := j.desc
    let r := j.intake
    let is := fun (t : State) (x : IntakeRt) => ∃ y, t.job? sub = some y ∧ y.intake = x
    s.engineJob sub 3 = some (j, c) → j.phase = 2 → r.checked = true → s.dramUe = [] →
    (leAt d 0 1 = 2 →
      let src := leAt d 72 8
      let area := leAt d 80 8
      let len := s.cordLe c (src + 8) 4
      let bad := exec (.dictLoad sub) s = .next (s.intakeFail j 3 0x88)
      (c.size < src + 64 → bad) ∧
      (src + 64 ≤ c.size → (len < 64 ∨ c.size < src + len → bad) ∧
        (64 ≤ len → src + len ≤ c.size →
          (readDict (s.cordBytes c src len) = none → bad) ∧
          (∀ es, readDict (s.cordBytes c src len) = some es →
            (c.size < area + 96 * es.length + 1048576 → bad) ∧
            (area + 96 * es.length + 1048576 ≤ c.size →
              ∃ u : State, exec (.dictLoad sub) s = .next (u.intakeEnd sub) ∧ u.jobs = s.jobs ∧ u.hearths = s.hearths ∧
                (let old := (s.cordRt c.cord).dicts.filter fun e => e.1 != area
                 u.cordRt c.cord = { s.cordRt c.cord with dicts := (area, es) :: old })))))) ∧
    (leAt d 0 1 = 3 → r.out = [] → r.last = false →
      (∀ p, s.ringPort c j.session false = some p → r.head = [] → (s.port c.ownerHost p).waiter = none →
        let x := s.port c.ownerHost p
        let bs := s.ringBytes c x
        let n := leAt bs 0 4
        let st := leAt bs 5 1
        let pay := ((bs.take n).drop 32).take (leAt bs 16 4)
        let frame := streamFrame d st
        let bad := decide (leAt d 2 2 ≤ st) || (if frame then decide (16777216 < pay.length)
          else pay.length != 4 * streamValues d st)
        32 ≤ bs.length → recordOk 3 bs = true → n ≤ bs.length →
        let taken := fun (t : State) => (t.port c.ownerHost p).held = x.held - n / 4 ∧ t.dram = s.dram
        let late := Completes (exec (.sensorRecord sub) s) fun t => taken t ∧ is t r ∧
          t.reg (cordAddr j.cord 0x7020) = counted (s.reg (cordAddr j.cord 0x7020)) ∧
          (t.cordRt j.cord).late = (s.cordRt j.cord).late + 1
        (bad = true → exec (.sensorRecord sub) s = .next
          (((s.bump (regKey c.ownerHost (0x1000C + p * 256)) x.held).ringDrop c.ownerHost p x.held).intakeFail j 2
            0x87)) ∧
        (bad = false →
          (s.deviceTime c.ownerHost (leAt bs 8 8) = none → late) ∧
          (∀ t0, s.deviceTime c.ownerHost (leAt bs 8 8) = some t0 →
            let kept := r.sensors.filter fun x => decide (alignTarget d r.bundle ≤ x.time + alignWindow d)
            let used := ((kept.filter fun x => streamFrame d x.stream).map fun x => x.bytes.length).sum
            (t0 + alignWindow d < s.time ∨ t0 < r.lastTime.look (fun _ => 0) st → late) ∧
            (s.time ≤ t0 + alignWindow d → r.lastTime.look (fun _ => 0) st ≤ t0 →
              (frame = true → leAt d 32 4 < used + pay.length → Completes (exec (.sensorRecord sub) s) fun t =>
                taken t ∧ is t { r with sensors := kept } ∧
                t.reg (cordAddr j.cord 0x7024) = counted (s.reg (cordAddr j.cord 0x7024))) ∧
              (frame = false ∨ used + pay.length ≤ leAt d 32 4 → Completes (exec (.sensorRecord sub) s) fun t =>
                taken t ∧ is t { r with sensors := kept ++ (if alignTarget d r.bundle ≤ t0 + alignWindow d then
                                          [⟨st, t0, pay⟩] else [])
                                        lastTime := r.lastTime.put (fun _ => 0) st (t0 + 1) }))))) ∧
      (bundleReady d r s.time = false → exec (.bundleEmit sub) s = .next s) ∧
      (bundleReady d r s.time = true → toDram d = true →
        let next := alignTarget d (r.bundle + 1)
        let at' := intakeOut d + r.bundle * posStride d
        let moved := fun (u : State) =>
          is u { r with bundle := r.bundle + 1
                        sensors := r.sensors.filter fun x => decide (next ≤ x.time + alignWindow d) } ∧
          u.reg (cordAddr j.cord 0x701C) = counted (s.reg (cordAddr j.cord 0x701C)) ∧ u.hearths = s.hearths ∧
          u.dram = (s.putCordBytes c at' ((bundleBytes d r.sensors r.bundle).take (c.size - at'))).dram
        (r.bundle + 1 ≠ leAt d 4 4 → Completes (exec (.bundleEmit sub) s) moved) ∧
        (r.bundle + 1 = leAt d 4 4 → ∃ u : State, moved u ∧ exec (.bundleEmit sub) s = .next (u.intakeEnd sub))))

/-- PP_COMMIT appends a commit with the next sequence number and its marks. TE_EVENT of a source that is not the timer
and SYNTHETIC_TE, once the counter has reached LINES, latch what is pending unless COMMIT_LINE did, start a frame,
end a mode change that waits, and start a push where marks are latched. COMMIT_LINE latches once a frame, when the
counter reaches it; TE_LOST is noted once, 100 ms after the last TE. PP_MODE_REQ starts a change, whose steps check
and take over the shadow mode, or refuse it with an event. BRINGUP reads its lanes in both polarities; a clean
answer within 10 ms goes to the next lane, and the last one to RUN with a full-frame push; two failures are a
fault, which BRINGUP_RETRY retries after 1 s. PORT_DISABLE waits for the push in progress. PUSH_END ends it.
PANEL_CONTENTION stops the port. PP_DCS queues up to 16 writes. PP_PANEL drives its outputs at most once in 10 ms
and defers other changes in order; PANEL_OUTPUT_DEFERRED takes the first. (R376, R377, R378, R379, R380, R385,
R386, R387, R388, R389, R390, R393) -/
def Obligations.PanelPortsAct : Prop :=
  ∀ (s : State) (p : Nat), panelOk p = true →
    let v := s.panel p
    let n := s.unitOwner (13 + p)
    let reach := fun (d o : Nat) => n < 16 ∧ s.mayWrite d (cordAddr n (0x6000 + p * 0x800 + o))
    let gets := fun (i : Instr) (x : Panel) => Completes (exec i s) fun t =>
      t.panel p = x ∧ (∀ q, q ≠ p → t.panel q = s.panel q) ∧ t.jobs = s.jobs ∧ t.hearths = s.hearths ∧
      t.frame = s.frame ∧ t.dram = s.dram
    let tells := fun (i : Instr) (code : Nat) => ∀ c, s.cordCfg n = some c →
      Completes (exec i s) fun t => Queued s t c.ownerHost code (0x10 + n) p
    let content := v.content ||| (v.pending.map Commit.content).foldl (· ||| ·) 0
    let warp := v.warp ||| (v.pending.map Commit.warp).foldl (· ||| ·) 0
    let frame := fun (i : Instr) => Completes (exec i s) fun t =>
      let x := t.panel p
      x.frames = v.frames + 1 ∧ x.lineBase = s.time ∧ x.passed = false ∧ t.frame = s.frame ∧ t.jobs = s.jobs ∧
      (v.state = 3 → v.step = 4 → x.state = 2 ∧ x.step = 0) ∧
      (v.passed = false → v.pending ≠ [] → x.pending = [] ∧ x.taken = v.seq) ∧
      (v.passed = true → x.pending = v.pending ∧ x.taken = v.taken)
    let pushes := fun (i : Instr) => v.state = 2 → v.pushing = false → v.passed = true →
      v.content ≠ 0 ∨ v.warp ≠ 0 ∨ v.full = true → Completes (exec i s) fun t =>
        let x := t.panel p
        x.pushing = true ∧ x.pushes = v.pushes + 1 ∧ x.content = 0 ∧ x.warp = 0 ∧ x.full = false ∧ x.dcs = [] ∧
        x.pushContent = v.content ∧ x.pushWarp = v.warp ∧ x.holds = s.pushHolds p ∧ x.sent = v.dcs.map dcsMsg ++ (s.pushMsgs p).1 ∧
        x.log.head? = some (v.pushes, v.taken, s.time) ∧
        t.reg (panelKey p 0x48) = .ofNat 32 (min ((s.reg (panelKey p 0x48)).toNat + (s.pushMsgs p).2) 0xFFFFFFFF)
    (∀ d w, reach d 0x1C → s.slots = [] →
      let sf := s.panelShadow p 0x18 % 4
      let last := (v.pending.filterMap Commit.front).getLast?.getD v.front
      let seq := (v.seq + 1) % 2 ^ 32
      gets (.ppCommit d p w) { v with
        seq := seq, pending := v.pending ++ [⟨seq, w.toNat % 65536, w.toNat / 65536,
          if sf = last then none else some sf⟩] }) ∧
    (v.state < 2 → exec (.teEvent p) s = .next s ∧ exec (.syntheticTe p) s = .next s ∧
      exec (.commitLine p) s = .next s ∧ exec (.teLost p) s = .next s) ∧
    (2 ≤ v.state →
      let real := v.mode.toNat / 2048 % 4 ≠ 3
      let line := (v.act 0x14).toNat % 65536
      let reached := line ≤ s.linesSince p ∧ line < v.lines
      (real → frame (.teEvent p) ∧ pushes (.teEvent p)) ∧ (¬real → exec (.teEvent p) s = .next s) ∧
      (s.linesSince p < v.lines → exec (.syntheticTe p) s = .next s) ∧
      (v.lines ≤ s.linesSince p → frame (.syntheticTe p) ∧ (s.strictLost p = false → pushes (.syntheticTe p)) ∧
        Completes (exec (.syntheticTe p) s) fun t => t.reg (panelKey p 0x3C) =
          if v.mode.toNat / 2048 % 4 = 3 then s.reg (panelKey p 0x3C) else counted (s.reg (panelKey p 0x3C))) ∧
      (real → Completes (exec (.teEvent p) s) fun t => (t.panel p).lastTe = some s.time ∧ (t.panel p).teLost = false ∧
        (t.panel p).quiet = s.time ∧ ∀ t0, v.lastTe = some t0 →
          t.reg (panelKey p 0x34) = .ofNat 32 (min (s.time - t0) 0xFFFFFFFF)) ∧
      (v.passed = true ∨ ¬reached → exec (.commitLine p) s = .next s) ∧
      (v.passed = false → reached →
        (v.pending = [] → gets (.commitLine p) { v with passed := true }) ∧
        (v.pending ≠ [] → Completes (exec (.commitLine p) s) fun t =>
          let x := t.panel p
          x.passed = true ∧ x.pending = [] ∧ x.taken = v.seq ∧ x.content = content ∧
          x.warp = warp ∧ t.frame = s.frame)) ∧
      (v.teLost = true ∨ s.time < v.quiet + 100000000 → exec (.teLost p) s = .next s) ∧
      (v.teLost = false → v.quiet + 100000000 ≤ s.time →
        gets (.teLost p) { v with teLost := true } ∧ tells (.teLost p) 0x0D01)) ∧
    (∀ d (w : Word), reach d 0x2C → gets (.ppModeReq d p w)
      (if w.getLsbD 0 = true ∧ 2 ≤ v.state then { v with state := 3, step := 1 } else v)) ∧
    (v.state = 3 →
      (v.step = 1 → v.pushing = false →
        (let now := s.time
         (s.modeRefused p = true → gets (.modeChangeLp11 p) { v with step := 3, since := now, modeErr := true } ∧
          tells (.modeChangeLp11 p) 0x0D06) ∧
         (s.modeRefused p = false → gets (.modeChangeLp11 p) { v with
          step := 2, since := now, nextMode := s.reg (panelKey p 8), nextGeom := s.reg (panelKey p 0xC) }))) ∧
      (v.step = 1 → v.pushing = true → exec (.modeChangeLp11 p) s = .next s) ∧
      (v.step = 2 → v.since + 20000 ≤ s.time → gets (.modeChangeReprogram p) { v with
        step := 3, mode := v.nextMode, geom := v.nextGeom }) ∧
      (v.step = 2 → s.time < v.since + 20000 → exec (.modeChangeReprogram p) s = .next s) ∧
      (v.step = 3 → v.since + 120000 ≤ s.time → gets (.modeChangeHsEntry p) { v with
        step := 4, sent := skewCal v.mode.toNat ++ v.setup, dcs := [], lineBase := s.time, passed := false
        quiet := s.time }) ∧
      (v.step = 3 → s.time < v.since + 120000 → exec (.modeChangeHsEntry p) s = .next s)) ∧
    (∀ d (w : Word), reach d 4 →
      let on := (s.reg (panelKey p 4)).getLsbD 0
      (w.getLsbD 0 = true → on = false → v.closing = false → gets (.bringup d p w) (v.begin' s.time)) ∧
      (w.getLsbD 0 = false → on = true → gets (.portDisable d p w)
        (if v.pushing = true then { v with closing := true } else { v with state := 0, step := 0 })) ∧
      (w.getLsbD 0 = on → gets (.bringup d p w) v ∧ gets (.portDisable d p w) v) ∧
      (Completes (exec (.portDisable d p w) s) fun t => t.reg (panelKey p 4) = w &&& 3)) ∧
    (v.state = 1 → v.step = 1 →
      let now := s.time
      let rev := if v.swapped = true then v.laneRev + 2 ^ v.lane else v.laneRev
      let inTime := v.since ≤ now ∧ now ≤ v.since + 10000000
      (¬inTime → ∀ x, exec (.dcsReadResponse p x) s = .next s) ∧
      (inTime → v.lane + 1 ≠ modeLanes v.mode.toNat → gets (.dcsReadResponse p true)
        (({ v with laneRev := rev, lane := v.lane + 1, swapped := false } : Panel).readAgain now)) ∧
      (inTime → v.lane + 1 = modeLanes v.mode.toNat → Completes (exec (.dcsReadResponse p true) s) fun t =>
        let x := t.panel p
        x.state = 2 ∧ x.step = 0 ∧ x.fault = false ∧ x.full = true ∧ x.dcs = [] ∧ x.sent = v.setup ∧
        x.laneRev = rev ∧ x.quiet = now) ∧
      (∀ i, (i = Instr.dcsReadResponse p false ∧ inTime) ∨ (i = .bringupReadTimeout p ∧ v.since + 10000000 ≤ now) →
        (v.swapped = false → gets i (({ v with swapped := true } : Panel).readAgain now)) ∧
        (v.swapped = true → gets i { v with fault := true, step := 0, since := now } ∧ tells i 0x0D05))) ∧
    (v.state = 1 → v.step = 0 →
      (v.since + 1000000000 ≤ s.time → gets (.bringupRetry p) (v.begin' s.time)) ∧
      (s.time < v.since + 1000000000 → exec (.bringupRetry p) s = .next s)) ∧
    (let on := (s.reg (panelKey p 4)).getLsbD 0
     v.state ≠ 0 → tells (.panelContention p) 0x0D05 ∧ gets (.panelContention p)
      (if on = true then { v.begin' s.time with step := 0, since := s.time, sent := v.sent, fault := true }
       else { v.pushOver with closing := false, state := 0, step := 0, fault := true })) ∧
    (v.state = 0 → exec (.panelContention p) s = .next s) ∧
    ((v.pushing = false → exec (.pushEnd p) s = .next s) ∧
     (v.pushing = true → gets (.pushEnd p)
      (if v.closing = false then v.pushOver
       else if (s.reg (panelKey p 4)).getLsbD 0 = true then v.pushOver.begin' s.time
       else { v.pushOver with closing := false, state := 0, step := 0 }))) ∧
    (∀ d (w : Word), reach d 0x4C → gets (.ppDcs d p w)
      (let buf := (List.range 16).flatMap fun i => natLe (s.panelShadow p (0x50 + 4 * i)) 4
       if v.dcs.length < 16 then { v with dcs := v.dcs ++ [(w.toNat,
        if w.getLsbD 17 = true then buf.take (w.toNat / 2 ^ 18 % 64 + 1) else [])] }
       else { v with dcsOvf := true })) ∧
    (∀ d (w : Word) a b, reach d 0x30 → v.rstN.drive (w.getLsbD 0) s.time = a → v.pwrEn.drive (w.getLsbD 1) s.time = b →
      gets (.ppPanel d p w) { v with rstN := a, pwrEn := b }) ∧
    gets (.panelOutputDeferred p 0) { v with rstN := v.rstN.release s.time } ∧
    gets (.panelOutputDeferred p 1) { v with pwrEn := v.pwrEn.release s.time } ∧
    (∀ (x : PanelOut) b,
      let level := x.deferred.getLast?.getD x.level
      let early := ∃ t0, x.changed = some t0 ∧ s.time < t0 + 10000000
      (b = level → x.drive b s.time = x) ∧
      (b ≠ level → early ∨ x.deferred ≠ [] → x.drive b s.time = { x with deferred := x.deferred ++ [b] }) ∧
      (b ≠ level → ¬early → x.deferred = [] → x.drive b s.time = { x with level := b, changed := some s.time }) ∧
      (early ∨ x.deferred = [] → x.release s.time = x) ∧
      (∀ l, ¬early → x.deferred = b :: l → x.release s.time = ⟨b, some s.time, l⟩))

/-- FSG_SPLIT takes a split of at most 384 units while no slot is enabled, and logs it; else it changes nothing but its
error flag. A stopping PUSH job waits at every fourth band, a stopping COPY job at every 4 KiB. With a bad
descriptor the job ends with its status. A held band waits. Otherwise, with no uncorrectable word in memory, a PUSH
job writes the pixels of one band into its slot, and the last band retires it. A COPY job moves the words to the
next 4 KiB boundary, or as many as the ring has room for, in ascending order, waits on a full ring, and retires
with its last word. (R83, R372, R374, R382, R383, R384, R400, R505) -/
def Obligations.PushAndCopyJobsAct : Prop :=
  ∀ s : State,
    (∀ d (w : Word), s.mayWrite d 0x230000 →
      let used := ([0, 1] : List Nat).any fun p => ([0, 1, 2, 3] : List Nat).any fun i => ((s.panel p).slot i).en
      (used = true ∨ 384 < w.toNat % 512 → Completes (exec (.fsgSplit d w) s) fun t =>
        t.reg 0x230004 = 1 ∧ (∀ x, x ≠ 0x230004 → t.reg x = s.reg x) ∧ { t with regs := s.regs } = s) ∧
      (used = false → w.toNat % 512 ≤ 384 → Completes (exec (.fsgSplit d w) s) fun t =>
        t.reg 0x230000 = w &&& 0x1FF ∧ (∀ x, x ≠ 0x230000 → t.reg x = s.reg x) ∧
        (∃ old, t.trust.chg.newest 0x101 0x230000 old w) ∧ { t with regs := s.regs, trust := s.trust } = s)) ∧
    (∀ (sub : Nat) (j : Job) (c : CordCfg), s.dramUe = [] → (∀ h, (s.hearth h).storeUe = []) →
      let d := j.desc
      let at' := fun (t : State) (k : Nat) => ∃ y, t.job? sub = some y ∧ y.done = k
      (s.engineJob sub 7 = some (j, c) →
        let p := leAt d 0 1
        let r := (s.panel p).region (leAt d 1 1)
        let sl := (s.panel p).slot (leAt d 2 1)
        let img := readImg d 8
        let b := r.y / 16 + j.done
        let y0 := max r.y (16 * b)
        let n := min (r.y + r.h) (16 * b + 16) - y0
        let may := j.phase = 2 ∨ j.done % 4 ≠ 0
        (j.phase = 3 → j.done % 4 = 0 → exec (.pushBandWrite sub) s = .next s) ∧
        (may → j.done = 0 → s.pushOk c j = false → exec (.pushBandWrite sub) s = .next (s.endJob sub 0x8B)) ∧
        (may → j.done ≠ 0 ∨ s.pushOk c j = true →
          (s.bandHeld p (leAt d 2 1) b = true → exec (.pushBandWrite sub) s = .next s) ∧
          (s.bandHeld p (leAt d 2 1) b = false →
            let moved := fun (u : State) => at' u (j.done + 1) ∧ u.hearths = s.hearths ∧ u.dram = s.dram ∧
              u.frame = (List.range n).foldl (fun m i => m.putList zeroByte
                (s.slotBase p sl + (y0 + i) * slotPitch sl.w + 3 * r.x)
                (pushRow img (s.imgRow c j img r.w (y0 - r.y + i)) r.w)) s.frame
            (r.hasBand (b + 1) = true → Completes (exec (.pushBandWrite sub) s) moved) ∧
            (r.hasBand (b + 1) = false → ∃ u : State, moved u ∧
              exec (.pushBandWrite sub) s = .next (u.pushRetire { j with done := j.done + 1 }))))) ∧
      (s.engineJob sub 8 = some (j, c) →
        let may := j.ringWait = false ∧ (j.phase = 2 ∨ j.done % 1024 ≠ 0)
        let total := leAt d 4 4
        let n := copyChunk j
        let src := fun i => copySpan (leAt d 0 1) (leAt d 8 8) (4 * (j.done + i)) 4
        let dst := fun i => copySpan (leAt d 1 1) (leAt d 16 8) (4 * (j.done + i)) 4
        let ends := fun (k : Nat) (moved : State → Prop) =>
          ((j.done + k) * 4 ≠ total → Completes (exec (.copyJob sub) s) fun t => at' t (j.done + k) ∧ moved t) ∧
          ((j.done + k) * 4 = total → ∃ u : State, at' u (j.done + k) ∧ moved u ∧
            exec (.copyJob sub) s = .next (u.retireJob sub))
        (j.ringWait = true ∨ (j.phase = 3 ∧ j.done % 1024 = 0) → exec (.copyJob sub) s = .next s) ∧
        (may → j.done = 0 → s.copyOk c j = false → exec (.copyJob sub) s = .next (s.endJob sub 0x8C)) ∧
        (may → j.done ≠ 0 ∨ s.copyOk c j = true →
          (leAt d 1 1 ≠ 3 → ends n fun t =>
            let done := (List.range n).foldl (fun (u : State) i =>
              u.writeSpans sub c [(dst i, u.spanBytes c (src i))] id) s
            t.dram = done.dram ∧ ∀ h, (t.hearth h).store = (done.hearth h).store) ∧
          (∀ p, leAt d 1 1 = 3 → s.ringPort c j.session true = some p →
            let x := s.port c.ownerHost p
            let k := min n (x.size - x.held)
            let bs := s.spanBytes c (copySpan (leAt d 0 1) (leAt d 8 8) (4 * j.done) (4 * k))
            (k = 0 → x.waiter = none → Completes (exec (.copyJob sub) s) fun t =>
              (t.port c.ownerHost p).waiter = some (sub, s.time) ∧ ∃ y, t.job? sub = some y ∧ y.ringWait = true) ∧
            (k ≠ 0 → ends k fun t => (t.port c.ownerHost p).held = x.held + k ∧ t.hearths = s.hearths ∧
              t.dram = ((List.range k).foldl (fun (u : State) i =>
                u.putCordLe c (x.wordAddr (x.held + i)) 4 (leAt bs (4 * i) 4)) s).dram)))))

/-- The bytes of a request of R69 spell it, with what follows. On a port whose link is down, requests and FRAMING_ERROR
do nothing. A request cut short, and bytes that spell none, are a framing error, which is counted and reported.
With no FENCE open and no request in progress: a request that fails its checks is answered with its status and does
nothing else; a valid one on a Hearth store writes, sets, clears or reads exactly its words and is answered with
status 0, a posted one only on failure, and where other accesses fall between its words (R79) the words before are
performed and the rest stays in progress; ZT_NOP of opcode 8 is answered with 0, of an undefined opcode with
BAD_REQUEST; TSYNC_EXCHANGE answers with its arrival and departure times, and completes the last exchange with its
t4; a FENCE stays open. Behind a FENCE, requests wait, but a tag in use gets TAG_BUSY. FENCE_COMPLETE answers the
FENCE and begins what waited. EVENT_TRANSFER hands up to 64 events over. (R69, R70, R71, R72, R73, R76, R77, R78,
R79, R86, R89, R90) -/
def Obligations.HostRequestsAct : Prop :=
  ∀ (s : State) (d : Nat) (r : ZtReq), hostOk d = true →
    let h := s.host d
    let tag := r.tag.toNat
    let n := r.count.toNat
    let only := fun (t : State) => { t with hosts := s.hosts } = s ∧ ∀ x, x ≠ d → t.host x = s.host x
    let answers := fun (i : Instr) (op status : Nat) (ws : List Word) => Completes (exec i s) fun t =>
      t.host d = { h with responses := h.responses ++ [⟨(op + 128) % 256, tag, status, ws, 0⟩] } ∧ only t
    let ops := [(1, Instr.writeInc d r), (2, .writeFix d r), (3, .readInc d r), (4, .readFix d r), (5, .set d r),
      (6, .ztClear d r)]
    (∀ op rest, op < 256 → r.words.length = payloadWords op n r.flags.toNat →
      ztRequest (ZtReq.bytes op r ++ rest) = some (op, { r with pause := 0 }, rest)) ∧
    (s.live = false ∨ h.rate = 0 →
      (∀ e ∈ ops, exec e.2 s = .next s) ∧ exec (.ztFence d r) s = .next s ∧
      (∀ tail, exec (.framingError ⟨d, tail⟩) s = .next s) ∧
      exec (.eventTransfer d) s = .next s ∧ (∀ l, exec (.tsyncExchange d r l) s = .next s) ∧
      ∀ op, exec (.ztNop d op r) s = .next s) ∧
    (s.live = true → h.rate ≠ 0 →
      (∀ tail, tail = [] ∨ (ztRequest tail).isSome = true → exec (.framingError ⟨d, tail⟩) s = .next s) ∧
      (∀ i, (∃ tail, i = .framingError ⟨d, tail⟩ ∧ tail ≠ [] ∧ ztRequest tail = none) ∨
          (∃ e ∈ ops, i = e.2 ∧ cutShort e.1 r = true) → Completes (exec i s) fun t =>
        t.reg (regKey d 0x1014) = counted (s.reg (regKey d 0x1014)) ∧
        Queued s t d 0x0104 0 (counted (s.reg (regKey d 0x1014))).toNat ∧ t.dram = s.dram ∧ t.hearths = s.hearths) ∧
      (h.fence = none → h.active = none →
        (∀ e ∈ ops, cutShort e.1 r = false →
          (headerCheck e.1 r ≠ 0 → answers e.2 e.1 (headerCheck e.1 r) []) ∧
          (headerCheck e.1 r = 0 → s.addressCheck d e.1 r ≠ 0 → answers e.2 e.1 (s.addressCheck d e.1 r) []) ∧
          (∀ g o, headerCheck e.1 r = 0 → s.addressCheck d e.1 r = 0 → r.addr.toNat < 0x10000000 →
            storeSlot r.addr.toNat = some (g, o) → (s.hearth g).storeUe = [] →
            let m := (s.hearth g).store
            let word := fun (m : SMap Byte) i => BitVec.ofNat 32 (m.readLe (o + 4 * i) 4)
            let w := fun i => r.words.getD i 0
            let wrote := fun (p : State → Prop) => Completes (exec e.2 s) fun t =>
              p t ∧ (t.host d).responses =
                (if r.flags.getLsbD 0 = true then h.responses
                 else h.responses ++ [⟨e.1 + 128, tag, 0, [], 0⟩]) ∧
              (∀ a, (a < o ∨ o + (if e.1 = 2 then 4 else 4 * n) ≤ a) →
                (t.hearth g).store.look zeroByte a = m.look zeroByte a) ∧
              (∀ x, x ≠ g → t.hearth x = s.hearth x) ∧ t.dram = s.dram
            let part : Active :=
              { op := 1, req := r, todo := (r.words.take n).drop r.pause, done := r.pause }
            (e.1 = 1 → 0 < r.pause → r.pause < n → Completes (exec e.2 s) fun t =>
              t.host d = { h with active := some part } ∧ (∀ i, i < r.pause → word (t.hearth g).store i = w i) ∧
              (∀ a, (a < o ∨ o + 4 * r.pause ≤ a) → (t.hearth g).store.look zeroByte a = m.look zeroByte a)) ∧
            (r.pause = 0 ∨ n ≤ r.pause →
            (e.1 = 1 → wrote fun t => ∀ i, i < n → word (t.hearth g).store i = w i) ∧
            (e.1 = 2 → wrote fun t => word (t.hearth g).store 0 = w (n - 1)) ∧
            (e.1 = 5 → wrote fun t => ∀ i, i < n → word (t.hearth g).store i = word m i ||| w i) ∧
            (e.1 = 6 → wrote fun t => ∀ i, i < n → word (t.hearth g).store i = word m i &&& ~~~ (w i)) ∧
            (e.1 = 3 ∨ e.1 = 4 → Completes (exec e.2 s) fun t =>
              (t.host d).responses = h.responses ++ [⟨e.1 + 128, tag, 0,
                (List.range n).map fun i => if e.1 = 3 then word m i else word m 0, 0⟩] ∧
              t.hearths = s.hearths ∧ t.dram = s.dram)))) ∧
        (∀ op : BitVec 8,
          (op = 0 ∨ 8 < op.toNat → answers (.ztNop d op r) op.toNat 1 []) ∧
          (1 ≤ op.toNat → op.toNat ≤ 7 → exec (.ztNop d op r) s = .next s) ∧
          (op = 8 → headerCheck 8 r = 0 → r.flags = 0 → answers (.ztNop d op r) 8 0 [])) ∧
        (headerCheck 7 r ≠ 0 → answers (.ztFence d r) 7 (headerCheck 7 r) []) ∧
        (headerCheck 7 r = 0 → Completes (exec (.ztFence d r) s) fun t =>
          t.host d = { h with fence := some tag } ∧ only t) ∧
        (∀ l, headerCheck 8 r = 0 → r.flags.getLsbD 1 = true → 4 ≤ r.words.length →
          let t4 := word64 r.words 2
          let sent := s.time + l
          let half := fun (x i : Nat) => BitVec.ofNat 32 (x / 2 ^ (32 * i))
          Completes (exec (.tsyncExchange d r l) s) fun t =>
            (t.host d).open1 = some (word64 r.words 0, s.time, sent) ∧
            (t.host d).responses = h.responses ++
              [⟨136, tag, 0, [half s.time 0, half s.time 1, half sent 0, half sent 1], 0⟩] ∧
            (t4 = 0 ∨ h.open1 = none → (t.host d).exchanges = h.exchanges ∧ (t.host d).offset = h.offset) ∧
            (∀ x, h.open1 = some x → t4 ≠ 0 →
              let e := exchangeOf x t4
              let all := h.exchanges ++ [e]
              (e.delay < 0 → (t.host d).exchanges = h.exchanges ∧ (t.host d).offset = h.offset) ∧
              (0 ≤ e.delay → (t.host d).exchanges = all.drop (all.length - 16) ∧ (t.host d).mapped = true ∧
                (s.manual d = true → (t.host d).offset = h.offset ∧ (t.host d).refHost = h.refHost) ∧
                (s.manual d = false → ∃ b, leastDelay (t.host d).exchanges = some b ∧ (t.host d).offset = b.offset ∧
                  (t.host d).refHost = b.t1))) ∧
            t.hearths = s.hearths ∧ t.dram = s.dram)) ∧
      (∀ f, h.fence = some f → ∀ e ∈ ops, cutShort e.1 r = false →
        (r.flags.getLsbD 0 = false → h.outstanding tag = true →
          answers e.2 e.1 (if headerCheck e.1 r ≠ 0 then headerCheck e.1 r else 5) []) ∧
        (r.flags.getLsbD 0 = true ∨ h.outstanding tag = false → Completes (exec e.2 s) fun t =>
          t.host d = { h with behind := h.behind ++ [(s.time, e.2)] } ∧ only t)) ∧
      (h.events = [] → exec (.eventTransfer d) s = .next s) ∧
      (h.events ≠ [] → h.events.length ≤ 256 → Completes (exec (.eventTransfer d) s) fun t =>
        (t.host d).delivered = h.delivered ++ h.events.take 64 ∧
        (h.lost = 0 → (t.host d).events = h.events.drop 64) ∧
        (h.lost ≠ 0 →
          (t.host d).events = h.events.drop 64 ++ [⟨0x0103, 0, .ofNat 32 h.lost, s.time⟩] ∧ (t.host d).lost = 0) ∧
        only t)) ∧
    (s.live = true →
      (h.fence = none → h.active = none → exec (.fenceComplete d) s = .next s) ∧
      (∀ f, h.fence = some f → h.active = none →
        exec (.fenceComplete d) s = .next
          ((s.setHost d { h with fence := none, behind := [], responses := h.responses ++ [⟨0x87, f, 0, [], 0⟩] }).runHeld
            d h.behind)))

/-- On a bound port that its domain reaches, with no uncorrectable word: DP_DATA_WRITE appends what fits to an inbound
ring and counts the rest as overrun; DP_DATA_READ takes the oldest words of an outbound one, and gives zeros on an
inbound one. OUTBOUND_RING_RESUME ends the wait of a COPY job on a ring with room; DATA_PORT_STALL reports a wait
of more than 1 ms once. Waits are counted in whole microseconds, and what is left counts with the next (assumption
175). TSYNC_RESET discards exchanges and mapping. REGISTER_WRITE, SET_ALIAS_WRITE and CLEAR_ALIAS_WRITE of control
registers of the device give the word, its OR or its AND-NOT, within the RW bits, and the writes of FLT_CTRL and
MEM_CTRL are logged first with origin, address and words; writes beyond the view do nothing. READ_CLEAR reads an RC
register and clears it; LO_READ reads the low word and latches the high one. The words a read returns are kept in a
field of the model's own. (R5, R9, R80, R81, R82, R83, R84, R91, R438, R505, R513, assumption 175) -/
def Obligations.PortsClocksAndRegistersAct : Prop :=
  ∀ (s : State) (d : Nat), hostOk d = true →
    (∀ p c, p < 16 →
      let x := s.port d p
      let open' := s.portsOpen d = true ∧ x.bound = true
      let word := fun i => BitVec.ofNat 32 (s.cordLe c (x.wordAddr i) 4)
      let stall := stallKey d p
      let ended := fun (t : State) =>
        let all := (s.reg (2 ^ 41 + stall)).toNat + (s.time - x.uncounted)
        t.reg stall = .ofNat 32 (min ((s.reg stall).toNat + all / 1000) 0xFFFFFFFF) ∧
        t.reg (2 ^ 41 + stall) = .ofNat 32 (all % 1000)
      (¬ open' → (∀ ws, exec (.dpDataWrite d p ws) s = .next s) ∧ ∀ n, exec (.dpDataRead d p n) s = .next s) ∧
      (open' → s.dramUe = [] → s.cordCfg x.cord = some c →
        (∀ ws, x.outbound = true → exec (.dpDataWrite d p ws) s = .next s) ∧
        (∀ ws, x.outbound = false →
          let n := min ws.length (x.size - x.held)
          Completes (exec (.dpDataWrite d p ws) s) fun t =>
            (t.port d p).held = x.held + n ∧ (t.port d p).moved = x.moved + n ∧ (t.port d p).head = x.head ∧
            (0 < n → (t.port d p).waiter = none) ∧
            t.dram = ((List.range n).foldl (fun (u : State) i =>
              u.putCordLe c (x.wordAddr (x.held + i)) 4 (ws.getD i 0).toNat) s).dram ∧
            (let key := regKey d (0x1000C + p * 256)
             t.reg key = .ofNat 32 (min ((s.reg key).toNat + (ws.length - n)) 0xFFFFFFFF)) ∧
            (∀ sub t0, 0 < n → x.waiter = some (sub, t0) →
              ended t ∧ ∀ y ∈ t.jobs, y.sub = sub → y.ringWait = false)) ∧
        (∀ n, x.outbound = false → Completes (exec (.dpDataRead d p n) s) fun t =>
          (t.host d).lastRead = List.replicate n 0 ∧ { t with hosts := s.hosts } = s ∧
          ∀ q, t.port d q = s.port d q) ∧
        (∀ n, x.outbound = true →
          let k := min n x.held
          Completes (exec (.dpDataRead d p n) s) fun t =>
            (let y := { x with head := (x.head + k) % max 1 x.size, held := x.held - k, moved := x.moved + k }
             t.port d p = y) ∧
            (t.host d).lastRead = (List.range k).map word ∧ t.dram = s.dram ∧ { t with hosts := s.hosts } = s)) ∧
      (x.outbound = false ∨ x.size ≤ x.held ∨ x.waiter = none → exec (.outboundRingResume d p) s = .next s) ∧
      (∀ sub t0 j, x.outbound = true → x.held < x.size → x.waiter = some (sub, t0) → s.job? sub = some j →
        j.kind = 8 → j.intake.out = [] → j.intake.last = false →
        Completes (exec (.outboundRingResume d p) s) fun t =>
          t.port d p = { x with waiter := none } ∧ (∃ y, t.job? sub = some y ∧ y = { j with ringWait := false }) ∧
          ended t ∧ t.dram = s.dram) ∧
      (x.outbound = false ∨ x.stallSent = true ∨ (∀ w, x.waiter = some w → s.time ≤ w.2 + 1000000) →
        exec (.dataPortStall d p) s = .next s) ∧
      (∀ w, x.outbound = true → x.waiter = some w → w.2 + 1000000 < s.time → x.stallSent = false →
        Completes (exec (.dataPortStall d p) s) fun t =>
          t.port d p = { x with stallSent := true } ∧ Queued s t d 0x0102 1 p ∧ t.jobs = s.jobs ∧ t.dram = s.dram)) ∧
    (s.mayWrite d 0x1018 → Completes (exec (.tsyncReset d) s) fun t =>
      t.host d = { s.host d with open1 := none, exchanges := [], mapped := false, refHost := 0, offset := 0
                                 ratePpb := 0 } ∧
      (∀ x, x ≠ d → t.host x = s.host x) ∧ { t with hosts := s.hosts } = s) ∧
    (∀ (addr w : Word),
      let a := addr.toNat
      let write := Instr.registerWrite d addr w
      let set := Instr.setAliasWrite d addr w
      let clear := Instr.clearAliasWrite d addr w
      (s.mayAccess d a true = false → exec write s = .next s ∧ exec set s = .next s ∧ exec clear s = .next s) ∧
      (s.mayAccess d a false = false → exec (.readClear d addr) s = .next s ∧ exec (.loRead d addr) s = .next s) ∧
      (0x10000000 ≤ a → exec set s = .next s ∧ exec clear s = .next s) ∧
      (s.mayAccess d a true = true →
        (∀ i v, (i = write ∧ v = w) ∨ (i = set ∧ v = s.reg a ||| w) ∨ (i = clear ∧ v = s.reg a &&& ~~~ w) →
          (a = 0x200018 → Completes (exec i s) fun t =>
            t.reg a = v ∧ (∀ x, x ≠ a → t.reg x = s.reg x) ∧ { t with regs := s.regs } = s) ∧
          (a = 0x280004 ∨ a = 0x2A0004 → Completes (exec i s) fun t =>
            t.reg a = v &&& 3 ∧ (∀ x, x ≠ a → t.reg x = s.reg x) ∧
            t.trust = { s.trust with chg := s.trust.chg.append s.time d 0x101 addr (s.reg a) v } ∧
            { t with regs := s.regs, trust := s.trust } = s)) ∧
        (∀ g o, a < 0x10000000 → storeSlot a = some (g, o) → (s.hearth g).storeUe = [] →
          let m := (s.hearth g).store
          let old := BitVec.ofNat 32 (m.readLe o 4)
          ∀ i v, (i = write ∧ v = w) ∨ (i = set ∧ v = old ||| w) ∨ (i = clear ∧ v = old &&& ~~~ w) →
            Completes (exec i s) fun t =>
              (t.hearth g).store = m.putList zeroByte o (natLe v.toNat 4) ∧
              (∀ x, x ≠ g → t.hearth x = s.hearth x) ∧ t.dram = s.dram)) ∧
      (s.mayAccess d a false = true → a < 0x10000000 →
        (rcReg a = false → exec (.readClear d addr) s = .next s) ∧
        (rcReg a = true → s.shown a = true → ¬ (0x100000 ≤ a ∧ a < 0x200000 ∧ a % 65536 = 0xC00C) → ¬ (0x10000 ≤ a ∧ a < 0x11000 ∧ a % 256 = 0x10) →
          Completes (exec (.readClear d addr) s) fun t =>
            (t.host d).lastRead = [s.peek d a] ∧ t.reg (regKey d a) = 0 ∧ t.peek d a = 0 ∧
            (∀ x, x ≠ regKey d a → t.reg x = s.reg x) ∧ { t with regs := s.regs, hosts := s.hosts } = s) ∧
        (s.wide d a = none → exec (.loRead d addr) s = .next s) ∧
        (∀ v, s.wide d a = some v → s.shown a = true → Completes (exec (.loRead d addr) s) fun t =>
          (t.host d).lastRead = [BitVec.ofNat 32 v] ∧ t.peek d (a + 4) = .ofNat 32 (v / 2 ^ 32) ∧
          t.wide d a = some v ∧ { t with hosts := s.hosts } = s)))

/-- OPEN and CANCEL act only while the loader is not busy; OPEN starts an empty reception, LAY_DATA stages a word or
notes that the image is too large, VERIFY starts the checks. VERIFY_DONE reports the first failed check and its
offset, and logs it, or readies the image; an image that passes is signed by the owner for this part, and its Cords
share no Hearth and leave 15 W of the cap at VERIFY. APPLY starts draining and works out the affected Cords;
LAY_DRAIN_TIMEOUT aborts their jobs once its time since the APPLY has passed. DRAIN_END waits for them; then the
affected Cords' Hitches, counts and records are reset, while the old image stays shown. APPLY_COMPLETE makes the
image active, or, after a memory error, the image without the affected Cords, and logs LAY_APPLY. (R34, R45, R51,
R52, R53, R54, R55, R58, R59, R60, R61) -/
def Obligations.LayLoaderActs : Prop :=
  (∀ (s : State) (d : Nat),
    let l := s.loader
    let gets := fun (i : Instr) (x : Loader) => Completes (exec i s) fun t => t.loader = x ∧ { t with loader := l } = s
    let same := fun (i : Instr) => exec i s = .next s
    let n := l.count
    let image := s.staged
    (s.mayWrite d 0x200000 →
      (s.loaderBusy = true → same (.layOpen d) ∧ same (.layCancel d)) ∧
      (s.loaderBusy = false → gets (.layOpen d) { l with state := 1, count := 0, tooBig := false, next := none } ∧
        gets (.layCancel d) { l with state := 0, next := none }) ∧
      (l.state = 1 → gets (.layVerify d) { l with state := 2, capW := s.drg.capW }) ∧ (l.state ≠ 1 → same (.layVerify d)) ∧
      (∀ policy, (l.state ≠ 3 ∨ l.next = none → same (.layApply d policy)) ∧
        (∀ new, l.state = 3 → l.next = some new →
          let x := { l with state := 4, affected := affectedMask (s.lay.getD emptyLay) new
                            applyAt := s.time }
          (policy % 4 = 0 → gets (.layApply d policy) x) ∧
          (policy % 4 ≠ 0 → exec (.layApply d policy) s = .next ({ s with loader := x } : State).abortAffected)))) ∧
    (∀ w, s.mayWrite d 0x200008 →
      (l.state ≠ 1 → same (.layData d w)) ∧
      (l.state = 1 → s.stageLimit < n + 4 → gets (.layData d w) { l with tooBig := true }) ∧
      (l.state = 1 → n + 4 ≤ s.stageLimit → Completes (exec (.layData d w) s) fun t =>
        t.loader = { l with count := n + 4 } ∧
        t.dram = s.dram.putList zeroByte (s.stageAddr n) (natLe w.toNat 4) ∧ t.hearths = s.hearths ∧
        { t with dram := s.dram, dramUe := s.dramUe, loader := l } = s)) ∧
    (s.live = true →
      (l.state ≠ 2 → same .verifyDone) ∧
      (l.state = 2 →
        (∀ r off, s.checkImage image = some (r, off) → Completes (exec .verifyDone s) fun t =>
          t.loader = { l with state := 0, result := r, errOffset := .ofNat 32 off, next := none } ∧
          t.trust.chg.newest 0x102 0 0 (.ofNat 32 r) ∧ { t with loader := l, trust := s.trust } = s) ∧
        (s.checkImage image = none → gets .verifyDone
          { l with state := 3, result := 1, errOffset := 0xFFFFFFFF, next := some (readLay image) })) ∧
      (l.state = 4 → l.applyAt + (s.reg 0x200018).toNat * 1000 ≤ s.time →
        exec .layDrainTimeout s = .next s.abortAffected) ∧
      (s.time < l.applyAt + (s.reg 0x200018).toNat * 1000 → same .layDrainTimeout) ∧
      (l.state ≠ 4 → same .layDrainTimeout ∧ same .drainEnd) ∧ (l.state ≠ 5 → ∀ e, same (.applyComplete e)) ∧
      (∀ new, l.next = some new →
        let hit := fun (c : CordCfg) => s.affected.contains c.cord
        let cords := (s.lay.getD emptyLay).cords.filter hit ++ new.cords.filter hit
        let ours := fun k => ∃ c ∈ cords, c.hitchBase ≤ k ∧ k < c.hitchBase + c.hitchCount
        (l.state = 4 → (∃ j ∈ s.jobs, s.affected.contains j.cord = true) → same .drainEnd) ∧
        (l.state = 4 → (∀ j ∈ s.jobs, s.affected.contains j.cord = false) → (∀ e ∈ s.hitches, e.2.queue = []) →
          Completes (exec .drainEnd s) fun t =>
            t.loader = { l with state := 5 } ∧ t.lay = s.lay ∧ t.jobs = s.jobs ∧ t.hearths = s.hearths ∧
            (∀ k, ours k → t.hitch k = {}) ∧ (∀ k, ¬ ours k → t.hitch k = s.hitch k) ∧
            (∀ m, s.affected.contains m = true → t.cordRt m = {}) ∧
            (∀ m, s.affected.contains m = false → t.cordRt m = s.cordRt m) ∧
            (∀ i, (∃ c ∈ cords, c.sessionBase ≤ i ∧ i < c.sessionBase + c.sessionCount) → t.sess i = {})) ∧
        (∀ e, l.state = 5 → Completes (exec (.applyComplete e) s) fun t =>
          let bad := e || s.stagedUe
          t.lay = some (if bad = true then withoutCords new s.affected else new) ∧
          t.loader = { l with state := 0, result := if bad = true then 14 else 1, errOffset := 0xFFFFFFFF
                              next := none } ∧
          ∃ x ∈ t.trust.chg.entries, x.kind = 0x103 ∧ x.new = .ofNat 32 (wordAt (hashBytes new.hash) 0))))) ∧
  ∀ (s : State) (d : List Byte), s.checkImage d = none →
    let n := leAt d 12 4
    let o := s.trust.owner
    o.isDefault = false ∧ ecdsaOk (o.ecdsaKey, o.lmsKey) (d.take n) ((d.drop n).take trailerLen) = true ∧
    lmsOk (o.ecdsaKey, o.lmsKey) (d.take n) ((d.drop n).take trailerLen) = true ∧ leAt d 32 4 = 0x09600040 ∧
    (secsOf d 3).Pairwise (fun x y => leAt d (x.off + 8) 8 &&& leAt d (y.off + 8) 8 = 0) ∧
    15000 + ((secsOf d 3).map fun x => leAt d (x.off + 4) 4).sum ≤ max 15000 (s.loader.capW * 1000) ∧
    (∀ x ∈ secsOf d 3, leAt d x.off 1 = x.inst ∧ leAt d (x.off + 1) 1 < 4 ∧ leAt d (x.off + 8) 8 ≠ 0)
end

