-- ==== Sys2Proof/Laws/SMap.lean ====
section
/-! SUPPORT. Laws of the sparse arrays: a read after a write, and the canonical form. -/

namespace Sys2Proof

variable {β : Type} [DecidableEq β] {dflt : Nat → β}

omit [DecidableEq β] in
@[simp] theorem SMap.look_empty (k : Nat) : SMap.look dflt [] k = dflt k := rfl

omit [DecidableEq β] in
theorem SMap.look_drop (m : SMap β) (k j : Nat) :
    (m.drop k).look dflt j = if j = k then dflt j else m.look dflt j := by
  induction m with
  | nil => simp [SMap.drop]
  | cons e m ih =>
    obtain ⟨i, v⟩ := e
    simp only [SMap.drop] at ih
    by_cases hi : i = k
    · subst hi; simp [SMap.drop, SMap.look, ih]; split <;> simp_all [eq_comm]
    · by_cases hj : i = j
      · subst hj; simp [SMap.drop, SMap.look, hi]
      · simp [SMap.drop, SMap.look, hi, hj, ih]

omit [DecidableEq β] in
theorem SMap.look_place_of_ne (m : SMap β) (v : β) {k j : Nat} (h : j ≠ k) :
    (SMap.place k v m).look dflt j = m.look dflt j := by
  induction m with
  | nil => simp [SMap.place, SMap.look, h.symm]
  | cons e m ih =>
    obtain ⟨i, w⟩ := e
    by_cases hk : k < i
    · simp [SMap.place, SMap.look, hk, h.symm]
    · simp [SMap.place, SMap.look, hk, ih]

omit [DecidableEq β] in
theorem SMap.look_place_same (m : SMap β) (k : Nat) (v : β) (h : ∀ e ∈ m, e.1 ≠ k) :
    (SMap.place k v m).look dflt k = v := by
  induction m with
  | nil => simp [SMap.place, SMap.look]
  | cons e m ih =>
    obtain ⟨i, w⟩ := e
    have hi : i ≠ k := h (i, w) (by simp)
    by_cases hk : k < i
    · simp [SMap.place, SMap.look, hk]
    · simp [SMap.place, SMap.look, hk, hi, ih fun e he => h e (by simp [he])]

/-- A read after a write gives the value written there, and the old value elsewhere. -/
theorem SMap.look_put (m : SMap β) (k j : Nat) (v : β) :
    (m.put dflt k v).look dflt j = if j = k then v else m.look dflt j := by
  by_cases hv : v = dflt k
  · rw [SMap.put, if_pos hv, SMap.look_drop]; split <;> simp_all
  · rw [SMap.put, if_neg hv]
    by_cases hj : j = k
    · subst hj
      rw [SMap.look_place_same _ _ _ fun e he => by simp [SMap.drop] at he; exact he.2]; simp
    · rw [SMap.look_place_of_ne _ _ hj, SMap.look_drop, if_neg hj, if_neg hj]

@[simp] theorem SMap.look_put_same (m : SMap β) (k : Nat) (v : β) : (m.put dflt k v).look dflt k = v := by
  simp [SMap.look_put]

theorem SMap.look_put_of_ne (m : SMap β) (v : β) {k j : Nat} (h : j ≠ k) :
    (m.put dflt k v).look dflt j = m.look dflt j := by simp [SMap.look_put, h]

theorem SMap.look_modify (m : SMap β) (k j : Nat) (f : β → β) :
    (m.modify dflt k f).look dflt j = if j = k then f (m.look dflt k) else m.look dflt j := by
  simp [SMap.modify, SMap.look_put]

omit [DecidableEq β] in
theorem SMap.look_wipe (m : SMap β) (lo n j : Nat) :
    (m.wipe lo n).look dflt j = if lo ≤ j ∧ j < lo + n then dflt j else m.look dflt j := by
  induction m with
  | nil => simp [SMap.wipe]
  | cons e m ih =>
    obtain ⟨i, v⟩ := e
    simp only [SMap.wipe] at ih
    by_cases hj : i = j
    · subst hj
      by_cases h : lo ≤ i ∧ i < lo + n
      · rw [SMap.wipe, List.filter_cons_of_neg (by simp [h]), ih]; simp [h]
      · rw [SMap.wipe, List.filter_cons_of_pos (by simp; omega), if_neg h]; simp [SMap.look]
    · by_cases h : lo ≤ i ∧ i < lo + n
      · rw [SMap.wipe, List.filter_cons_of_neg (by simp [h]), ih]; simp [SMap.look, hj]
      · rw [SMap.wipe, List.filter_cons_of_pos (by simp; omega), SMap.look, if_neg hj, SMap.look, if_neg hj, ih]

/-- A write of a list changes its own indices only. -/
theorem SMap.look_putList_outside (m : SMap β) (k j : Nat) (vs : List β) (h : j < k ∨ k + vs.length ≤ j) :
    (m.putList dflt k vs).look dflt j = m.look dflt j := by
  induction vs generalizing m k with
  | nil => simp [SMap.putList]
  | cons v vs ih =>
    have hk : j ≠ k := by simp at h; omega
    rw [SMap.putList, ih _ _ (by simp at h ⊢; omega), SMap.look_put_of_ne _ _ hk]

theorem SMap.look_putList_inside (m : SMap β) (k i : Nat) (vs : List β) (h : i < vs.length) :
    (m.putList dflt k vs).look dflt (k + i) = vs[i] := by
  induction vs generalizing m k i with
  | nil => simp at h
  | cons v vs ih =>
    cases i with
    | zero => rw [SMap.putList, SMap.look_putList_outside _ _ _ _ (by simp)]; simp
    | succ i =>
      simp only [List.length_cons, Nat.add_lt_add_iff_right] at h
      rw [SMap.putList, show k + (i + 1) = k + 1 + i by omega, ih _ _ _ h]; simp

omit [DecidableEq β] in
@[simp] theorem SMap.length_lookList (m : SMap β) (k n : Nat) : (m.lookList dflt k n).length = n := by
  induction n generalizing k <;> simp [SMap.lookList, *]

@[simp] theorem length_natLe (x n : Nat) : (natLe x n).length = n := by
  induction n generalizing x <;> simp [natLe, *]

theorem leNat_natLe (x n : Nat) : leNat (natLe x n) = x % 2 ^ (8 * n) := by
  induction n generalizing x with
  | zero => simp [natLe, leNat, Nat.mod_one]
  | succ n ih =>
    rw [natLe, leNat, ih, show 8 * (n + 1) = 8 + 8 * n by omega, Nat.pow_add, Nat.mod_mul]
    simp

/-- A list that has just been written reads back. -/
theorem SMap.lookList_putList (m : SMap β) (k : Nat) (vs : List β) :
    (m.putList dflt k vs).lookList dflt k vs.length = vs := by
  induction vs generalizing m k with
  | nil => rfl
  | cons v vs ih =>
    simp only [SMap.putList, List.length_cons, SMap.lookList, ih]
    rw [SMap.look_putList_outside _ _ _ _ (by simp)]; simp

/-- A number that has just been written reads back, cut to its bytes. -/
theorem SMap.readLe_writeLe (m : SMap Byte) (a n x : Nat) : (m.writeLe a n x).readLe a n = x % 2 ^ (8 * n) := by
  have h := SMap.lookList_putList (dflt := zeroByte) m a (natLe x n)
  rw [length_natLe] at h
  rw [SMap.readLe, SMap.writeLe, h, leNat_natLe]

/-! ### The canonical form -/

theorem SMap.wf_cons {i : Nat} {v : β} {m : SMap β} :
    SMap.wf dflt ((i, v) :: m) = true ↔ (∀ e ∈ m, i < e.1) ∧ v ≠ dflt i ∧ SMap.wf dflt m = true := by
  simp [SMap.wf, and_assoc]

theorem SMap.wf_filter {m : SMap β} (p : Nat × β → Bool) (h : SMap.wf dflt m = true) :
    SMap.wf dflt (m.filter p) = true := by
  induction m with
  | nil => simpa using h
  | cons e m ih =>
    obtain ⟨i, v⟩ := e
    obtain ⟨h1, h2, h3⟩ := SMap.wf_cons.1 h
    by_cases hp : p (i, v)
    · rw [List.filter_cons_of_pos hp, SMap.wf_cons]
      exact ⟨fun e he => h1 e (List.mem_filter.1 he).1, h2, ih h3⟩
    · rw [List.filter_cons_of_neg hp]; exact ih h3

omit [DecidableEq β] in
theorem SMap.mem_place {m : SMap β} {k : Nat} {v : β} {e : Nat × β} (h : e ∈ SMap.place k v m) :
    e = (k, v) ∨ e ∈ m := by
  induction m with
  | nil => simpa [SMap.place] using h
  | cons f m ih =>
    obtain ⟨i, w⟩ := f
    by_cases hk : k < i
    · simpa [SMap.place, hk] using h
    · simp [SMap.place, hk] at h; rcases h with h | h
      · simp [h]
      · rcases ih h with h | h <;> simp [h]

theorem SMap.wf_place {m : SMap β} {k : Nat} {v : β} (hv : v ≠ dflt k) (hk : ∀ e ∈ m, e.1 ≠ k)
    (h : SMap.wf dflt m = true) : SMap.wf dflt (SMap.place k v m) = true := by
  induction m with
  | nil => simp [SMap.place, SMap.wf, hv]
  | cons e m ih =>
    obtain ⟨i, w⟩ := e
    obtain ⟨h1, h2, h3⟩ := SMap.wf_cons.1 h
    by_cases hlt : k < i
    · rw [SMap.place, if_pos hlt, SMap.wf_cons]
      refine ⟨fun e he => ?_, hv, h⟩
      rcases List.mem_cons.1 he with rfl | he
      · exact hlt
      · exact Nat.lt_trans hlt (h1 e he)
    · rw [SMap.place, if_neg hlt, SMap.wf_cons]
      refine ⟨fun e he => ?_, h2, ih (fun e he => hk e (by simp [he])) h3⟩
      have hik := hk (i, w) (by simp)
      rcases SMap.mem_place he with rfl | he
      · simp at hik ⊢; omega
      · exact h1 e he

/-- A write keeps the canonical form. -/
theorem SMap.wf_put {m : SMap β} (k : Nat) (v : β) (h : SMap.wf dflt m = true) :
    SMap.wf dflt (m.put dflt k v) = true := by
  rw [SMap.put]; split
  · exact SMap.wf_filter _ h
  · exact SMap.wf_place ‹_› (fun e he => by simp [SMap.drop] at he; exact he.2) (SMap.wf_filter _ h)

theorem SMap.wf_putList {m : SMap β} (k : Nat) (vs : List β) (h : SMap.wf dflt m = true) :
    SMap.wf dflt (m.putList dflt k vs) = true := by
  induction vs generalizing m k with
  | nil => exact h
  | cons v vs ih => exact ih _ (SMap.wf_put _ _ h)

theorem SMap.wf_wipe {m : SMap β} (lo n : Nat) (h : SMap.wf dflt m = true) :
    SMap.wf dflt (m.wipe lo n) = true := SMap.wf_filter _ h

theorem SMap.wf_writeLe {m : SMap Byte} (a n x : Nat) (h : SMap.wf zeroByte m = true) :
    SMap.wf zeroByte (m.writeLe a n x) = true := SMap.wf_putList _ _ h

end Sys2Proof
end

