-- ==== Sys2Proof/Laws/State.lean ====
section
/-! SUPPORT. What the state updates leave alone, field by field, and what their accessors read afterwards. -/

namespace Sys2Proof.Machine

variable (s : State)

/-! ### `setHost` -/

@[simp] theorem State.setHost_pending (d : Nat) (v : HostPort) : (s.setHost d v).pending = s.pending := rfl
@[simp] theorem State.setHost_time (d : Nat) (v : HostPort) : (s.setHost d v).time = s.time := rfl
@[simp] theorem State.setHost_wall (d : Nat) (v : HostPort) : (s.setHost d v).wall = s.wall := rfl
@[simp] theorem State.setHost_came (d : Nat) (v : HostPort) : (s.setHost d v).came = s.came := rfl
@[simp] theorem State.setHost_draws (d : Nat) (v : HostPort) : (s.setHost d v).draws = s.draws := rfl
@[simp] theorem State.setHost_pwr (d : Nat) (v : HostPort) : (s.setHost d v).pwr = s.pwr := rfl
@[simp] theorem State.setHost_lands (d : Nat) (v : HostPort) : (s.setHost d v).lands = s.lands := rfl
@[simp] theorem State.setHost_clk (d : Nat) (v : HostPort) : (s.setHost d v).clk = s.clk := rfl
@[simp] theorem State.setHost_links (d : Nat) (v : HostPort) : (s.setHost d v).links = s.links := rfl
@[simp] theorem State.setHost_drg (d : Nat) (v : HostPort) : (s.setHost d v).drg = s.drg := rfl
@[simp] theorem State.setHost_flt (d : Nat) (v : HostPort) : (s.setHost d v).flt = s.flt := rfl
@[simp] theorem State.setHost_trust (d : Nat) (v : HostPort) : (s.setHost d v).trust = s.trust := rfl
@[simp] theorem State.setHost_flash (d : Nat) (v : HostPort) : (s.setHost d v).flash = s.flash := rfl
@[simp] theorem State.setHost_regs (d : Nat) (v : HostPort) : (s.setHost d v).regs = s.regs := rfl
@[simp] theorem State.setHost_loader (d : Nat) (v : HostPort) : (s.setHost d v).loader = s.loader := rfl
@[simp] theorem State.setHost_lay (d : Nat) (v : HostPort) : (s.setHost d v).lay = s.lay := rfl
@[simp] theorem State.setHost_phys (d : Nat) (v : HostPort) : (s.setHost d v).phys = s.phys := rfl
@[simp] theorem State.setHost_place (d : Nat) (v : HostPort) : (s.setHost d v).place = s.place := rfl
@[simp] theorem State.setHost_hearths (d : Nat) (v : HostPort) : (s.setHost d v).hearths = s.hearths := rfl
@[simp] theorem State.setHost_dram (d : Nat) (v : HostPort) : (s.setHost d v).dram = s.dram := rfl
@[simp] theorem State.setHost_dramUe (d : Nat) (v : HostPort) : (s.setHost d v).dramUe = s.dramUe := rfl
@[simp] theorem State.setHost_mem (d : Nat) (v : HostPort) : (s.setHost d v).mem = s.mem := rfl
@[simp] theorem State.setHost_hitches (d : Nat) (v : HostPort) : (s.setHost d v).hitches = s.hitches := rfl
@[simp] theorem State.setHost_jobs (d : Nat) (v : HostPort) : (s.setHost d v).jobs = s.jobs := rfl
@[simp] theorem State.setHost_ended (d : Nat) (v : HostPort) : (s.setHost d v).ended = s.ended := rfl
@[simp] theorem State.setHost_nextSub (d : Nat) (v : HostPort) : (s.setHost d v).nextSub = s.nextSub := rfl
@[simp] theorem State.setHost_slots (d : Nat) (v : HostPort) : (s.setHost d v).slots = s.slots := rfl
@[simp] theorem State.setHost_fills (d : Nat) (v : HostPort) : (s.setHost d v).fills = s.fills := rfl
@[simp] theorem State.setHost_sessions (d : Nat) (v : HostPort) : (s.setHost d v).sessions = s.sessions := rfl
@[simp] theorem State.setHost_sessCache (d : Nat) (v : HostPort) : (s.setHost d v).sessCache = s.sessCache := rfl
@[simp] theorem State.setHost_cords (d : Nat) (v : HostPort) : (s.setHost d v).cords = s.cords := rfl
@[simp] theorem State.setHost_panels (d : Nat) (v : HostPort) : (s.setHost d v).panels = s.panels := rfl
@[simp] theorem State.setHost_frame (d : Nat) (v : HostPort) : (s.setHost d v).frame = s.frame := rfl
@[simp] theorem State.setHost_saved (d : Nat) (v : HostPort) : (s.setHost d v).saved = s.saved := rfl
@[simp] theorem State.setHost_hostCounts (d : Nat) (v : HostPort) : (s.setHost d v).hostCounts = s.hostCounts := rfl

/-! ### `setPhy` -/

@[simp] theorem State.setPhy_pending (p : Nat) (v : Phys) : (s.setPhy p v).pending = s.pending := rfl
@[simp] theorem State.setPhy_time (p : Nat) (v : Phys) : (s.setPhy p v).time = s.time := rfl
@[simp] theorem State.setPhy_wall (p : Nat) (v : Phys) : (s.setPhy p v).wall = s.wall := rfl
@[simp] theorem State.setPhy_came (p : Nat) (v : Phys) : (s.setPhy p v).came = s.came := rfl
@[simp] theorem State.setPhy_draws (p : Nat) (v : Phys) : (s.setPhy p v).draws = s.draws := rfl
@[simp] theorem State.setPhy_pwr (p : Nat) (v : Phys) : (s.setPhy p v).pwr = s.pwr := rfl
@[simp] theorem State.setPhy_lands (p : Nat) (v : Phys) : (s.setPhy p v).lands = s.lands := rfl
@[simp] theorem State.setPhy_clk (p : Nat) (v : Phys) : (s.setPhy p v).clk = s.clk := rfl
@[simp] theorem State.setPhy_links (p : Nat) (v : Phys) : (s.setPhy p v).links = s.links := rfl
@[simp] theorem State.setPhy_drg (p : Nat) (v : Phys) : (s.setPhy p v).drg = s.drg := rfl
@[simp] theorem State.setPhy_flt (p : Nat) (v : Phys) : (s.setPhy p v).flt = s.flt := rfl
@[simp] theorem State.setPhy_trust (p : Nat) (v : Phys) : (s.setPhy p v).trust = s.trust := rfl
@[simp] theorem State.setPhy_flash (p : Nat) (v : Phys) : (s.setPhy p v).flash = s.flash := rfl
@[simp] theorem State.setPhy_hosts (p : Nat) (v : Phys) : (s.setPhy p v).hosts = s.hosts := rfl
@[simp] theorem State.setPhy_regs (p : Nat) (v : Phys) : (s.setPhy p v).regs = s.regs := rfl
@[simp] theorem State.setPhy_loader (p : Nat) (v : Phys) : (s.setPhy p v).loader = s.loader := rfl
@[simp] theorem State.setPhy_lay (p : Nat) (v : Phys) : (s.setPhy p v).lay = s.lay := rfl
@[simp] theorem State.setPhy_place (p : Nat) (v : Phys) : (s.setPhy p v).place = s.place := rfl
@[simp] theorem State.setPhy_hearths (p : Nat) (v : Phys) : (s.setPhy p v).hearths = s.hearths := rfl
@[simp] theorem State.setPhy_dram (p : Nat) (v : Phys) : (s.setPhy p v).dram = s.dram := rfl
@[simp] theorem State.setPhy_dramUe (p : Nat) (v : Phys) : (s.setPhy p v).dramUe = s.dramUe := rfl
@[simp] theorem State.setPhy_mem (p : Nat) (v : Phys) : (s.setPhy p v).mem = s.mem := rfl
@[simp] theorem State.setPhy_hitches (p : Nat) (v : Phys) : (s.setPhy p v).hitches = s.hitches := rfl
@[simp] theorem State.setPhy_jobs (p : Nat) (v : Phys) : (s.setPhy p v).jobs = s.jobs := rfl
@[simp] theorem State.setPhy_ended (p : Nat) (v : Phys) : (s.setPhy p v).ended = s.ended := rfl
@[simp] theorem State.setPhy_nextSub (p : Nat) (v : Phys) : (s.setPhy p v).nextSub = s.nextSub := rfl
@[simp] theorem State.setPhy_slots (p : Nat) (v : Phys) : (s.setPhy p v).slots = s.slots := rfl
@[simp] theorem State.setPhy_fills (p : Nat) (v : Phys) : (s.setPhy p v).fills = s.fills := rfl
@[simp] theorem State.setPhy_sessions (p : Nat) (v : Phys) : (s.setPhy p v).sessions = s.sessions := rfl
@[simp] theorem State.setPhy_sessCache (p : Nat) (v : Phys) : (s.setPhy p v).sessCache = s.sessCache := rfl
@[simp] theorem State.setPhy_cords (p : Nat) (v : Phys) : (s.setPhy p v).cords = s.cords := rfl
@[simp] theorem State.setPhy_panels (p : Nat) (v : Phys) : (s.setPhy p v).panels = s.panels := rfl
@[simp] theorem State.setPhy_frame (p : Nat) (v : Phys) : (s.setPhy p v).frame = s.frame := rfl
@[simp] theorem State.setPhy_saved (p : Nat) (v : Phys) : (s.setPhy p v).saved = s.saved := rfl
@[simp] theorem State.setPhy_hostCounts (p : Nat) (v : Phys) : (s.setPhy p v).hostCounts = s.hostCounts := rfl

/-! ### `setHearth` -/

@[simp] theorem State.setHearth_pending (h : Nat) (v : Hearth) : (s.setHearth h v).pending = s.pending := rfl
@[simp] theorem State.setHearth_time (h : Nat) (v : Hearth) : (s.setHearth h v).time = s.time := rfl
@[simp] theorem State.setHearth_wall (h : Nat) (v : Hearth) : (s.setHearth h v).wall = s.wall := rfl
@[simp] theorem State.setHearth_came (h : Nat) (v : Hearth) : (s.setHearth h v).came = s.came := rfl
@[simp] theorem State.setHearth_draws (h : Nat) (v : Hearth) : (s.setHearth h v).draws = s.draws := rfl
@[simp] theorem State.setHearth_pwr (h : Nat) (v : Hearth) : (s.setHearth h v).pwr = s.pwr := rfl
@[simp] theorem State.setHearth_lands (h : Nat) (v : Hearth) : (s.setHearth h v).lands = s.lands := rfl
@[simp] theorem State.setHearth_clk (h : Nat) (v : Hearth) : (s.setHearth h v).clk = s.clk := rfl
@[simp] theorem State.setHearth_links (h : Nat) (v : Hearth) : (s.setHearth h v).links = s.links := rfl
@[simp] theorem State.setHearth_drg (h : Nat) (v : Hearth) : (s.setHearth h v).drg = s.drg := rfl
@[simp] theorem State.setHearth_flt (h : Nat) (v : Hearth) : (s.setHearth h v).flt = s.flt := rfl
@[simp] theorem State.setHearth_trust (h : Nat) (v : Hearth) : (s.setHearth h v).trust = s.trust := rfl
@[simp] theorem State.setHearth_flash (h : Nat) (v : Hearth) : (s.setHearth h v).flash = s.flash := rfl
@[simp] theorem State.setHearth_hosts (h : Nat) (v : Hearth) : (s.setHearth h v).hosts = s.hosts := rfl
@[simp] theorem State.setHearth_regs (h : Nat) (v : Hearth) : (s.setHearth h v).regs = s.regs := rfl
@[simp] theorem State.setHearth_loader (h : Nat) (v : Hearth) : (s.setHearth h v).loader = s.loader := rfl
@[simp] theorem State.setHearth_lay (h : Nat) (v : Hearth) : (s.setHearth h v).lay = s.lay := rfl
@[simp] theorem State.setHearth_phys (h : Nat) (v : Hearth) : (s.setHearth h v).phys = s.phys := rfl
@[simp] theorem State.setHearth_place (h : Nat) (v : Hearth) : (s.setHearth h v).place = s.place := rfl
@[simp] theorem State.setHearth_dram (h : Nat) (v : Hearth) : (s.setHearth h v).dram = s.dram := rfl
@[simp] theorem State.setHearth_dramUe (h : Nat) (v : Hearth) : (s.setHearth h v).dramUe = s.dramUe := rfl
@[simp] theorem State.setHearth_mem (h : Nat) (v : Hearth) : (s.setHearth h v).mem = s.mem := rfl
@[simp] theorem State.setHearth_hitches (h : Nat) (v : Hearth) : (s.setHearth h v).hitches = s.hitches := rfl
@[simp] theorem State.setHearth_jobs (h : Nat) (v : Hearth) : (s.setHearth h v).jobs = s.jobs := rfl
@[simp] theorem State.setHearth_ended (h : Nat) (v : Hearth) : (s.setHearth h v).ended = s.ended := rfl
@[simp] theorem State.setHearth_nextSub (h : Nat) (v : Hearth) : (s.setHearth h v).nextSub = s.nextSub := rfl
@[simp] theorem State.setHearth_slots (h : Nat) (v : Hearth) : (s.setHearth h v).slots = s.slots := rfl
@[simp] theorem State.setHearth_fills (h : Nat) (v : Hearth) : (s.setHearth h v).fills = s.fills := rfl
@[simp] theorem State.setHearth_sessions (h : Nat) (v : Hearth) : (s.setHearth h v).sessions = s.sessions := rfl
@[simp] theorem State.setHearth_sessCache (h : Nat) (v : Hearth) : (s.setHearth h v).sessCache = s.sessCache := rfl
@[simp] theorem State.setHearth_cords (h : Nat) (v : Hearth) : (s.setHearth h v).cords = s.cords := rfl
@[simp] theorem State.setHearth_panels (h : Nat) (v : Hearth) : (s.setHearth h v).panels = s.panels := rfl
@[simp] theorem State.setHearth_frame (h : Nat) (v : Hearth) : (s.setHearth h v).frame = s.frame := rfl
@[simp] theorem State.setHearth_saved (h : Nat) (v : Hearth) : (s.setHearth h v).saved = s.saved := rfl
@[simp] theorem State.setHearth_hostCounts (h : Nat) (v : Hearth) : (s.setHearth h v).hostCounts = s.hostCounts := rfl

/-! ### `setCore` -/

@[simp] theorem State.setCore_pending (h c : Nat) (v : Core) : (s.setCore h c v).pending = s.pending := rfl
@[simp] theorem State.setCore_time (h c : Nat) (v : Core) : (s.setCore h c v).time = s.time := rfl
@[simp] theorem State.setCore_wall (h c : Nat) (v : Core) : (s.setCore h c v).wall = s.wall := rfl
@[simp] theorem State.setCore_came (h c : Nat) (v : Core) : (s.setCore h c v).came = s.came := rfl
@[simp] theorem State.setCore_draws (h c : Nat) (v : Core) : (s.setCore h c v).draws = s.draws := rfl
@[simp] theorem State.setCore_pwr (h c : Nat) (v : Core) : (s.setCore h c v).pwr = s.pwr := rfl
@[simp] theorem State.setCore_lands (h c : Nat) (v : Core) : (s.setCore h c v).lands = s.lands := rfl
@[simp] theorem State.setCore_clk (h c : Nat) (v : Core) : (s.setCore h c v).clk = s.clk := rfl
@[simp] theorem State.setCore_links (h c : Nat) (v : Core) : (s.setCore h c v).links = s.links := rfl
@[simp] theorem State.setCore_drg (h c : Nat) (v : Core) : (s.setCore h c v).drg = s.drg := rfl
@[simp] theorem State.setCore_flt (h c : Nat) (v : Core) : (s.setCore h c v).flt = s.flt := rfl
@[simp] theorem State.setCore_trust (h c : Nat) (v : Core) : (s.setCore h c v).trust = s.trust := rfl
@[simp] theorem State.setCore_flash (h c : Nat) (v : Core) : (s.setCore h c v).flash = s.flash := rfl
@[simp] theorem State.setCore_hosts (h c : Nat) (v : Core) : (s.setCore h c v).hosts = s.hosts := rfl
@[simp] theorem State.setCore_regs (h c : Nat) (v : Core) : (s.setCore h c v).regs = s.regs := rfl
@[simp] theorem State.setCore_loader (h c : Nat) (v : Core) : (s.setCore h c v).loader = s.loader := rfl
@[simp] theorem State.setCore_lay (h c : Nat) (v : Core) : (s.setCore h c v).lay = s.lay := rfl
@[simp] theorem State.setCore_phys (h c : Nat) (v : Core) : (s.setCore h c v).phys = s.phys := rfl
@[simp] theorem State.setCore_place (h c : Nat) (v : Core) : (s.setCore h c v).place = s.place := rfl
@[simp] theorem State.setCore_dram (h c : Nat) (v : Core) : (s.setCore h c v).dram = s.dram := rfl
@[simp] theorem State.setCore_dramUe (h c : Nat) (v : Core) : (s.setCore h c v).dramUe = s.dramUe := rfl
@[simp] theorem State.setCore_mem (h c : Nat) (v : Core) : (s.setCore h c v).mem = s.mem := rfl
@[simp] theorem State.setCore_hitches (h c : Nat) (v : Core) : (s.setCore h c v).hitches = s.hitches := rfl
@[simp] theorem State.setCore_jobs (h c : Nat) (v : Core) : (s.setCore h c v).jobs = s.jobs := rfl
@[simp] theorem State.setCore_ended (h c : Nat) (v : Core) : (s.setCore h c v).ended = s.ended := rfl
@[simp] theorem State.setCore_nextSub (h c : Nat) (v : Core) : (s.setCore h c v).nextSub = s.nextSub := rfl
@[simp] theorem State.setCore_slots (h c : Nat) (v : Core) : (s.setCore h c v).slots = s.slots := rfl
@[simp] theorem State.setCore_fills (h c : Nat) (v : Core) : (s.setCore h c v).fills = s.fills := rfl
@[simp] theorem State.setCore_sessions (h c : Nat) (v : Core) : (s.setCore h c v).sessions = s.sessions := rfl
@[simp] theorem State.setCore_sessCache (h c : Nat) (v : Core) : (s.setCore h c v).sessCache = s.sessCache := rfl
@[simp] theorem State.setCore_cords (h c : Nat) (v : Core) : (s.setCore h c v).cords = s.cords := rfl
@[simp] theorem State.setCore_panels (h c : Nat) (v : Core) : (s.setCore h c v).panels = s.panels := rfl
@[simp] theorem State.setCore_frame (h c : Nat) (v : Core) : (s.setCore h c v).frame = s.frame := rfl
@[simp] theorem State.setCore_saved (h c : Nat) (v : Core) : (s.setCore h c v).saved = s.saved := rfl
@[simp] theorem State.setCore_hostCounts (h c : Nat) (v : Core) : (s.setCore h c v).hostCounts = s.hostCounts := rfl

/-! ### `setKiln` -/

@[simp] theorem State.setKiln_pending (h k : Nat) (v : Kiln) : (s.setKiln h k v).pending = s.pending := rfl
@[simp] theorem State.setKiln_time (h k : Nat) (v : Kiln) : (s.setKiln h k v).time = s.time := rfl
@[simp] theorem State.setKiln_wall (h k : Nat) (v : Kiln) : (s.setKiln h k v).wall = s.wall := rfl
@[simp] theorem State.setKiln_came (h k : Nat) (v : Kiln) : (s.setKiln h k v).came = s.came := rfl
@[simp] theorem State.setKiln_draws (h k : Nat) (v : Kiln) : (s.setKiln h k v).draws = s.draws := rfl
@[simp] theorem State.setKiln_pwr (h k : Nat) (v : Kiln) : (s.setKiln h k v).pwr = s.pwr := rfl
@[simp] theorem State.setKiln_lands (h k : Nat) (v : Kiln) : (s.setKiln h k v).lands = s.lands := rfl
@[simp] theorem State.setKiln_clk (h k : Nat) (v : Kiln) : (s.setKiln h k v).clk = s.clk := rfl
@[simp] theorem State.setKiln_links (h k : Nat) (v : Kiln) : (s.setKiln h k v).links = s.links := rfl
@[simp] theorem State.setKiln_drg (h k : Nat) (v : Kiln) : (s.setKiln h k v).drg = s.drg := rfl
@[simp] theorem State.setKiln_flt (h k : Nat) (v : Kiln) : (s.setKiln h k v).flt = s.flt := rfl
@[simp] theorem State.setKiln_trust (h k : Nat) (v : Kiln) : (s.setKiln h k v).trust = s.trust := rfl
@[simp] theorem State.setKiln_flash (h k : Nat) (v : Kiln) : (s.setKiln h k v).flash = s.flash := rfl
@[simp] theorem State.setKiln_hosts (h k : Nat) (v : Kiln) : (s.setKiln h k v).hosts = s.hosts := rfl
@[simp] theorem State.setKiln_regs (h k : Nat) (v : Kiln) : (s.setKiln h k v).regs = s.regs := rfl
@[simp] theorem State.setKiln_loader (h k : Nat) (v : Kiln) : (s.setKiln h k v).loader = s.loader := rfl
@[simp] theorem State.setKiln_lay (h k : Nat) (v : Kiln) : (s.setKiln h k v).lay = s.lay := rfl
@[simp] theorem State.setKiln_phys (h k : Nat) (v : Kiln) : (s.setKiln h k v).phys = s.phys := rfl
@[simp] theorem State.setKiln_place (h k : Nat) (v : Kiln) : (s.setKiln h k v).place = s.place := rfl
@[simp] theorem State.setKiln_dram (h k : Nat) (v : Kiln) : (s.setKiln h k v).dram = s.dram := rfl
@[simp] theorem State.setKiln_dramUe (h k : Nat) (v : Kiln) : (s.setKiln h k v).dramUe = s.dramUe := rfl
@[simp] theorem State.setKiln_mem (h k : Nat) (v : Kiln) : (s.setKiln h k v).mem = s.mem := rfl
@[simp] theorem State.setKiln_hitches (h k : Nat) (v : Kiln) : (s.setKiln h k v).hitches = s.hitches := rfl
@[simp] theorem State.setKiln_jobs (h k : Nat) (v : Kiln) : (s.setKiln h k v).jobs = s.jobs := rfl
@[simp] theorem State.setKiln_ended (h k : Nat) (v : Kiln) : (s.setKiln h k v).ended = s.ended := rfl
@[simp] theorem State.setKiln_nextSub (h k : Nat) (v : Kiln) : (s.setKiln h k v).nextSub = s.nextSub := rfl
@[simp] theorem State.setKiln_slots (h k : Nat) (v : Kiln) : (s.setKiln h k v).slots = s.slots := rfl
@[simp] theorem State.setKiln_fills (h k : Nat) (v : Kiln) : (s.setKiln h k v).fills = s.fills := rfl
@[simp] theorem State.setKiln_sessions (h k : Nat) (v : Kiln) : (s.setKiln h k v).sessions = s.sessions := rfl
@[simp] theorem State.setKiln_sessCache (h k : Nat) (v : Kiln) : (s.setKiln h k v).sessCache = s.sessCache := rfl
@[simp] theorem State.setKiln_cords (h k : Nat) (v : Kiln) : (s.setKiln h k v).cords = s.cords := rfl
@[simp] theorem State.setKiln_panels (h k : Nat) (v : Kiln) : (s.setKiln h k v).panels = s.panels := rfl
@[simp] theorem State.setKiln_frame (h k : Nat) (v : Kiln) : (s.setKiln h k v).frame = s.frame := rfl
@[simp] theorem State.setKiln_saved (h k : Nat) (v : Kiln) : (s.setKiln h k v).saved = s.saved := rfl
@[simp] theorem State.setKiln_hostCounts (h k : Nat) (v : Kiln) : (s.setKiln h k v).hostCounts = s.hostCounts := rfl

/-! ### `setQueueOf` -/

@[simp] theorem State.setQueueOf_pending (h t : Nat) (v : List QEntry) : (s.setQueueOf h t v).pending = s.pending := rfl
@[simp] theorem State.setQueueOf_time (h t : Nat) (v : List QEntry) : (s.setQueueOf h t v).time = s.time := rfl
@[simp] theorem State.setQueueOf_wall (h t : Nat) (v : List QEntry) : (s.setQueueOf h t v).wall = s.wall := rfl
@[simp] theorem State.setQueueOf_came (h t : Nat) (v : List QEntry) : (s.setQueueOf h t v).came = s.came := rfl
@[simp] theorem State.setQueueOf_draws (h t : Nat) (v : List QEntry) : (s.setQueueOf h t v).draws = s.draws := rfl
@[simp] theorem State.setQueueOf_pwr (h t : Nat) (v : List QEntry) : (s.setQueueOf h t v).pwr = s.pwr := rfl
@[simp] theorem State.setQueueOf_lands (h t : Nat) (v : List QEntry) : (s.setQueueOf h t v).lands = s.lands := rfl
@[simp] theorem State.setQueueOf_clk (h t : Nat) (v : List QEntry) : (s.setQueueOf h t v).clk = s.clk := rfl
@[simp] theorem State.setQueueOf_links (h t : Nat) (v : List QEntry) : (s.setQueueOf h t v).links = s.links := rfl
@[simp] theorem State.setQueueOf_drg (h t : Nat) (v : List QEntry) : (s.setQueueOf h t v).drg = s.drg := rfl
@[simp] theorem State.setQueueOf_flt (h t : Nat) (v : List QEntry) : (s.setQueueOf h t v).flt = s.flt := rfl
@[simp] theorem State.setQueueOf_trust (h t : Nat) (v : List QEntry) : (s.setQueueOf h t v).trust = s.trust := rfl
@[simp] theorem State.setQueueOf_flash (h t : Nat) (v : List QEntry) : (s.setQueueOf h t v).flash = s.flash := rfl
@[simp] theorem State.setQueueOf_hosts (h t : Nat) (v : List QEntry) : (s.setQueueOf h t v).hosts = s.hosts := rfl
@[simp] theorem State.setQueueOf_regs (h t : Nat) (v : List QEntry) : (s.setQueueOf h t v).regs = s.regs := rfl
@[simp] theorem State.setQueueOf_loader (h t : Nat) (v : List QEntry) : (s.setQueueOf h t v).loader = s.loader := rfl
@[simp] theorem State.setQueueOf_lay (h t : Nat) (v : List QEntry) : (s.setQueueOf h t v).lay = s.lay := rfl
@[simp] theorem State.setQueueOf_phys (h t : Nat) (v : List QEntry) : (s.setQueueOf h t v).phys = s.phys := rfl
@[simp] theorem State.setQueueOf_place (h t : Nat) (v : List QEntry) : (s.setQueueOf h t v).place = s.place := rfl
@[simp] theorem State.setQueueOf_dram (h t : Nat) (v : List QEntry) : (s.setQueueOf h t v).dram = s.dram := rfl
@[simp] theorem State.setQueueOf_dramUe (h t : Nat) (v : List QEntry) : (s.setQueueOf h t v).dramUe = s.dramUe := rfl
@[simp] theorem State.setQueueOf_mem (h t : Nat) (v : List QEntry) : (s.setQueueOf h t v).mem = s.mem := rfl
@[simp] theorem State.setQueueOf_hitches (h t : Nat) (v : List QEntry) : (s.setQueueOf h t v).hitches = s.hitches := rfl
@[simp] theorem State.setQueueOf_jobs (h t : Nat) (v : List QEntry) : (s.setQueueOf h t v).jobs = s.jobs := rfl
@[simp] theorem State.setQueueOf_ended (h t : Nat) (v : List QEntry) : (s.setQueueOf h t v).ended = s.ended := rfl
@[simp] theorem State.setQueueOf_nextSub (h t : Nat) (v : List QEntry) : (s.setQueueOf h t v).nextSub = s.nextSub := rfl
@[simp] theorem State.setQueueOf_slots (h t : Nat) (v : List QEntry) : (s.setQueueOf h t v).slots = s.slots := rfl
@[simp] theorem State.setQueueOf_fills (h t : Nat) (v : List QEntry) : (s.setQueueOf h t v).fills = s.fills := rfl
@[simp] theorem State.setQueueOf_sessions (h t : Nat) (v : List QEntry) : (s.setQueueOf h t v).sessions = s.sessions := rfl
@[simp] theorem State.setQueueOf_sessCache (h t : Nat) (v : List QEntry) : (s.setQueueOf h t v).sessCache = s.sessCache := rfl
@[simp] theorem State.setQueueOf_cords (h t : Nat) (v : List QEntry) : (s.setQueueOf h t v).cords = s.cords := rfl
@[simp] theorem State.setQueueOf_panels (h t : Nat) (v : List QEntry) : (s.setQueueOf h t v).panels = s.panels := rfl
@[simp] theorem State.setQueueOf_frame (h t : Nat) (v : List QEntry) : (s.setQueueOf h t v).frame = s.frame := rfl
@[simp] theorem State.setQueueOf_saved (h t : Nat) (v : List QEntry) : (s.setQueueOf h t v).saved = s.saved := rfl
@[simp] theorem State.setQueueOf_hostCounts (h t : Nat) (v : List QEntry) : (s.setQueueOf h t v).hostCounts = s.hostCounts := rfl

/-! ### `setHitch` -/

@[simp] theorem State.setHitch_pending (k : Nat) (v : Hitch) : (s.setHitch k v).pending = s.pending := rfl
@[simp] theorem State.setHitch_time (k : Nat) (v : Hitch) : (s.setHitch k v).time = s.time := rfl
@[simp] theorem State.setHitch_wall (k : Nat) (v : Hitch) : (s.setHitch k v).wall = s.wall := rfl
@[simp] theorem State.setHitch_came (k : Nat) (v : Hitch) : (s.setHitch k v).came = s.came := rfl
@[simp] theorem State.setHitch_draws (k : Nat) (v : Hitch) : (s.setHitch k v).draws = s.draws := rfl
@[simp] theorem State.setHitch_pwr (k : Nat) (v : Hitch) : (s.setHitch k v).pwr = s.pwr := rfl
@[simp] theorem State.setHitch_lands (k : Nat) (v : Hitch) : (s.setHitch k v).lands = s.lands := rfl
@[simp] theorem State.setHitch_clk (k : Nat) (v : Hitch) : (s.setHitch k v).clk = s.clk := rfl
@[simp] theorem State.setHitch_links (k : Nat) (v : Hitch) : (s.setHitch k v).links = s.links := rfl
@[simp] theorem State.setHitch_drg (k : Nat) (v : Hitch) : (s.setHitch k v).drg = s.drg := rfl
@[simp] theorem State.setHitch_flt (k : Nat) (v : Hitch) : (s.setHitch k v).flt = s.flt := rfl
@[simp] theorem State.setHitch_trust (k : Nat) (v : Hitch) : (s.setHitch k v).trust = s.trust := rfl
@[simp] theorem State.setHitch_flash (k : Nat) (v : Hitch) : (s.setHitch k v).flash = s.flash := rfl
@[simp] theorem State.setHitch_hosts (k : Nat) (v : Hitch) : (s.setHitch k v).hosts = s.hosts := rfl
@[simp] theorem State.setHitch_regs (k : Nat) (v : Hitch) : (s.setHitch k v).regs = s.regs := rfl
@[simp] theorem State.setHitch_loader (k : Nat) (v : Hitch) : (s.setHitch k v).loader = s.loader := rfl
@[simp] theorem State.setHitch_lay (k : Nat) (v : Hitch) : (s.setHitch k v).lay = s.lay := rfl
@[simp] theorem State.setHitch_phys (k : Nat) (v : Hitch) : (s.setHitch k v).phys = s.phys := rfl
@[simp] theorem State.setHitch_place (k : Nat) (v : Hitch) : (s.setHitch k v).place = s.place := rfl
@[simp] theorem State.setHitch_hearths (k : Nat) (v : Hitch) : (s.setHitch k v).hearths = s.hearths := rfl
@[simp] theorem State.setHitch_dram (k : Nat) (v : Hitch) : (s.setHitch k v).dram = s.dram := rfl
@[simp] theorem State.setHitch_dramUe (k : Nat) (v : Hitch) : (s.setHitch k v).dramUe = s.dramUe := rfl
@[simp] theorem State.setHitch_mem (k : Nat) (v : Hitch) : (s.setHitch k v).mem = s.mem := rfl
@[simp] theorem State.setHitch_jobs (k : Nat) (v : Hitch) : (s.setHitch k v).jobs = s.jobs := rfl
@[simp] theorem State.setHitch_ended (k : Nat) (v : Hitch) : (s.setHitch k v).ended = s.ended := rfl
@[simp] theorem State.setHitch_nextSub (k : Nat) (v : Hitch) : (s.setHitch k v).nextSub = s.nextSub := rfl
@[simp] theorem State.setHitch_slots (k : Nat) (v : Hitch) : (s.setHitch k v).slots = s.slots := rfl
@[simp] theorem State.setHitch_fills (k : Nat) (v : Hitch) : (s.setHitch k v).fills = s.fills := rfl
@[simp] theorem State.setHitch_sessions (k : Nat) (v : Hitch) : (s.setHitch k v).sessions = s.sessions := rfl
@[simp] theorem State.setHitch_sessCache (k : Nat) (v : Hitch) : (s.setHitch k v).sessCache = s.sessCache := rfl
@[simp] theorem State.setHitch_cords (k : Nat) (v : Hitch) : (s.setHitch k v).cords = s.cords := rfl
@[simp] theorem State.setHitch_panels (k : Nat) (v : Hitch) : (s.setHitch k v).panels = s.panels := rfl
@[simp] theorem State.setHitch_frame (k : Nat) (v : Hitch) : (s.setHitch k v).frame = s.frame := rfl
@[simp] theorem State.setHitch_saved (k : Nat) (v : Hitch) : (s.setHitch k v).saved = s.saved := rfl
@[simp] theorem State.setHitch_hostCounts (k : Nat) (v : Hitch) : (s.setHitch k v).hostCounts = s.hostCounts := rfl

/-! ### `setCordRt` -/

@[simp] theorem State.setCordRt_pending (n : Nat) (v : CordRt) : (s.setCordRt n v).pending = s.pending := rfl
@[simp] theorem State.setCordRt_time (n : Nat) (v : CordRt) : (s.setCordRt n v).time = s.time := rfl
@[simp] theorem State.setCordRt_wall (n : Nat) (v : CordRt) : (s.setCordRt n v).wall = s.wall := rfl
@[simp] theorem State.setCordRt_came (n : Nat) (v : CordRt) : (s.setCordRt n v).came = s.came := rfl
@[simp] theorem State.setCordRt_draws (n : Nat) (v : CordRt) : (s.setCordRt n v).draws = s.draws := rfl
@[simp] theorem State.setCordRt_pwr (n : Nat) (v : CordRt) : (s.setCordRt n v).pwr = s.pwr := rfl
@[simp] theorem State.setCordRt_lands (n : Nat) (v : CordRt) : (s.setCordRt n v).lands = s.lands := rfl
@[simp] theorem State.setCordRt_clk (n : Nat) (v : CordRt) : (s.setCordRt n v).clk = s.clk := rfl
@[simp] theorem State.setCordRt_links (n : Nat) (v : CordRt) : (s.setCordRt n v).links = s.links := rfl
@[simp] theorem State.setCordRt_drg (n : Nat) (v : CordRt) : (s.setCordRt n v).drg = s.drg := rfl
@[simp] theorem State.setCordRt_flt (n : Nat) (v : CordRt) : (s.setCordRt n v).flt = s.flt := rfl
@[simp] theorem State.setCordRt_trust (n : Nat) (v : CordRt) : (s.setCordRt n v).trust = s.trust := rfl
@[simp] theorem State.setCordRt_flash (n : Nat) (v : CordRt) : (s.setCordRt n v).flash = s.flash := rfl
@[simp] theorem State.setCordRt_hosts (n : Nat) (v : CordRt) : (s.setCordRt n v).hosts = s.hosts := rfl
@[simp] theorem State.setCordRt_regs (n : Nat) (v : CordRt) : (s.setCordRt n v).regs = s.regs := rfl
@[simp] theorem State.setCordRt_loader (n : Nat) (v : CordRt) : (s.setCordRt n v).loader = s.loader := rfl
@[simp] theorem State.setCordRt_lay (n : Nat) (v : CordRt) : (s.setCordRt n v).lay = s.lay := rfl
@[simp] theorem State.setCordRt_phys (n : Nat) (v : CordRt) : (s.setCordRt n v).phys = s.phys := rfl
@[simp] theorem State.setCordRt_place (n : Nat) (v : CordRt) : (s.setCordRt n v).place = s.place := rfl
@[simp] theorem State.setCordRt_hearths (n : Nat) (v : CordRt) : (s.setCordRt n v).hearths = s.hearths := rfl
@[simp] theorem State.setCordRt_dram (n : Nat) (v : CordRt) : (s.setCordRt n v).dram = s.dram := rfl
@[simp] theorem State.setCordRt_dramUe (n : Nat) (v : CordRt) : (s.setCordRt n v).dramUe = s.dramUe := rfl
@[simp] theorem State.setCordRt_mem (n : Nat) (v : CordRt) : (s.setCordRt n v).mem = s.mem := rfl
@[simp] theorem State.setCordRt_hitches (n : Nat) (v : CordRt) : (s.setCordRt n v).hitches = s.hitches := rfl
@[simp] theorem State.setCordRt_jobs (n : Nat) (v : CordRt) : (s.setCordRt n v).jobs = s.jobs := rfl
@[simp] theorem State.setCordRt_ended (n : Nat) (v : CordRt) : (s.setCordRt n v).ended = s.ended := rfl
@[simp] theorem State.setCordRt_nextSub (n : Nat) (v : CordRt) : (s.setCordRt n v).nextSub = s.nextSub := rfl
@[simp] theorem State.setCordRt_slots (n : Nat) (v : CordRt) : (s.setCordRt n v).slots = s.slots := rfl
@[simp] theorem State.setCordRt_fills (n : Nat) (v : CordRt) : (s.setCordRt n v).fills = s.fills := rfl
@[simp] theorem State.setCordRt_sessions (n : Nat) (v : CordRt) : (s.setCordRt n v).sessions = s.sessions := rfl
@[simp] theorem State.setCordRt_sessCache (n : Nat) (v : CordRt) : (s.setCordRt n v).sessCache = s.sessCache := rfl
@[simp] theorem State.setCordRt_panels (n : Nat) (v : CordRt) : (s.setCordRt n v).panels = s.panels := rfl
@[simp] theorem State.setCordRt_frame (n : Nat) (v : CordRt) : (s.setCordRt n v).frame = s.frame := rfl
@[simp] theorem State.setCordRt_saved (n : Nat) (v : CordRt) : (s.setCordRt n v).saved = s.saved := rfl
@[simp] theorem State.setCordRt_hostCounts (n : Nat) (v : CordRt) : (s.setCordRt n v).hostCounts = s.hostCounts := rfl

/-! ### `setSess` -/

@[simp] theorem State.setSess_pending (i : Nat) (v : SessRt) : (s.setSess i v).pending = s.pending := rfl
@[simp] theorem State.setSess_time (i : Nat) (v : SessRt) : (s.setSess i v).time = s.time := rfl
@[simp] theorem State.setSess_wall (i : Nat) (v : SessRt) : (s.setSess i v).wall = s.wall := rfl
@[simp] theorem State.setSess_came (i : Nat) (v : SessRt) : (s.setSess i v).came = s.came := rfl
@[simp] theorem State.setSess_draws (i : Nat) (v : SessRt) : (s.setSess i v).draws = s.draws := rfl
@[simp] theorem State.setSess_pwr (i : Nat) (v : SessRt) : (s.setSess i v).pwr = s.pwr := rfl
@[simp] theorem State.setSess_lands (i : Nat) (v : SessRt) : (s.setSess i v).lands = s.lands := rfl
@[simp] theorem State.setSess_clk (i : Nat) (v : SessRt) : (s.setSess i v).clk = s.clk := rfl
@[simp] theorem State.setSess_links (i : Nat) (v : SessRt) : (s.setSess i v).links = s.links := rfl
@[simp] theorem State.setSess_drg (i : Nat) (v : SessRt) : (s.setSess i v).drg = s.drg := rfl
@[simp] theorem State.setSess_flt (i : Nat) (v : SessRt) : (s.setSess i v).flt = s.flt := rfl
@[simp] theorem State.setSess_trust (i : Nat) (v : SessRt) : (s.setSess i v).trust = s.trust := rfl
@[simp] theorem State.setSess_flash (i : Nat) (v : SessRt) : (s.setSess i v).flash = s.flash := rfl
@[simp] theorem State.setSess_hosts (i : Nat) (v : SessRt) : (s.setSess i v).hosts = s.hosts := rfl
@[simp] theorem State.setSess_regs (i : Nat) (v : SessRt) : (s.setSess i v).regs = s.regs := rfl
@[simp] theorem State.setSess_loader (i : Nat) (v : SessRt) : (s.setSess i v).loader = s.loader := rfl
@[simp] theorem State.setSess_lay (i : Nat) (v : SessRt) : (s.setSess i v).lay = s.lay := rfl
@[simp] theorem State.setSess_phys (i : Nat) (v : SessRt) : (s.setSess i v).phys = s.phys := rfl
@[simp] theorem State.setSess_place (i : Nat) (v : SessRt) : (s.setSess i v).place = s.place := rfl
@[simp] theorem State.setSess_hearths (i : Nat) (v : SessRt) : (s.setSess i v).hearths = s.hearths := rfl
@[simp] theorem State.setSess_dram (i : Nat) (v : SessRt) : (s.setSess i v).dram = s.dram := rfl
@[simp] theorem State.setSess_dramUe (i : Nat) (v : SessRt) : (s.setSess i v).dramUe = s.dramUe := rfl
@[simp] theorem State.setSess_mem (i : Nat) (v : SessRt) : (s.setSess i v).mem = s.mem := rfl
@[simp] theorem State.setSess_hitches (i : Nat) (v : SessRt) : (s.setSess i v).hitches = s.hitches := rfl
@[simp] theorem State.setSess_jobs (i : Nat) (v : SessRt) : (s.setSess i v).jobs = s.jobs := rfl
@[simp] theorem State.setSess_ended (i : Nat) (v : SessRt) : (s.setSess i v).ended = s.ended := rfl
@[simp] theorem State.setSess_nextSub (i : Nat) (v : SessRt) : (s.setSess i v).nextSub = s.nextSub := rfl
@[simp] theorem State.setSess_slots (i : Nat) (v : SessRt) : (s.setSess i v).slots = s.slots := rfl
@[simp] theorem State.setSess_fills (i : Nat) (v : SessRt) : (s.setSess i v).fills = s.fills := rfl
@[simp] theorem State.setSess_sessCache (i : Nat) (v : SessRt) : (s.setSess i v).sessCache = s.sessCache := rfl
@[simp] theorem State.setSess_cords (i : Nat) (v : SessRt) : (s.setSess i v).cords = s.cords := rfl
@[simp] theorem State.setSess_panels (i : Nat) (v : SessRt) : (s.setSess i v).panels = s.panels := rfl
@[simp] theorem State.setSess_frame (i : Nat) (v : SessRt) : (s.setSess i v).frame = s.frame := rfl
@[simp] theorem State.setSess_saved (i : Nat) (v : SessRt) : (s.setSess i v).saved = s.saved := rfl
@[simp] theorem State.setSess_hostCounts (i : Nat) (v : SessRt) : (s.setSess i v).hostCounts = s.hostCounts := rfl

/-! ### `setPort` -/

@[simp] theorem State.setPort_pending (d p : Nat) (v : DataPort) : (s.setPort d p v).pending = s.pending := rfl
@[simp] theorem State.setPort_time (d p : Nat) (v : DataPort) : (s.setPort d p v).time = s.time := rfl
@[simp] theorem State.setPort_wall (d p : Nat) (v : DataPort) : (s.setPort d p v).wall = s.wall := rfl
@[simp] theorem State.setPort_came (d p : Nat) (v : DataPort) : (s.setPort d p v).came = s.came := rfl
@[simp] theorem State.setPort_draws (d p : Nat) (v : DataPort) : (s.setPort d p v).draws = s.draws := rfl
@[simp] theorem State.setPort_pwr (d p : Nat) (v : DataPort) : (s.setPort d p v).pwr = s.pwr := rfl
@[simp] theorem State.setPort_lands (d p : Nat) (v : DataPort) : (s.setPort d p v).lands = s.lands := rfl
@[simp] theorem State.setPort_clk (d p : Nat) (v : DataPort) : (s.setPort d p v).clk = s.clk := rfl
@[simp] theorem State.setPort_links (d p : Nat) (v : DataPort) : (s.setPort d p v).links = s.links := rfl
@[simp] theorem State.setPort_drg (d p : Nat) (v : DataPort) : (s.setPort d p v).drg = s.drg := rfl
@[simp] theorem State.setPort_flt (d p : Nat) (v : DataPort) : (s.setPort d p v).flt = s.flt := rfl
@[simp] theorem State.setPort_trust (d p : Nat) (v : DataPort) : (s.setPort d p v).trust = s.trust := rfl
@[simp] theorem State.setPort_flash (d p : Nat) (v : DataPort) : (s.setPort d p v).flash = s.flash := rfl
@[simp] theorem State.setPort_regs (d p : Nat) (v : DataPort) : (s.setPort d p v).regs = s.regs := rfl
@[simp] theorem State.setPort_loader (d p : Nat) (v : DataPort) : (s.setPort d p v).loader = s.loader := rfl
@[simp] theorem State.setPort_lay (d p : Nat) (v : DataPort) : (s.setPort d p v).lay = s.lay := rfl
@[simp] theorem State.setPort_phys (d p : Nat) (v : DataPort) : (s.setPort d p v).phys = s.phys := rfl
@[simp] theorem State.setPort_place (d p : Nat) (v : DataPort) : (s.setPort d p v).place = s.place := rfl
@[simp] theorem State.setPort_hearths (d p : Nat) (v : DataPort) : (s.setPort d p v).hearths = s.hearths := rfl
@[simp] theorem State.setPort_dram (d p : Nat) (v : DataPort) : (s.setPort d p v).dram = s.dram := rfl
@[simp] theorem State.setPort_dramUe (d p : Nat) (v : DataPort) : (s.setPort d p v).dramUe = s.dramUe := rfl
@[simp] theorem State.setPort_mem (d p : Nat) (v : DataPort) : (s.setPort d p v).mem = s.mem := rfl
@[simp] theorem State.setPort_hitches (d p : Nat) (v : DataPort) : (s.setPort d p v).hitches = s.hitches := rfl
@[simp] theorem State.setPort_jobs (d p : Nat) (v : DataPort) : (s.setPort d p v).jobs = s.jobs := rfl
@[simp] theorem State.setPort_ended (d p : Nat) (v : DataPort) : (s.setPort d p v).ended = s.ended := rfl
@[simp] theorem State.setPort_nextSub (d p : Nat) (v : DataPort) : (s.setPort d p v).nextSub = s.nextSub := rfl
@[simp] theorem State.setPort_slots (d p : Nat) (v : DataPort) : (s.setPort d p v).slots = s.slots := rfl
@[simp] theorem State.setPort_fills (d p : Nat) (v : DataPort) : (s.setPort d p v).fills = s.fills := rfl
@[simp] theorem State.setPort_sessions (d p : Nat) (v : DataPort) : (s.setPort d p v).sessions = s.sessions := rfl
@[simp] theorem State.setPort_sessCache (d p : Nat) (v : DataPort) : (s.setPort d p v).sessCache = s.sessCache := rfl
@[simp] theorem State.setPort_cords (d p : Nat) (v : DataPort) : (s.setPort d p v).cords = s.cords := rfl
@[simp] theorem State.setPort_panels (d p : Nat) (v : DataPort) : (s.setPort d p v).panels = s.panels := rfl
@[simp] theorem State.setPort_frame (d p : Nat) (v : DataPort) : (s.setPort d p v).frame = s.frame := rfl
@[simp] theorem State.setPort_saved (d p : Nat) (v : DataPort) : (s.setPort d p v).saved = s.saved := rfl
@[simp] theorem State.setPort_hostCounts (d p : Nat) (v : DataPort) : (s.setPort d p v).hostCounts = s.hostCounts := rfl

/-! ### `setReg` -/

@[simp] theorem State.setReg_pending (k : Nat) (w : Word) : (s.setReg k w).pending = s.pending := rfl
@[simp] theorem State.setReg_time (k : Nat) (w : Word) : (s.setReg k w).time = s.time := rfl
@[simp] theorem State.setReg_wall (k : Nat) (w : Word) : (s.setReg k w).wall = s.wall := rfl
@[simp] theorem State.setReg_came (k : Nat) (w : Word) : (s.setReg k w).came = s.came := rfl
@[simp] theorem State.setReg_draws (k : Nat) (w : Word) : (s.setReg k w).draws = s.draws := rfl
@[simp] theorem State.setReg_pwr (k : Nat) (w : Word) : (s.setReg k w).pwr = s.pwr := rfl
@[simp] theorem State.setReg_lands (k : Nat) (w : Word) : (s.setReg k w).lands = s.lands := rfl
@[simp] theorem State.setReg_clk (k : Nat) (w : Word) : (s.setReg k w).clk = s.clk := rfl
@[simp] theorem State.setReg_links (k : Nat) (w : Word) : (s.setReg k w).links = s.links := rfl
@[simp] theorem State.setReg_drg (k : Nat) (w : Word) : (s.setReg k w).drg = s.drg := rfl
@[simp] theorem State.setReg_flt (k : Nat) (w : Word) : (s.setReg k w).flt = s.flt := rfl
@[simp] theorem State.setReg_trust (k : Nat) (w : Word) : (s.setReg k w).trust = s.trust := rfl
@[simp] theorem State.setReg_flash (k : Nat) (w : Word) : (s.setReg k w).flash = s.flash := rfl
@[simp] theorem State.setReg_hosts (k : Nat) (w : Word) : (s.setReg k w).hosts = s.hosts := rfl
@[simp] theorem State.setReg_loader (k : Nat) (w : Word) : (s.setReg k w).loader = s.loader := rfl
@[simp] theorem State.setReg_lay (k : Nat) (w : Word) : (s.setReg k w).lay = s.lay := rfl
@[simp] theorem State.setReg_phys (k : Nat) (w : Word) : (s.setReg k w).phys = s.phys := rfl
@[simp] theorem State.setReg_place (k : Nat) (w : Word) : (s.setReg k w).place = s.place := rfl
@[simp] theorem State.setReg_hearths (k : Nat) (w : Word) : (s.setReg k w).hearths = s.hearths := rfl
@[simp] theorem State.setReg_dram (k : Nat) (w : Word) : (s.setReg k w).dram = s.dram := rfl
@[simp] theorem State.setReg_dramUe (k : Nat) (w : Word) : (s.setReg k w).dramUe = s.dramUe := rfl
@[simp] theorem State.setReg_mem (k : Nat) (w : Word) : (s.setReg k w).mem = s.mem := rfl
@[simp] theorem State.setReg_hitches (k : Nat) (w : Word) : (s.setReg k w).hitches = s.hitches := rfl
@[simp] theorem State.setReg_jobs (k : Nat) (w : Word) : (s.setReg k w).jobs = s.jobs := rfl
@[simp] theorem State.setReg_ended (k : Nat) (w : Word) : (s.setReg k w).ended = s.ended := rfl
@[simp] theorem State.setReg_nextSub (k : Nat) (w : Word) : (s.setReg k w).nextSub = s.nextSub := rfl
@[simp] theorem State.setReg_slots (k : Nat) (w : Word) : (s.setReg k w).slots = s.slots := rfl
@[simp] theorem State.setReg_fills (k : Nat) (w : Word) : (s.setReg k w).fills = s.fills := rfl
@[simp] theorem State.setReg_sessions (k : Nat) (w : Word) : (s.setReg k w).sessions = s.sessions := rfl
@[simp] theorem State.setReg_sessCache (k : Nat) (w : Word) : (s.setReg k w).sessCache = s.sessCache := rfl
@[simp] theorem State.setReg_cords (k : Nat) (w : Word) : (s.setReg k w).cords = s.cords := rfl
@[simp] theorem State.setReg_panels (k : Nat) (w : Word) : (s.setReg k w).panels = s.panels := rfl
@[simp] theorem State.setReg_frame (k : Nat) (w : Word) : (s.setReg k w).frame = s.frame := rfl
@[simp] theorem State.setReg_saved (k : Nat) (w : Word) : (s.setReg k w).saved = s.saved := rfl
@[simp] theorem State.setReg_hostCounts (k : Nat) (w : Word) : (s.setReg k w).hostCounts = s.hostCounts := rfl

/-! ### `setPanel` -/

@[simp] theorem State.setPanel_pending (p : Nat) (v : Panel) : (s.setPanel p v).pending = s.pending := rfl
@[simp] theorem State.setPanel_time (p : Nat) (v : Panel) : (s.setPanel p v).time = s.time := rfl
@[simp] theorem State.setPanel_wall (p : Nat) (v : Panel) : (s.setPanel p v).wall = s.wall := rfl
@[simp] theorem State.setPanel_came (p : Nat) (v : Panel) : (s.setPanel p v).came = s.came := rfl
@[simp] theorem State.setPanel_draws (p : Nat) (v : Panel) : (s.setPanel p v).draws = s.draws := rfl
@[simp] theorem State.setPanel_pwr (p : Nat) (v : Panel) : (s.setPanel p v).pwr = s.pwr := rfl
@[simp] theorem State.setPanel_lands (p : Nat) (v : Panel) : (s.setPanel p v).lands = s.lands := rfl
@[simp] theorem State.setPanel_clk (p : Nat) (v : Panel) : (s.setPanel p v).clk = s.clk := rfl
@[simp] theorem State.setPanel_links (p : Nat) (v : Panel) : (s.setPanel p v).links = s.links := rfl
@[simp] theorem State.setPanel_drg (p : Nat) (v : Panel) : (s.setPanel p v).drg = s.drg := rfl
@[simp] theorem State.setPanel_flt (p : Nat) (v : Panel) : (s.setPanel p v).flt = s.flt := rfl
@[simp] theorem State.setPanel_trust (p : Nat) (v : Panel) : (s.setPanel p v).trust = s.trust := rfl
@[simp] theorem State.setPanel_flash (p : Nat) (v : Panel) : (s.setPanel p v).flash = s.flash := rfl
@[simp] theorem State.setPanel_hosts (p : Nat) (v : Panel) : (s.setPanel p v).hosts = s.hosts := rfl
@[simp] theorem State.setPanel_regs (p : Nat) (v : Panel) : (s.setPanel p v).regs = s.regs := rfl
@[simp] theorem State.setPanel_loader (p : Nat) (v : Panel) : (s.setPanel p v).loader = s.loader := rfl
@[simp] theorem State.setPanel_lay (p : Nat) (v : Panel) : (s.setPanel p v).lay = s.lay := rfl
@[simp] theorem State.setPanel_phys (p : Nat) (v : Panel) : (s.setPanel p v).phys = s.phys := rfl
@[simp] theorem State.setPanel_place (p : Nat) (v : Panel) : (s.setPanel p v).place = s.place := rfl
@[simp] theorem State.setPanel_hearths (p : Nat) (v : Panel) : (s.setPanel p v).hearths = s.hearths := rfl
@[simp] theorem State.setPanel_dram (p : Nat) (v : Panel) : (s.setPanel p v).dram = s.dram := rfl
@[simp] theorem State.setPanel_dramUe (p : Nat) (v : Panel) : (s.setPanel p v).dramUe = s.dramUe := rfl
@[simp] theorem State.setPanel_mem (p : Nat) (v : Panel) : (s.setPanel p v).mem = s.mem := rfl
@[simp] theorem State.setPanel_hitches (p : Nat) (v : Panel) : (s.setPanel p v).hitches = s.hitches := rfl
@[simp] theorem State.setPanel_jobs (p : Nat) (v : Panel) : (s.setPanel p v).jobs = s.jobs := rfl
@[simp] theorem State.setPanel_ended (p : Nat) (v : Panel) : (s.setPanel p v).ended = s.ended := rfl
@[simp] theorem State.setPanel_nextSub (p : Nat) (v : Panel) : (s.setPanel p v).nextSub = s.nextSub := rfl
@[simp] theorem State.setPanel_slots (p : Nat) (v : Panel) : (s.setPanel p v).slots = s.slots := rfl
@[simp] theorem State.setPanel_fills (p : Nat) (v : Panel) : (s.setPanel p v).fills = s.fills := rfl
@[simp] theorem State.setPanel_sessions (p : Nat) (v : Panel) : (s.setPanel p v).sessions = s.sessions := rfl
@[simp] theorem State.setPanel_sessCache (p : Nat) (v : Panel) : (s.setPanel p v).sessCache = s.sessCache := rfl
@[simp] theorem State.setPanel_cords (p : Nat) (v : Panel) : (s.setPanel p v).cords = s.cords := rfl
@[simp] theorem State.setPanel_frame (p : Nat) (v : Panel) : (s.setPanel p v).frame = s.frame := rfl
@[simp] theorem State.setPanel_saved (p : Nat) (v : Panel) : (s.setPanel p v).saved = s.saved := rfl
@[simp] theorem State.setPanel_hostCounts (p : Nat) (v : Panel) : (s.setPanel p v).hostCounts = s.hostCounts := rfl

/-! ### Accessors after updates -/

theorem State.host_setHost (d e : Nat) (v : HostPort) : (s.setHost d v).host e = if e = d then v else s.host e :=
  SMap.look_put ..
@[simp] theorem State.host_setHost_same (d : Nat) (v : HostPort) : (s.setHost d v).host d = v := by
  simp [State.host_setHost]
theorem State.phy_setPhy (p q : Nat) (v : Phys) : (s.setPhy p v).phy q = if q = p then v else s.phy q :=
  SMap.look_put ..
@[simp] theorem State.phy_setPhy_same (p : Nat) (v : Phys) : (s.setPhy p v).phy p = v := by
  simp [State.phy_setPhy]
theorem State.hearth_setHearth (h g : Nat) (v : Hearth) :
    (s.setHearth h v).hearth g = if g = h then v else s.hearth g := SMap.look_put ..
@[simp] theorem State.hearth_setHearth_same (h : Nat) (v : Hearth) : (s.setHearth h v).hearth h = v := by
  simp [State.hearth_setHearth]
theorem State.hitch_setHitch (k j : Nat) (v : Hitch) :
    (s.setHitch k v).hitch j = if j = k then v else s.hitch j := SMap.look_put ..
@[simp] theorem State.hitch_setHitch_same (k : Nat) (v : Hitch) : (s.setHitch k v).hitch k = v := by
  simp [State.hitch_setHitch]
theorem State.cordRt_setCordRt (n m : Nat) (v : CordRt) :
    (s.setCordRt n v).cordRt m = if m = n then v else s.cordRt m := SMap.look_put ..
@[simp] theorem State.cordRt_setCordRt_same (n : Nat) (v : CordRt) : (s.setCordRt n v).cordRt n = v := by
  simp [State.cordRt_setCordRt]
theorem State.sess_setSess (i j : Nat) (v : SessRt) :
    (s.setSess i v).sess j = if j = i then v else s.sess j := SMap.look_put ..
@[simp] theorem State.sess_setSess_same (i : Nat) (v : SessRt) : (s.setSess i v).sess i = v := by
  simp [State.sess_setSess]
theorem State.panel_setPanel (p q : Nat) (v : Panel) :
    (s.setPanel p v).panel q = if q = p then v else s.panel q := SMap.look_put ..
@[simp] theorem State.panel_setPanel_same (p : Nat) (v : Panel) : (s.setPanel p v).panel p = v := by
  simp [State.panel_setPanel]
theorem State.reg_setReg (k j : Nat) (w : Word) : (s.setReg k w).reg j = if j = k then w else s.reg j :=
  SMap.look_put ..
@[simp] theorem State.reg_setReg_same (k : Nat) (w : Word) : (s.setReg k w).reg k = w := by
  simp [State.reg_setReg]

@[simp] theorem State.core_setCore_same (h c : Nat) (k : Core) : (s.setCore h c k).core h c = k := by
  simp [State.core, State.setCore]
theorem State.core_setCore (h c g d : Nat) (k : Core) :
    (s.setCore h c k).core g d = if g = h ∧ d = c then k else s.core g d := by
  by_cases hg : g = h
  · subst hg; simp [State.core, State.setCore, SMap.look_put]
  · simp [State.core, State.setCore, State.hearth_setHearth, hg]
/-- A core's update leaves everything else of its Hearth as it was. -/
theorem State.hearth_setCore (h c : Nat) (k : Core) :
    (s.setCore h c k).hearth h = { s.hearth h with cores := ((s.setCore h c k).hearth h).cores } := by
  simp [State.setCore]
theorem State.hearth_setCore_of_ne (h c g : Nat) (k : Core) (hg : g ≠ h) :
    (s.setCore h c k).hearth g = s.hearth g := by simp [State.setCore, State.hearth_setHearth, hg]
@[simp] theorem State.kiln_setKiln_same (h k : Nat) (v : Kiln) : (s.setKiln h k v).kiln h k = v := by
  simp [State.kiln, State.setKiln]
theorem State.kiln_setKiln (h k g j : Nat) (v : Kiln) :
    (s.setKiln h k v).kiln g j = if g = h ∧ j = k then v else s.kiln g j := by
  by_cases hg : g = h
  · subst hg; simp [State.kiln, State.setKiln, SMap.look_put]
  · simp [State.kiln, State.setKiln, State.hearth_setHearth, hg]
@[simp] theorem State.queueOf_setQueueOf_same (h t : Nat) (q : List QEntry) :
    (s.setQueueOf h t q).queueOf h t = q := by simp [State.queueOf, State.setQueueOf]
theorem State.queueOf_setQueueOf (h t g u : Nat) (q : List QEntry) :
    (s.setQueueOf h t q).queueOf g u = if g = h ∧ u = t then q else s.queueOf g u := by
  by_cases hg : g = h
  · subst hg; simp [State.queueOf, State.setQueueOf, SMap.look_put]
  · simp [State.queueOf, State.setQueueOf, State.hearth_setHearth, hg]
@[simp] theorem State.port_setPort_same (d p : Nat) (v : DataPort) : (s.setPort d p v).port d p = v := by
  simp [State.port, State.setPort]
theorem State.port_setPort (d p e q : Nat) (v : DataPort) :
    (s.setPort d p v).port e q = if e = d ∧ q = p then v else s.port e q := by
  by_cases he : e = d
  · subst he; simp [State.port, State.setPort, SMap.look_put]
  · simp [State.port, State.setPort, State.host_setHost, he]

end Sys2Proof.Machine
end

