-- ==== Sys2Proof/Laws/Ops.lean ====
section
/-! SUPPORT. What the shared operations on registers, counters, logs and events do. -/

namespace Sys2Proof.Machine

variable (s : State)

/-! ### Counters -/

/-- A counter that saturates grows by `n`, and no other register changes. -/
theorem State.reg_bump (k j n : Nat) :
    (s.bump k n).reg j = if j = k then BitVec.ofNat 32 (min ((s.reg k).toNat + n) 0xFFFFFFFF) else s.reg j := by
  rw [State.bump, State.reg_setReg]

theorem State.bump_rest (k n : Nat) : { s.bump k n with regs := s.regs } = s := rfl

@[simp] theorem State.bump_hearths (k n : Nat) : (s.bump k n).hearths = s.hearths := rfl
@[simp] theorem State.bump_hosts (k n : Nat) : (s.bump k n).hosts = s.hosts := rfl
@[simp] theorem State.bump_phys (k n : Nat) : (s.bump k n).phys = s.phys := rfl
@[simp] theorem State.bump_host (k n d : Nat) : (s.bump k n).host d = s.host d := rfl
@[simp] theorem State.bump_hearth (k n h : Nat) : (s.bump k n).hearth h = s.hearth h := rfl
@[simp] theorem State.bump_core (k n h c : Nat) : (s.bump k n).core h c = s.core h c := rfl

/-- A count of cycles adds a free number of at most `most`, and no other register changes. -/
theorem State.reg_cycles (k j most : Nat) : ∃ n, n ≤ most ∧
    (s.cycles k most).reg j = if j = k then BitVec.ofNat 32 (min ((s.reg k).toNat + n) 0xFFFFFFFF) else s.reg j :=
  ⟨s.draw.1.toNat % (most + 1), Nat.le_of_lt_succ (Nat.mod_lt _ (Nat.succ_pos _)), State.reg_bump _ _ _ _⟩

theorem State.cycles_rest (k most : Nat) : { s.cycles k most with regs := s.regs, draws := s.draws } = s := rfl

/-! ### Periodic events -/

/-- At a multiple of its period, a periodic event that has not come yet comes. -/
theorem State.each_due {k p : Nat} {f : State → State} (h : s.time % p = 0)
    (hc : s.came.look (fun _ => 0) k < s.time) :
    s.each k p f = f { s with came := s.came.put (fun _ => 0) k s.time } := if_pos ⟨h, hc⟩

/-- Between the multiples of its period, and a second time at one, it does nothing. -/
theorem State.each_not_due {k p : Nat} {f : State → State}
    (h : s.time % p ≠ 0 ∨ s.time ≤ s.came.look (fun _ => 0) k) : s.each k p f = s :=
  if_neg fun ⟨a, b⟩ => h.elim (fun h => h a) fun h => Nat.not_lt.2 h b

/-! ### Logs (R488) -/

theorem Log.append_next (l : Log) (t o k : Nat) (a x y : Word) :
    (l.append t o k a x y).next = (l.next + 1) % 2 ^ 32 := rfl

/-- An appended log keeps the newest 16,384 entries. -/
theorem Log.length_append (l : Log) (t o k : Nat) (a x y : Word) :
    (l.append t o k a x y).entries.length = min (l.entries.length + 1) 16384 := by
  simp [Log.append]; omega

/-- The new entry stands first, and its check covers the entry and the check before it. -/
theorem Log.head_append (l : Log) (t o k : Nat) (a x y : Word) :
    (l.append t o k a x y).entries.head? =
      some ⟨t, o, k, a, x, y, l.next, crc32 (logBytes t o k a x y l.next ++ natLe l.check.toNat 4)⟩ := by
  simp [Log.append]

theorem State.logFault_rest (o k a x y : Nat) :
    { s.logFault o k a x y with flt := s.flt } = s := rfl
theorem State.logChange_rest (o k a x y : Nat) :
    { s.logChange o k a x y with trust := s.trust } = s := rfl
@[simp] theorem State.logFault_service (o k a x y : Nat) : (s.logFault o k a x y).flt.service = s.flt.service := rfl
@[simp] theorem State.logFault_hosts (o k a x y : Nat) : (s.logFault o k a x y).hosts = s.hosts := rfl
@[simp] theorem State.logFault_hearths (o k a x y : Nat) : (s.logFault o k a x y).hearths = s.hearths := rfl
@[simp] theorem State.logFault_phys (o k a x y : Nat) : (s.logFault o k a x y).phys = s.phys := rfl
@[simp] theorem State.logFault_regs (o k a x y : Nat) : (s.logFault o k a x y).regs = s.regs := rfl

/-! ### Events (R86, R87) -/

/-- Queueing an event touches host ports and the count of lost events alone. -/
theorem State.event_rest (d code block arg : Nat) :
    { s.event d code block arg with hosts := s.hosts, regs := s.regs } = s := by
  simp only [State.event]; split <;> rfl

/-- An event for a domain with room goes to the end of its queue. -/
theorem State.event_room (d code block arg : Nat) (h : (s.host d).events.length < 256) :
    ((s.event d code block arg).host d).events =
      (s.host d).events ++ [⟨code, block, BitVec.ofNat 32 arg, s.time⟩] := by
  simp [State.event, Nat.not_le.2 h]

/-- The queue of another domain does not change. -/
theorem State.event_other (d e code block arg : Nat) (h : e ≠ d) :
    (s.event d code block arg).host e = s.host e := by
  unfold State.event
  generalize regKey d 0x1010 = key
  dsimp only
  split
  · rw [State.bump_host, State.host_setHost, if_neg h]
  · rw [State.host_setHost, if_neg h]

/-! ### Units -/

@[simp] theorem withUnit_true (t : State) : withUnit true t = .next t := rfl
@[simp] theorem withUnit_false (t : State) : withUnit false t = .fault .noSuchUnit := rfl

/-- A command on a unit answers a next state exactly where the unit exists. -/
theorem withUnit_eq_next {ok : Bool} {t u : State} : withUnit ok t = .next u ↔ ok = true ∧ u = t := by
  cases ok <;> simp [withUnit, eq_comm]

/-! ### Hearth stores -/

/-- A write to a store reads back, and leaves every byte outside it. -/
theorem Hearth.look_write_outside (v : Hearth) (a x : Nat) (bs : List Byte) (h : x < a ∨ a + bs.length ≤ x) :
    (v.write a bs).store.look zeroByte x = v.store.look zeroByte x := SMap.look_putList_outside _ _ _ _ h

theorem Hearth.look_write_inside (v : Hearth) (a i : Nat) (bs : List Byte) (h : i < bs.length) :
    (v.write a bs).store.look zeroByte (a + i) = bs[i] := SMap.look_putList_inside _ _ _ _ h

end Sys2Proof.Machine
end

