-- ==== Sys2Proof/Laws/Kindling.lean ====
section
/-! SUPPORT. What the shared forms of the Kindling instructions do. -/

namespace Sys2Proof.Machine

variable {s : State} {h c : Nat}

/-- A field of a word as a slice of its bits. -/
theorem field_eq_extract (w : Word) (lo n : Nat) : field w lo n = (w.extractLsb' lo n).toNat := by
  simp [field, Nat.shiftRight_eq_div_pow]

/-- A core that stands at a word executes the instruction whose encoding the word matches. -/
theorem State.coreStep_standsAt {w v m : Word} {body : State → State} (hs : s.standsAt h c w = true)
    (hw : w &&& m = v &&& m) : s.coreStep h c v m body = body s := by
  simp only [State.standsAt, Bool.and_eq_true, Bool.not_eq_true', beq_iff_eq] at hs
  obtain ⟨⟨⟨⟨⟨⟨_, h1⟩, h2⟩, h3⟩, h4⟩, h5⟩, h6⟩ := hs
  have h7 : ((s.core h c).blkPending && !isBlk w) = false := by
    cases hb : (s.core h c).blkPending <;> simp_all
  unfold State.coreStep
  simp only [h1, h2, h3, h4, h6, h7, hw]
  simp

/-- A core that does not match the word does nothing. -/
theorem State.coreStep_mismatch {w v m : Word} {body : State → State} (hs : s.standsAt h c w = true)
    (hw : w &&& m ≠ v &&& m) : s.coreStep h c v m body = s := by
  simp only [State.standsAt, Bool.and_eq_true, Bool.not_eq_true', beq_iff_eq] at hs
  obtain ⟨⟨⟨⟨⟨⟨_, h1⟩, h2⟩, h3⟩, h4⟩, h5⟩, h6⟩ := hs
  unfold State.coreStep
  simp only [h1, h2, h3, h4]
  simp [hw]

theorem coreOk_of_standsAt {w : Word} (hs : s.standsAt h c w = true) : coreOk h c = true := by
  simp only [State.standsAt, Bool.and_eq_true] at hs; exact hs.1.1.1.1.1.1

/-- The saturating count of an instruction. -/
theorem bump_one_eq_counted (w : Word) : BitVec.ofNat 32 (min (w.toNat + 1) 0xFFFFFFFF) = counted w := by
  unfold counted
  split
  · subst w; decide
  · rename_i hw
    have : w.toNat ≠ 0xFFFFFFFF := fun h => hw (BitVec.eq_of_toNat_eq (by simpa using h))
    have := w.isLt
    apply BitVec.eq_of_toNat_eq
    simp; omega

/-- No counter of a core is another. -/
theorem kcKey_ne {o o' : Nat} (ho : o ≠ o') : kcKey o h c ≠ kcKey o' h c := by
  simp only [kcKey, hKey]; omega

/-- A count of at most one cycle adds one or nothing. -/
theorem State.reg_cycles_one (k x : Nat) :
    (s.cycles k 1).reg x = s.reg x ∨ (x = k ∧ (s.cycles k 1).reg x = counted (s.reg x)) := by
  simp only [State.cycles, State.reg_bump]
  by_cases hx : x = k
  · subst hx
    rcases Nat.mod_two_eq_zero_or_one s.draw.1.toNat with h0 | h1
    · left; simp only [h0, if_true]; apply BitVec.eq_of_toNat_eq
      have := (s.draw.2.reg x).isLt
      have e : s.draw.2.reg x = s.reg x := rfl
      rw [← e]; simp; omega
    · right; refine ⟨rfl, ?_⟩; simp only [h1, if_true]; exact bump_one_eq_counted _
  · left; rw [if_neg hx]; rfl

/-- What the count of an instruction does to the registers, and that it does nothing else. -/
theorem State.reg_retireInstr (pair : Bool) (x : Nat) :
    (x ≠ retiredKey h c → x ≠ dualKey h c → (s.retireInstr h c pair).reg x = s.reg x) ∧
    (s.retireInstr h c pair).reg (retiredKey h c) = counted (s.reg (retiredKey h c)) ∧
    ((s.retireInstr h c pair).reg (dualKey h c) = s.reg (dualKey h c) ∨
      (pair = true ∧ (s.retireInstr h c pair).reg (dualKey h c) = counted (s.reg (dualKey h c)))) := by
  have hne : kcKey 8 h c ≠ kcKey 12 h c := kcKey_ne (by decide)
  have b : ∀ y, (s.bump (kcKey 8 h c) 1).reg y = if y = kcKey 8 h c then counted (s.reg y) else s.reg y := by
    intro y; rw [State.reg_bump]; split
    · subst_vars; exact bump_one_eq_counted _
    · rfl
  cases pair with
  | false =>
    simp only [State.retireInstr, retiredKey, dualKey, Bool.false_eq_true, if_false]
    exact ⟨fun h1 _ => by rw [b, if_neg h1], by rw [b, if_pos rfl], .inl (by rw [b, if_neg hne.symm])⟩
  | true =>
    simp only [State.retireInstr, retiredKey, dualKey, if_true, true_and]
    refine ⟨fun h1 h2 => ?_, ?_, ?_⟩
    · rcases (s.bump (kcKey 8 h c) 1).reg_cycles_one (kcKey 12 h c) x with e | ⟨e, -⟩
      · rw [e, b, if_neg h1]
      · exact absurd e h2
    · rcases (s.bump (kcKey 8 h c) 1).reg_cycles_one (kcKey 12 h c) (kcKey 8 h c) with e | ⟨e, -⟩
      · rw [e, b, if_pos rfl]
      · exact absurd e hne
    · rcases (s.bump (kcKey 8 h c) 1).reg_cycles_one (kcKey 12 h c) (kcKey 12 h c) with e | ⟨-, e⟩
      · left; rw [e, b, if_neg hne.symm]
      · right; rw [e, b, if_neg hne.symm]

theorem State.retireInstr_frame (pair : Bool) :
    { s.retireInstr h c pair with regs := s.regs, draws := s.draws } = s := by
  unfold State.retireInstr; cases pair <;> rfl

@[simp] theorem State.retireInstr_hearth (pair : Bool) (g : Nat) :
    (s.retireInstr h c pair).hearth g = s.hearth g := by
  unfold State.retireInstr; cases pair <;> rfl
@[simp] theorem State.retireInstr_core (pair : Bool) (g d : Nat) :
    (s.retireInstr h c pair).core g d = s.core g d := by
  unfold State.retireInstr; cases pair <;> rfl

/-- An update of one core and the count of its instruction change nothing else. -/
theorem CoreTo.of_setCore (k : Core) :
    CoreTo s ((s.setCore h c k).retireInstr h c (s.core h c).mayPair) h c k where
  core := by simp
  cores d hd := by simp [State.core_setCore, hd]
  hearth := by simp [State.setCore]
  hearths g hg := by simp [State.hearth_setCore_of_ne _ _ _ _ _ hg]
  retired := ((s.setCore h c k).reg_retireInstr _ 0).2.1
  dual := ((s.setCore h c k).reg_retireInstr _ 0).2.2
  regs x h1 h2 := ((s.setCore h c k).reg_retireInstr _ x).1 h1 h2
  rest := by
    have e := (s.setCore h c k).retireInstr_frame (h := h) (c := c) (s.core h c).mayPair
    generalize (s.setCore h c k).retireInstr h c (s.core h c).mayPair = t at e ⊢
    have e' := congrArg (fun u : State => { u with hearths := s.hearths }) e
    exact e'

theorem CoreTo.coreNext {f : Core → Core} (hf : (f (s.core h c)).pc = (s.core h c).pc) :
    CoreTo s (s.coreNext h c f) h c (f (s.core h c)).advanced := by
  have : (s.core h c).next f = (f (s.core h c)).advanced := by simp [Core.next, Core.advanced, pcAdd, hf]
  rw [State.coreNext, this]; exact .of_setCore _

theorem CoreTo.coreJump {f : Core → Core} (target : Nat) :
    CoreTo s (s.coreJump h c target f) h c ((f (s.core h c)).jumped target) := .of_setCore _

@[simp] theorem Core.writeX_pc (k : Core) (r : BitVec 5) (v : DWord) : (k.writeX r v).pc = k.pc := by
  unfold Core.writeX; split <;> rfl
@[simp] theorem Core.writeV_pc (k : Core) (r : BitVec 5) (v : VWord) : (k.writeV r v).pc = k.pc := rfl
@[simp] theorem Core.writeP_pc (k : Core) (r : BitVec 3) (v : Word) : (k.writeP r v).pc = k.pc := by
  unfold Core.writeP; split <;> rfl

/-- A register instruction of a core that stands at its word does what its form says. -/
theorem CoreDoes.of_coreX {i : Instr} {w v m : Word} {rd : BitVec 5} {f : Core → DWord}
    (he : exec i s = withUnit (coreOk h c) (s.coreStep h c v m fun s => s.coreX h c rd f))
    (hs : s.standsAt h c w = true) (hw : w &&& m = v &&& m) :
    CoreDoes i s h c fun k => k.writeX rd (f k) := by
  refine ⟨s.coreNext h c fun k => k.writeX rd (f k), ?_, CoreTo.coreNext (Core.writeX_pc ..)⟩
  rw [he, coreOk_of_standsAt hs, State.coreStep_standsAt hs hw]; rfl

/-- An instruction that acts on the core alone. -/
theorem CoreDoes.of_coreNext {i : Instr} {w v m : Word} {f : Core → Core}
    (he : exec i s = withUnit (coreOk h c) (s.coreStep h c v m fun s => s.coreNext h c f))
    (hs : s.standsAt h c w = true) (hw : w &&& m = v &&& m) (hf : (f (s.core h c)).pc = (s.core h c).pc) :
    CoreDoes i s h c f := by
  refine ⟨_, ?_, CoreTo.coreNext hf⟩
  rw [he, coreOk_of_standsAt hs, State.coreStep_standsAt hs hw]; rfl

end Sys2Proof.Machine
end

