-- ==== Sys2Proof/Tests/Slice0.lean ====
section
/-! SUPPORT. The model's own tests, the smoke test of WellFormed among them, and for each statement with hypotheses
concrete states and operands that meet them. -/

namespace Sys2Proof.Tests

open Sys2Proof Sys2Proof.Machine

set_option Elab.async false

/-! ### A small machine -/

/-- Cord 0 of host 0: Hearths 0 and 1, DRAM channel 0, Hitches 0 to 15, sessions 0 to 3, 64 KiB of weights. -/
def cord : CordCfg :=
  { cord := 0, ownerHost := 0, reserveMw := 1000, hearths := 3, channels := 1, ways := 1, hitchBase := 0
    hitchCount := 16, sessionBase := 0, sessionCount := 4, weightShare := 65536, historyBytes := 0, haloBytes := 0
    scaleBytes := 0, tileBytes := 0, historySteps := 0
    region := [(0, 1), (1, 4), (5, 160), (165, 1), (166, 8), (174, 2), (176, 4)] }

def lay : LayCfg :=
  { seq := 1, hash := 0, roles := [0, 0] ++ List.replicate 46 1, scWays := 0, beSlice := 1000
    units := List.replicate 20 0, cords := [cord], models := [] }

/-- The module in the phase RUN with that Lay and all hosts connected. -/
def demo : State :=
  { State.reset with
    lay := some lay, trust := { boot := 2 }
    hosts := [(0, { rate := 1 }), (1, { rate := 1 })] }

/-- Core 0 of Hearth 0 runs and stands at word `w`; x1 holds `a`, x2 holds `b`. -/
def standing (w : Word) (a b : DWord) : State :=
  demo.setCore 0 0 { state := 1, pc := 8, imem := [(2, w)], x := [(1, a), (2, b)], cord := 0 }

/-- What `f` reads of the state after one command, if the command completes. -/
def after {α : Type} (i : Instr) (s : State) (f : State → α) : Option α := match exec i s with
  | .next t => some (f t)
  | _ => none

/-! ### WellFormed: one command that names a unit that does not exist for each check, beside one that does not -/

theorem test_wf_hearth : (Instr.rows 48).wf = false ∧ (Instr.rows 47).wf = true := by decide
theorem test_wf_core_hearth : (Instr.nop 48 0).wf = false ∧ (Instr.nop 47 1).wf = true := by decide
theorem test_wf_core_number : (Instr.halt 0 2).wf = false ∧ (Instr.halt 0 0).wf = true := by decide
theorem test_wf_kiln : (Instr.kilnClear 0 4).wf = false ∧ (Instr.kilnClear 47 3).wf = true := by decide
theorem test_wf_kiln_hearth : (Instr.kilnClear 48 0).wf = false := by decide
theorem test_wf_host : (Instr.drgCap 4 0).wf = false ∧ (Instr.drgCap 3 0).wf = true := by decide
theorem test_wf_port : (Instr.dpDataRead 0 16 1).wf = false ∧ (Instr.dpDataRead 3 15 1).wf = true := by decide
theorem test_wf_port_host : (Instr.dpDataRead 4 0 1).wf = false := by decide
theorem test_wf_panel : (Instr.teEvent 2).wf = false ∧ (Instr.teEvent 1).wf = true := by decide
theorem test_wf_cord : (Instr.jobDispatch 16).wf = false ∧ (Instr.jobDispatch 15).wf = true := by decide
theorem test_wf_hitch : (Instr.hitchCount 0 65536 0).wf = false ∧ (Instr.hitchCount 0 65535 0).wf = true := by decide
theorem test_wf_channel : (Instr.scrubLine 32 ⟨⟨[], []⟩, none, 0⟩).wf = false ∧ (Instr.scrubLine 31 ⟨⟨[], []⟩, none, 0⟩).wf = true := by
  decide
theorem test_wf_link : (Instr.flitReceive 7 0 ⟨0, 0, 0, 1⟩ true).wf = false ∧
    (Instr.flitReceive 0x128 0 ⟨0, 0, 0, 1⟩ true).wf = false ∧ (Instr.flitReceive 0x21C 0 ⟨0, 0, 0, 1⟩ true).wf = false ∧
    (Instr.flitReceive 0x200 2 ⟨1, 0, 0, 1⟩ true).wf = true := by decide
theorem test_wf_traffic_class : (Instr.flitReceive 0 3 ⟨0, 0, 0, 1⟩ true).wf = false := by decide
theorem test_wf_link_direction : (Instr.flitReceive 0 0 ⟨2, 0, 0, 1⟩ true).wf = false := by decide
theorem test_wf_node : (Instr.flitReceive 0 0 ⟨0, 0, 76, 1⟩ true).wf = false ∧ (Instr.flitReceive 0 0 ⟨0, 0, 1, 76⟩ true).wf = false := by
  decide
theorem test_wf_clock : (Instr.clockMonitorWindow 8 0).wf = false ∧ (Instr.clockMonitorWindow 0x130 0).wf = false ∧
    (Instr.clockMonitorWindow 0x12F 0).wf = true ∧ (Instr.clockMonitorWindow 7 0).wf = true := by decide
theorem test_wf_output : (Instr.outputFault 0x20 5 1).wf = false ∧ (Instr.outputFault 0x31 2 1).wf = false ∧
    (Instr.outputFault 0x21 7 1).wf = true ∧ (Instr.outputFault 0x30 1 1).wf = true := by decide
theorem test_wf_rail : (Instr.supplyFault 3 0 0).wf = false ∧ (Instr.supplyFault 2 0 0).wf = true := by decide
theorem test_wf_usb_rate : (Instr.usbLinkUp 0 0 false).wf = false ∧ (Instr.usbLinkUp 0 6 false).wf = false ∧
    (Instr.usbLinkUp 0 5 false).wf = true := by decide
theorem test_wf_stream : (Instr.streamOpen 0 4).wf = false ∧ (Instr.streamOpen 0 3).wf = true := by decide
theorem test_wf_bank : (Instr.bankWake 0 16).wf = false ∧ (Instr.bankWake 0 15).wf = true := by decide
theorem test_wf_decoder : (Instr.jpegDecode 2).wf = false ∧ (Instr.jpegDecode 1).wf = true := by decide
theorem test_wf_panel_output : (Instr.panelOutputDeferred 0 2).wf = false ∧ (Instr.panelOutputDeferred 0 1).wf = true := by
  decide
theorem test_wf_nonce : (Instr.trustAttNonce 0 8 0).wf = false ∧ (Instr.trustAttNonce 0 7 0).wf = true := by decide
theorem test_wf_agent : (Instr.hitchCancel 0 (.core 0 2)).wf = false ∧ (Instr.hitchCancel 0 (.window 0 2)).wf = false ∧
    (Instr.hitchCancel 0 (.host 4)).wf = false ∧ (Instr.hitchCancel 0 (.unit 28)).wf = false ∧
    (Instr.hitchCancel 0 (.unit 27)).wf = true := by decide
/-- exec answers the fault by name for a unit that does not exist, and a next state for one that does. -/
theorem test_no_such_unit : after (.rows 48) demo (fun t => t.time) = none ∧ after (.rows 47) demo (fun t => t.time) = some 0 := by
  decide +kernel

/-! ### Words written out from the encodings of chapter 7: one of each format and of each major opcode -/

/-- ADD x3, x1, x2: op 0x00, rd 3, rs1 1, rs2 2, funct 0x000. -/
theorem test_decode_add : kdecode 0 0 0b000000_00011_00001_00010_00000000000 = some (.add 0 0 3 1 2) := by decide
/-- REMU x31, x30, x29: funct 0x016. -/
theorem test_decode_remu : kdecode 47 1 0b000000_11111_11110_11101_00000010110 = some (.remu 47 1 31 30 29) := by decide
/-- funct 0x00E is no operation of format A. -/
theorem test_decode_bad_funct : kdecode 0 0 0b000000_00011_00001_00010_00000001110 = none := by decide
/-- XORI x4, x5, 0x8001: op 0x04. -/
theorem test_decode_xori : kdecode 0 0 0b000100_00100_00101_1000000000000001 = some (.xori 0 0 4 5 0x8001) := by decide
/-- LH x7, -2(x8): op 0x12. -/
theorem test_decode_lh : kdecode 0 0 0b010010_00111_01000_1111111111111110 = some (.lh 0 0 7 8 0xFFFE) := by decide
/-- VST v9, 64(x10): op 0x1C. -/
theorem test_decode_vst : kdecode 0 0 0b011100_01001_01010_0000000001000000 = some (.vst 0 0 9 10 64) := by decide
/-- BLTU x1, x2, +3: op 0x24. -/
theorem test_decode_bltu : kdecode 0 0 0b100100_00001_00010_0000000000000011 = some (.bltu 0 0 1 2 3) := by decide
/-- JAL x1, -1: op 0x26, rs2 field 0. -/
theorem test_decode_jal : kdecode 0 0 0b100110_00001_00000_1111111111111111 = some (.jal 0 0 1 0xFFFF) := by decide
/-- BPANY p5, +2: op 0x27, the predicate in the low bits of the first register field. -/
theorem test_decode_bpany : kdecode 0 0 0b100111_00101_00000_0000000000000010 = some (.bpany 0 0 5 2) := by decide
/-- VMULH v1, v2, v3 under p4 in 16-bit form: op 0x30, funct 0x04. -/
theorem test_decode_vmulh : kdecode 0 0 0b110000_00001_00010_00011_100_1_0000100 = some (.vmulh 0 0 1 2 3 4 true) := by
  decide
/-- VFMA v1, v2, v3 under p0 in 32-bit form: op 0x31, funct 0x03. -/
theorem test_decode_vfma : kdecode 0 0 0b110001_00001_00010_00011_000_0_0000011 = some (.vfma 0 0 1 2 3 0 false) := by
  decide
/-- PSETN p6, x1: op 0x32, funct 0x0F. -/
theorem test_decode_psetn : kdecode 0 0 0b110010_00110_00001_00000_000_0_0001111 = some (.psetn 0 0 6 1 0 0 false) := by
  decide
/-- VTEX v4, v8, v12 under p1: op 0x33. -/
theorem test_decode_vtex : kdecode 0 0 0b110011_00100_01000_01100_001_0_0000000 = some (.vtex 0 0 4 8 12 1 false) := by
  decide
/-- KISSUE target 7, x5, +4095: op 0x38. -/
theorem test_decode_kissue : kdecode 0 0 0b111000_00101_00000_111_0_111111111111 = some (.kissue 0 0 5 7 0xFFF) := by decide
/-- KPOLL x9, target 4: op 0x3A. -/
theorem test_decode_kpoll : kdecode 0 0 0b111010_00000_01001_100_0_000000000000 = some (.kpoll 0 0 9 4) := by decide
/-- TRYWAIT x1, x2, x3: op 0x3C, operation 2. -/
theorem test_decode_trywait : kdecode 0 0 0b111100_00001_00010_00011_00000000_010 = some (.trywait 0 0 1 2 3) := by decide
/-- TRAP 0xAB: op 0x3E, operation 4. -/
theorem test_decode_trap : kdecode 0 0 0b111110_000000_0000_10101011_00000100 = some (.trap 0 0 0xAB) := by decide
/-- Op 0x3D is no opcode. -/
theorem test_decode_no_opcode : kdecode 0 0 0b111101_00000_00000_0000000000000000 = none ∧ legalWord 0xF4000000 = false := by
  decide
/-- The table gives its rows no bits, so no word spells a command of the block. -/
theorem test_no_table_word : decodeTableWord 32 0 = none ∧ State.reset.withFetchWord 32 0 = State.reset := ⟨rfl, rfl⟩

/-! ### Values of the manual's worked examples -/

/-- Chapter 4, the residue example: from the bias 1,000 with lane 6, three terms give −812 with lane 0. -/
theorem test_accumulate_example :
    ([(31, -24), (-17, 64), (5, 4)].foldl (fun e x => accStep e x.1 x.2) { val := .ofInt 32 1000, clamp := false, lane := 6 }) =
      { val := .ofInt 32 (-812), clamp := false, lane := 0 } := by decide +kernel
/-- R104: an accumulation beyond the largest value clamps and sets the sticky bit. -/
theorem test_accumulate_clamps : accStep { val := 0x7FFFFFFF } 1 1 = { val := 0x7FFFFFFF, clamp := true, lane := 1 } := by
  decide +kernel
/-- The output codebook of the worked example of chapter 5. -/
def outBook : List Int := [-96, -64, -40, -24, -12, -6, -2, 0, 2, 6, 12, 24, 40, 64, 96, 127]
/-- Chapter 5, first emission at 2^−5 (`exp` −36): codes 11, 11, 5 and 15, the last saturating. -/
theorem test_emission_example : ([48203, 36864, -8192, 266240].map fun y =>
    (nearestCode outBook (tNum y (-36)) (tDen 0x80000000), saturates outBook (tNum y (-36)) (tDen 0x80000000))) =
      [(11, false), (11, false), (5, false), (15, true)] := by decide +kernel
/-- Chapter 5, the recovered emission at 2^−4 (`exp` −35): codes 10, 10, 6 and 13. -/
theorem test_recovered_example : ([48203, 36864, -8192, 266240].map fun y =>
    (nearestCode outBook (tNum y (-35)) (tDen 0x80000000), saturates outBook (tNum y (-35)) (tDen 0x80000000))) =
      [(10, false), (10, false), (6, false), (13, false)] := by decide +kernel
/-- R91's example of an exchange: offset 995,000 ns and delay 130,000 ns. -/
theorem test_exchange_example : exchangeOf (20000000000, 20001060000, 20001062000) 20000132000 =
    { t1 := 20000000000, offset := 995000, delay := 130000 } := by decide +kernel
/-- Chapter 1: the log's check is the standard CRC-32, whose check value for "123456789" is 0xCBF4_3926. -/
theorem test_crc32 : crc32 ((List.range 9).map fun i => .ofNat 8 (0x31 + i)) = 0xCBF43926 := by decide +kernel

/-! ### Kindling: corners that R188 and R189 name -/

/-- R188: division by 0 gives all ones, and −2^63 by −1 gives −2^63. -/
theorem test_div_by_zero : after (.div 0 0 3 1 2) (standing 0x00611013 5 0) (fun t => (t.core 0 0).readX 3) =
    some 0xFFFFFFFFFFFFFFFF := by decide +kernel
theorem test_div_wraps : after (.div 0 0 3 1 2) (standing 0x00611013 0x8000000000000000 0xFFFFFFFFFFFFFFFF)
    (fun t => (t.core 0 0).readX 3) = some 0x8000000000000000 := by decide +kernel
/-- R188: the remainder of a division by 0 is the dividend. -/
theorem test_rem_by_zero : after (.rem 0 0 3 1 2) (standing 0x00611015 5 0) (fun t => (t.core 0 0).readX 3) = some 5 := by
  decide +kernel
/-- LUI sign-extends imm << 16. -/
theorem test_lui : after (.lui 0 0 3 0 0x8000) (standing 0x28608000 0 0) (fun t => (t.core 0 0).readX 3) =
    some 0xFFFFFFFF80000000 := by decide +kernel
/-- The example of R206: BNE with offset −5 at 0x0024 goes to 0x0010; at pc 8 it wraps to 0x7FF4. -/
theorem test_bne_wraps : after (.bne 0 0 1 0 0xFFFB) (standing 0x8420FFFB 1 0)
    (fun t => ((t.core 0 0).pc, (t.core 0 0).blkPending)) = some (0x7FF4, true) := by decide +kernel
/-- R189: 2^31 converted to a 32-bit integer saturates; −1.5 goes to −2, the tie to even. -/
theorem test_float_to_int : cvtFI fp32 32 0x4F000000 = 0x7FFFFFFF ∧ cvtFI fp32 32 0xBFC00000 = 0xFFFFFFFE := by
  decide +kernel
/-- 1.0 + 1.0 = 2.0, and 1.0 + 2^−24 ties to 1.0. -/
theorem test_float_add : fp32.pack ((fp32.decode 0x3F800000).add (fp32.decode 0x3F800000)) = 0x40000000 ∧
    fp32.pack ((fp32.decode 0x3F800000).add (fp32.decode 0x33800000)) = 0x3F800000 := by decide +kernel
/-- R106: shifts right round to nearest, ties to even. -/
theorem test_rshift : (rshiftRne 3 1, rshiftRne 5 1, rshiftRne (-3) 1, rshiftRne 7 2) = (2, 2, -2, 2) := by decide +kernel
/-- R204: the first BLK of R206's example turns G from 0 into 0x3A1. -/
theorem test_blk : after (.blk 0 0 false 0x3A1 0x3A1) (standing 0xFC3A13A1 0 0)
    (fun t => ((t.core 0 0).g, (t.core 0 0).pc, (t.core 0 0).state)) = some (0x3A1, 12, 1) := by decide +kernel
/-- A misaligned LW stops the core with cause 3 and halts it. -/
theorem test_misaligned : after (.lw 0 0 3 1 0) (standing 0x50610000 2 0)
    (fun t => ((t.core 0 0).cause, (t.core 0 0).state, (t.core 0 0).faultPc)) = some (3, 3, 8) := by decide +kernel
/-- SB of the lowest byte above the weight share, little-endian SW beside it. -/
theorem test_sw : after (.sw 0 0 2 1 0) (standing 0x64410000 65536 0x11223344)
    (fun t => (t.hearth 0).store.lookList zeroByte 65536 4) = some [0x44, 0x33, 0x22, 0x11] := by decide +kernel

/-! ### Registers and requests of the host -/

/-- R83: a set alias ORs, a clear alias clears, within the RW bits 1 and 0 of FLT_CTRL (3 after reset). -/
theorem test_clear_alias : after (.clearAliasWrite 0 0x280004 1) demo (fun t => t.reg 0x280004) = some 2 := by decide +kernel
theorem test_set_alias : after (.setAliasWrite 0 0x280004 0xFC) demo (fun t => t.reg 0x280004) = some 3 := by decide +kernel
/-- R505: the write of FLT_CTRL is logged with its old and its new word. -/
theorem test_logged_write : after (.registerWrite 0 0x280004 1) demo
    (fun t => t.trust.chg.entries.map fun e => (e.kind, e.addr, e.old, e.new, e.seq)) = some [(0x101, 0x280004, 3, 1, 0)] := by
  decide +kernel
/-- R69, R75: a request with a reserved word set is answered with BAD_REQUEST and does nothing. -/
theorem test_bad_request : after (.writeInc 0 ⟨5, 0x280004, 1, 0, 1, [0], 0⟩) demo
    (fun t => ((t.host 0).responses, t.reg 0x280004)) = some ([⟨0x81, 5, 1, [], 0⟩], 3) := by decide +kernel
/-- R78: a FENCE that nothing holds is answered with its tag. -/
theorem test_fence : after (.fenceComplete 0) (demo.setHost 0 { rate := 1, fence := some 9 })
    (fun t => (t.host 0).responses) = some [⟨0x87, 9, 0, [], 0⟩] := by decide +kernel
/-- R427: a signal beyond 0xFFFF_FFFF saturates and sets overflow. -/
theorem test_hitch_saturates : (({ count := 0xFFFFFFFF } : Hitch).signal 1).1 = { count := 0xFFFFFFFF, ovf := true } := by
  decide +kernel
/-- R427: waiters are served in order: 5 grants the first waiter of 3, and the second of 4 waits. -/
theorem test_hitch_order : ({ queue := [⟨.core 0 0, 3⟩, ⟨.core 0 1, 4⟩] } : Hitch).signal 5 =
    ({ count := 2, queue := [⟨.core 0 1, 4⟩] }, [.core 0 0]) := by decide +kernel
/-- R452: the cap is no lower than 40 W. -/
theorem test_cap : after (.drgCap 0 10) demo (fun t => (t.drg.capW, t.drg.target)) = some (40, 40000) := by decide +kernel
/-- R519: a fuse trip takes all but the flash; the module then comes up in a power-on reset. -/
theorem test_power_cycle : after (.fuseRetry false) { demo with pwr := { powered := false, fuseOpen := true }, wall := 1000000000 }
    (fun t => (t.pwr.powered, t.pwr.inReset, t.pwr.fuseOpen, t.pwr.nextCause)) = some (true, true, false, some 0) := by
  decide +kernel

/-! ### States that meet the hypotheses of the statements: the cores

Each theorem below is named after its statement, and shows for each of its clauses, or for each kind of clause, a state
and operands that meet the clause's hypotheses together, at the ends of the ranges that clauses divide among them. -/

/-- The words of A format with rd 3, rs1 1, rs2 2; I format with the immediate 0xFFFF. -/
def wordA (funct : Nat) : Word := 0#6 ++ 3#5 ++ 1#5 ++ 2#5 ++ BitVec.ofNat 11 funct
def wordI (op : Nat) (imm : BitVec 16) : Word := BitVec.ofNat 6 op ++ 3#5 ++ 1#5 ++ imm
def wordV (op : Nat) (w16 : BitVec 1) (funct : Nat) : Word :=
  BitVec.ofNat 6 op ++ 4#5 ++ 5#5 ++ 6#5 ++ 1#3 ++ w16 ++ BitVec.ofNat 7 funct

theorem wit_idle_step : State.reset.pending = [] ∧ State.reset.live = true ∧ State.reset.clk.relocking = false ∧
    ({ State.reset with clk := { relocking := true } } : State).live = true := by decide +kernel
theorem wit_commands_complete : (Instr.powerUp).wf = true ∧ (Instr.nop 0 2).wf = false := by decide +kernel
theorem wit_logs_chained : State.reset.flt.log.Chained ∧ State.reset.trust.chg.Chained := by
  have h : ({} : Log).Chained := ⟨by decide, by intro e h; simp at h, by intro i a b h; simp at h⟩
  exact ⟨h, h⟩
theorem wit_logs_step : after .powerUp { State.reset with pwr := { powered := false } } (fun t => t.pwr.powered) = some true := by
  decide +kernel
theorem wit_hardwired : (3 : BitVec 5) ≠ 0 ∧ (7 : BitVec 3) ≠ 0 := by decide +kernel
theorem wit_decode_of_encode : (kword (.add 47 1 3 1 2)).isSome = true ∧ legalWord (wordA 0) = true ∧
    (kword (.nop 0 0)).isSome = true ∧ legalWord 0xF80FFF00 = true := by decide +kernel
theorem wit_only_fetched : kword (.sub 0 0 3 1 2) = some ((0, 0), wordA 1, maskAll) ∧ coreOk 0 0 = true ∧
    (standing (wordA 0) 5 6).standsAt 0 0 (wordA 0) = true ∧ wordA 0 &&& maskAll ≠ wordA 1 &&& maskAll ∧
    (demo.core 0 0).runs = false := by decide +kernel
theorem wit_scalar_register : ∀ f ∈ [0x000, 0x001, 0x002, 0x003, 0x004, 0x005, 0x006, 0x007, 0x008, 0x009, 0x00A, 0x00B,
    0x00C, 0x00D, 0x010, 0x011, 0x012, 0x013, 0x014, 0x015, 0x016], (standing (wordA f) 5 6).standsAt 0 0 (wordA f) = true := by
  decide +kernel
theorem wit_scalar_immediate : ∀ f ∈ [1, 2, 3, 4, 5, 6, 7, 8, 9, 10],
    (standing (wordI f 0xFFFF) 5 6).standsAt 0 0 (wordI f 0xFFFF) = true := by decide +kernel
/-- The six comparing branches, BPANY, BPNONE, JAL and JALR. -/
theorem wit_branches : ∀ n ∈ [0x8061FFFB, 0x8461FFFB, 0x8861FFFB, 0x8C61FFFB, 0x9061FFFB, 0x9461FFFB, 0x9FA00002, 0xA0A00002,
      0x9820FFFF, 0x2C610008],
    (standing (.ofNat 32 n) 5 6).standsAt 0 0 (.ofNat 32 n) = true := by decide +kernel
/-- CSRR of indices 0 to 13, CSRW of 12 and 13. -/
theorem wit_control_registers : ∀ n ∈ [0x30600000, 0x30600001, 0x30600002, 0x30600003, 0x30600004, 0x30600005, 0x30600006, 0x30600007,
      0x30600008, 0x30600009, 0x3060000A, 0x3060000B, 0x3060000C, 0x3060000D, 0x3401000C, 0x3401000D],
    (standing (.ofNat 32 n) 5 6).standsAt 0 0 (.ofNat 32 n) = true := by decide +kernel
/-- Loads at the last aligned address of the store, 0x0040_0000 less the size. -/
theorem wit_loads : ∀ e ∈ [(0x10, 1), (0x11, 1), (0x12, 2), (0x13, 2), (0x14, 4), (0x15, 4), (0x16, 8), (0x1B, 64)],
    let s := standing (wordI e.1 0) (.ofNat 64 (4194304 - e.2)) 0
    s.standsAt 0 0 (wordI e.1 0) = true ∧ (4194304 - e.2) % e.2 = 0 ∧ (s.hearth 0).meetsUe (4194304 - e.2) e.2 = false := by
  decide +kernel
/-- Stores at the first address above the weight share. -/
theorem wit_stores : ∀ e ∈ [(0x17, 1), (0x18, 2), (0x19, 4), (0x1A, 8), (0x1C, 64), (0x1D, 4), (0x1E, 4)],
    let s := standing (wordI e.1 0) 65536 0
    s.standsAt 0 0 (wordI e.1 0) = true ∧ 65536 % e.2 = 0 ∧ s.cordCfg (s.core 0 0).cord = some cord ∧
    cord.weightShare ≤ 65536 ∧ (s.hearth 0).partUe 65536 e.2 = false := by decide +kernel
/-- A misaligned access, one at the end of the store, and a store just below the weight share. -/
theorem wit_forbidden : (∀ e ∈ [(0x12, 2), (0x13, 2), (0x14, 4), (0x15, 4), (0x16, 8), (0x18, 2), (0x19, 4), (0x1A, 8),
      (0x1B, 64), (0x1C, 64), (0x1D, 4), (0x1E, 4)],
      (standing (wordI e.1 0) 1 0).standsAt 0 0 (wordI e.1 0) = true ∧ 1 % e.2 ≠ 0) ∧
    (∀ e ∈ [0x10, 0x11, 0x12, 0x13, 0x14, 0x15, 0x16, 0x17, 0x18, 0x19, 0x1A, 0x1B, 0x1C, 0x1D, 0x1E],
      (standing (wordI e 0) 4194304 0).standsAt 0 0 (wordI e 0) = true) ∧
    (∀ e ∈ [(0x17, 1), (0x18, 2), (0x19, 4), (0x1A, 8), (0x1C, 64), (0x1D, 4), (0x1E, 4)],
      let s := standing (wordI e.1 0) (.ofNat 64 (65536 - e.2)) 0
      s.standsAt 0 0 (wordI e.1 0) = true ∧ (65536 - e.2) % e.2 = 0 ∧ s.cordCfg (s.core 0 0).cord = some cord ∧
      65536 - e.2 < cord.weightShare) := by decide +kernel
theorem wit_vector_lanes : ∀ f ∈ [0, 1, 2, 3, 4, 5, 7, 9, 10, 11, 12, 13, 14, 15, 16, 17, 18],
    (standing (wordV 0x30 0 f) 5 6).standsAt 0 0 (wordV 0x30 0 f) = true ∧
    (standing (wordV 0x30 1 f) 5 6).standsAt 0 0 (wordV 0x30 1 f) = true := by decide +kernel
/-- VMACW, VRSHRW, then VLUT and VSEL in both forms, then the comparisons in both forms. -/
theorem wit_vector_pairs : ∀ n ∈ [0xC0883106, 0xC0883108, 0xC0883113, 0xC0883193, 0xC0883117, 0xC0883197, 0xC0883114, 0xC0883194,
      0xC0883115, 0xC0883195, 0xC0883116, 0xC0883196],
    (standing (.ofNat 32 n) 5 6).standsAt 0 0 (.ofNat 32 n) = true := by decide +kernel
/-- Functs 0 to 7 of op 0x31 and 0 to 5 of op 0x32, in both forms. -/
theorem wit_vector_floats : ∀ n ∈ [0xC4853100, 0xC4853180, 0xC4853101, 0xC4853181, 0xC4853102, 0xC4853182, 0xC4853103, 0xC4853183,
      0xC4853104, 0xC4853184, 0xC4853105, 0xC4853185, 0xC4853106, 0xC4853186, 0xC4853107, 0xC4853187,
      0xC8853100, 0xC8853180, 0xC8853101, 0xC8853181, 0xC8853102, 0xC8853182, 0xC8853103, 0xC8853183,
      0xC8853104, 0xC8853184, 0xC8853105, 0xC8853185],
    (standing (.ofNat 32 n) 5 6).standsAt 0 0 (.ofNat 32 n) = true := by decide +kernel
theorem wit_float_special : fp32.decode 0x7FC00001 = .nan ∧ fp16.decode 0x7E01 = .nan := by decide +kernel
/-- Functs 6 to 15 of op 0x32, in both forms. -/
theorem wit_moves : ∀ n ∈ [0xC8853106, 0xC8853186, 0xC8853107, 0xC8853187, 0xC8853108, 0xC8853188, 0xC8853109, 0xC8853189,
      0xC885310A, 0xC885318A, 0xC885310B, 0xC885318B, 0xC885310C, 0xC885318C, 0xC885310D, 0xC885318D,
      0xC885310E, 0xC885318E, 0xC885310F, 0xC885318F],
    (standing (.ofNat 32 n) 5 6).standsAt 0 0 (.ofNat 32 n) = true := by decide +kernel
/-- KISSUE with the address at the end of the store, misaligned, beyond it, and of a RELEASE to target 4 with room and
with a full queue; ROWS under VPATH; KWAIT and KPOLL. -/
theorem wit_command_issue :
    (let w : Word := 0x38#6 ++ 1#5 ++ 0#5 ++ 4#3 ++ 0#1 ++ 1#12
     let st := standing w (4194304 - 64) 0
     let s := st.setHearth 0 { st.hearth 0 with store := (st.hearth 0).store.putList zeroByte 4194272 [0x26] }
     s.standsAt 0 0 w = true ∧ (4194272 : Nat) % 32 = 0 ∧ (s.hearth 0).meetsUe 4194272 32 = false ∧
     (s.queueOf 0 4).length < 4 ∧ s.cmdAccepted 0 4 ((s.hearth 0).store.lookList zeroByte 4194272 32) = true ∧
     (let full := s.setHearth 0 { s.hearth 0 with queues := [(4, List.replicate 4 ⟨[], 0, 0⟩)] }
      full.standsAt 0 0 w = true ∧ 4 ≤ (full.queueOf 0 4).length) ∧
     (let bad := s.setHearth 0 { s.hearth 0 with store := (s.hearth 0).store.putList zeroByte 4194272 [0x27] }
      bad.standsAt 0 0 w = true ∧ bad.cmdAccepted 0 4 ((bad.hearth 0).store.lookList zeroByte 4194272 32) = false) ∧
     (standing w 1 0).standsAt 0 0 w = true ∧ (standing w (4194304 - 32) 0).standsAt 0 0 w = true ∧
     (let v := s.setCore 0 0 { s.core 0 0 with vpath := true }
      let v := v.setHearth 0 { v.hearth 0 with store := (v.hearth 0).store.putList zeroByte 4194272 [0x21] }
      v.standsAt 0 0 w = true ∧ (v.hearth 0).store.look zeroByte 4194272 = 0x21)) ∧
    (standing 0xE4000000 0 0).standsAt 0 0 0xE4000000 = true ∧ (standing 0xE9200000 0 0).standsAt 0 0 0xE9200000 = true := by
  decide +kernel
/-- A queued job that waits for Hitch 14. -/
def waiter : Job :=
  { sub := 1, cord := 0, host := 0, lc := true, kind := 1, flags := 4, nHearths := 1, histFlags := 0, session := 0
    modelId := 0, entry0 := 0, entry1 := 0, arg0 := 0, arg1 := 0, deadline := 0, budgetNs := 0, wcNs := 0, energyUj := 0
    npBoundUs := 0, rows := 16, tag := 0, startHitch := 14, startCount := 0, doneHitch := 0 }
/-- A core that stands at word `w` with `n` in x1 and Hitch 15, which is `y`, in x2, beside that job. -/
def hitching (w : Word) (n : DWord) (y : Hitch) : State :=
  ({ standing w n 15 with jobs := [waiter] } : State).setHitch 15 y
/-- The four Hitch instructions on Hitch 15 of the Cord: SIGNAL of 5 on 0xFFFF_FFFA, beside a job that waits for another
Hitch; WAIT of 5 with the count 5, with 4, behind a waiter of 9 with 8, and at a barrier; TRYWAIT; ARM of 2^31 - 1, and
of barriers of 1 and of 65,535; and Hitch 16, which is not the Cord's. -/
theorem wit_hitch_instructions : (∀ n ∈ [0xF0011000, 0xF0011001, 0xF0611002, 0xF0011003],
      (hitching (.ofNat 32 n) 5 {}).standsAt 0 0 (.ofNat 32 n) = true ∧ (standing (.ofNat 32 n) 5 16).standsAt 0 0 (.ofNat 32 n) = true) ∧
    (demo.hitchIn 0 15 = true ∧ demo.hitchIn 0 16 = false) ∧
    (let y := (hitching 0xF0011000 5 { count := 0xFFFFFFFA }).hitch 15
     y.queue = [] ∧ y.poison = false ∧ y.barrier = false ∧ y.count + 5 ≤ 0xFFFFFFFF) ∧
    (∀ j ∈ (hitching 0 5 {}).jobs, (j.startEn = false ∨ j.startHitch ≠ 15) ∧ j.pass.waitsOn ≠ some 15) ∧
    (hitching 0 5 {}).jobs ≠ [] ∧
    (let y := (hitching 0xF0011001 5 { count := 5 }).hitch 15
     y.queue = [] ∧ y.poison = false ∧ y.barrier = false ∧ 5 ≤ y.count) ∧
    (let y := (hitching 0xF0011001 5 { count := 4 }).hitch 15
     y.poison = false ∧ y.queue = [] ∧ y.count < 5) ∧
    (let y := (hitching 0xF0011001 5 { count := 8, queue := [⟨.core 0 1, 9⟩] }).hitch 15
     y.poison = false ∧ y.queue = [⟨.core 0 1, 9⟩] ∧ y.count < 9) ∧
    (let y := (hitching 0xF0011001 5 { barrier := true, target := 2 }).hitch 15
     y.poison = false ∧ y.barrier = true) ∧
    (∀ n ∈ [0x7FFFFFFF, 0x80000001, 0x8000FFFF],
      let s := hitching 0xF0011003 (.ofNat 64 n) {}
      (s.hitch 15).queue = [] ∧ (s.hitch 15).poison = false ∧ ((s.core 0 0).readX 1).toNat % 4294967296 = n) := by decide +kernel
/-- What each of them does there. -/
theorem test_hitch_instructions :
    after (.signal 0 0 1 2) (hitching 0xF0011000 5 { count := 0xFFFFFFFA }) (fun t => ((t.hitch 15).count, (t.core 0 0).pc)) =
      some (0xFFFFFFFF, 12) ∧
    after (.wait 0 0 1 2) (hitching 0xF0011001 5 { count := 5 }) (fun t => ((t.hitch 15).count, (t.core 0 0).pc)) = some (0, 12) ∧
    after (.wait 0 0 1 2) (hitching 0xF0011001 5 { count := 4 })
      (fun t => ((t.hitch 15).queue, (t.core 0 0).pc, (t.core 0 0).state)) = some ([⟨.core 0 0, 5⟩], 8, 2) ∧
    after (.trywait 0 0 3 1 2) (hitching 0xF0611002 5 { count := 5 }) (fun t => ((t.hitch 15).count, (t.core 0 0).readX 3)) =
      some (0, 1) ∧
    after (.arm 0 0 1 2) (hitching 0xF0011003 0x8000FFFF {}) (fun t => ((t.hitch 15).barrier, (t.hitch 15).target)) =
      some (true, 65535) := by decide +kernel
theorem wit_system : (∀ n ∈ [0xF80FFF00, 0xF80FFF01, 0xF80FFF02, 0xF80FFF03, 0xF80FFF04, 0xF80FFF05, 0xFC3A13A1],
    (standing (.ofNat 32 n) 5 6).standsAt 0 0 (.ofNat 32 n) = true) ∧
    (0 : BitVec 12) ^^^ 0x3A1 ^^^ 0 = 0x3A1 ∧ legalWord 0xF4000000 = false ∧
    ((standing 0xF4000000 5 6).core 0 0).runs = true ∧ (standing 0xF4000000 5 6).paused 0 = false := by decide +kernel
/-- A BLK with a wrong signature; a taken target that is no BLK; a pair of instructions with a double-bit error. -/
theorem wit_suspected :
    (let s := standing 0xFC3A13A2 5 6
     s.standsAt 0 0 0xFC3A13A2 = true ∧ (s.hearth 0).job = none ∧ (s.phy (s.physOf 0)).suspects = [] ∧
     (0 : BitVec 12) ^^^ 0x3A1 ^^^ 0 ≠ 0x3A2) ∧
    (let s := standing (wordA 0) 5 6
     let t := s.setCore 0 0 { s.core 0 0 with blkPending := true }
     (t.core 0 0).runs = true ∧ (t.core 0 0).fetch = wordA 0 ∧ isBlk (wordA 0) = false ∧
     (let u := s.setCore 0 0 { s.core 0 0 with imemUe := [1] }
      (u.core 0 0).runs = true ∧ (u.core 0 0).imemUe.contains ((u.core 0 0).pc / 8) = true)) := by decide +kernel

/-! ### States that meet the hypotheses: the engines of a Hearth -/

/-- An LC NET job of Cord 0 that runs on Hearth 0, submission 1. -/
def job0 : Job :=
  { sub := 1, cord := 0, host := 0, lc := true, kind := 1, flags := 0, nHearths := 1, histFlags := 0, session := 0
    modelId := 0, entry0 := 0, entry1 := 0, arg0 := 0, arg1 := 0, deadline := 0, budgetNs := 0, wcNs := 0, energyUj := 0
    npBoundUs := 0, rows := 16, tag := 0, startHitch := 0, startCount := 0, doneHitch := 0, phase := 2, waitOk := true
    hearths := [0], cuts := [0, 16], firstStart := some 0 }

/-- The module with job `j` on Hearth 0, whose store holds `m` and whose target `t` has `cmd`, if any, at its head. -/
def engine (j : Job) (m : SMap Byte) (t : Nat) (cmd : List Byte) : State :=
  { demo with jobs := [j] }.setHearth 0 { job := some j.sub, store := m, queues := if cmd = [] then [] else [(t, [⟨cmd, 0, 0⟩])] }

/-- A Kiln command, a MAC in H16 and the others in E8: operation, slot, flags, count and the weights' address 0x0010_0000. -/
def kilnCmd (op slot flags count : Nat) : List Byte :=
  natLe op 1 ++ natLe (if op = 1 then 3 else 2) 1 ++ natLe slot 1 ++ natLe flags 1 ++ natLe count 2 ++ natLe 0 2 ++
    natLe 0x100000 4 ++ natLe 0 20

/-- An open dense BF16 stream of one term, and a diagonal one of one kernel row and tap. -/
def dense : Stream := { phase := 2, fmt := 3, fanout := 1, terms := [List.replicate 16 .zero] }
def diagonal : Stream :=
  { phase := 2, fmt := 3, fanout := 1, diag := 1, nky := 1, nkx := 1, nc := 16, terms := [List.replicate 256 .zero] }
def opened (st : Stream) (s : State) : State :=
  s.setHearth 0 { s.hearth 0 with win := { streams := [(0, st)] } }

theorem wit_accumulate : residueOk 1 { val := 7, lane := 0 } = true ∧ residueOk 2 ({ val := 8, lane := 1 } : Acc) = true := by decide
/-- A MAC of one term into slot 63, with LAST. -/
theorem wit_mac :
    (let s := opened dense (engine job0 [] 0 (kilnCmd 1 63 4 0))
     let c := readKilnCmd (cmdMem (kilnCmd 1 63 4 0)) 0
     kilnOk 0 0 = true ∧ s.headStarts 0 0 1 ⟨kilnCmd 1 63 4 0, 0, 0⟩ [] ∧ s.kilnReady 0 0 = true ∧ dense.phase = 2 ∧
     dense.taken.contains 0 = false ∧ kilnCmdOk (s.hearth 0).store c dense.fmt = true ∧ dense.terms.length = c.terms ∧
     meetsHeld (s.kiln 0 0).held c.mode c.slot = false ∧ s.readsUe 0 (kilnReads (s.hearth 0).store c) = none ∧
     dense.diag = 0 ∧ (macResult (s.hearth 0).store c dense.terms (s.kiln 0 0).acc).2 = true) ∧
    (let s := opened diagonal (engine job0 [] 0 (kilnCmd 1 0 0 0))
     let c := readKilnCmd (cmdMem (kilnCmd 1 0 0 0)) 0
     s.headStarts 0 0 1 ⟨kilnCmd 1 0 0 0, 0, 0⟩ [] ∧ kilnCmdOk (s.hearth 0).store c diagonal.fmt = true ∧
     diagonal.terms.length = c.terms ∧ diagonal.diag ≠ 0 ∧ diagFits c.mode diagonal = true ∧
     (diagResult (s.hearth 0).store c diagonal (s.kiln 0 0).acc).2 = true) := by decide +kernel
/-- A MERGE of one source into slot 31, and a CLEAR of it. -/
theorem wit_merge_clear : ∀ op ∈ [2, 3],
    let s := engine job0 [] 0 (kilnCmd op 31 0 0)
    let c := readKilnCmd (cmdMem (kilnCmd op 31 0 0)) 0
    s.headStarts 0 0 op ⟨kilnCmd op 31 0 0, 0, 0⟩ [] ∧ s.kilnReady 0 0 = true ∧ kilnCmdOk (s.hearth 0).store c 0 = true ∧
    ((kilnCmdSlots (s.hearth 0).store c).any fun x => meetsHeld (s.kiln 0 0).held c.mode x) = false ∧
    s.readsUe 0 (kilnReads (s.hearth 0).store c) = none := by decide +kernel
theorem wit_kiln_fault : let s := opened dense (engine job0 [] 0 (kilnCmd 1 63 4 0))
    (s.phy (s.physOf 0)).service = 0 ∧ (s.phy (s.physOf 0)).suspects = [] ∧ s.flt.slot = none ∧ KilnCheck.h16Check ≠ .none := by
  decide +kernel
/-- Commands that are refused: a MAC and a CLEAR with flag 3, a QUENCH of a list beyond the store, a ROWS of no
valid block, a REGROUP, a SPLICE and a RELEASE with bad fields. -/
theorem wit_refused_commands :
    (let s := opened dense (engine job0 [] 0 (kilnCmd 1 0 8 0))
     s.headStarts 0 0 1 ⟨kilnCmd 1 0 8 0, 0, 0⟩ [] ∧ kilnCmdOk [] (readKilnCmd (cmdMem (kilnCmd 1 0 8 0)) 0) 3 = false) ∧
    (let s := engine job0 [] 0 (kilnCmd 3 0 8 0)
     s.headStarts 0 0 3 ⟨kilnCmd 3 0 8 0, 0, 0⟩ [] ∧ kilnCmdOk [] (readKilnCmd (cmdMem (kilnCmd 3 0 8 0)) 0) 0 = false) ∧
    (let q := natLe 0x10 4 ++ natLe 0 4 ++ natLe 4194304 4 ++ natLe 0 20
     (engine job0 [] 5 q).headStarts 0 5 0x10 ⟨q, 0, 0⟩ [] ∧ addrOk (readQCmd (cmdMem q) 0).list 4 4 = false) ∧
    (∀ op ∈ [0x20, 0x21, 0x22, 0x23], let q := natLe op 4 ++ natLe 0 28
     (engine job0 [] 4 q).headStarts 0 4 op ⟨q, 0, 0⟩ [] ∧ winCmdOk [] (readWinCmd (cmdMem q) 0) = false) ∧
    (let q := natLe 0x24 4 ++ natLe 0 28
     (engine job0 [] 4 q).headStarts 0 4 0x24 ⟨q, 0, 0⟩ [] ∧ regroupKind [] (readWinCmd (cmdMem q) 0) = none) ∧
    (let q := natLe 0x25 4 ++ natLe 0 28
     (engine job0 [] 4 q).headStarts 0 4 0x25 ⟨q, 0, 0⟩ [] ∧ spliceOk [] (readSplice (cmdMem q) 0) = false) ∧
    (let q := natLe 0x26 4 ++ List.replicate 28 1
     (engine job0 [] 4 q).headStarts 0 4 0x26 ⟨q, 0, 0⟩ [] ∧ (readSplice (cmdMem q) 0).nrows ≠ 0) := by decide +kernel
/-- The stores of these states hold no uncorrectable word, so no read of theirs meets one. -/
theorem wit_no_ue : ∀ t ∈ [0, 4, 5], ((engine job0 [] t (natLe 0x26 4 ++ natLe 0 28)).hearth 0).storeUe = [] := by decide +kernel
/-- A MAC of two terms at a stream of one; a MAC in E8 at a diagonal BF16 stream; a QUENCH of slot 0 of Kiln 0, which
nothing holds or hands over; an open stream of fan-out 2, of which neither idle core can issue a MAC. -/
theorem wit_refused_streams :
    (let s := opened dense (engine job0 [] 0 (kilnCmd 1 0 0 1))
     let c := readKilnCmd (cmdMem (kilnCmd 1 0 0 1)) 0
     s.headStarts 0 0 1 ⟨kilnCmd 1 0 0 1, 0, 0⟩ [] ∧ s.kilnReady 0 0 = true ∧ kilnCmdOk [] c dense.fmt = true ∧
     dense.terms.length ≠ c.terms) ∧
    (let q := natLe 1 1 ++ natLe 2 1 ++ natLe 0 30
     let s := opened diagonal (engine job0 [] 0 q)
     s.headStarts 0 0 1 ⟨q, 0, 0⟩ [] ∧ diagonal.taken.contains 0 = false ∧ diagonal.diag ≠ 0 ∧ diagFits 2 diagonal ≠ true) ∧
    (let q := natLe 0x10 4 ++ natLe 0x10000 4 ++ natLe 0x10040 4 ++ natLe 0 20
     let s := engine job0 [] 5 q
     s.headStarts 0 5 0x10 ⟨q, 0, 0⟩ [] ∧ readSlotList [] (readQCmd (cmdMem q) 0) = [(0, 0, 0)] ∧ s.heldTile 0 (0, 0, 0) = none ∧
     s.willHand 0 0 0 = false) ∧
    (let st : Stream := { dense with fanout := 2 }
     let s := opened st (engine job0 [] 4 [])
     st.phase ≠ 0 ∧ s.fanoutBad 0 0 st = true) := by decide +kernel
theorem wit_nearest_code : outBook ≠ [] ∧ 0 < (1 : Nat) ∧ (-40 : Int) ≤ 0 := by decide
/-- A QUENCH of slot 0 of Kiln 0, in H16, to bf16. -/
theorem wit_quench :
    let q := natLe 0x30010 4 ++ natLe 0x10000 4 ++ natLe 0x10040 4 ++ natLe 0 20
    let p := natLe 3 24 ++ natLe 0x80000000 8 ++ natLe 0x80000000 8 ++ natLe 0 4 ++ natLe 0x200000 4 ++ natLe 64 4 ++ natLe 64 12
    let m := (SMap.putList zeroByte [] 0x10000 p).putList zeroByte 0x10040 (natLe 0 4)
    let s0 := engine job0 m 5 q
    let s := s0.setKiln 0 0 { held := [⟨0, 3, 0⟩], mode := 3 }
    let c := readQCmd (cmdMem q) 0
    hearthOk 0 = true ∧ s.headStarts 0 5 0x10 ⟨q, 0, 0⟩ [] ∧ c.nslots < 64 ∧ addrOk c.list 4 (4 * (c.nslots + 1)) = true ∧
    (∀ x ∈ readSlotList m c, (s.heldTile 0 x).isSome = true) ∧
    quenchOk m [] c ((readSlotList m c).filterMap (s.heldTile 0)) = true ∧
    s.readsUe 0 [(c.params, 64), (c.list, 4 * (c.nslots + 1))] = none ∧ (s.hearth 0).storeUe = [] := by decide +kernel

/-- A window block of 16 rows in the stripe with a kernel of 1 × 1, its maps at 0x0002_0000 and headers at 0x0003_0000. -/
def block (fmt width height chans halo : Nat) : List Byte :=
  natLe fmt 1 ++ natLe 1 1 ++ natLe 1 2 ++ natLe 1 1 ++ natLe 1 1 ++ natLe 0 10 ++ natLe width 2 ++ natLe height 2 ++
    natLe chans 2 ++ natLe 1 2 ++ natLe 0x20000 4 ++ natLe 64 4 ++ natLe 1024 4 ++ natLe 0x30000 4 ++ natLe 0 2 ++
    natLe 16 2 ++ natLe 0x40000 4 ++ natLe 0x1000 4 ++ natLe halo 2 ++ natLe 8 2 ++ natLe 0 8
def blocks : SMap Byte :=
  (SMap.putList zeroByte [] 0x10000 (block 2 16 16 1 1)).putList zeroByte 0x10040 (block 2 16 8 4 0)
    |>.putList zeroByte 0x10080 (block 2 32 16 1 0)
/-- A window command of one kernel row, tap and channel at output row `oy`. -/
def winCmd (op oy params aux : Nat) : List Byte :=
  natLe op 2 ++ natLe oy 2 ++ natLe 0 3 ++ natLe 1 1 ++ natLe 0 1 ++ natLe 1 1 ++ natLe 0 2 ++ natLe 1 2 ++ natLe 0 2 ++
    natLe params 4 ++ natLe aux 4 ++ natLe 0 8

/-- ROWS, DIAG and DIAGMAX of the last row, and the stream that ROWS sets up. -/
theorem wit_window_streams : (∀ op ∈ [0x20, 0x21, 0x22],
      let q := winCmd op 15 0x10000 0
      let s := engine job0 blocks 4 q
      let c := readWinCmd (cmdMem q) 0
      s.headStarts 0 4 op ⟨q, 0, 0⟩ [] ∧ winCmdOk blocks c = true ∧ rowsInRange (readBlock blocks c.params) c = true ∧
      ((s.hearth 0).win.streams.look (fun _ => {}) 0).phase = 0 ∧
      haloSides (readBlock blocks c.params) (cmdRows (readBlock blocks c.params) c) = [] ∧ s.readsUe 0 [(c.params, 64)] = none) ∧
    (let q := winCmd 0x20 15 0x10000 0
     let c := readWinCmd (cmdMem q) 0
     let b := readBlock blocks c.params
     let s := opened { phase := 1, cmd := q, fmt := 2, fanout := 1, nky := 1, nkx := 1, nc := 1 }
       ((engine job0 blocks 4 []).setCore 0 0 { state := 1 })
     let ls := s.streamLines 0 0
     haloMissing (s.hearth 0).win (haloId c.params b) (haloSides b (cmdRows b c)) = [] ∧
     s.fanoutBad 0 0 ((s.hearth 0).win.streams.look (fun _ => {}) 0) = false ∧ lineRoom ls.1 + lineRoom ls.2 ≤ 262144 ∧
     ls.2 ≠ [] ∧ s.readsUe 0 (winReads b c (ls.2.map fun x => (x.row, x.chan))) = none) := by decide +kernel
theorem wit_out_of_stripe : let q := winCmd 0x20 15 0x10000 0
    let m := blocks.putList zeroByte 0x1002A (natLe 8 2)
    (engine job0 m 4 q).headStarts 0 4 0x20 ⟨q, 0, 0⟩ [] ∧ winCmdOk m (readWinCmd (cmdMem q) 0) = true ∧
    rowsInRange (readBlock m 0x10000) (readWinCmd (cmdMem q) 0) = false := by decide +kernel
theorem wit_mtable : let q := winCmd 0x23 15 0x10000 0x50000
    let c := readWinCmd (cmdMem q) 0
    let b := readBlock blocks c.params
    let s := engine job0 blocks 4 q
    s.headStarts 0 4 0x23 ⟨q, 0, 0⟩ [] ∧ winCmdOk blocks c = true ∧ rowsInRange b c = true ∧
    haloMissing (s.hearth 0).win (haloId c.params b) (haloSides b (cmdRows b c)) = [] ∧
    s.readsUe 0 [(c.params, 64)] = none ∧ s.readsUe 0 ((cmdRows b c).map fun n => (b.hdrAddr n, 8)) = none ∧
    (s.hearth 0).needs (fun m => mtableWrite m c) = none := by decide +kernel
/-- The MTABLE writes one 4-byte entry at 0x0005_0000 and the scale word at 0 (R439). -/
theorem test_word_use : let f := fun m => mtableWrite m (readWinCmd (cmdMem (winCmd 0x23 15 0x10000 0x50000)) 0)
    wordUse f blocks 0xA000 = .needed ∧ wordUse f blocks 0 = .whole ∧ wordUse f blocks 0xA001 = .unused := by decide +kernel
/-- A depth-to-space REGROUP by 2. -/
theorem wit_regroup : let q := winCmd 0x24 0 0x10040 0x10080
    let c := readWinCmd (cmdMem q) 0
    let s := engine job0 blocks 4 q
    s.headStarts 0 4 0x24 ⟨q, 0, 0⟩ [] ∧ regroupKind blocks c = some (2, true) ∧ regroupInRange blocks c 2 true = true ∧
    s.readsUe 0 [(c.params, 64), (c.aux, 64)] = none ∧ (s.hearth 0).needs (fun m => regroupWrite m c 2 true) = none := by
  decide +kernel
/-- A SPLICE of row 0 to Hearth 1 with FREE Hitch 3 at 1 or at 0, its acknowledgement, and a RELEASE. -/
def spliceCmd : List Byte :=
  natLe 0x25 2 ++ natLe 0 2 ++ natLe 1 2 ++ natLe 0 2 ++ natLe 0x10000 4 ++ natLe 1 4 ++ natLe 0x60000 4 ++ natLe 0 12
theorem wit_splice : let s := (engine job0 blocks 4 spliceCmd).setHitch 3 { count := 1 }
    let x := readSplice (cmdMem spliceCmd) 0
    s.headStarts 0 4 0x25 ⟨spliceCmd, 0, 0⟩ [] ∧ spliceOk blocks x = true ∧ x.hitch + 2 + x.side = 3 ∧
    (s.members (s.core 0 0).cord).contains x.dst = true ∧ spliceInRange blocks x = true ∧ (s.hearth 0).win.splice = none ∧
    (s.hitch 3).queue = [] ∧ (s.hitch 3).poison = false ∧ (s.hitch 3).barrier = false ∧ x.dst ≠ 0 ∧ 1 ≤ (s.hitch 3).count ∧
    ((engine job0 blocks 4 spliceCmd).hitch 3).count = 0 ∧ s.readsUe 0 [(x.params, 64)] = none ∧ s.spliceUe 0 x = none := by
  decide +kernel
theorem wit_splice_acked : let s := (engine job0 blocks 4 []).setHearth 0 { win := { splice := some ⟨spliceCmd, 0, true, none⟩ } }
    (s.hearth 0).win.splice = some ⟨spliceCmd, 0, true, none⟩ ∧ (s.hitch 1).queue = [] ∧ (s.hitch 1).count < 0xFFFFFFFF ∧
    ∀ j ∈ s.jobs, j.startEn = false ∧ j.pass.waitsOn = none := by decide +kernel
theorem wit_release : let q := natLe 0x26 1 ++ natLe 1 1 ++ natLe 0 6 ++ natLe 0x10000 4 ++ natLe 0 20
    let s := engine job0 blocks 4 q
    let x := readSplice (cmdMem q) 0
    s.headStarts 0 4 0x26 ⟨q, 0, 0⟩ [] ∧ x.flags = 1 ∧ x.row0 = 0 ∧ x.nrows = 0 ∧ x.parity = 0 ∧ x.hitch = 0 ∧ x.dst = 0 ∧
    x.rsv = 0 ∧ x.dstHalo = 0 ∧ x.rsv2 = 0 ∧ addrOk x.params 64 64 = true ∧ (readBlock blocks x.params).ok = true ∧
    s.readsUe 0 [(x.params, 64)] = none ∧ (s.hitch 11).count < 0xFFFFFFFF ∧ (readBlock blocks x.params).haloHitch + 2 + 1 = 11 := by decide +kernel

/-! ### States that meet the hypotheses: Hitches, memories, tests, trust, supply and power -/

theorem wit_waiters : (∀ x ∈ [({ count := 3 } : Hitch), { count := 0xFFFFFFFE }], x.poison = false ∧ x.barrier = false ∧
    x.count + 1 ≤ 0xFFFFFFFF) ∧
    (let x : Hitch := { count := 1, barrier := true, target := 2, queue := [⟨.core 0 0, 1⟩] }
     x.poison = false ∧ x.target ≤ x.count + 1 ∧ x.count + 0 < x.target) ∧
    ({ poison := true } : Hitch).poison = true ∧ 0xFFFFFFFF < ({ count := 0xFFFFFFFF } : Hitch).count + 1 ∧
    (({ count := 2 } : Hitch).tryWait 2).2 = true ∧ (({ count := 2 } : Hitch).tryWait 3).2 = false := by decide +kernel
/-- Hitch 15 with count 5; hosts 0 and 1; core 0 of Hearth 0 and a window unit as sources; a poisoned Hitch. -/
theorem wit_hitch_commands :
    (let s := demo.setHitch 15 { count := 5 }
     s.idleHitch 15 ∧ s.mayWrite 0 (hitchAddr 15 0) ∧ s.mayWrite 0 (hitchAddr 15 4) ∧ s.mayWrite 0 (hitchAddr 15 8) ∧
     agentOk (.host 0) = true ∧ s.live = true ∧ s.mayUse 15 (.host 0) = true ∧ s.mayUse 15 (.core 0 0) = true ∧
     (engine job0 [] 0 []).mayUse 15 (.window 0 1) = true ∧ (s.core 0 0).waitsOn ≠ some 15) ∧
    (let s := (demo.setHitch 15 { queue := [⟨.core 0 0, 3⟩] }).setCore 0 0 { state := 2, waitsOn := some 15 }
     hitchOk 15 = true ∧ (s.hitch 15).queue = [⟨.core 0 0, 3⟩] ∧ (s.core 0 0).waitsOn = some 15) ∧
    (let s := demo.setHitch 15 { poison := true }
     s.mayWrite 0 (hitchAddr 15 12) ∧ (s.hitch 15).poison = true) := by decide +kernel
theorem wit_memory :
    (let s := demo.setPhy 0 { retention := [(15, 1)] }
     hearthOk 0 = true ∧ (s.phy (s.physOf 0)).retention.look (fun _ => 0) 15 = 1 ∧
     (s.phy (s.physOf 0)).retention.look (fun _ => 0) 14 ≠ 1) ∧
    demo.live = true ∧ (demo.reg 0x2A0004).getLsbD 0 = true ∧ demo.mem.running = none ∧ demo.time % 15000 = 0 ∧
    ¬ demo.came.look (fun _ => 0) 4 < demo.time ∧
    (let s := { demo with time := 15000 }
     s.time % 15000 = 0 ∧ s.came.look (fun _ => 0) 4 < s.time) ∧
    demo.regionSkipped 65535 = false ∧ ({ demo with mem := { stopped := [memInstance 65535] } } : State).regionSkipped 65535 = true ∧
    (let s := { demo with mem := { running := some 49151 } }
     s.mem.running = some 49151 ∧ s.regionUe 49151 = [] ∧ s.logicalOf (49151 / 1024) = some 47 ∧
     (s.phy (49151 / 1024)).spareRows.look (fun _ => 0) 15 < 8) ∧
    (let s := { demo with mem := { running := some 65535 } }
     s.mem.running = some 65535 ∧ s.regionUe 65535 = []) ∧
    channelOk 31 = true ∧ (demo.reg 0x2A0004).getLsbD 1 = true ∧ demo.flt.retiredCh.contains 31 = false ∧
    (demo.channel 31).scrubFrom ≤ demo.time ∧
    ({ demo with mem := { channels := [(31, { scrubFrom := 1 })] } } : State).time < 1 ∧
    ((demo.channel 31).seen.filter fun e => e.1 == ((demo.channel 31).scrubLine * 8 + 7) / 8192).length < 2 ∧
    demo.dramUe = [] ∧ (demo.channel 31).scrubLine + 1 ≠ chLines ∧ (demo.channel 31).ueBlocks.length < 3 := by decide +kernel
/-- A rotation slot with Hearth 47 as the only spare, under a job on Hearth 0; then in each of its phases. -/
theorem wit_hearth_tests :
    (let s := (engine job0 [] 0 []).setPhy 47 { started := true }
     s.live = true ∧ (s.reg 0x280004).getLsbD 1 = true ∧ s.flt.slot = none ∧ s.spares = [47] ∧
     s.nextTested = some (0, true) ∧ s.rotationDue = true) ∧
    (let s := fun phase => { engine job0 [] 0 [] with
      time := 1929500, flt := { slot := some { hearth := 0, start := 0, moved := some (0, 47), phase := phase } } }
     ((s 0).phy 47).service = 0 ∧ ((s 0).logicalOf 47).getD 47 ≠ 0 ∧
     (((s 2).setPhy 0 {}).logicalOf 0).getD 0 = 0 ∧
     ({ s 2 with place := [(0, 47), (47, 0)] } : State).logicalOf 0 = some 47 ∧
     (s 1).flt.alone.find? (fun e => e.1 == 0) = none ∧ 0 + 1929500 ≤ (s 2).time) ∧
    (let s := { demo with time := 2000000 }
     hearthOk 5 = true ∧ s.logicalOf 5 = some 5 ∧ s.spares = [] ∧ (s.phy 5).service = 0 ∧ s.tested 5 = true ∧
     s.hearthFree 5 = true ∧ (s.phy 5).idleSince + 2000000 ≤ s.time) ∧
    (let s := demo.setPhy 3 { kilns := [(2, 1)], testing := 1 }
     kilnOk 3 2 = true ∧ (s.phy 3).kilns.look (fun _ => 0) 2 = 1 ∧ (s.phy 3).service = 0 ∧ (s.phy 3).suspects = [] ∧
     (s.logicalOf 3).isSome = true) ∧
    (let s := { demo with time := 500000 }.setPhy 3 { kilns := [(2, 1)], testing := 1, why := [(2, 1)] }
     (s.phy 3).testFrom.look (fun _ => 0) 2 + 500000 ≤ s.time ∧ (s.phy 3).why.look (fun _ => 0) 2 = 1 ∧
     s.flt.slot = none ∧ s.logicalOf 3 = some 3 ∧ (s.hearth 3).job = none ∧ (s.hearth 3).zeroing = false) ∧
    coreOk 0 1 = true ∧ (demo.reg 0x280004).getLsbD 0 = true ∧ (demo.hearth 0).job = none := by decide +kernel
theorem wit_owner :
    (∀ a ∈ [0x290004, 0x290014, 0x290060, 0x29007C, 0x280010, 0x290024], demo.mayWrite 0 a) ∧ demo.flashBusy = false ∧
    demo.trust.attBusy = false ∧ demo.trust.idKey = none ∧
    (let s := fun st n b => { demo with trust := { boot := 2, ownState := st, ownStaged := List.replicate n 0, ownCommit := b } }
     (s 1 3036 false).mayWrite 0 0x290014 ∧ (s 1 3036 false).trust.ownStaged.length < 3040 ∧
     3040 ≤ (s 1 3040 false).trust.ownStaged.length ∧ (s 2 0 false).live = true ∧ (s 2 0 false).ownResult ≠ 1 ∧
     (s 2 3040 true).flashBusy = true ∧ (s 2 3040 true).trust.ownStaged.length = 3040) ∧
    (let s := { demo with trust := { boot := 2, attBusy := true, idKey := some 1 } }
     s.trust.attBusy = true ∧ s.trust.idKey = some 1) := by decide +kernel
theorem wit_log_select : (1 : Nat) = 1 ∧
    ({ demo with flt := { log := ({} : Log).append 0 0 1 0 0 0 } } : State).flt.log.selStatus 0 = 1 ∧
    demo.flt.log.selStatus 0 ≠ 1 := by decide +kernel
theorem wit_boot :
    State.reset.live = true ∧ State.reset.trust.boot = 0 ∧
    fwResult State.reset.trust.owner.minFw (State.reset.flashBytes 0 (leAt (State.reset.flashBytes 0 256) 8 4)) ≠ 1 ∧
    (let s := fun (t : Trust) => { State.reset with trust := { t with boot := 1 } }
     (s {}).mayWrite 0 0x290300 ∧ (s {}).mayWrite 0 0x290304 ∧ (s {}).trust.recBusy = false ∧
     (s { recOpen := true, recCount := 33554428 }).trust.recCount < 33554432 ∧ 33554428 % 4 = 0 ∧
     33554432 ≤ (s { recOpen := true, recCount := 33554432 }).trust.recCount ∧
     (s { recVerified := true }).trust.recVerified = true ∧ (s { ownState := 1 }).ownResult ≠ 1 ∧
     (s { recBusy := true }).live = true ∧ (s { recBusy := true }).trust.recProgramming = false ∧
     (s { recBusy := true, recProgramming := true }).trust.recProgramming = true) := by decide +kernel
/-- PANEL_RST_N of P0, whose land is low, PANEL_PWR_EN of P1 and SYNC_OUT, with a fault, without one, and disabled. -/
theorem wit_lands : demo.pwr.powered = true ∧ (∀ e ∈ [(0x20, 6, 2), (0x21, 7, 2), (0x30, 1, 1)], outputOk e.1 e.2.1 = true ∧
    demo.judged e.1 e.2.1 e.2.2 = true ∧ demo.lands.disabled.contains (e.1, e.2.1) = false) ∧
    (let s := { demo with lands := { disabled := [(0x20, 6)] }, wall := 1000000000 }
     s.lands.disabled.contains (0x20, 6) = true ∧ s.panelOutFresh 0x20 6 = false ∧
     s.lands.drove.look (fun _ => 0) (0x20 * 256 + 6) + 1000000000 ≤ s.wall) ∧
    demo.live = true ∧ demo.time % 1000000 = 0 ∧ demo.lands.disabled.contains (0x30, 1) = false ∧
    (let s := { demo with time := 500000000 }
     hostOk 3 = true ∧ (s.host 3).rate = 0 ∧ (s.host 3).downSince + 500000000 ≤ s.time) ∧ demo.lands.faults = [] := by
  decide +kernel
theorem wit_supply :
    (let s := fun f o => { State.reset with pwr := { powered := false, fuseOpen := f, overvolt := o } }
     (s false false).pwr.powered = false ∧ (s true false).pwr.fuseOpen = true ∧
     (s true false).wall < (s true false).pwr.fuseAt + 1000000000 ∧
     ({ s true false with wall := 1000000000 } : State).pwr.fuseAt + 1000000000 ≤ 1000000000 ∧ (s false true).pwr.overvolt = true) ∧
    demo.pwr.powered = true ∧ demo.pwr.inReset = false ∧
    (let s := { State.reset with pwr := { inReset := true }, wall := 100000000 }
     s.pwr.powered = true ∧ s.pwr.inReset = true ∧ s.pwr.resetNLow = false ∧ s.pwr.resetNHigh + 1000000 ≤ s.wall ∧
     s.pwr.thermalHold = false ∧ s.pwr.railHold = false ∧ s.pwr.railBack + 100000000 ≤ s.wall ∧ s.clk.relocking = false) ∧
    (let p : Power := { inReset := true, resetNLow := true, railHold := true }
     p.powered = true ∧ p.inReset = true ∧ p.resetNLow = true ∧ p.railHold = true) ∧
    (9900 * 100 < 10450 * 95 ∧ 10450 * 95 ≤ 9928 * 100 ∧ 10451 * 95 ≤ 9929 * 100 ∧ 9929 * 100 ≤ 10451 * 105) ∧
    demo.live = true ∧ demo.pwr.holdSince = none ∧
    (let s := { demo with time := 10000001, pwr := { holdSince := some 0, exitTimer := some 1 } }
     s.live = true ∧ s.pwr.holdSince = some 0 ∧ s.pwr.exitTimer = some 1 ∧ 1 + 10000000 ≤ s.time) ∧
    ({ demo with pwr := { holdSince := some 0 } } : State).pwr.exitTimer = none := by decide +kernel
/-- Clock 7 at the end of a window, 1 % off and one kHz more; a clock suspected in the window before; the divider of
Hearth 0 at root cycle 240; link 0x21B from its edge stop 75, its lane 5 with a retransmission and with seven failed ones. -/
theorem wit_clocks :
    (let s := { demo with time := 20000 }
     clockOk 7 = true ∧ s.live = true ∧ s.clk.relocking = false ∧ s.time % 10000 = 0 ∧
     s.came.look (fun _ => 0) (0x100000 + 7) < s.time ∧ s.jobs = [] ∧ 7 < 8 ∧
     (let f := s.clockKhz 7
      ¬ (f * 100 < f * 99 ∨ f * 101 < f * 100) ∧ 0 * 100 < f * 99 ∧ f * 101 < (2 * f) * 100 ∧ 0 < f) ∧
     (∃ x ∈ ({ s with clk := { suspect := [(7, 10000)] } } : State).clk.suspect, x.1 = 7 ∧ x.2 + 10000 = s.time) ∧
     s.clk.suspect = []) ∧
    (let s := { demo with time := 10000001, clk := { relocking := true } }
     s.live = true ∧ s.clk.relocking = true ∧ s.clk.lostLock + 10000000 < s.time) ∧
    (let s := { demo with clk := { root := 240 } }.setPhy 0 { divReq := some 16 }
     s.phy (s.physOf 0) = { divReq := some 16 } ∧ s.clk.root % 240 = 0) ∧
    linkOk 0x21B = true ∧ nodeOk 75 = true ∧ (linkEnds 0x21B 1).1 = 75 ∧ (demo.link 0x21B).halves ≠ 0 ∧
    (demo.link 0x21B).nextFlit.look (fun _ => 0) 5 = 0 ∧ (demo.link 0x21B).replayOf 5 = none ∧
    (demo.link 0x21B).credits 1 2 ≠ 0 ∧ (demo.link 0x21B).retries = [] ∧
    (demo.flitLeaves 0x21B 1 2 (75, 0)).isSome = true ∧ (demo.flitLeaves 0x21B 1 2 (0, 75)).isSome = false ∧
    (let s := { demo with links := [(0x21B, { replay := [(5, some (75, 0))], fails := [(5, 7)] })] }
     (s.link 0x21B).replayOf 5 = some (75, 0) ∧ (s.link 0x21B).fails.look (fun _ => 0) 5 = 7 ∧
     (s.link 0x21B).halves = 2 ∧ (s.flitLeaves 0x21B 1 2 (75, 0)).isSome = true) ∧
    hostOk 0 = true ∧ (demo.host 0).rate ≠ 0 := by decide +kernel
/-- The sensors just below 90 °C, at 95 °C, just below 105 °C and at 115 °C, in 1/16 °C. -/
theorem wit_draught :
    (∀ x ∈ [1439, 1520, 1679, 1840], (List.replicate 64 x).length = 64 ∧
      ({ demo.drg with sensors := List.replicate 64 x } : Draught).tj.1 = x) ∧
    demo.sampleDue = true ∧
    ({ demo with pwr := { sampled := some 0 } } : State).sampleDue = false ∧
    (let s := { demo with time := 1000000 }
     ∀ e ∈ [(1, 1000000), (2, 10000), (3, 1000000)], s.time % e.2 = 0 ∧ s.came.look (fun _ => 0) e.1 < s.time) ∧
    ¬ demo.came.look (fun _ => 0) 1 < demo.time ∧
    demo.drg.warn = false ∧ demo.drg.limit = false ∧ 1 ≤ ({ hot := 1 } : Draught).hot ∧ demo.live = true ∧
    demo.drg.estNj = 0 ∧ ({ estNj := 1 } : Draught).estNj ≠ 0 ∧ demo.drg.tj.1 < 1440 ∧ demo.mayWrite 0 0x270004 ∧
    120000 ≤ demo.pwr.strapCapW * 1000 ∧ demo.pwr.strapCapW * 1000 < 120001 ∧ demo.drg.clampSince = none ∧
    (let s := { demo with time := 10000000, drg := { clampSince := some 0 } }
     s.drg.clampSince = some 0 ∧ 0 + 10000000 ≤ s.time) := by decide +kernel

/-! ### States that meet the hypotheses: sessions, jobs, the fill governor, the history mover -/

/-- Session 0 open; session 1 closed; session 2 closed with inbound port 0 on a ring of 16 words. -/
def withSessions : State := (demo.putSessLe cord 0 0 1 1).putSessLe cord 2 2 6 (0x100 + 16 * 2 ^ 16)
/-- A model without an image, of id 0, resident in Cord 0. -/
def model : ModelCfg :=
  { cord := 0, index := 0, modelId := 0, cls := 1, halo := 0, scaleK := 1, flags := 0, rows := 16, need := 4096
    kindling := (0, 0), commands := (0, 0), codebooks := (0, 0), weights := (0, 0), sigs := (0, 0), vector := (0, 0)
    timing := [], bytes := [] }
def withModel (s : State) : State := { s with lay := some { lay with models := [model] } }

theorem wit_sessions :
    cordOk 0 = true ∧ demo.cordCfg 0 = some cord ∧ withSessions.mayWrite 0 (cordAddr 0 4) ∧ withSessions.mayWrite 0 (cordAddr 0 8) ∧
    cord.hasSession 4 = false ∧ cord.hasSession 3 = true ∧ withSessions.sessFieldsOk cord 0 = true ∧
    withSessions.sessLe cord 0 0 1 = 1 ∧ withSessions.sessLe cord 1 0 1 = 0 ∧ withSessions.sessFieldsOk cord 2 = true ∧
    withSessions.sessPorts cord 2 = [(0, false, 0, 16)] ∧ (withSessions.port 0 0).bound = false ∧
    (({ withSessions with hosts := [(0, { rate := 1, ports := [(0, { bound := true })] })] } : State).port 0 0).bound = true ∧
    withSessions.sessLe cord 2 0x28 4 ≤ cord.scaleBytes ∧ withSessions.sessLe cord 2 0x44 2 = 0 ∧ withSessions.jobs = [] ∧
    demo.mayWrite 0 (cordAddr 0 0x10) ∧ demo.mayWrite 0 (cordAddr 0 0x1C) ∧
    (let s := { demo with jobs := [{ job0 with phase := 0, hearths := [] }] }
     s.job? 1 = some { job0 with phase := 0, hearths := [] } ∧ job0.doneEn = false ∧ s.job? 2 = none) ∧
    (let s := withSessions.putSessLe cord 0 0x28 4 1
     cord.scaleBytes < s.sessLe cord 0 0x28 4) ∧
    (let j := { job0 with kind := 5, hearths := [] }
     ({ demo with jobs := [j] } : State).job? 1 = some j ∧ j.phase = 2 ∧ j.ringWait = false) := by decide +kernel
/-- A COPY job as best effort and as latency critical, a descriptor of kind 0, and a Cord that drains. -/
theorem wit_submissions :
    (let be : SMap Word := [(0, 8)]
     let lc : SMap Word := [(0, 8), (6, 1000), (8, 1000)]
     let s := withSessions
     let b := s.setCordRt 0 { s.cordRt 0 with stagedBe := be }
     let l := s.setCordRt 0 { s.cordRt 0 with stagedLc := lc }
     let jb := b.classOf cord (readJob 0 0 false (windowBytes be))
     let jl := l.classOf cord (readJob 0 0 true (windowBytes lc))
     s.mayWrite 0 (cordAddr 0 0x13C) ∧ s.mayWrite 0 (cordAddr 0 0x17C) ∧ s.draining 0 = false ∧
     b.admission cord jb (windowBytes be) = none ∧ l.admission cord jl (windowBytes lc) = none ∧ jl.lc = true ∧
     (readJob 0 0 true (windowBytes lc)).startEn = false ∧ s.jobs = [] ∧
     s.admission cord (readJob 0 0 true (windowBytes [])) (windowBytes []) = some 0x8C) ∧
    ({ demo with loader := { state := 4, affected := 1 } } : State).draining 0 = true := by decide +kernel
theorem wit_job_starts :
    (let j := { job0 with phase := 0, hearths := [], cuts := [] }
     let s := { withModel withSessions with jobs := [j], sessCache := [0] }
     cordOk 0 = true ∧ s.cordCfg 0 = some cord ∧ j.inLc = true ∧ j.chained = false ∧ s.pwr.holdSince = none ∧
     s.clk.relocking = false ∧ s.skips cord j = false ∧ s.sessCache.contains j.session = true ∧
     (∀ q ∈ [job0], q.aborting = false ∧ (q.cord = 0 → q.queued = false)) ∧ (s.cordRt 0).heldSince = none ∧
     s.pickHearths cord j = some [0] ∧ (s.hearth 0).tag ≠ some (0, s.jobModelId cord j)) ∧
    (let j := { job0 with phase := 1, hearths := [0, 1] }
     let s := { withModel withSessions with jobs := [j] }
     s.job? 1 = some j ∧ 0 ∈ j.hearths ∧ 0 ∉ j.loaded ∧ s.jobModel cord j = some model ∧ s.dramUe = [] ∧
     j.loaded.length + 1 ≠ j.hearths.length ∧ ({ j with loaded := [1] } : Job).loaded.length + 1 = j.hearths.length) ∧
    (let s := demo.setHearth 0 { zeroing := true }
     (s.hearth 0).zeroing = true ∧ s.cordOfHearth 0 = some 0 ∧ (demo.hearth 0).zeroing = false) := by decide +kernel
/-- A best-effort job on both Hearths, before a queued one that needs one. -/
theorem wit_slice_end :
    (let j := { job0 with lc := false, hearths := [0, 1] }
     let q := { job0 with sub := 2, lc := false, phase := 0, hearths := [] }
     let s0 := { withModel withSessions with jobs := [j, q] }
     let s := (s0.setHearth 0 { job := some 1 }).setHearth 1 { job := some 1 }
     s.job? 1 = some j ∧ j.inLc = false ∧ j.phase = 2 ∧ j.hearths ≠ [] ∧ j.sliceStart + j.sliceLeft ≤ s.time ∧ q.inLc = false ∧
     q.mustHave = [] ∧ 1 ≤ q.count ∧ s.skips cord q = false ∧ s.freeFor cord q = [] ∧
     (∀ h ∈ s.members 0, (s.hearth h).zeroing = false) ∧ s.noStarts = false) ∧
    job0.inLc = true ∧ job0.resident = true ∧ job0.budgetNs ≤ job0.budgetUsed 0 ∧
    ({ job0 with lc := false, sliceLeft := 1 } : Job).sliceOver 0 = false := by decide +kernel
theorem wit_save :
    (let j := { job0 with phase := 3, stopWhy := 1 }
     let s := { engine j [] 0 [] with jobs := [j] }
     s.cordCfg 0 = some cord ∧ j.aborting = false ∧ s.atPoint j = true ∧ j.hearths.length ≤ (s.freeRecords cord).length ∧ (s.freeRecords cord) = [0, 1]) ∧
    (let j := { job0 with phase := 4, records := [1], stopWhy := 1 }
     let s := engine j [] 0 []
     s.job? 1 = some j ∧ j.hearths = [0] ∧ (s.hearth 0).storeUe = [] ∧ s.dramUe = [] ∧
     (s.saved.look (fun _ => {}) (0 * 65536 + 1)).win.waiting = []) := by decide +kernel
/-- A blocked best-effort job with a saved runnable one behind it that needs its Hearth; a job at its retirement point. -/
theorem wit_swap_retire :
    (let j := { job0 with lc := false, blockedSince := some 0 }
     let q := { job0 with sub := 2, phase := 5, hearths := [0], records := [0], stopWhy := 1 }
     let s := { engine j [] 0 [] with jobs := [j, q], time := 50000 }
     j.inLc = false ∧ s.jobBlocked j = true ∧ 0 + 50000 ≤ s.time ∧ s.savedRunnable q = true ∧ q.mustHave = [0] ∧
     s.pickHearths cord q = none ∧ s.noStarts = false ∧ s.shortfall cord j = 0) ∧
    (let s := ((engine job0 [] 0 []).setCore 0 0 { state := 3 }).setCore 0 1 { state := 3 }
     s.atRetirement job0 = true ∧ s.appendsMatch job0 = true ∧ job0.doneEn = false) ∧
    (engine job0 [] 0 []).atRetirement job0 = false := by decide +kernel
/-- Session 0 exports its fill with P alone, due at time 0, without inputs. -/
theorem wit_fill :
    (let s := (withSessions.putFillLe cord 0 0 1 2).putFillLe cord 0 4 1 4
     let x := s.fillCtx cord 0
     s.slotDue cord 0 = true ∧ s.dueBefore (s.dueKey cord 0) = false ∧ (s.fillLe cord 0 54 1).testBit 2 = false ∧
     x.list = [(4, 0)] ∧ x.pIn = false ∧ x.forced = false ∧ s.fillLe cord 0 0 1 ≠ 1 ∧ (s.fillRt 0).size = 0) ∧
    withSessions.slotDue cord 0 = false ∧ demo.mayWrite 0 (cordAddr 0 0xD004) ∧ demo.mayWrite 0 (cordAddr 0 0xD00C) ∧
    (∀ e ∈ [(0, 0, 0), (1, 0, 31), (2, 1, 1), (4, 0, 1), (5, 0, 1), (2, 0, 1), (1, 0, 0)],
      let w : Word := .ofNat 32 (3 + e.1 * 2 ^ 20 + e.2.1 * 2 ^ 24 + e.2.2 * 2 ^ 27)
      w.getLsbD 23 = false ∧ w.toNat / 2 ^ 20 % 8 = e.1 ∧ cord.hasSession (w.toNat % 2 ^ 20) = true) ∧
    (let s := { demo with time := 100000000 }
     s.time % 100000000 = 0 ∧ s.came.look (fun _ => 0) 0x310000 < s.time ∧
     ({ s with regs := [(cordAddr 0 0xD01C, 5)] } : State).reg (cordAddr 0 0xD01C) = 5) ∧
    (demo.reg (cordAddr 0 0xD01C)).toNat % 65536 ≤ 65535 := by decide +kernel
/-- A Cord with a history of 4 frames of 128 bytes; HINFO, HREAD, HAPPEND and WFETCH with good and bad fields. -/
def cordHist : CordCfg := { cord with historyBytes := 1024, historySteps := 4 }
def histCmd (op flags count addr bytes status : Nat) : List Byte :=
  natLe op 1 ++ natLe flags 1 ++ natLe count 2 ++ natLe 0 4 ++ natLe addr 4 ++ natLe 0 4 ++ natLe bytes 4 ++ natLe status 4 ++
    natLe 0 8
theorem wit_history : let s := { withModel (engine job0 [] 0 []) with lay := some { lay with cords := [cordHist], models := [model] } }
    s.hearthJob 0 = some job0 ∧ s.cordCfg 0 = some cordHist ∧
    (∀ e ∈ [(0x30, 0, 0, 0, 0), (0x31, 0, 64, 0, 4194300), (0x32, 0, 1, 0, 0), (0x33, 0, 0, 64, 0)],
      let q := histCmd e.1 e.2.1 e.2.2.1 0x200000 e.2.2.2.1 e.2.2.2.2
      let t := s.setHearth 0 { job := some 1, hist := { record := natLe 0 4 ++ natLe 1 28 }, queues := [(6, [⟨q, 0, 0⟩])] }
      t.headStarts 0 6 e.1 ⟨q, 0, 0⟩ [] ∧ histCmdOk cordHist job0 (t.hearth 0).hist (readHist q) = true ∧
      t.dramUe = [] ∧ (t.hearth 0).storeUe = []) ∧
    (∀ op ∈ [0x30, 0x31, 0x32, 0x33], histCmdOk cordHist job0 {} (readHist (histCmd op 2 0 0x200000 0 0)) = false) ∧
    s.jobModel cordHist job0 = some model ∧ spillBytes cordHist model < 0 + 64 ∧
    (let bigger := { model with need := 131072 }
     0 + 64 ≤ spillBytes cordHist bigger) ∧
    (let t := { s with time := 100000 }
     t.time % 100000 = 0 ∧ t.came.look (fun _ => 0) 0x300000 < t.time ∧ t.holdOn 0 = false ∧
     ({ t with regs := [(cordAddr 0 0xC000, 2)] } : State).holdOn 0 = true) := by decide +kernel

/-! ### States that meet the hypotheses: raster, vision, post, intake and copies -/

/-- `n` bytes with numbers at the offsets given, each as (offset, bytes, value), and 0 elsewhere. -/
def layout (n : Nat) (fs : List (Nat × Nat × Nat)) : List Byte :=
  (fs.foldl (fun m f => SMap.writeLe m f.1 f.2.1 f.2.2) ([] : SMap Byte)).lookList zeroByte 0 n
/-- The module with one job of an engine. -/
def unitJob (kind phase : Nat) (d : List Byte) : Job :=
  { job0 with kind := kind, phase := phase, hearths := [], cuts := [], rows := 0, desc := d }
def unitState (kind phase : Nat) (d : List Byte) : State := { demo with jobs := [unitJob kind phase d] }
/-- The same with bytes of the Cord region. -/
def withRegion (s : State) (a : Nat) (bs : List Byte) : State := s.putCordBytes cord a bs

/-- A texture of one RGBA8 texel, described at 0x1000, or a sparse one; lane 0 selected by p1, lane 1 not. -/
def vtexWord : Word := 0b110011_00100_01000_01100_001_0_0000000
def vtexState (sparse : Nat) : State :=
  let j := { job0 with kind := 2, desc := layout 256 [(48, 8, 0x1000), (56, 2, 1)] }
  let s := withRegion { standing vtexWord 0 0 with jobs := [j] } 0x1000
    (layout 32 [(0, 1, 3), (1, 1, 1), (4, 2, 1), (6, 2, 1), (16, 1, sparse)])
  (s.setCore 0 0 { s.core 0 0 with p := [(1, 1)] }).setHearth 0
    { (s.setCore 0 0 { s.core 0 0 with p := [(1, 1)] }).hearth 0 with job := some 1 }
theorem wit_texture : ∀ sparse ∈ [0, 1],
    let s := vtexState sparse
    let j := { job0 with kind := 2, desc := layout 256 [(48, 8, 0x1000), (56, 2, 1)] }
    let tex := readTex (s.cordBytes cord 0x1000 32)
    let lv := tex.levelsAt (tex.lod (fun _ => 0) (fun _ => 0) (fun i => ((s.core 0 0).readP 1).toNat.testBit i) 0 0)
    s.standsAt 0 0 vtexWord = true ∧ ((s.hearth 0).job.bind s.job?) = some j ∧ j.kind = 2 ∧ s.cordCfg 0 = some cord ∧
    (s.core 0 0).texsel.toNat % 256 < leAt j.desc 56 2 ∧ s.dramUe = [] ∧
    texOk cord.size (s.cordBytes cord 0x1000 32) = true ∧ tex.sparse = (sparse == 1) ∧
    ((s.core 0 0).readP 1).getLsbD 0 = true ∧ ((s.core 0 0).readP 1).getLsbD 1 = false ∧
    (lane32 ((s.core 0 0).readV 8) 0).toNat = 0 ∧
    ∃ q ∈ [[0, 0, 0, 0]], (s.sampleAt cord j tex 0 0 0 lv.2 14 lv.1).2 = .rgba q := by
  decide +kernel

/-- A pass of 32 × 32 pixels with one draw of three vertices, its record at 0x2000 and its lists from 0x00A6_0000. -/
def passDesc : List Byte :=
  layout 256 [(0, 2, 32), (2, 2, 32), (6, 2, 2), (8, 4, 1), (12, 4, 0x20000), (16, 8, 0x2000), (24, 8, 0xA60000), (32, 4, 65536)]
def drawBytes (vertices : Nat) : List Byte := layout 64 [(0, 1, 1), (10, 2, 16), (12, 4, vertices), (16, 4, 3)]
def rasterJob (p : Pass) : Job := { job0 with kind := 2, desc := passDesc, rows := 32, cuts := [0, 32], pass := p }
def rasterState (vertices : Nat) (p : Pass) (cmd : List Byte) : State :=
  withRegion (engine (rasterJob p) [] 7 cmd) 0x2000 (drawBytes vertices)
/-- A triangle that covers the left upper half of the tile. -/
def prim : Prim :=
  { seq := 0, draw := 0, pos := [(0, 0), (8192, 0), (0, 8192)], z := [0, 0, 0], w := [0x3F800000, 0x3F800000, 0x3F800000]
    vtx := [0xA60000, 0xA60040, 0xA60080], blend := 0, dtest := 0, rast := 0, mask := 0, recAt := 0xA60100 }
def tile (todo out : List Batch) : TileRt :=
  { tx := 0, ty := 0, pix := [[], [], [], [], []], depth := List.replicate 1024 0, todo := todo, out := out }

/-- DRAW_ASSEMBLY with every index below 3 vertices, and with index 2 beyond 2 of them; with a batch out. -/
theorem wit_draw_assembly :
    let p : Pass := { phase := 1, waited := true, stretches := [{}], vtxBase := 0xA60000 }
    let s := rasterState 3 p []
    let j := rasterJob p
    let b := s.drawRecord cord j 0
    s.rasterJob 1 = some (j, cord) ∧ (p.stretches.all fun x => x.todo.isEmpty && x.out.isEmpty) = true ∧ s.dramUe = [] ∧
    (List.range 3).any (fun i => decide (leAt b 12 4 ≤ s.elemIndex cord b i)) = false ∧ passDraws j.desc = 0 + 1 ∧
    ((List.range 3).any fun i => decide (leAt ((rasterState 2 p []).drawRecord cord j 0) 12 4 ≤ s.elemIndex cord b i)) = true ∧
    (let r := (List.range (triCount (leAt b 0 1) 3)).foldl (s.binElem cord j b) { counts := [], seq := 0, used := 0 }
     r.seq ≤ 4294967295 ∧ r.used ≤ passListBytes j.desc ∧
     (({ p with draw := 1, nextSeq := r.seq, listUsed := r.used, counts := r.counts, prims := r.prims.reverse } : Pass)
       |>.drawBoundary.beginRender j false).segmentOver = false) := by decide +kernel
/-- TILE_RENDER of a tile that no primitive meets, beside another. -/
theorem wit_tile_render :
    (let p : Pass := { phase := 2, stretches := [{ tiles := [0, 1] }] }
     let s := rasterState 3 p []
     let j := rasterJob p
     s.rasterJob 1 = some (j, cord) ∧ s.paused 0 = false ∧ j.stretchOf 0 = 0 ∧ s.dramUe = [] ∧ (s.hearth 0).storeUe = [] ∧
     j.phase = 2 ∧ p.phase = 2 ∧ s.owesBoundary j 0 = false ∧ 0 < j.hearths.length ∧ 0 < p.stretches.length ∧
     ({ j with phase := 3 } : Job).phase ≠ 2) := by decide +kernel
theorem wit_empty_tile (d : List Byte) (t : TileRt) (h : t.out = []) : (t.rasterise d []).finished = true := by
  simp only [TileRt.rasterise, List.filter_nil, List.foldl_nil, List.flatMap_nil, TileRt.advance, TileRt.finished, h,
    List.isEmpty_nil, Bool.and_self, if_true]

/-- NEXT, RETIRE and VDONE of batch slot 0, with no pass, with a boundary, at the end of the pass, with no free slot,
with a vertex batch and with a fragment batch. -/
def rtuCmd (op a : Nat) : List Byte := layout 32 [(0, 1, op), (4, 4, a)]
theorem wit_raster_units :
    (∀ op ∈ [0x40, 0x41, 0x42], (engine job0 [] 7 (rtuCmd op 0)).headStarts 0 7 op ⟨rtuCmd op 0, 0, 0⟩ [] ∧
      (engine job0 [] 7 (rtuCmd op 0)).hearthPass 0 = none) ∧
    (let q := rtuCmd 0x40 0x30000
     let s := fun (phase : Nat) (x : Stretch) => rasterState 3 { phase := phase, stretches := [x], prims := [prim] } q
     (s 2 { bound := [1, 0] }).headStarts 0 7 0x40 ⟨q, 0, 0⟩ [] ∧
     (s 3 {}).headStarts 0 7 0x40 ⟨q, 0, 0⟩ [] ∧
     (let j := { rasterJob { phase := 2, stretches := [{}] } with phase := 3 }
      (engine j [] 7 q).headStarts 0 7 0x40 ⟨q, 0, 0⟩ [] ∧ j.pass.stretchIdle 0 = true ∧
      (({ out := [] } : Stretch).bound.getD 0 0) = 0) ∧
     (let e : QEntry := ⟨rtuCmd 0x42 0x20000, 1, 0⟩
      let n : QEntry := ⟨q, 0, 0⟩
      let s := (rasterState 3 { phase := 2, stretches := [{}] } []).setQueueOf 0 7 [n, e]
      s.queueOf 0 7 = [n] ++ e :: [] ∧ (n.cmd.getD 0 0).toNat = 0x40 ∧ (e.cmd.getD 0 0).toNat = 0x42 ∧
      s.mayStart 0 7 e = true) ∧ (rasterJob {}).stretchOf 0 = 0 ∧
     ({ out := [{ item := 0, mask := 1, slot := 0 }, { item := 16, mask := 1, slot := 1 }] } : Stretch).freeSlot 2 = none ∧
     ({ todo := [{ item := 0, mask := 16 }] } : Stretch).freeSlot 2 = some 0 ∧
     leAt ((s 1 {}).drawRecord cord (rasterJob {}) 0) 20 2 ≤ 512 ∧ leAt ((s 1 {}).drawRecord cord (rasterJob {}) 0) 10 2 ≤ 256 ∧
     passBatch passDesc + 8192 * 1 < 2 ^ 32 ∧ [prim].find? (fun f => f.seq == 0) = some prim ∧ prim.vtx.length = 3 ∧
     (rasterState 3 { phase := 2, stretches := [{ tile := some (tile [{ item := 0, mask := 1 }] []) }], prims := [prim] } q).hearthPass 0 =
       some (rasterJob { phase := 2, stretches := [{ tile := some (tile [{ item := 0, mask := 1 }] []) }], prims := [prim] }, cord)) ∧
    ((([{ item := 0, mask := 3, slot := 0 }] : List Batch).find? fun b => passBatch passDesc + 8192 * b.slot == 0x20000).isSome = true) ∧
    ((([{ item := 0, mask := 3, slot := 0 }] : List Batch).find? fun b => passBatch passDesc + 8192 * b.slot == 0x22000) = none) ∧
    (∀ op ∈ [0x41, 0x42], (rasterState 3 { phase := 2 } (rtuCmd op 0x20000)).headStarts 0 7 op ⟨rtuCmd op 0x20000, 0, 0⟩ [] ∧
      ((rasterState 3 { phase := 2 } (rtuCmd op 0x20000)).hearth 0).storeUe = []) := by decide +kernel
/-- The last batch of a tile finishes it; with another one to hand out it does not. -/
theorem wit_retire :
    (let b : Batch := { item := 0, mask := 1, slot := 0 }
     let t := (tile [] [b]).blendBatch passDesc [] prim b 0x20000
     let t2 := { t with out := t.out.filter fun y => y.slot != b.slot }
     t2.todo.isEmpty = true ∧ t2.out.isEmpty = true ∧ (t2.advance passDesc t2.later).finished = true ∧
     (tile [b] []).finished = false) := by decide +kernel

/-- A STEREO job of two tiles at its first one, a FEATURES job of three tiles at its second one, and a vision job with a
bad descriptor. -/
def stereoDesc : List Byte :=
  layout 128 [(0, 1, 2), (1, 1, 1), (4, 2, 129), (6, 2, 11), (8, 1, 1), (9, 1, 2), (12, 4, 132), (16, 8, 0x100000), (24, 1, 1),
    (25, 1, 2), (28, 4, 132), (32, 8, 0x110000), (40, 8, 0x120000)]
def featureDesc : List Byte := layout 128 [(0, 1, 1), (4, 2, 257), (6, 2, 33)]
theorem wit_vision :
    (unitState 4 2 stereoDesc).engineJob 1 4 = some (unitJob 4 2 stereoDesc, cord) ∧
    (unitState 4 2 stereoDesc).visionOk cord (unitJob 4 2 stereoDesc) = true ∧ 0 + 1 < visTiles stereoDesc ∧
    visOp stereoDesc ≠ 1 ∧ 1 + 1 < visTiles featureDesc ∧ visOp featureDesc = 1 ∧
    (unitState 4 2 (layout 128 [])).visionOk cord (unitJob 4 2 (layout 128 [])) = false ∧
    (unitState 4 3 stereoDesc).engineJob 1 4 = some (unitJob 4 3 stereoDesc, cord) := by decide +kernel
theorem wit_no_store_error : (∀ h, ((unitState 4 2 stereoDesc).hearth h).storeUe = []) ∧ (unitState 4 2 stereoDesc).dramUe = [] :=
  ⟨fun _ => rfl, rfl⟩
/-- A POST job of the second form with one candidate, and one with a bad descriptor. -/
def postDesc : List Byte :=
  layout 128 [(0, 1, 2), (1, 1, 1), (2, 2, 1), (8, 4, 0x3F000000), (12, 2, 1), (15, 1, 0xFF), (16, 8, 0x1000), (24, 8, 0x2000),
    (32, 8, 0x3000)]
theorem wit_post :
    let s := withRegion (unitState 5 2 postDesc) 0x3000 (layout 80 [(0, 2, 1), (2, 2, 1), (4, 1, 1)])
    s.engineJob 1 5 = some (unitJob 5 2 postDesc, cord) ∧ s.postOk cord (unitJob 5 2 postDesc) = true ∧
    ((s.postLevels cord postDesc).map PostLevel.count).sum = 1 ∧ s.postOk cord (unitJob 5 2 (layout 128 [])) = false := by
  decide +kernel

/-! ### States that meet the hypotheses: intake, the aligner, dictionaries, pushes and copies -/

/-- A BATCH descriptor of one position to DRAM; an INTAKE job past its check; inbound port 0 with a ring at 0x0020_0000
that holds bytes. -/
def batchDesc : List Byte := layout 128 [(0, 1, 1), (1, 1, 4), (2, 2, 1), (68, 4, 64), (72, 8, 0x100000)]
def intakeJob (d : List Byte) (r : IntakeRt) : Job := { unitJob 3 2 d with intake := r }
def ringPort0 (held : Nat) (waiter : Option (Nat × Nat)) : HostPort :=
  { rate := 1, ports := [(0, { bound := true, base := 0x200000, size := 4096, held := held, waiter := waiter })] }
def intakeState (d : List Byte) (r : IntakeRt) (ring : List Byte) : State :=
  { withRegion demo 0x200000 ring with jobs := [intakeJob d r], hosts := [(0, ringPort0 (ring.length / 4) none)] }
def sample0 (stage : Nat) : Sample := { order := 0, id := 7, kind := 1, label := [], payload := [], stage := stage }

theorem wit_intake_invalid : let s := intakeState (layout 128 []) {} []
    s.engineJob 1 3 = some (intakeJob (layout 128 []) {}, cord) ∧ s.intakeOk cord (intakeJob (layout 128 []) {}) = false := by
  decide +kernel
/-- A ring with no header, with an invalid record, with a TRAILER and with a CACHED record whose store is in progress. -/
theorem wit_input_record :
    (let r : IntakeRt := { checked := true }
     let s := fun ring => intakeState batchDesc r ring
     let x := fun ring => ((s ring).port 0 0)
     (s []).engineJob 1 3 = some (intakeJob batchDesc r, cord) ∧ r.consumed < batchSize batchDesc ∧ toDram batchDesc = true ∧
     (s []).ringPort cord 0 false = some 0 ∧ (s []).dramUe = [] ∧ (x []).waiter = none ∧
     ((s []).ringBytes cord (x [])).length < 32 ∧
     (let bad := layout 32 [(0, 4, 32), (4, 1, 9)]
      32 ≤ ((s bad).ringBytes cord (x bad)).length ∧ recordOk 1 ((s bad).ringBytes cord (x bad)) = false) ∧
     (let trailerRec := layout 32 [(0, 4, 32)]
      recordOk 1 ((s trailerRec).ringBytes cord (x trailerRec)) = true ∧ leAt ((s trailerRec).ringBytes cord (x trailerRec)) 4 1 = 0) ∧
     (let hit := layout 32 [(0, 4, 32), (4, 1, 5), (8, 8, 7)]
      recordOk 1 ((s hit).ringBytes cord (x hit)) = true ∧ leAt ((s hit).ringBytes cord (x hit)) 4 1 = 5 ∧
      leAt ((s hit).ringBytes cord (x hit)) 8 8 = 7 ∧ (s hit).unitUsable 0 18 = true ∧ (s hit).ownsDecoder 0 = true ∧
      ({ stores := [(7, [])] } : CordRt).stores.any (fun e => e.1 == 7) = true) ∧
     (let jpeg := layout 32 [(0, 4, 60), (4, 1, 1), (16, 4, 25)] ++ List.replicate 28 0
      recordOk 1 ((s jpeg).ringBytes cord (x jpeg)) = true ∧ leAt ((s jpeg).ringBytes cord (x jpeg)) 4 1 = 1 ∧
      leAt ((s jpeg).ringBytes cord (x jpeg)) 0 4 ≤ ((s jpeg).ringBytes cord (x jpeg)).length) ∧
     r.front = none ∧ (r.samples.filter fun y => decide (y.stage < 2)).length = 0 ∧
     ¬ r.failures.length < leAt batchDesc 4 1 ∧ 0 + 0 + 1 ≤ leAt (layout 128 [(4, 1, 1)]) 4 1) := by decide +kernel
/-- The frame header of a grey JPEG of 8 × 8 pixels, as far as its scan header, for the limits of R343. -/
def smallJpeg : List Byte :=
  [0xFF, 0xD8, 0xFF, 0xC0, 0, 11, 8, 0, 8, 0, 8, 1, 1, 0x11, 0, 0xFF, 0xDA, 0, 8, 1, 1, 0, 0, 63, 0]
theorem wit_jpeg_record : (match jpegFrame smallJpeg with
      | .ok f => !overLimit f.width f.height 1 64 64 && overLimit f.width f.height 1 63 64 &&
          decide (f.claimed ≤ 4 * smallJpeg.length)
      | .error _ => false) = true := by decide +kernel
/-- A grey JPEG of 8 × 8 pixels whose one block has the DC difference 0 and no AC coefficient: every pixel is 128. -/
def greyJpeg : List Byte :=
  [0xFF, 0xD8, 0xFF, 0xDB, 0, 67, 0] ++ List.replicate 64 1 ++ [0xFF, 0xC4, 0, 20, 0x00, 1] ++ List.replicate 16 0 ++
    [0xFF, 0xC4, 0, 20, 0x10, 1] ++ List.replicate 16 0 ++
    [0xFF, 0xC0, 0, 11, 8, 0, 8, 0, 8, 1, 1, 0x11, 0, 0xFF, 0xDA, 0, 8, 1, 1, 0, 0, 63, 0, 0x3F, 0xFF, 0xD9]
theorem test_jpeg : (match jpegDecode greyJpeg with
    | .ok p => p.width == 8 && p.height == 8 && p.pixels == List.replicate 64 128
    | .error _ => false) = true := by decide +kernel
/-- Samples that decoder 0 decodes, a JPEG and none, and one that is augmented; no sample. -/
theorem wit_samples :
    (∀ bytes ∈ [greyJpeg, []],
     let x := { sample0 0 with payload := bytes }
     let j := fun (x : Sample) => intakeJob batchDesc { checked := true, samples := [x] }
     let s := ({ demo with jobs := [j x] } : State).assignDecoders
     s.decodes 0 = some (j { x with decoder := some 0 }, { x with decoder := some 0 }) ∧
     s.job? 1 = some (j { x with decoder := some 0 }) ∧ s.cordCfg 0 = some cord ∧
     (match jpegDecode bytes with
      | .error _ => bytes == []
      | .ok _ => bytes == greyJpeg) = true) ∧
    demo.assignDecoders.decodes 1 = none ∧ demo.augments = none ∧
    (let j := intakeJob batchDesc { checked := true, samples := [sample0 2] }
     let s := { demo with jobs := [j] }
     s.augments = some (j, sample0 2) ∧ s.job? 1 = some j ∧ j.intake.out = []) ∧
    (let j := intakeJob batchDesc { checked := true, samples := [sample0 2], out := [0] }
     ({ demo with jobs := [j] } : State).augments = some (j, sample0 2)) := by decide +kernel
theorem wit_batch_trailer :
    (let r : IntakeRt := { checked := true, filled := [(0, 7)] }
     r.out = [] ∧ r.last = false ∧ r.filled.length = batchSize batchDesc) ∧
    (let r : IntakeRt := { checked := true, ending := some 8, failures := [(0, 7, 4)] }
     r.ending.isSome = true ∧ r.samples = [] ∧ r.failures ≠ []) ∧
    (let r : IntakeRt := { checked := true }
     r.filled.length ≠ batchSize batchDesc ∧ r.ending = none) := by decide +kernel
theorem wit_cache :
    (let s := { demo with cords := [(0, { stores := [(7, List.replicate 64 0)] })] }
     (s.cordRt 0).stores.find? (fun e => e.1 == 7) = some (7, List.replicate 64 0) ∧ (s.cordRt 0).cacheReset = false ∧
     (s.cordRt 0).stores.find? (fun e => e.1 == 8) = none ∧
     (∀ y ∈ s.jobs, ∀ x ∈ y.intake.samples, x.stage = 1 → x.id ≠ 7) ∧
     (let slot := mix64 7 % s.cacheD cord
      (s.putCordLe cord (cord.regionBase 6 + 16 * slot) 8 emptyId).probeId cord 7 = some (slot, false))) ∧
    (let s := { demo with time := 100000000 }
     s.time % 100000000 = 0 ∧ s.came.look (fun _ => 0) 0x320000 < s.time ∧ ¬ demo.came.look (fun _ => 0) 0x320000 < demo.time ∧
     ({ late := 1 } : CordRt).late ≠ 0 ∧ min 100 (({ late := 1 } : CordRt).decNs / 1000000) < 95) ∧
    (demo.cordRt 0).stores = [] ∧ demo.mayWrite 0 (cordAddr 0 0x7030) ∧ demo.mayWrite 0 (cordAddr 0 0x7034) ∧
    (1 : Word).getLsbD 0 = true ∧ (2 : Word).getLsbD 0 = false := by decide +kernel

/-- DICT_LOAD of an image outside the region, of one with a bad length, of one that is no dictionary. -/
theorem wit_dictionary :
    (let d := fun src => layout 128 [(0, 1, 2), (72, 8, src)]
     let s := fun src => intakeState (d src) { checked := true } []
     (s 0).engineJob 1 3 = some (intakeJob (d 0) { checked := true }, cord) ∧
     cord.size < leAt (d (2 ^ 40)) 72 8 + 64 ∧ leAt (d 0) 72 8 + 64 ≤ cord.size ∧ (s 0).cordLe cord 8 4 < 64 ∧
     (let t := withRegion (s 0x1000) 0x1008 (natLe 64 4)
      t.cordLe cord 0x1008 4 = 64 ∧ 0x1000 + 64 ≤ cord.size ∧ readDict (t.cordBytes cord 0x1000 64) = none)) := by decide +kernel
/-- An ALIGN job of one stream of one value, then of one frame stream; the record of a sample. -/
def alignDesc (type values : Nat) : List Byte :=
  layout 128 [(0, 1, 3), (1, 1, 4), (2, 2, 1), (4, 4, 2), (16, 4, 1000000), (20, 4, 1000000), (32, 4, 65536), (36, 4, 64),
    (40, 8, 0x100000), (64, 1, type), (65, 1, values)]
def sensorRec (payload : Nat) : List Byte := layout (32 + payload) [(0, 4, 32 + payload), (4, 1, 6), (16, 4, payload)]
theorem wit_sensor :
    (let s := intakeState (alignDesc 1 1) { checked := true } (sensorRec 4)
     let x := s.port 0 0
     s.ringPort cord 0 false = some 0 ∧ 32 ≤ (s.ringBytes cord x).length ∧ recordOk 3 (s.ringBytes cord x) = true ∧
     leAt (s.ringBytes cord x) 0 4 ≤ (s.ringBytes cord x).length ∧ streamFrame (alignDesc 1 1) 0 = false ∧
     4 = 4 * streamValues (alignDesc 1 1) 0 ∧ s.deviceTime 0 0 = none ∧
     ({ s with hosts := [(0, { ringPort0 9 none with exchanges := [{ t1 := 0, offset := 0, delay := 0 }] })] } : State).deviceTime 0 0 = some 0 ∧
     s.time ≤ 0 + alignWindow (alignDesc 1 1) ∧ 0 + alignWindow (alignDesc 1 1) < 1000001) ∧
    (streamFrame (alignDesc 2 0) 0 = true ∧ leAt (alignDesc 2 0) 32 4 < 65532 + 8 ∧ 65532 + 4 ≤ leAt (alignDesc 2 0) 32 4) := by
  decide +kernel
theorem wit_bundle : bundleReady (alignDesc 1 1) {} 999999 = false ∧ bundleReady (alignDesc 1 1) {} 1000000 = true ∧
    bundleReady (alignDesc 1 1) { sensors := [⟨0, 0, [0, 0, 0, 0]⟩] } 0 = true ∧ toDram (alignDesc 1 1) = true ∧
    0 + 1 ≠ leAt (alignDesc 1 1) 4 4 ∧ 1 + 1 = leAt (alignDesc 1 1) 4 4 := by decide +kernel

/-- A PUSH job of region 0, 16 × 32 pixels, to slot 0 of P0; a COPY job of 4,100 bytes in DRAM and one to a ring. -/
def pushDesc : List Byte := layout 64 [(8, 1, 2), (9, 1, 2), (12, 4, 48), (16, 8, 0x100000)]
def copyDesc (to' : Nat) : List Byte :=
  layout 32 [(0, 1, 2), (1, 1, to'), (4, 4, 4100), (8, 8, 0x100000), (16, 8, if to' = 3 then 0 else 0x200000)]
def panel0 : Panel :=
  { state := 2, active := [(0x90, 0x80000200), (0x94, 0x00200010), (0xB0, 0x80000000), (0xF4, 0x00200010)] }
theorem wit_fsg_split : demo.mayWrite 0 0x230000 ∧
    (([0, 1] : List Nat).any fun p => ([0, 1, 2, 3] : List Nat).any fun i => ((demo.panel p).slot i).en) = false ∧
    (([0, 1] : List Nat).any fun p => ([0, 1, 2, 3] : List Nat).any fun i =>
      ((({ demo with panels := [(0, panel0)] } : State).panel p).slot i).en) = true ∧
    (384 : Word).toNat % 512 ≤ 384 ∧ 384 < (385 : Word).toNat % 512 := by decide +kernel
theorem wit_push :
    (let s := fun phase d => { unitState 7 phase d with panels := [(0, panel0)] }
     (s 2 pushDesc).engineJob 1 7 = some (unitJob 7 2 pushDesc, cord) ∧
     (s 3 pushDesc).engineJob 1 7 = some (unitJob 7 3 pushDesc, cord) ∧
     (s 2 pushDesc).pushOk cord (unitJob 7 2 pushDesc) = true ∧
     (s 2 pushDesc).pushOk cord (unitJob 7 2 (layout 64 [])) = false ∧ (s 2 pushDesc).bandHeld 0 0 0 = false ∧
     ({ s 2 pushDesc with panels := [(0, { panel0 with newFront := true })] } : State).bandHeld 0 0 0 = true ∧
     (panel0.region 0).hasBand (0 + 1) = true ∧ (panel0.region 0).hasBand (1 + 1) = false) := by decide +kernel
theorem wit_copy :
    (unitState 8 2 (copyDesc 2)).engineJob 1 8 = some (unitJob 8 2 (copyDesc 2), cord) ∧
    (unitState 8 2 (copyDesc 2)).copyOk cord (unitJob 8 2 (copyDesc 2)) = true ∧
    (unitState 8 2 (copyDesc 2)).copyOk cord (unitJob 8 2 (layout 32 [])) = false ∧
    copyChunk (unitJob 8 2 (copyDesc 2)) = 1024 ∧ (0 + 1024) * 4 ≠ leAt (copyDesc 2) 4 4 ∧
    copyChunk { unitJob 8 2 (copyDesc 2) with done := 1024 } = 1 ∧ (1024 + 1) * 4 = leAt (copyDesc 2) 4 4 ∧
    (let s := fun held => { unitState 8 2 (copyDesc 3) with
      hosts := [(0, { rate := 1, ports := [(0, { bound := true, outbound := true, size := 16, held := held })] })] }
     (s 0).ringPort cord 0 true = some 0 ∧ (s 0).copyOk cord (unitJob 8 2 (copyDesc 3)) = true ∧
     min 1024 (((s 0).port 0 0).size - ((s 0).port 0 0).held) = 16 ∧
     min 1024 (((s 16).port 0 0).size - ((s 16).port 0 0).held) = 0) := by decide +kernel

/-! ### States that meet the hypotheses: panel ports, host requests, data ports, registers, the Lay loader -/

/-- demo with panel port P0 as given. -/
def withP0 (v : Panel) : State := { demo with panels := [(0, v)] }

theorem wit_panel_writes : demo.unitOwner 13 = 0 ∧ demo.unitOwner 14 = 0 ∧ panelOk 0 = true ∧ demo.slots = [] ∧
    (∀ o ∈ ([4, 0x1C, 0x2C, 0x30, 0x4C] : List Nat), demo.mayWrite 0 (cordAddr 0 (0x6000 + o)) ∧
      demo.mayWrite 0 (cordAddr 0 (0x6000 + 0x800 + o))) ∧ demo.cordCfg (demo.unitOwner 13) = some cord ∧
    (demo.reg (panelKey 0 4)).getLsbD 0 = false ∧
    (({ demo with regs := [(panelKey 0 4, 1)] } : State).reg (panelKey 0 4)).getLsbD 0 = true ∧
    (demo.panel 0).closing = false ∧ (1 : Word).getLsbD 0 = true ∧ (0 : Word).getLsbD 0 = false := by decide +kernel
theorem wit_panel_frames :
    ((withP0 {}).panel 0).state < 2 ∧ 2 ≤ ((withP0 panel0).panel 0).state ∧ ((withP0 panel0).panel 0).passed = false ∧
    ((withP0 panel0).panel 0).pending = [] ∧ ((withP0 panel0).panel 0).teLost = false ∧ (withP0 panel0).strictLost 0 = false ∧
    (let v := { panel0 with passed := true, content := 1, lastTe := some 0, teLost := true }
     ((withP0 v).panel 0).state = 2 ∧ ((withP0 v).panel 0).passed = true ∧ ((withP0 v).panel 0).pushing = false ∧
     ((withP0 v).panel 0).content ≠ 0 ∧ ((withP0 v).panel 0).lastTe = some 0 ∧ ((withP0 v).panel 0).teLost = true) ∧
    ((withP0 { panel0 with pending := [⟨1, 1, 0, some 1⟩] }).panel 0).pending ≠ [] ∧
    (let v : Panel := { panel0 with active := (0x10, 0x6403E8) :: (0x14, 50) :: panel0.active }
     let s := fun t => { withP0 v with time := t }
     ((s 0).panel 0).lines = 100 ∧ ((s 0).panel 0).mode.toNat / 2048 % 4 ≠ 3 ∧
     (({ v with mode := 0x1800 } : Panel).mode.toNat / 2048 % 4 = 3) ∧ (s 99999).linesSince 0 = 49 ∧
     (s 100000).linesSince 0 = 50 ∧ (s 199999).linesSince 0 < 100 ∧ (s 200000).linesSince 0 = 100 ∧
     ((v.act 0x14).toNat % 65536 = 50) ∧ (s 99999999).time < v.quiet + 100000000 ∧ v.quiet + 100000000 ≤ (s 100000000).time) := by
  decide +kernel
/-- A mode the shadow registers give and one of a reserved lane code; the four steps of a mode change. -/
theorem wit_mode_change :
    (let v := fun k pushing => { panel0 with state := 3, step := k, pushing := pushing }
     ((withP0 (v 1 false)).panel 0).state = 3 ∧ ((withP0 (v 1 false)).panel 0).pushing = false ∧
     ((withP0 (v 1 true)).panel 0).pushing = true ∧ (withP0 { state := 3, step := 1 }).modeRefused 0 = false ∧
     ({ withP0 (v 1 false) with regs := [(panelKey 0 8, 3)] } : State).modeRefused 0 = true ∧
     ((withP0 (v 2 false)).panel 0).step = 2 ∧ ((withP0 (v 3 false)).panel 0).step = 3 ∧ ((withP0 (v 4 false)).panel 0).step = 4 ∧
     (v 2 false).since + 20000 ≤ 20000 ∧ 19999 < (v 2 false).since + 20000 ∧ (v 3 false).since + 120000 ≤ 120000 ∧
     119999 < (v 3 false).since + 120000) := by decide +kernel
theorem wit_bringup :
    (let v := { panel0 with state := 1, step := 1, lane := 0 }
     ((withP0 v).panel 0).state = 1 ∧ ((withP0 v).panel 0).step = 1 ∧
     v.lane + 1 = modeLanes (0 : Word).toNat ∧ v.lane + 1 ≠ modeLanes (1 : Word).toNat ∧ v.swapped = false ∧
     ({ v with swapped := true } : Panel).swapped = true ∧ v.since ≤ 0 ∧ 10000000 ≤ v.since + 10000000 ∧
     ¬ 10000001 ≤ v.since + 10000000 ∧ v.since + 1000000000 ≤ 1000000000) ∧
    ((withP0 { panel0 with state := 1, step := 0 }).panel 0).step = 0 ∧ ((withP0 {}).panel 0).state = 0 ∧
    ((withP0 { panel0 with pushing := true }).panel 0).pushing = true ∧ ((withP0 panel0).panel 0).pushing = false := by
  decide +kernel
/-- A panel output changes at 10 ms after its last change, and defers changes before. -/
theorem wit_panel_outputs :
    (⟨false, some 0, []⟩ : PanelOut).drive true 9999999 = ⟨false, some 0, [true]⟩ ∧
    (⟨false, some 0, []⟩ : PanelOut).drive true 10000000 = ⟨true, some 10000000, []⟩ ∧
    (⟨false, some 0, [true]⟩ : PanelOut).drive false 5 = ⟨false, some 0, [true, false]⟩ ∧
    (⟨false, some 0, [true]⟩ : PanelOut).drive true 5 = ⟨false, some 0, [true]⟩ ∧
    (⟨false, some 0, [true, false]⟩ : PanelOut).release 9999999 = ⟨false, some 0, [true, false]⟩ ∧
    (⟨false, some 0, [true, false]⟩ : PanelOut).release 10000000 = ⟨true, some 10000000, [false]⟩ := by decide +kernel

/-- A request of `n` words at a Hearth store address, and one with header faults. -/
def req0 (flags : BitVec 16) (ws : List Word) : ZtReq := ⟨7, 0x4020010, .ofNat 16 ws.length, flags, 0, ws, 0⟩
theorem wit_requests :
    hostOk 0 = true ∧ State.reset.live = true ∧ (State.reset.host 0).rate = 0 ∧ demo.live = true ∧ (demo.host 0).rate ≠ 0 ∧
    (demo.host 0).fence = none ∧ (demo.host 0).active = none ∧ (demo.hearth 0).storeUe = [] ∧
    (∀ op ∈ ([1, 3, 7, 8] : List Nat), (req0 0 [1, 2]).words.length = payloadWords op 2 0 ∨ op = 3 ∨ op = 7 ∨ op = 8) ∧
    (req0 2 [5, 0, 0, 0]).words.length = payloadWords 8 4 2 ∧ ztRequest [0] = none ∧
    (ztRequest (ZtReq.bytes 1 (req0 0 [1, 2]))).isSome = true ∧ 0 < 1 ∧ 1 < (req0 0 [1, 2]).count.toNat ∧
    (∀ op ∈ ([1, 2, 3, 4, 5, 6] : List Nat), cutShort op (req0 0 [1, 2]) = false ∧ headerCheck op (req0 0 [1, 2]) = 0 ∧
      demo.addressCheck 0 op (req0 0 [1, 2]) = 0 ∧ headerCheck op (req0 0 []) = 2 ∧
      demo.addressCheck 0 op { req0 0 [1, 2] with addr := 0xFFFFFFF8 } ≠ 0) ∧
    storeSlot (req0 0 [1, 2]).addr.toNat = some (0, 0x20010) ∧ cutShort 1 { req0 0 [] with count := 1 } = true ∧
    headerCheck 1 (req0 1 [1]) = 0 ∧ headerCheck 3 (req0 1 [1]) = 1 ∧ headerCheck 1 { req0 0 [1] with addr := 2 } = 3 ∧
    headerCheck 7 (req0 0 []) = 0 ∧ headerCheck 7 (req0 0 [1]) = 2 ∧
    headerCheck 8 (req0 0 []) = 0 ∧ (0 : BitVec 8) = 0 ∧ 8 < (9 : BitVec 8).toNat ∧ (8 : BitVec 8).toNat = 8 := by decide +kernel
/-- TSYNC with its four words, the first exchange and one that closes the last; requests behind a FENCE; events. -/
theorem wit_tsync_fence_events :
    (let r := req0 2 [5, 0, 0, 0]
     let e := req0 2 [5, 0, 9, 0]
     headerCheck 8 r = 0 ∧ r.flags.getLsbD 1 = true ∧ 4 ≤ r.words.length ∧ word64 r.words 2 = 0 ∧ word64 e.words 2 ≠ 0 ∧
     demo.manual 0 = false ∧ 0 ≤ (exchangeOf (1, 2, 3) 9).delay ∧ (exchangeOf (1, 2, 9) 3).delay < 0) ∧
    (let h : HostPort := { rate := 1, fence := some 3, behind := [(0, .writeInc 0 (req0 0 [1]))] }
     h.fence = some 3 ∧ h.outstanding 7 = true ∧ h.outstanding 8 = false ∧ cutShort 1 (req0 0 [1]) = false ∧
     (req0 1 [1]).flags.getLsbD 0 = true ∧ headerCheck 1 (req0 0 [1]) = 0 ∧ headerCheck 1 (req0 0 []) ≠ 0) ∧
    ({ rate := 1, fence := some 3 } : HostPort).active = none ∧ (demo.host 0).events = [] ∧ ([(0, 0)] : List (Nat × Nat)).length ≤ 256 := by decide +kernel

/-- Data port 0 of host 0 bound, inbound and outbound, with and without a COPY job that waits. -/
def portState (x : DataPort) : State := { demo with hosts := [(0, { rate := 1, ports := [(0, x)] })] }
theorem wit_data_ports :
    (let inb : DataPort := { bound := true, size := 4, held := 3, waiter := some (1, 0) }
     let s := portState inb
     s.portsOpen 0 = true ∧ s.dramUe = [] ∧ s.cordCfg (s.port 0 0).cord = some cord ∧ (s.port 0 0).outbound = false ∧
     min 2 ((s.port 0 0).size - (s.port 0 0).held) = 1 ∧ 0 < 1 ∧ (s.port 0 0).waiter = some (1, 0) ∧
     (demo.port 0 0).bound = false) ∧
    (let out : DataPort := { bound := true, outbound := true, size := 4, held := 3, waiter := some (1, 0) }
     let s := { portState out with jobs := [{ unitJob 8 2 (copyDesc 3) with ringWait := true }] }
     (s.port 0 0).outbound = true ∧ (s.port 0 0).held < (s.port 0 0).size ∧ (s.port 0 0).waiter = some (1, 0) ∧
     (s.port 0 0).stallSent = false ∧ s.time ≤ 0 + 1000000 ∧
     0 + 1000000 < ({ s with time := 1000001 } : State).time ∧ (match s.job? 1 with
      | some j => j.kind == 8 && j.ringWait && j.intake.out.isEmpty && !j.intake.last
      | none => false) = true ∧
     ((portState { out with held := 4 }).port 0 0).size ≤ 4 ∧ ((portState { out with stallSent := true }).port 0 0).stallSent = true) ∧
    demo.mayWrite 0 0x1018 := by decide +kernel
theorem wit_registers :
    (∀ a ∈ ([0x200018, 0x280004, 0x2A0004, 0x4020010] : List Nat), demo.mayAccess 0 a true = true ∧ a < 0x10000000) ∧
    demo.mayAccess 0 0x200019 true = false ∧ demo.mayAccess 0 0x200019 false = false ∧ demo.mayAccess 1 0x200018 true = false ∧
    storeSlot 0x4020010 = some (0, 0x20010) ∧ (demo.hearth 0).storeUe = [] ∧
    demo.mayAccess 0 0x210000 false = true ∧ rcReg 0x210000 = true ∧ demo.shown 0x210000 = true ∧
    rcReg 0x200018 = false ∧ demo.wide 0 0x200018 = none ∧
    demo.mayAccess 0 0x200C false = true ∧ demo.wide 0 0x200C = some 0 ∧ demo.shown 0x200C = true := by decide +kernel

/-- The loader in each of its states; a staging area that is full; an image whose first check fails. -/
theorem wit_loader :
    demo.mayWrite 0 0x200000 ∧ demo.mayWrite 0 0x200008 ∧ demo.live = true ∧ demo.loaderBusy = false ∧
    ({ demo with loader := { state := 4 } } : State).loaderBusy = true ∧
    (let s := fun t => { demo with loader := { state := 4 }, regs := [(0x200018, 2)], time := t }
     (s 1999).time < (s 1999).loader.applyAt + ((s 1999).reg 0x200018).toNat * 1000 ∧
     (s 2000).loader.applyAt + ((s 2000).reg 0x200018).toNat * 1000 ≤ (s 2000).time) ∧ demo.loader.state ≠ 1 ∧ demo.loader.next = none ∧
    (let s := { demo with loader := { state := 1 } }
     s.loader.state = 1 ∧ s.loader.count + 4 ≤ s.stageLimit) ∧
    (let s := { demo with loader := { state := 1, count := 536870912 } }
     s.stageLimit < s.loader.count + 4) ∧
    (let s := { demo with loader := { state := 3, next := some lay } }
     s.loader.state = 3 ∧ s.loader.next = some lay ∧ 0 % 4 = 0 ∧ 1 % 4 ≠ 0) := by decide +kernel
theorem wit_verify :
    (let s := { demo with loader := { state := 2 } }
     s.loader.state = 2 ∧ s.checkImage s.staged = some (4, 48)) ∧
    (let s := { demo with loader := { state := 2 }, trust := { boot := 2, owner := { isDefault := false } } }
     (s.checkImage s.staged).isSome = true) := by decide +kernel
theorem wit_drain :
    (let s := { demo with loader := { state := 4, next := some lay, affected := 1 } }
     (∀ j ∈ s.jobs, s.affected.contains j.cord = false) ∧ (∀ e ∈ s.hitches, e.2.queue = []) ∧ s.affected.contains 0 = true ∧
     s.affected.contains 1 = false ∧ cord.hitchBase ≤ 3 ∧ 3 < cord.hitchBase + cord.hitchCount) ∧
    (let s := { demo with loader := { state := 4, next := some lay, affected := 1 }, jobs := [job0] }
     ∃ j ∈ s.jobs, s.affected.contains j.cord = true) ∧
    (let s := { demo with loader := { state := 5, next := some lay, affected := 1 } }
     s.loader.state = 5 ∧ s.stagedUe = false ∧ (false || s.stagedUe) = false ∧ (true || s.stagedUe) = true) := by decide +kernel

end Sys2Proof.Tests
end

section
/-! PROOF. The state right after module reset: every part stands at its default, and both logs are empty. -/

namespace Sys2Proof.Machine

/-! ### The state right after reset -/

/-- An empty log is chained: it has no entry to check. -/
theorem Log.chained_of_entries_nil {l : Log} (h : l.entries = []) : l.Chained where
  size := by simp [h]
  newest := by simp [h]
  links := by simp [h]

/-- A core that nothing has written reads 0 in every x register. -/
theorem Core.readX_default (r : BitVec 5) : ({} : Core).readX r = 0 := by
  simp [Core.readX]

/-- A register that no command has written reads its reset value (R6). -/
theorem State.reg_reset (k : Nat) : State.reset.reg k = regReset k := rfl

theorem regReset_histHold {n : Nat} (hn : n < 16) : regReset (cordAddr n 0xC004) = 90 := by
  have hlo : 0x100000 ≤ cordAddr n 0xC004 ∧ cordAddr n 0xC004 < 0x200000 ∧ cordAddr n 0xC004 % 65536 = 0xC004 := by
    simp only [cordAddr]; omega
  rw [regReset, if_neg (by omega), if_neg (by omega), if_neg (by omega), if_neg (by omega), if_pos hlo]

/-- Settles O3: every part of the reset state is at the default of its declaration, and a register that nothing has
written reads `regReset`. -/
theorem resetLeaves : Obligations.ResetLeaves := by
  unfold Obligations.ResetLeaves
  have hhearth (h : Nat) : State.reset.physOf h = h ∧ (State.reset.phy h).service = 0 ∧
      (State.reset.hearth h).job = none ∧ ∀ c, (State.reset.core h c).state = 0 ∧ (State.reset.core h c).pc = 0 ∧
        ∀ r, (State.reset.core h c).readX r = 0 :=
    ⟨rfl, rfl, rfl, fun _ => ⟨rfl, rfl, Core.readX_default⟩⟩
  have hhold (n : Nat) (hn : n < 16) : State.reset.reg (cordAddr n 0xC004) = 90 := by
    rw [State.reg_reset, regReset_histHold hn]
  exact ⟨rfl, rfl, rfl, rfl, rfl, fun _ => ⟨rfl, rfl, rfl⟩, fun _ => ⟨rfl, rfl, rfl⟩, hhearth, rfl, rfl,
    fun _ => ⟨rfl, rfl⟩, rfl, rfl, rfl, hhold, rfl, rfl, rfl, rfl, Log.chained_of_entries_nil rfl,
    Log.chained_of_entries_nil rfl⟩

end Sys2Proof.Machine
end

section
/-! PROOF. The tick of an empty queue: what the counters of a tick touch, and what a quiet tick leaves alone. -/

namespace Sys2Proof.Machine

/-! ### What a fold of updates leaves alone -/

/-- A part of the state that every step of a fold keeps is kept by the fold. -/
theorem foldl_keeps {α β : Type} (g : State → β) {f : State → α → State} (hf : ∀ t a, g (f t a) = g t)
    (l : List α) (s : State) : g (l.foldl f s) = g s := by
  induction l generalizing s with
  | nil => rfl
  | cons a l ih => rw [List.foldl_cons, ih, hf]

/-! ### The counters of a tick -/

/-- The state without its plain registers and without the counters of its Cords. -/
def State.sansCounts (s : State) : State := { s with regs := [], cords := [] }

/-- The state without its physical Hearths. -/
def State.sansPhys (s : State) : State := { s with phys := [] }

variable (s : State)

@[simp] theorem State.setReg_sansCounts (k : Nat) (w : Word) : (s.setReg k w).sansCounts = s.sansCounts := rfl

@[simp] theorem State.bumpUnits_sansCounts (k u n : Nat) : (s.bumpUnits k u n).sansCounts = s.sansCounts := by
  rw [State.bumpUnits, State.bump, State.setReg_sansCounts, State.setReg_sansCounts]

@[simp] theorem State.setCordRt_sansCounts (n : Nat) (v : CordRt) : (s.setCordRt n v).sansCounts = s.sansCounts := rfl

@[simp] theorem State.countB_sansCounts (k ns : Nat) (busy : Bool) :
    (s.countB k ns busy).sansCounts = s.sansCounts := by
  cases busy
  · rfl
  · exact State.bumpUnits_sansCounts ..

theorem State.countIntake_sansCounts (ns : Nat) : (s.countIntake ns).sansCounts = s.sansCounts := by
  have hone (t : State) (n : Nat) (v : CordRt) :
      ((t.bumpUnits (cordAddr n 0x7018) 2 ns).setCordRt n v).sansCounts = t.sansCounts := by
    rw [State.setCordRt_sansCounts, State.bumpUnits_sansCounts]
  simp only [State.countIntake]
  split
  · exact (State.bumpUnits_sansCounts ..).trans (foldl_keeps State.sansCounts (fun t n => hone t n _) _ _)
  · exact foldl_keeps State.sansCounts (fun t n => hone t n _) _ _

theorem State.countPanels_sansCounts (ns : Nat) : (s.countPanels ns).sansCounts = s.sansCounts :=
  foldl_keeps State.sansCounts (fun t p => by
    dsimp only
    split <;> split <;> simp only [State.bumpUnits_sansCounts]) _ _

theorem State.countEngines_sansCounts (ns : Nat) : (s.countEngines ns).sansCounts = s.sansCounts := by
  simp only [State.countEngines, State.countB_sansCounts]
  rw [foldl_keeps State.sansCounts fun _ _ => State.countB_sansCounts ..,
    foldl_keeps State.sansCounts fun _ _ => State.countB_sansCounts ..]

theorem State.countCacheWaits_sansCounts (ns : Nat) : (s.countCacheWaits ns).sansCounts = s.sansCounts :=
  foldl_keeps State.sansCounts (fun _ _ => State.countB_sansCounts ..) _ _

theorem State.countShades_sansCounts (ns : Nat) : (s.countShades ns).sansCounts = s.sansCounts :=
  foldl_keeps State.sansCounts (fun t j => by split <;> simp only [State.bumpUnits_sansCounts]) _ _

/-- The time that passes changes plain registers and Cord counters alone (R19, R305, R368, R391, R459, R464). -/
theorem State.countTime_sansCounts (ns : Nat) : (s.countTime ns).sansCounts = s.sansCounts := by
  have hwork : (((((s.countIntake ns).countPanels ns).countEngines ns).countCacheWaits ns).countShades ns).sansCounts =
      s.sansCounts := by
    rw [State.countShades_sansCounts, State.countCacheWaits_sansCounts, State.countEngines_sansCounts,
      State.countPanels_sansCounts, State.countIntake_sansCounts]
  unfold State.countTime
  dsimp only
  split <;> split <;> split <;> simp only [State.bumpUnits_sansCounts, hwork]

/-- Dividers that come into force change physical Hearths alone (R21). -/
theorem State.takeDivReqs_sansPhys : s.takeDivReqs.sansPhys = s.sansPhys :=
  foldl_keeps State.sansPhys (fun t p => by simp only [State.takeDivReq]; split <;> rfl) _ _

/-! ### What a tick leaves undone -/

theorem State.finishRequests_of_idle (h : ∀ d, (s.host d).active = none) : s.finishRequests = s := by
  have hone (d : Nat) : s.finishRequest d = s := by simp [State.finishRequest, h]
  simp [State.finishRequests, hone]

theorem State.demoteLate_of_punctual (h : ∀ x ∈ s.slots, s.time ≤ x.deadline) : s.demoteLate = s := by
  have hlate : (s.slots.filter fun x => decide (x.deadline < s.time) && x.chain.isNone && !x.committed) = [] := by
    simp only [List.filter_eq_nil_iff, Bool.and_eq_true, decide_eq_true_eq, not_and]
    intro x hx hlt
    exact absurd (h x hx) (Nat.not_le.2 hlt.1)
  simp [State.demoteLate, hlate]

theorem State.endAllAborted_of_none (h : ∀ j ∈ s.jobs, j.aborting = false) : s.endAllAborted = s := by
  have hnone : s.jobs.filter Job.aborting = [] := by simpa [List.filter_eq_nil_iff] using h
  simp [State.endAllAborted, hnone]

/-- The device time that one tick lets pass: 1 ns, or in a relock the rest of the crystal's cycle (R19, R486). -/
def State.tickNs : Nat := if s.clk.relocking then 40 - s.time % 40 else 1

/-- The root clock after one tick: 8 cycles on, or where it was in a relock (R19, R486). -/
def State.tickRoot : Nat := if s.clk.relocking then s.clk.root else s.clk.root + 8

/-- The state `t` with the times and the root clock that the tick of `s` leads to. -/
def State.moveTimes (t : State) : State :=
  { t with time := s.time + s.tickNs, wall := s.wall + s.tickNs, clk := { s.clk with root := s.tickRoot } }

/-- The state of a tick in which time passes and nothing else falls due. -/
def State.ticked : State :=
  let t := s.moveTimes (s.countTime s.tickNs)
  if s.tickRoot % dividerPeriod = 0 then t.takeDivReqs else t

theorem State.tickNs_le : s.tickNs ≤ 40 := by
  unfold State.tickNs
  split <;> omega

/-- But for plain registers, Cord counters and physical Hearths, a quiet tick moves the times and the root clock. -/
theorem State.ticked_sans : s.ticked.sansPhys.sansCounts = (s.moveTimes s).sansPhys.sansCounts := by
  have hdiv : s.ticked.sansPhys = (s.moveTimes (s.countTime s.tickNs)).sansPhys := by
    unfold State.ticked
    dsimp only
    split
    · exact State.takeDivReqs_sansPhys _
    · rfl
  have hmove (t : State) : (s.moveTimes t).sansPhys.sansCounts = (s.moveTimes t.sansCounts).sansPhys := rfl
  rw [hdiv, hmove, hmove, State.countTime_sansCounts]

theorem State.ticked_phys (h : s.tickRoot % dividerPeriod ≠ 0) : s.ticked.phys = s.phys := by
  rw [State.ticked, if_neg h]
  exact (congrArg State.phys (s.countTime_sansCounts s.tickNs) :)

/-- A tick of a live die on which no request, late slot or aborted job waits lets time pass, and notes which jobs are
blocked. -/
theorem State.tick_of_quiet (hl : s.live = true) (ha : ∀ d, (s.host d).active = none)
    (hs : ∀ x ∈ s.slots, s.time + 40 ≤ x.deadline) (hj : ∀ j ∈ s.jobs, j.aborting = false) :
    s.tick = s.ticked.noteBlocked := by
  have htime : s.ticked.time = s.time + s.tickNs := (congrArg State.time s.ticked_sans :)
  have hslots : s.ticked.slots = s.slots := (congrArg State.slots s.ticked_sans :)
  have hjobs : s.ticked.jobs = s.jobs := (congrArg State.jobs s.ticked_sans :)
  have hlate : s.ticked.demoteLate = s.ticked := State.demoteLate_of_punctual _ fun x hx => by
    have := hs x (hslots ▸ hx)
    have := s.tickNs_le
    omega
  have habort : s.ticked.endAllAborted = s.ticked := State.endAllAborted_of_none _ (hjobs ▸ hj)
  have htick : s.tick = s.ticked.demoteLate.endAllAborted.noteBlocked := by
    unfold State.tick
    simp only [hl, State.finishRequests_of_idle s ha, Bool.not_true, Bool.false_eq_true, if_false]
    rfl
  rw [htick, hlate, habort]

/-- Settles O2: the tick of a quiet die is time that passes, and the frame of each of its parts. -/
theorem idleStepPassesTime : Obligations.IdleStepPassesTime := by
  unfold Obligations.IdleStepPassesTime
  intro s hq hl ha hs hj
  have hstep : step s = .next s.ticked.noteBlocked := by
    rw [step, hq, ← s.tick_of_quiet hl ha hs hj]
  have keeps {β : Type} (g : State → β) := congrArg g s.ticked_sans
  have htime : s.ticked.time = s.time + s.tickNs := keeps State.time
  have hwall : s.ticked.wall = s.wall + s.tickNs := keeps State.wall
  have hclk : s.ticked.clk = { s.clk with root := s.tickRoot } := keeps State.clk
  refine ⟨_, hstep, fun hr => ?_, fun hr => ?_, ?_, fun hd => ?_, (keeps State.pending).trans hq, keeps State.hosts,
    keeps State.hearths, keeps State.dram, keeps State.flash, keeps State.frame, keeps State.hitches, keeps State.flt,
    keeps State.trust, keeps State.lay⟩
  · have hns : s.tickNs = 1 := if_neg (by simp [hr])
    have hroot : s.tickRoot = s.clk.root + 8 := if_neg (by simp [hr])
    exact ⟨htime.trans (by rw [hns]), (congrArg Clocks.root hclk).trans hroot⟩
  · have hns : s.tickNs = 40 - s.time % 40 := if_pos hr
    have hroot : s.tickRoot = s.clk.root := if_pos hr
    have hnext : s.ticked.time = s.time + (40 - s.time % 40) := by rw [htime, hns]
    change s.time < s.ticked.time ∧ s.ticked.time ≤ _ ∧ s.ticked.time % 40 = 0 ∧ s.ticked.clk = _
    exact ⟨by omega, by omega, by omega, by rw [hclk, hroot]⟩
  · change s.ticked.wall + s.time = s.wall + s.ticked.time
    omega
  · refine s.ticked_phys ?_
    change s.ticked.clk.root % 240 ≠ 0 at hd
    rwa [hclk] at hd

end Sys2Proof.Machine
end

section
/-! PROOF. Data ports: counters in units, waits on a ring, and what a write and a read of a port do (R80 to R84). -/

namespace Sys2Proof.Machine

/-! ### Updates of host ports, one after another -/

theorem State.hosts_rest_trans {s t u : State} (h1 : { t with hosts := s.hosts } = s)
    (h2 : { u with hosts := t.hosts } = t) : { u with hosts := s.hosts } = s :=
  (congrArg (fun x : State => { x with hosts := s.hosts }) h2).trans h1

theorem State.regs_hosts_rest_trans {s t u : State} (h1 : { t with regs := s.regs } = s)
    (h2 : { u with hosts := t.hosts } = t) : { u with regs := s.regs, hosts := s.hosts } = s := by
  have hhosts : t.hosts = s.hosts := (congrArg State.hosts h1 :)
  rw [← hhosts]
  exact (congrArg (fun x : State => { x with regs := s.regs }) h2).trans h1

variable (s : State) (d p : Nat)

theorem State.setHost_rest (v : HostPort) : { s.setHost d v with hosts := s.hosts } = s := rfl

theorem State.setReg_rest (k : Nat) (w : Word) : { s.setReg k w with regs := s.regs } = s := rfl

/-! ### Counters in units, and jobs that change -/

@[simp] theorem State.bump_dram (k n : Nat) : (s.bump k n).dram = s.dram := by rw [State.bump, State.setReg_dram]

@[simp] theorem State.bumpUnits_dram (k u n : Nat) : (s.bumpUnits k u n).dram = s.dram := by
  rw [State.bumpUnits, State.bump_dram, State.setReg_dram]

/-- A counter in units grows by the whole units that have come together, and what is left of a unit stands at a key of
its own (assumption 175). -/
theorem State.reg_bumpUnits (k u n j : Nat) : (s.bumpUnits k u n).reg j =
    if j = k then .ofNat 32 (min ((s.reg k).toNat + ((s.reg (2 ^ 41 + k)).toNat + n) / u) 0xFFFFFFFF)
    else if j = 2 ^ 41 + k then .ofNat 32 (((s.reg (2 ^ 41 + k)).toNat + n) % u)
    else s.reg j := by
  rw [State.bumpUnits, State.reg_bump, State.reg_setReg, State.reg_setReg, if_neg (by omega : k ≠ 2 ^ 41 + k)]

/-- A change that keeps a job's number changes what is found under that number alone. -/
theorem State.job?_modJob (sub : Nat) {f : Job → Job} (hf : ∀ j, (f j).sub = j.sub) :
    (s.modJob sub f).job? sub = (s.job? sub).map f := by
  simp only [State.job?, State.modJob]
  induction s.jobs with
  | nil => rfl
  | cons j l ih =>
    by_cases hj : j.sub = sub
    · simp [hj, hf]
    · simpa only [List.map_cons, List.find?_cons, beq_eq_false_iff_ne.2 hj, Bool.false_eq_true, if_false] using ih

/-! ### The keys of a data port's registers -/

theorem stallKey_eq {p : Nat} (hp : p < 16) : stallKey d p = (d + 1) * 2 ^ 32 + (0x10010 + p * 256) := by
  rw [stallKey, regKey, if_pos (by omega)]

theorem overrunKey_eq {p : Nat} (hp : p < 16) :
    regKey d (0x1000C + p * 256) = (d + 1) * 2 ^ 32 + (0x1000C + p * 256) := by
  rw [regKey, if_pos (by omega)]

/-! ### Waits on a ring (R83) -/

@[simp] theorem State.ringResume_dram : (s.ringResume d p).dram = s.dram := by
  unfold State.ringResume
  dsimp only
  split
  · rw [State.bumpUnits_dram]; rfl
  · rfl

/-- The wait on a ring has ended, and its port is otherwise as it was. -/
@[simp] theorem State.port_ringResume : (s.ringResume d p).port d p = { s.port d p with waiter := none } := by
  unfold State.ringResume
  dsimp only
  split
  · exact State.port_setPort_same ..
  · next h => rw [← h]

theorem State.ringResume_of_waiter {sub t0 : Nat} (h : (s.port d p).waiter = some (sub, t0)) :
    s.ringResume d p = ((s.setPort d p { s.port d p with waiter := none }).modJob sub fun j =>
      { j with ringWait := false }).bumpUnits (stallKey d p) 1000 (s.time - (s.port d p).uncounted) := by
  unfold State.ringResume
  dsimp only
  rw [h]

/-- The job that waited waits no more. -/
theorem State.jobs_ringResume {sub t0 : Nat} (h : (s.port d p).waiter = some (sub, t0)) :
    (s.ringResume d p).jobs = (s.modJob sub fun j => { j with ringWait := false }).jobs := by
  rw [s.ringResume_of_waiter d p h]; rfl

/-- A wait that ends counts in `DP_STALL_US`, and its rest with the next wait. -/
theorem State.reg_ringResume {sub t0 : Nat} (h : (s.port d p).waiter = some (sub, t0)) (j : Nat) :
    (s.ringResume d p).reg j =
      if j = stallKey d p then .ofNat 32 (min ((s.reg (stallKey d p)).toNat +
        ((s.reg (2 ^ 41 + stallKey d p)).toNat + (s.time - (s.port d p).uncounted)) / 1000) 0xFFFFFFFF)
      else if j = 2 ^ 41 + stallKey d p then
        .ofNat 32 (((s.reg (2 ^ 41 + stallKey d p)).toNat + (s.time - (s.port d p).uncounted)) % 1000)
      else s.reg j := by
  rw [s.ringResume_of_waiter d p h]
  exact State.reg_bumpUnits ..

/-- No register but those of the wait changes. -/
theorem State.reg_ringResume_of_ne {j : Nat} (h1 : j ≠ stallKey d p) (h2 : j ≠ 2 ^ 41 + stallKey d p) :
    (s.ringResume d p).reg j = s.reg j := by
  unfold State.ringResume
  dsimp only
  split
  · rw [State.reg_bumpUnits, if_neg h1, if_neg h2]; rfl
  · rfl

/-! ### The commands of data ports -/

theorem portOk_of_hostOk {d p : Nat} (hd : hostOk d = true) (hp : p < 16) : portOk d p = true := by
  simpa [portOk, hostOk, hp] using hd

theorem exec_dpDataWrite (hu : portOk d p = true) (ws : List Word) :
    exec (.dpDataWrite d p ws) s = .next (s.portWrite d p ws) := by
  change execDpDataWrite d p ws s = _
  rw [execDpDataWrite, hu, withUnit_true]

theorem exec_dpDataRead (hu : portOk d p = true) (n : Nat) :
    exec (.dpDataRead d p n) s = .next (s.portTake d p n) := by
  change execDpDataRead d p n s = _
  rw [execDpDataRead, hu, withUnit_true]

/-- A domain reaches port p: its ports are within reach and p is bound. -/
abbrev State.reaches : Prop := s.portsOpen d = true ∧ (s.port d p).bound = true

theorem State.portWrite_of_unreached (h : ¬ s.reaches d p) (ws : List Word) : s.portWrite d p ws = s := by
  rw [State.portWrite, if_neg (by simpa using h)]

theorem State.portTake_of_unreached (h : ¬ s.reaches d p) (n : Nat) : s.portTake d p n = s := by
  rw [State.portTake, if_neg (by simpa using h)]

theorem State.ringUeAt_of_no_ue (h : s.dramUe = []) (x : DataPort) (i : Nat) : s.ringUeAt x i = false := by
  unfold State.ringUeAt
  split
  · simp [State.cordUe, h]
  · rfl

theorem State.find?_ringUeAt (h : s.dramUe = []) (x : DataPort) (l : List Nat) (f : Nat → Nat) :
    (l.find? fun i => s.ringUeAt x (f i)) = none := by
  simp [s.ringUeAt_of_no_ue h]

/-- Put the first `n` of some words behind those that a ring holds. -/
def State.putWords (c : CordCfg) (x : DataPort) (ws : List Word) (n : Nat) : State :=
  (List.range n).foldl (fun u i => u.putCordLe c (x.wordAddr (x.held + i)) 4 (ws.getD i 0).toNat) s

/-- The state without its DRAM. -/
def State.sansDram (s : State) : State := { s with dram := [], dramUe := [] }

theorem State.putCordLe_sansDram (c : CordCfg) (a n x : Nat) : (s.putCordLe c a n x).sansDram = s.sansDram := rfl

theorem State.putWords_sansDram (c : CordCfg) (x : DataPort) (ws : List Word) (n : Nat) :
    (s.putWords c x ws n).sansDram = s.sansDram :=
  foldl_keeps State.sansDram (fun t _ => putCordLe_sansDram t c _ 4 _) _ _

/-- The port after `n` words have come into its ring or have gone out of it. -/
def DataPort.filled (x : DataPort) (n : Nat) : DataPort := { x with held := x.held + n, moved := x.moved + n }
def DataPort.drained (x : DataPort) (n : Nat) : DataPort :=
  { x with head := (x.head + n) % max 1 x.size, held := x.held - n, moved := x.moved + n }

/-- A write to an inbound port, before what does not fit is counted (R82). -/
def State.fillRing (c : CordCfg) (ws : List Word) (n : Nat) : State :=
  let t := (s.putWords c (s.port d p) ws n).setPort d p ((s.port d p).filled n)
  if n = 0 then t else t.ringResume d p

/-- Count the `m` words that an inbound port has dropped, in `DP_OVERRUN` (R82). -/
def State.overrun (m : Nat) : State := if m = 0 then s else s.bump (regKey d (0x1000C + p * 256)) m

@[simp] theorem State.overrun_dram (m : Nat) : (s.overrun d p m).dram = s.dram := by unfold State.overrun; split <;> rfl
@[simp] theorem State.overrun_jobs (m : Nat) : (s.overrun d p m).jobs = s.jobs := by unfold State.overrun; split <;> rfl
@[simp] theorem State.overrun_port (m e q : Nat) : (s.overrun d p m).port e q = s.port e q := by
  unfold State.overrun; split <;> rfl

theorem State.reg_overrun_of_ne (m : Nat) {j : Nat} (hj : j ≠ regKey d (0x1000C + p * 256)) :
    (s.overrun d p m).reg j = s.reg j := by
  unfold State.overrun
  split
  · rfl
  · rw [State.reg_bump, if_neg hj]

theorem State.reg_overrun (m : Nat) :
    (s.overrun d p m).reg (regKey d (0x1000C + p * 256)) =
      .ofNat 32 (min ((s.reg (regKey d (0x1000C + p * 256))).toNat + m) 0xFFFFFFFF) := by
  unfold State.overrun
  split
  · next h =>
    have hlt := (s.reg (regKey d (0x1000C + p * 256))).isLt
    rw [h, Nat.add_zero, Nat.min_eq_left (by omega), BitVec.ofNat_toNat, BitVec.setWidth_eq]
  · rw [State.reg_bump, if_pos rfl]

section
variable {s d p} {c : CordCfg} (hopen : s.reaches d p)
include hopen

theorem State.portWrite_outbound (hc : s.cordCfg (s.port d p).cord = some c) (hout : (s.port d p).outbound = true)
    (ws : List Word) : s.portWrite d p ws = s := by
  simp [State.portWrite, State.portAppend, hopen, hc, hout]

/-- What fits is appended, and the rest is counted as overrun (R82). -/
theorem State.portWrite_inbound (hc : s.cordCfg (s.port d p).cord = some c) (hin : (s.port d p).outbound = false)
    (hue : s.dramUe = []) (ws : List Word) :
    s.portWrite d p ws =
      let n := min ws.length ((s.port d p).size - (s.port d p).held)
      (s.fillRing d p c ws n).overrun d p (ws.length - n) := by
  have hlevel : (s.port d p).level = (s.port d p).size - (s.port d p).held := by simp [DataPort.level, hin]
  have hgoes : ¬ (!(s.port d p).bound || (s.port d p).outbound) = true := by simp [hopen.2, hin]
  rw [State.portWrite, if_pos (by simp [hopen]), State.portAppend]
  dsimp only
  rw [hc]
  dsimp only
  rw [if_neg hgoes, s.find?_ringUeAt hue, Option.getD_none, if_neg (Nat.lt_irrefl _), hlevel, State.overrun]
  generalize min ws.length ((s.port d p).size - (s.port d p).held) = n
  by_cases hlt : n < ws.length
  · rw [if_pos hlt, if_neg (show ws.length - n ≠ 0 by omega)]; rfl
  · rw [if_neg hlt, if_pos (show ws.length - n = 0 by omega)]; rfl

theorem State.portTake_inbound (hin : (s.port d p).outbound = false) (n : Nat) :
    s.portTake d p n = s.keepRead d (List.replicate n 0) := by
  simp [State.portTake, hopen, hin]

/-- The oldest words of an outbound ring go to the domain, and the ring moves on (R81). -/
theorem State.portTake_outbound (hc : s.cordCfg (s.port d p).cord = some c) (hout : (s.port d p).outbound = true)
    (hue : s.dramUe = []) (n : Nat) :
    s.portTake d p n =
      let k := min n (s.port d p).held
      (s.setPort d p ((s.port d p).drained k)).keepRead d
        ((List.range k).map fun i => .ofNat 32 (s.cordLe c ((s.port d p).wordAddr i) 4)) := by
  have hlevel : (s.port d p).level = (s.port d p).held := by simp [DataPort.level, hout]
  have hgoes : ¬ (!(s.port d p).bound || !(s.port d p).outbound) = true := by simp [hopen.2, hout]
  have hfind (l : List Nat) : (l.find? fun i => s.ringUeAt (s.port d p) i) = none := s.find?_ringUeAt hue _ l id
  rw [State.portTake, if_pos (by simp [hopen]), if_pos hout, State.portRemove]
  dsimp only
  rw [hc]
  dsimp only
  rw [if_neg hgoes, hfind, Option.getD_none, if_neg (Nat.lt_irrefl _), hlevel]
  rfl

end

/-! ### What a filled ring looks like -/

section
variable (c : CordCfg) (ws : List Word) (n : Nat)

theorem State.fillRing_zero :
    s.fillRing d p c ws 0 = (s.putWords c (s.port d p) ws 0).setPort d p ((s.port d p).filled 0) := by
  rw [State.fillRing, if_pos rfl]

theorem State.fillRing_pos {n : Nat} (hn : 0 < n) : s.fillRing d p c ws n =
    ((s.putWords c (s.port d p) ws n).setPort d p ((s.port d p).filled n)).ringResume d p := by
  rw [State.fillRing, if_neg (Nat.ne_of_gt hn)]

/-- The words stand in the ring and count as moved; only the job that waited for them may have gone. -/
theorem State.port_fillRing : (s.fillRing d p c ws n).port d p =
    { (s.port d p).filled n with waiter := if n = 0 then (s.port d p).waiter else none } := by
  rcases Nat.eq_zero_or_pos n with rfl | hn
  · rw [State.fillRing_zero, State.port_setPort_same]; rfl
  · rw [s.fillRing_pos d p c ws hn, State.port_ringResume, State.port_setPort_same, if_neg (Nat.ne_of_gt hn)]

theorem State.fillRing_dram : (s.fillRing d p c ws n).dram = (s.putWords c (s.port d p) ws n).dram := by
  rcases Nat.eq_zero_or_pos n with rfl | hn
  · rw [State.fillRing_zero]; rfl
  · rw [s.fillRing_pos d p c ws hn, State.ringResume_dram]; rfl

/-- No register but those of the wait changes. -/
theorem State.reg_fillRing_of_ne {j : Nat} (h1 : j ≠ stallKey d p) (h2 : j ≠ 2 ^ 41 + stallKey d p) :
    (s.fillRing d p c ws n).reg j = s.reg j := by
  have hput : (s.putWords c (s.port d p) ws n).regs = s.regs :=
    (congrArg State.regs (s.putWords_sansDram c (s.port d p) ws n) :)
  have hreg : (s.putWords c (s.port d p) ws n).reg j = s.reg j := by rw [State.reg, hput]; rfl
  rcases Nat.eq_zero_or_pos n with rfl | hn
  · rw [State.fillRing_zero]; exact hreg
  · rw [s.fillRing_pos d p c ws hn, State.reg_ringResume_of_ne _ d p h1 h2]; exact hreg

/-- The state in which the wait of the job that waited for the words has yet to end. -/
theorem State.putWords_agrees :
    let t := (s.putWords c (s.port d p) ws n).setPort d p ((s.port d p).filled n)
    t.port d p = (s.port d p).filled n ∧ t.regs = s.regs ∧ t.jobs = s.jobs ∧ t.time = s.time :=
  ⟨State.port_setPort_same .., (congrArg State.regs (s.putWords_sansDram c (s.port d p) ws n) :),
    (congrArg State.jobs (s.putWords_sansDram c (s.port d p) ws n) :),
    (congrArg State.time (s.putWords_sansDram c (s.port d p) ws n) :)⟩

end

/-- The running wait on port p's ring, counted in the registers of the state `t` (R83, assumption 175). -/
def State.waitCounted (t : State) : Prop :=
  let all := (s.reg (2 ^ 41 + stallKey d p)).toNat + (s.time - (s.port d p).uncounted)
  t.reg (stallKey d p) = .ofNat 32 (min ((s.reg (stallKey d p)).toNat + all / 1000) 0xFFFFFFFF) ∧
  t.reg (2 ^ 41 + stallKey d p) = .ofNat 32 (all % 1000)

variable {s d p} in
theorem State.waitCounted_ringResume {sub t0 : Nat} (h : (s.port d p).waiter = some (sub, t0)) :
    s.waitCounted d p (s.ringResume d p) := by
  constructor
  · rw [s.reg_ringResume d p h, if_pos rfl]
  · rw [s.reg_ringResume d p h, if_neg (by omega), if_pos rfl]

variable {s d p} in
/-- The wait of the job that waited for words has ended once some have come. -/
theorem State.fillRing_ends_wait {c : CordCfg} {ws : List Word} {n sub t0 : Nat} (hn : 0 < n)
    (h : (s.port d p).waiter = some (sub, t0)) :
    s.waitCounted d p (s.fillRing d p c ws n) ∧
      ∀ y ∈ (s.fillRing d p c ws n).jobs, y.sub = sub → y.ringWait = false := by
  obtain ⟨hport, hregs, hjobs, htime⟩ := s.putWords_agrees d p c ws n
  rw [s.fillRing_pos d p c ws hn]
  generalize (s.putWords c (s.port d p) ws n).setPort d p ((s.port d p).filled n) = t at *
  have hw : (t.port d p).waiter = some (sub, t0) := by rw [hport]; exact h
  constructor
  · have hreg (k : Nat) : t.reg k = s.reg k := by rw [State.reg, hregs]; rfl
    have hcounted := State.waitCounted_ringResume hw
    simpa only [State.waitCounted, hreg, htime, hport, DataPort.filled] using hcounted
  · rw [t.jobs_ringResume d p hw]
    intro y hy hsub
    obtain ⟨j, -, rfl⟩ := List.mem_map.1 hy
    split at hsub <;> simp_all

/-- DP_DATA_WRITE on an inbound port (R82, R84). -/
theorem dpDataWrite_inbound {s : State} {d p : Nat} {c : CordCfg} (hp : p < 16) (hu : portOk d p = true)
    (hopen : s.reaches d p) (hc : s.cordCfg (s.port d p).cord = some c) (hin : (s.port d p).outbound = false)
    (hue : s.dramUe = []) (ws : List Word) :
    let x := s.port d p
    let n := min ws.length (x.size - x.held)
    let key := regKey d (0x1000C + p * 256)
    Completes (exec (.dpDataWrite d p ws) s) fun t =>
      t.port d p = { x.filled n with waiter := if n = 0 then x.waiter else none } ∧
      t.dram = (s.putWords c x ws n).dram ∧
      t.reg key = .ofNat 32 (min ((s.reg key).toNat + (ws.length - n)) 0xFFFFFFFF) ∧
      (∀ sub t0, 0 < n → x.waiter = some (sub, t0) →
        s.waitCounted d p t ∧ ∀ y ∈ t.jobs, y.sub = sub → y.ringWait = false) := by
  intro x n key
  refine ⟨_, (exec_dpDataWrite s d p hu ws).trans (congrArg _ (State.portWrite_inbound hopen hc hin hue ws)), ?_⟩
  have hkey : key = _ := overrunKey_eq d hp
  have hstall := stallKey_eq d hp
  refine ⟨?_, ?_, ?_, fun sub t0 hn hw => ?_⟩
  · rw [State.overrun_port, State.port_fillRing]
  · rw [State.overrun_dram, State.fillRing_dram]
  · rw [State.reg_overrun, State.reg_fillRing_of_ne _ _ _ _ _ _ (by omega) (by omega)]
  · obtain ⟨hcounted, hjobs⟩ := State.fillRing_ends_wait (c := c) (ws := ws) hn hw
    refine ⟨?_, by simpa only [State.overrun_jobs] using hjobs⟩
    unfold State.waitCounted
    rwa [State.reg_overrun_of_ne _ _ _ _ (by omega), State.reg_overrun_of_ne _ _ _ _ (by omega)]

end Sys2Proof.Machine
end

section
/-! PROOF. The wait of a COPY job on a ring and its report (R83), and the reset of time synchronisation (R91). -/

namespace Sys2Proof.Machine

/-! ### The wait of a COPY job, and its report (R83) -/

section
variable {s : State} {d p : Nat}

theorem exec_outboundRingResume (s : State) (d p : Nat) :
    exec (.outboundRingResume d p) s = execOutboundRingResume d p s := rfl

theorem exec_outboundRingResume_none (hu : portOk d p = true)
    (h : (s.port d p).outbound = false ∨ (s.port d p).size ≤ (s.port d p).held ∨ (s.port d p).waiter = none) :
    exec (.outboundRingResume d p) s = .next s := by
  rw [exec_outboundRingResume, execOutboundRingResume, hu, withUnit_true]
  dsimp only
  split
  · next hroom =>
    obtain ⟨hout, hheld⟩ := hroom
    have hw : (s.port d p).waiter = none := by
      rcases h with h | h | h
      · simp [hout] at h
      · omega
      · exact h
    rw [hw]
  · rfl

/-- A job without output to move does not touch a ring. -/
theorem State.drainOut_of_nothing {sub : Nat} {j : Job} (hj : s.job? sub = some j) (hout : j.intake.out = [])
    (hlast : j.intake.last = false) : s.drainOut sub = s := by
  unfold State.drainOut
  rw [hj]
  dsimp only
  split
  · rfl
  · split
    · rfl
    · simp [hout, hlast]

/-- The COPY job that waited on a ring with room goes on (R83). -/
theorem exec_outboundRingResume_copy (hu : portOk d p = true) {sub t0 : Nat} {j : Job}
    (hout : (s.port d p).outbound = true) (hroom : (s.port d p).held < (s.port d p).size)
    (hw : (s.port d p).waiter = some (sub, t0)) (hj : s.job? sub = some j) (hkind : j.kind = 8)
    (hnone : j.intake.out = []) (hlast : j.intake.last = false) :
    exec (.outboundRingResume d p) s = .next (s.ringResume d p) ∧
      (s.ringResume d p).job? sub = some { j with ringWait := false } := by
  have hjob : (s.ringResume d p).job? sub = some { j with ringWait := false } := by
    have hmod := s.job?_modJob sub (f := fun j => { j with ringWait := false }) fun _ => rfl
    rw [hj] at hmod
    rw [State.job?, s.jobs_ringResume d p hw]
    exact hmod
  refine ⟨?_, hjob⟩
  have hdrain : (s.ringResume d p).drainOut sub = s.ringResume d p := State.drainOut_of_nothing hjob hnone hlast
  rw [exec_outboundRingResume, execOutboundRingResume, hu, withUnit_true]
  dsimp only
  rw [if_pos ⟨hout, hroom⟩, hw]
  dsimp only
  rw [hdrain, hjob, Option.bind_some]
  cases (s.ringResume d p).cordCfg j.cord with
  | none => rfl
  | some c => simp [hkind]

theorem exec_dataPortStall (s : State) (d p : Nat) : exec (.dataPortStall d p) s = execDataPortStall d p s := rfl

/-- A job has waited on port p's full ring for more than 1 ms, and no stall has been reported since `DP_STALL_US` was
last read. -/
def State.stalls (s : State) (d p : Nat) : Prop :=
  (s.port d p).outbound = true ∧ ((s.port d p).waiter.any fun w => decide (w.2 + 1000000 < s.time)) = true ∧
    (!(s.port d p).stallSent) = true

theorem State.not_stalls (h : (s.port d p).outbound = false ∨ (s.port d p).stallSent = true ∨
    ∀ w, (s.port d p).waiter = some w → s.time ≤ w.2 + 1000000) : ¬ s.stalls d p := by
  rintro ⟨hout, hlong, hsent⟩
  rcases h with h | h | h
  · simp [hout] at h
  · simp [h] at hsent
  · cases hw : (s.port d p).waiter with
    | none => simp [hw] at hlong
    | some w =>
      rw [hw, Option.any_some, decide_eq_true_iff] at hlong
      exact absurd (h w hw) (Nat.not_le.2 hlong)

theorem State.stalls_of_waiter {w : Nat × Nat} (hout : (s.port d p).outbound = true)
    (hw : (s.port d p).waiter = some w) (hlong : w.2 + 1000000 < s.time) (hsent : (s.port d p).stallSent = false) :
    s.stalls d p := by
  refine ⟨hout, ?_, by rw [hsent]; rfl⟩
  rw [hw, Option.any_some, decide_eq_true_iff]
  exact hlong

theorem exec_dataPortStall_of_not_stalls (hu : portOk d p = true) (h : ¬ s.stalls d p) :
    exec (.dataPortStall d p) s = .next s := by
  rw [exec_dataPortStall, execDataPortStall, hu, withUnit_true]
  exact congrArg _ (if_neg h)

theorem exec_dataPortStall_of_stalls (hu : portOk d p = true) (h : s.stalls d p) :
    exec (.dataPortStall d p) s =
      .next ((s.setPort d p { s.port d p with stallSent := true }).event d 0x0102 1 p) := by
  rw [exec_dataPortStall, execDataPortStall, hu, withUnit_true]
  exact congrArg _ (if_pos h)

end

variable (s : State) (d p : Nat)

/-- An event leaves data ports as they are. -/
theorem State.event_ports (code block arg e : Nat) :
    ((s.event d code block arg).host e).ports = (s.host e).ports := by
  by_cases he : e = d
  · subst he
    unfold State.event
    generalize regKey e 0x1010 = key
    dsimp only
    split
    · rw [State.bump_host, State.host_setHost_same]
    · rw [State.host_setHost_same]
  · rw [s.event_other d e code block arg he]

@[simp] theorem State.event_port (e code block arg f q : Nat) :
    (s.event e code block arg).port f q = s.port f q := by
  rw [State.port, State.port, State.event_ports]

/-- A port's update leaves the events of its domain as they are. -/
@[simp] theorem State.setPort_events (x : DataPort) : ((s.setPort d p x).host d).events = (s.host d).events := by
  simp [State.setPort]

/-! ### TSYNC_RESET (R91) -/

theorem exec_tsyncReset (h : s.mayWrite d 0x1018) : exec (.tsyncReset d) s = .next (s.tsyncClear d) := by
  obtain ⟨hu, hl, hs⟩ := h
  change execTsyncReset d s = _
  rw [execTsyncReset, hu, withUnit_true, State.hostWrite, if_pos (by simp [hl, hs])]
  rfl

end Sys2Proof.Machine
end

section
/-! PROOF. Words that a host brings to a control register of the device or to a Hearth store, and their aliases
(R5, R73, R438, R505). -/

namespace Sys2Proof.Machine

/-! ### Writes of a register or of a Hearth store word, and their aliases (R5, R438) -/

/-- The command by which domain d brings a word to an address in one of the three ways. -/
def mergeCommand (d : Nat) (addr w : Word) : Merge → Instr
  | .write => .registerWrite d addr w
  | .or => .setAliasWrite d addr w
  | .andNot => .clearAliasWrite d addr w

theorem exists_mergeCommand {d : Nat} {addr w old v : Word} {i : Instr}
    (h : (i = .registerWrite d addr w ∧ v = w) ∨ (i = .setAliasWrite d addr w ∧ v = old ||| w) ∨
      (i = .clearAliasWrite d addr w ∧ v = old &&& ~~~w)) :
    ∃ m, i = mergeCommand d addr w m ∧ v = m.apply old w := by
  rcases h with h | h | h
  · exact ⟨.write, h⟩
  · exact ⟨.or, h⟩
  · exact ⟨.andNot, h⟩

variable {s : State} {d : Nat} {addr w : Word}

/-- What a word brought to an address does: a write is performed at any address of the view, and the other rows name
addresses below the aliases alone. -/
theorem exec_mergeCommand (hu : hostOk d = true) (m : Merge) :
    exec (mergeCommand d addr w m) s = .next
      (if (m = .write ∨ addr.toNat < 0x10000000) ∧ s.mayAccess d addr.toNat true = true then
        (s.writeWord d addr.toNat m w).1 else s) := by
  cases m
  · change execRegisterWrite d addr w s = _
    rw [execRegisterWrite, hu, withUnit_true, State.hostStore]
    simp
  · change execSetAliasWrite d addr w s = _
    rw [execSetAliasWrite, hu, withUnit_true, State.aliasWrite]
    simp
  · change execClearAliasWrite d addr w s = _
    rw [execClearAliasWrite, hu, withUnit_true, State.aliasWrite]
    simp

theorem exec_mergeCommand_of_unseen (hu : hostOk d = true) (h : s.mayAccess d addr.toNat true = false) (m : Merge) :
    exec (mergeCommand d addr w m) s = .next s := by
  rw [exec_mergeCommand hu, if_neg fun hc => by simp [h] at hc]

theorem exec_mergeCommand_of_alias (hu : hostOk d = true) (ha : 0x10000000 ≤ addr.toNat) {m : Merge}
    (hm : m ≠ .write) : exec (mergeCommand d addr w m) s = .next s := by
  rw [exec_mergeCommand hu, if_neg fun hc => hc.1.elim hm (Nat.not_lt.2 ha)]

theorem exec_mergeCommand_of_seen (hu : hostOk d = true) (ha : addr.toNat < 0x10000000)
    (h : s.mayAccess d addr.toNat true = true) (m : Merge) :
    exec (mergeCommand d addr w m) s = .next (s.writeWord d addr.toNat m w).1 := by
  rw [exec_mergeCommand hu, if_pos ⟨.inr ha, h⟩]

/-! ### Addresses below the aliases -/

theorem plainAddr_of_lt {a : Nat} (ha : a < 0x10000000) : plainAddr a = a := if_neg (by omega)

theorem aliasMerge_of_lt {a : Nat} (ha : a < 0x10000000) (m : Merge) : aliasMerge a m = m := by
  rw [aliasMerge, if_neg (by omega), if_neg (by omega)]

theorem storeSlot_of_lt {a : Nat} (ha : a < 0x4000000) : storeSlot a = none := if_neg (by omega)

theorem dataPortOf_eq_none {a : Nat} (ha : a < 0x10000 ∨ 0x11000 ≤ a ∨ a % 256 ≠ 0) : dataPortOf a = none :=
  if_neg (by omega)

/-! ### A word of a Hearth store (R73, R439) -/

@[simp] theorem State.touch_hearths (s : State) (h a n : Nat) : (s.touch h a n).hearths = s.hearths := by
  unfold State.touch
  dsimp only
  split <;> simp

@[simp] theorem State.touch_dram (s : State) (h a n : Nat) : (s.touch h a n).dram = s.dram := by
  unfold State.touch
  dsimp only
  split <;> simp

@[simp] theorem State.touch_hearth (s : State) (h a n g : Nat) : (s.touch h a n).hearth g = s.hearth g := by
  rw [State.hearth, State.touch_hearths]; rfl

/-- Without an uncorrectable word a write to a store puts its bytes there. -/
theorem State.storeWrite_of_no_ue {g o : Nat} (hue : (s.hearth g).storeUe = []) (bs : List Byte) :
    s.storeWrite g o bs =
      ((s.touch g o bs.length).setHearth g ((s.hearth g).write o bs), 0) := by
  rw [State.storeWrite, State.touch_hearth, if_neg (by simp [Hearth.partUe, hue])]

theorem exec_storeWord (hu : hostOk d = true) (ha : addr.toNat < 0x10000000)
    (hm : s.mayAccess d addr.toNat true = true) {g o : Nat} (hslot : storeSlot addr.toNat = some (g, o))
    (hue : (s.hearth g).storeUe = []) (m : Merge) :
    Completes (exec (mergeCommand d addr w m) s) fun t =>
      (t.hearth g).store = (s.hearth g).store.putList zeroByte o
        (natLe (m.apply (.ofNat 32 ((s.hearth g).store.readLe o 4)) w).toNat 4) ∧
      (∀ x, x ≠ g → t.hearth x = s.hearth x) ∧ t.dram = s.dram := by
  refine ⟨_, exec_mergeCommand_of_seen hu ha hm m, ?_⟩
  rw [State.writeWord, plainAddr_of_lt ha, aliasMerge_of_lt ha]
  dsimp only
  rw [hslot]
  dsimp only
  rw [State.storeWrite_of_no_ue hue]
  refine ⟨?_, fun x hx => ?_, ?_⟩
  · rw [State.hearth_setHearth_same]; rfl
  · rw [State.hearth_setHearth, if_neg hx, State.touch_hearth]
  · rw [State.setHearth_dram, State.touch_dram]

/-! ### Control registers of the device (R438, R505) -/

theorem State.writeWord_register {a : Nat} (ha : a < 0x4000000) (hp : dataPortOf a = none) (m : Merge) :
    s.writeWord d a m w = (s.writeReg d a m w, 0) := by
  have hlt : a < 0x10000000 := by omega
  rw [State.writeWord, plainAddr_of_lt hlt, aliasMerge_of_lt hlt]
  dsimp only
  rw [storeSlot_of_lt ha]
  dsimp only
  rw [if_neg (by omega), hp]

/-- The addresses of `LAY_DRAIN_TIMEOUT`, `FLT_CTRL` and `MEM_CTRL`. -/
def ctrlReg (a : Nat) : Prop := a = 0x200018 ∨ a = 0x280004 ∨ a = 0x2A0004

/-- The bits of a word that a register takes. -/
def rwBits (a : Nat) : Word := .ofNat 32 (rwMask a)

theorem State.peek_ctrlReg {a : Nat} (ha : ctrlReg a) : s.peek d a = s.reg a := by
  rcases ha with rfl | rfl | rfl <;>
    simp [State.peek, State.wide, State.isHi, State.layRead, State.fltRead, State.memRead]

theorem State.regWrite_ctrlReg {a : Nat} (ha : ctrlReg a) : s.regWrite d a w = s.setReg a (w &&& rwBits a) := by
  rcases ha with rfl | rfl | rfl
  · rw [show rwBits 0x200018 = BitVec.allOnes 32 from rfl, BitVec.and_allOnes]; rfl
  · rfl
  · rfl

/-- A control register takes the RW bits of the word, of its OR or of its AND-NOT with the old one (R438). -/
theorem State.writeReg_ctrlReg {a : Nat} (ha : ctrlReg a) (m : Merge) :
    s.writeReg d a m w = s.loggedWrite d a (m.apply (s.reg a) w) fun t =>
      t.setReg a (m.apply (s.reg a) w &&& rwBits a) := by
  have hmask : rwMask a ≠ 0 := by rcases ha with rfl | rfl | rfl <;> decide
  have hbits (v : Word) : v &&& rwBits a &&& rwBits a = v &&& rwBits a := by rw [BitVec.and_assoc, BitVec.and_self]
  have halias (v : Word) : (fun t : State => if rwMask a = 0 then t else t.regWrite d a (v &&& .ofNat 32 (rwMask a))) =
      fun t => t.setReg a (v &&& rwBits a) := by
    funext t
    rw [if_neg hmask, State.regWrite_ctrlReg ha, ← rwBits, hbits]
  cases m
  · simp only [State.writeReg, State.regWrite_ctrlReg ha, Merge.apply]
  · exact (congrArg (s.loggedWrite d a _) (halias _)).trans (by rw [State.peek_ctrlReg ha])
  · exact (congrArg (s.loggedWrite d a _) (halias _)).trans (by rw [State.peek_ctrlReg ha])

theorem State.loggedWrite_drainTimeout (v : Word) (body : State → State) :
    s.loggedWrite d 0x200018 v body = body s := rfl

/-- The word that a control register takes is logged before it takes effect (R505). -/
theorem State.loggedWrite_ctrlReg {a : Nat} (ha : a = 0x280004 ∨ a = 0x2A0004) (v : Word) :
    (s.loggedWrite d a v fun t => t.setReg a (v &&& rwBits a)) =
      (s.logChange d 0x101 a (s.reg a).toNat v.toNat).setReg a (v &&& rwBits a) := by
  have hlogged :
      (loggedReg a && (decide (0x200000 ≤ a) || s.offShown ((a - 0x100000) / 65536) (a % 65536))) = true := by
    rcases ha with rfl | rfl <;> rfl
  have hnew : (v &&& rwBits a &&& rwBits a) ||| (v &&& ~~~rwBits a) = v := by
    rw [BitVec.and_assoc, BitVec.and_self, ← BitVec.and_or_distrib_left, BitVec.or_not_self, BitVec.and_allOnes]
  rw [State.loggedWrite, if_pos hlogged, State.logWrite, State.peek_ctrlReg (.inr ha), State.peek_ctrlReg (.inr ha),
    State.reg_setReg_same, ← rwBits, hnew]
  rfl

theorem ctrlReg_bounds {a : Nat} (ha : ctrlReg a) : 0x200000 ≤ a ∧ a < 0x4000000 := by
  rcases ha with rfl | rfl | rfl <;> decide

theorem exec_ctrlReg (hu : hostOk d = true) (ha : ctrlReg addr.toNat) (hm : s.mayAccess d addr.toNat true = true)
    (m : Merge) : exec (mergeCommand d addr w m) s = .next (s.writeReg d addr.toNat m w) := by
  obtain ⟨hlo, hhi⟩ := ctrlReg_bounds ha
  rw [exec_mergeCommand_of_seen hu (by omega) hm, State.writeWord_register hhi (dataPortOf_eq_none (by omega))]

/-- A write of `LAY_DRAIN_TIMEOUT` changes that register alone. -/
theorem exec_drainTimeout (hu : hostOk d = true) (ha : addr.toNat = 0x200018)
    (hm : s.mayAccess d addr.toNat true = true) (m : Merge) :
    exec (mergeCommand d addr w m) s = .next (s.setReg addr.toNat (m.apply (s.reg addr.toNat) w)) := by
  rw [exec_ctrlReg hu (.inl ha) hm, State.writeReg_ctrlReg (.inl ha), ha, State.loggedWrite_drainTimeout,
    show rwBits 0x200018 = BitVec.allOnes 32 from rfl, BitVec.and_allOnes]

/-- A write of `FLT_CTRL` or `MEM_CTRL` is logged and takes its two RW bits. -/
theorem exec_loggedCtrl (hu : hostOk d = true) (ha : addr.toNat = 0x280004 ∨ addr.toNat = 0x2A0004)
    (hm : s.mayAccess d addr.toNat true = true) (m : Merge) :
    exec (mergeCommand d addr w m) s = .next
      ((s.logChange d 0x101 addr.toNat (s.reg addr.toNat).toNat (m.apply (s.reg addr.toNat) w).toNat).setReg
        addr.toNat (m.apply (s.reg addr.toNat) w &&& 3)) := by
  have hbits : rwBits addr.toNat = 3 := by rcases ha with h | h <;> rw [h] <;> rfl
  rw [exec_ctrlReg hu (.inr ha) hm, State.writeReg_ctrlReg (.inr ha), State.loggedWrite_ctrlReg ha, hbits]

end Sys2Proof.Machine
end

section
/-! PROOF. RC registers read what their keys hold and 64-bit registers read in halves: READ_CLEAR and LO_READ (R5, R9,
R513). -/

namespace Sys2Proof.Machine

/-! ### Where the RC and the 64-bit registers lie (R5, R513) -/

/-- The RC registers of the device, outside the Cord blocks and the data ports. -/
def deviceRc (a : Nat) : Prop :=
  (0x1010 ≤ a ∧ a ≤ 0x1014) ∨ (0x210000 ≤ a ∧ a ≤ 0x210004) ∨ (0x220000 ≤ a ∧ a ≤ 0x220008) ∨
  (0x240000 ≤ a ∧ a ≤ 0x240008) ∨ (0x250004 ≤ a ∧ a ≤ 0x250010) ∨ (0x26000C ≤ a ∧ a ≤ 0x260024) ∨
  (0x270024 ≤ a ∧ a ≤ 0x270038) ∨ (0x280048 ≤ a ∧ a ≤ 0x280050) ∨ a = 0x29001C ∨ (0x2A0010 ≤ a ∧ a ≤ 0x2A0024)

/-- The RC registers that are counters of a Cord, those of its panel ports and those of its Hearths. -/
def cordCountRc (o : Nat) : Prop :=
  o = 0x28 ∨ (0x38 ≤ o ∧ o ≤ 0x40) ∨ o = 0x64 ∨ (0x7004 ≤ o ∧ o ≤ 0x7024) ∨ (0xC00C ≤ o ∧ o ≤ 0xC020) ∨ o = 0xD018 ∨
  (0xD020 ≤ o ∧ o ≤ 0xD03C) ∨ (0xE004 ≤ o ∧ o ≤ 0xE01C) ∨ (0xF004 ≤ o ∧ o ≤ 0xF024)
def panelRc (o : Nat) : Prop := 0x6000 ≤ o ∧ o < 0x7000 ∧ 0x3C ≤ o % 0x800 ∧ o % 0x800 ≤ 0x48
def hearthRc (o : Nat) : Prop :=
  (0x8000 ≤ o ∧ o < 0x8C00 ∧ o % 16 ≠ 0) ∨ (0x9000 ≤ o ∧ o < 0x9600 ∧ 4 ≤ o % 32 ∧ o % 32 ≤ 0x18) ∨
  (0xA000 ≤ o ∧ o < 0xA600 ∧ o % 32 ≠ 0) ∨ (0xB000 ≤ o ∧ o < 0xBC00 ∧ 8 ≤ o % 32 ∧ o % 32 ≤ 0x1C)

theorem cordRc_cases {o : Nat} (h : cordRc o = true) : panelRc o ∨ hearthRc o ∨ cordCountRc o := by
  unfold cordRc at h
  dsimp only at h
  by_cases hpanel : 0x6000 ≤ o ∧ o < 0x7000
  · simp only [if_pos hpanel, Bool.and_eq_true, decide_eq_true_eq] at h
    exact .inl ⟨hpanel.1, hpanel.2, h⟩
  by_cases hkiln : 0x8000 ≤ o ∧ o < 0x8C00
  · simp only [if_neg hpanel, if_pos hkiln, bne_iff_ne] at h
    exact .inr (.inl (.inl ⟨hkiln.1, hkiln.2, h⟩))
  by_cases hquench : 0x9000 ≤ o ∧ o < 0x9600
  · simp only [if_neg hpanel, if_neg hkiln, if_pos hquench, Bool.and_eq_true, decide_eq_true_eq] at h
    exact .inr (.inl (.inr (.inl ⟨hquench.1, hquench.2, h⟩)))
  by_cases hwin : 0xA000 ≤ o ∧ o < 0xA600
  · simp only [if_neg hpanel, if_neg hkiln, if_neg hquench, if_pos hwin, bne_iff_ne] at h
    exact .inr (.inl (.inr (.inr (.inl ⟨hwin.1, hwin.2, h⟩))))
  by_cases hcore : 0xB000 ≤ o ∧ o < 0xBC00
  · simp only [if_neg hpanel, if_neg hkiln, if_neg hquench, if_neg hwin, if_pos hcore, Bool.and_eq_true,
      decide_eq_true_eq] at h
    exact .inr (.inl (.inr (.inr (.inr ⟨hcore.1, hcore.2, h⟩))))
  · simp only [if_neg hpanel, if_neg hkiln, if_neg hquench, if_neg hwin, if_neg hcore, Bool.and_eq_true,
      Bool.or_eq_true, decide_eq_true_eq, beq_iff_eq, or_assoc] at h
    exact .inr (.inr h)

theorem rcReg_cases {a : Nat} (h : rcReg a = true) :
    (0x10000 ≤ a ∧ a < 0x11000 ∧ (a % 256 = 0x0C ∨ a % 256 = 0x10)) ∨
    (0x100000 ≤ a ∧ a < 0x200000 ∧ cordRc (a % 65536) = true) ∨ deviceRc a := by
  unfold rcReg at h
  dsimp only at h
  by_cases hport : 0x10000 ≤ a ∧ a < 0x11000
  · simp only [if_pos hport, Bool.or_eq_true, beq_iff_eq] at h
    exact .inl ⟨hport.1, hport.2, h⟩
  by_cases hcord : 0x100000 ≤ a ∧ a < 0x200000
  · rw [if_neg hport, if_pos hcord] at h
    exact .inr (.inl ⟨hcord.1, hcord.2, h⟩)
  · simp only [if_neg hport, if_neg hcord, Bool.and_eq_true, Bool.or_eq_true, decide_eq_true_eq, beq_iff_eq,
      or_assoc] at h
    exact .inr (.inr h)

/-- The addresses of the `_LO` halves of 64-bit registers. -/
def wideAddr (a : Nat) : Prop :=
  a = 0x200C ∨ a = 0x2020 ∨ a = 0x200020 ∨ a = 0x1020 ∨ a = 0x102C ∨
  (0x10000 ≤ a ∧ a < 0x11000 ∧ a % 256 = 0x18) ∨
  (0x100000 ≤ a ∧ a < 0x200000 ∧ (a % 65536 = 0x48 ∨ a % 65536 = 0x50 ∨ a % 65536 = 0x58)) ∨
  (0x210100 ≤ a ∧ a < 0x210180 ∧ a % 8 = 0 ∧ a % 32 < 24)

variable (s : State) (d : Nat)

theorem State.wide_eq_none {a : Nat} (h : ¬ wideAddr a) : s.wide d a = none := by
  unfold wideAddr at h
  unfold State.wide
  dsimp only
  rw [if_neg (by omega), if_neg (by omega), if_neg (by omega), if_neg (by omega), if_neg (by omega)]
  by_cases hcord : 0x100000 ≤ a ∧ a < 0x200000
  · rw [if_pos hcord, if_neg (by omega), if_neg (by omega), if_neg (by omega)]
  · rw [if_neg hcord, if_neg (by omega)]

theorem State.wideAddr_of_wide {a v : Nat} (h : s.wide d a = some v) : wideAddr a := by
  by_contra hn
  rw [s.wide_eq_none d hn] at h
  cases h

theorem State.isHi_eq_false {a : Nat} (h : ¬ wideAddr (a - 4)) : s.isHi d a = false := by
  rw [State.isHi, s.wide_eq_none d h, Option.isSome_none, Bool.and_false]

/-- A `_LO` half lies below the stores, is no DP_DATA, no DP_STALL_US and no `HIST_HELD_US`, and its `_HI` half is no
`_LO`. -/
theorem wideAddr_facts {a : Nat} (h : wideAddr a) :
    a < 0x4000000 ∧ (a < 0x10000 ∨ 0x11000 ≤ a ∨ a % 256 = 0x18) ∧
      (a < 0x100000 ∨ 0x200000 ≤ a ∨ a % 65536 < 0x59) ∧ ¬ wideAddr (a + 4) := by
  unfold wideAddr at h ⊢
  omega

/-- No half of a 64-bit register is an RC register. -/
theorem rcReg_apart_from_wide {a : Nat} (h : rcReg a = true) :
    ¬ wideAddr a ∧ (a % 4 = 0 → ¬ wideAddr (a - 4)) := by
  unfold wideAddr
  rcases rcReg_cases h with hport | ⟨hlo, hhi, hcord⟩ | hdev
  · omega
  · rcases cordRc_cases hcord with hpanel | hhearth | hcount
    · unfold panelRc at hpanel; omega
    · unfold hearthRc at hhearth; omega
    · unfold cordCountRc at hcount; omega
  · unfold deviceRc at hdev; omega

theorem word_ofNat_toNat (w : Word) : BitVec.ofNat 32 w.toNat = w := by rw [BitVec.ofNat_toNat, BitVec.setWidth_eq]

/-! ### RC registers read what their keys hold (R5) -/

section
variable {n o : Nat}

theorem regKey_cord_block (hn : n < 16) (ho : o < 65536)
    (hblock : (0x8000 ≤ o ∧ o < 0xC000) ∨ (0x6000 ≤ o ∧ o < 0x7000)) : regKey d (cordAddr n o) = hKey o := by
  have hmod : cordAddr n o % 65536 = o := by unfold cordAddr; omega
  rw [regKey, hmod, if_neg (by unfold cordAddr; omega), if_pos (by unfold cordAddr; omega), hKey]

theorem regKey_cord_plain (hn : n < 16) (ho : o < 65536)
    (hblock : (o < 0x8000 ∨ 0xC000 ≤ o) ∧ (o < 0x6000 ∨ 0x7000 ≤ o)) : regKey d (cordAddr n o) = cordAddr n o := by
  have hmod : cordAddr n o % 65536 = o := by unfold cordAddr; omega
  rw [regKey, hmod, if_neg (by unfold cordAddr; omega), if_neg (by omega)]

theorem State.panelRead_rc (h : panelRc o) :
    s.panelRead ((o - 0x6000) / 0x800) (o % 0x800) = (s.reg (hKey o)).toNat := by
  unfold panelRc at h
  have hkey : 0x6000 + (o - 0x6000) / 0x800 * 0x800 + o % 0x800 = o := by omega
  rw [State.panelRead, hkey]
  rw [if_neg (by omega), if_neg (by omega), if_neg (by omega), if_neg (by omega), if_neg (by omega), if_neg (by omega)]

theorem State.hearthRegs_rc (h : hearthRc o) : s.hearthRegs o = (s.reg (hKey o)).toNat := by
  unfold State.hearthRegs
  rcases h with ⟨hlo, hhi, hin⟩ | ⟨hlo, hhi, hin, -⟩ | ⟨hlo, hhi, hin⟩ | ⟨hlo, hhi, hin, -⟩
  · rw [if_pos (by omega), if_neg (by omega)]
  · rw [if_neg (by omega), if_pos (by omega), if_neg (by omega)]
  · rw [if_neg (by omega), if_neg (by omega), if_pos (by omega), if_neg (by omega)]
  · rw [if_neg (by omega), if_neg (by omega), if_neg (by omega), if_neg (by omega), if_neg (by omega)]

theorem State.cordRead_count (h : cordCountRc o) (hs : s.offShown n o = true) :
    s.cordRead n o = (s.reg (cordAddr n o)).toNat := by
  unfold cordCountRc at h
  have hdead : o ≠ 0 ∧ o ≠ 0x00C ∧ o ≠ 0x014 ∧ o ≠ 0x020 ∧ o ≠ 0x030 ∧ o ≠ 0x034 ∧ o ≠ 0x044 ∧ o ≠ 0x060 ∧
      o ≠ 0x7000 ∧ o ≠ 0x7028 ∧ o ≠ 0x702C ∧ o ≠ 0xC024 ∧ o ≠ 0xD000 ∧ o ≠ 0xD00C ∧ o ≠ 0xD010 ∧ o ≠ 0xE000 ∧
      o ≠ 0xF000 := by omega
  have hpanel : ¬ (0x6000 ≤ o ∧ o < 0x7000) := by omega
  have hhearth : ¬ (0x8000 ≤ o ∧ o < 0xC000) := by omega
  simp only [State.cordRead, hs, hdead, hpanel, hhearth, if_false, Bool.not_true, Bool.false_eq_true]

/-- An RC register of a Cord block reads 0 where its unit is not shown, and else what its key holds (R510). -/
theorem State.cordRead_rc (hn : n < 16) (ho : o < 65536) (h : cordRc o = true) :
    s.cordRead n o = if s.offShown n o then (s.reg (regKey d (cordAddr n o))).toNat else 0 := by
  cases hs : s.offShown n o with
  | false => simp [State.cordRead, hs]
  | true =>
    rw [if_pos rfl]
    rcases cordRc_cases h with hpanel | hhearth | hcount
    · have hp := hpanel
      unfold panelRc at hp
      rw [regKey_cord_block d hn ho (by omega), ← s.panelRead_rc hpanel, State.cordRead, hs]
      dsimp only
      rw [if_neg (by decide), if_pos (by omega)]
    · have hp := hhearth
      unfold hearthRc at hp
      rw [regKey_cord_block d hn ho (by omega), ← s.hearthRegs_rc hhearth, State.cordRead, hs]
      dsimp only
      rw [if_neg (by decide), if_neg (by omega), if_pos (by omega)]
    · have hp := hcount
      unfold cordCountRc at hp
      rw [regKey_cord_plain d hn ho (by omega), s.cordRead_count hcount hs]

end

/-! Below the counters of the device blocks no unit's state stands: they read what their keys hold. -/

theorem State.hostRead_count {o : Nat} (h : 0x10 ≤ o ∧ o ≤ 0x14) :
    s.hostRead d o = (s.reg (regKey d (0x1000 + o))).toNat := by
  unfold State.hostRead
  dsimp only
  rw [if_neg (by omega), if_neg (by omega), if_neg (by omega), if_neg (by omega), if_neg (by omega)]

theorem State.portRead_count {o : Nat} (h : o % 256 = 0x0C ∨ o % 256 = 0x10) :
    s.portRead d o = (s.reg (regKey d (0x10000 + o))).toNat := by
  unfold State.portRead
  dsimp only
  rw [if_neg (by omega), if_neg (by omega)]

theorem State.draughtRead_count {o : Nat} (h : 0x24 ≤ o ∧ o ≤ 0x38) :
    s.draughtRead o = (s.reg (0x270000 + o)).toNat := by
  unfold State.draughtRead
  dsimp only
  rw [if_neg (by omega), if_neg (by omega), if_neg (by omega), if_neg (by omega), if_neg (by omega), if_neg (by omega),
    if_neg (by omega), if_neg (by omega), if_neg (by omega), if_neg (by omega), if_neg (by omega), if_neg (by omega)]

theorem State.fltRead_count {o : Nat} (h : 0x48 ≤ o ∧ o ≤ 0x50) :
    s.fltRead o = (s.reg (0x280000 + o)).toNat := by
  unfold State.fltRead
  dsimp only
  rw [if_neg (by omega), if_neg (by omega), if_neg (by omega), if_neg (by omega), if_neg (by omega), if_neg (by omega),
    if_neg (by omega), if_neg (by omega), if_neg (by omega), if_neg (by omega), if_neg (by omega)]

theorem State.trustRead_count : s.trustRead 0x1C = (s.reg 0x29001C).toNat := by
  simp [State.trustRead]

theorem State.memRead_count {o : Nat} (h : 0x10 ≤ o ∧ o ≤ 0x24) :
    s.memRead o = (s.reg (0x2A0000 + o)).toNat := by
  unfold State.memRead
  dsimp only
  rw [if_neg (by omega), if_neg (by omega), if_neg (by omega), if_neg (by omega), if_neg (by omega), if_neg (by omega),
    if_neg (by omega), if_neg (by omega), if_neg (by omega)]

/-! What a read gives in the blocks that hold RC registers, the 64-bit registers apart. -/

section
variable {s d} {a : Nat} (hw : s.wide d a = none) (hh : s.isHi d a = false)
include hw hh

theorem State.peek_host (h1 : 0x1000 ≤ a) (h2 : a < 0x2000) : s.peek d a = .ofNat 32 (s.hostRead d (a - 0x1000)) := by
  rw [State.peek, hw, hh]
  dsimp only
  rw [if_neg Bool.false_ne_true, if_neg (by omega), if_pos h2]

theorem State.peek_port (h1 : 0x10000 ≤ a) (h2 : a < 0x11000) :
    s.peek d a = .ofNat 32 (s.portRead d (a - 0x10000)) := by
  rw [State.peek, hw, hh]
  dsimp only
  rw [if_neg Bool.false_ne_true, if_neg (by omega), if_neg (by omega), if_neg (by omega), if_neg (by omega), if_pos h2]

theorem State.peek_cord (h1 : 0x100000 ≤ a) (h2 : a < 0x200000) :
    s.peek d a = .ofNat 32 (s.cordRead ((a - 0x100000) / 65536) (a % 65536)) := by
  rw [State.peek, hw, hh]
  dsimp only
  rw [if_neg Bool.false_ne_true, if_neg (by omega), if_neg (by omega), if_neg (by omega), if_neg (by omega),
    if_neg (by omega), if_neg (by omega), if_pos h2]

theorem State.peek_device (h1 : 0x210000 ≤ a) (h2 : a < 0x2B0000)
    (h3 : a ≠ 0x210008 ∧ a ≠ 0x250000 ∧ a ≠ 0x260000 ∧ a ≠ 0x260004 ∧ a ≠ 0x260008) :
    s.peek d a = .ofNat 32
      (if a < 0x270000 then (s.reg a).toNat
       else if a < 0x280000 then s.draughtRead (a % 65536)
       else if a < 0x290000 then s.fltRead (a % 65536)
       else if a < 0x2A0000 then s.trustRead (a % 65536)
       else s.memRead (a % 65536)) := by
  rw [State.peek, hw, hh]
  dsimp only
  rw [if_neg Bool.false_ne_true, if_neg (by omega), if_neg (by omega), if_neg (by omega), if_neg (by omega),
    if_neg (by omega), if_neg (by omega), if_neg (by omega), if_neg (by omega), if_neg (by omega), if_neg (by omega),
    if_neg (by omega), if_neg (by omega), if_neg (by omega), if_pos h2]

/-- A device RC register reads what its key holds. -/
theorem State.peek_deviceRc (h : deviceRc a) : s.peek d a = s.reg (regKey d a) := by
  unfold deviceRc at h
  by_cases hhost : a < 0x2000
  · rw [State.peek_host hw hh (by omega) hhost, s.hostRead_count d (by omega), Nat.add_sub_cancel' (by omega),
      word_ofNat_toNat]
  have hkey : regKey d a = a := by rw [regKey, if_neg (by omega), if_neg (by omega)]
  rw [State.peek_device hw hh (by omega) (by omega) (by omega), hkey]
  by_cases hplain : a < 0x270000
  · rw [if_pos hplain, word_ofNat_toNat]
  by_cases hdrg : a < 0x280000
  · rw [if_neg hplain, if_pos hdrg, s.draughtRead_count (by omega), show 0x270000 + a % 65536 = a by omega,
      word_ofNat_toNat]
  by_cases hflt : a < 0x290000
  · rw [if_neg hplain, if_neg hdrg, if_pos hflt, s.fltRead_count (by omega), show 0x280000 + a % 65536 = a by omega,
      word_ofNat_toNat]
  by_cases htrust : a < 0x2A0000
  · obtain rfl : a = 0x29001C := by omega
    rw [if_neg hplain, if_neg hdrg, if_neg hflt, if_pos htrust, s.trustRead_count, word_ofNat_toNat]
  · rw [if_neg hplain, if_neg hdrg, if_neg hflt, if_neg htrust, s.memRead_count (by omega),
      show 0x2A0000 + a % 65536 = a by omega, word_ofNat_toNat]

end

theorem State.shown_outside_cords {a : Nat} (h : a < 0x100000 ∨ 0x200000 ≤ a) : s.shown a = true := if_neg (by omega)

theorem State.shown_cord {a : Nat} (h1 : 0x100000 ≤ a) (h2 : a < 0x200000) :
    s.shown a = s.offShown ((a - 0x100000) / 65536) (a % 65536) := if_pos ⟨h1, h2⟩

/-- An RC register reads 0 where its unit is not shown, and else what its key holds (R5, R510). -/
theorem State.peek_rcReg {a : Nat} (h : rcReg a = true) (ha : a % 4 = 0) :
    s.peek d a = if s.shown a then s.reg (regKey d a) else 0 := by
  have hw := s.wide_eq_none d (rcReg_apart_from_wide h).1
  have hh := s.isHi_eq_false d ((rcReg_apart_from_wide h).2 ha)
  rcases rcReg_cases h with ⟨hlo, hhi, hport⟩ | ⟨hlo, hhi, hcord⟩ | hdev
  · rw [State.peek_port hw hh hlo hhi, s.portRead_count d (by omega), Nat.add_sub_cancel' hlo, word_ofNat_toNat,
      s.shown_outside_cords (by omega), if_pos rfl]
  · have haddr : cordAddr ((a - 0x100000) / 65536) (a % 65536) = a := by unfold cordAddr; omega
    rw [State.peek_cord hw hh hlo hhi, s.cordRead_rc d (by omega) (by omega) hcord, haddr,
      s.shown_cord hlo hhi]
    split
    · exact word_ofNat_toNat _
    · rfl
  · have hout : a < 0x100000 ∨ 0x200000 ≤ a := by unfold deviceRc at hdev; omega
    rw [State.peek_deviceRc hw hh hdev, s.shown_outside_cords hout, if_pos rfl]

/-! ### READ_CLEAR and LO_READ (R5, R9, R513) -/

section
variable {s d} {addr : Word}

theorem exec_readClear (hu : hostOk d = true) : exec (.readClear d addr) s =
    .next (if rcReg (plainAddr addr.toNat) then s.hostLoad d addr.toNat else s) := by
  change execReadClear d addr s = _
  rw [execReadClear, hu, withUnit_true]

theorem exec_loRead (hu : hostOk d = true) : exec (.loRead d addr) s =
    .next (if (s.wide d (plainAddr addr.toNat)).isSome then s.hostLoad d addr.toNat else s) := by
  change execLoRead d addr s = _
  rw [execLoRead, hu, withUnit_true]

theorem State.hostLoad_of_unseen {a : Nat} (h : s.mayAccess d a false = false) : s.hostLoad d a = s := by
  rw [State.hostLoad, if_neg (by simp [h])]

/-- A read of a register below the stores that is no DP_DATA keeps the word for its domain. -/
theorem State.hostLoad_register {a : Nat} (hm : s.mayAccess d a false = true) (ha : a < 0x4000000)
    (hp : dataPortOf a = none) : s.hostLoad d a = (s.regRead d a).2.keepRead d [(s.regRead d a).1] := by
  rw [State.hostLoad, if_pos hm, State.readWord, plainAddr_of_lt (by omega)]
  dsimp only
  rw [storeSlot_of_lt ha]
  dsimp only
  rw [if_neg (by omega), hp]
  rfl

theorem State.aligned_of_mayAccess {a : Nat} {write : Bool} (h : s.mayAccess d a write = true) : a % 4 = 0 := by
  simp only [State.mayAccess, Bool.and_eq_true, beq_iff_eq] at h
  exact h.1.1.2

@[simp] theorem State.reg_keepRead (ws : List Word) (k : Nat) : (s.keepRead d ws).reg k = s.reg k := rfl

@[simp] theorem State.port_keepRead (ws : List Word) (p : Nat) : (s.keepRead d ws).port d p = s.port d p := by
  rw [State.port, State.keepRead, State.host_setHost_same]; rfl

theorem State.keepRead_rest (ws : List Word) : { s.keepRead d ws with hosts := s.hosts } = s := State.setHost_rest ..

theorem State.latchHi_keepRead_rest (a v : Nat) (ws : List Word) :
    { (s.latchHi d a v).keepRead d ws with hosts := s.hosts } = s :=
  State.hosts_rest_trans (State.setHost_rest s d _) (State.keepRead_rest ws)

@[simp] theorem State.lastRead_keepRead (ws : List Word) : ((s.keepRead d ws).host d).lastRead = ws := by
  rw [State.keepRead, State.host_setHost_same]

theorem rcReg_address {a : Nat} (h : rcReg a = true) :
    a < 0x4000000 ∧ (a < 0x10000 ∨ 0x11000 ≤ a ∨ a % 256 ≠ 0) := by
  rcases rcReg_cases h with hport | ⟨hlo, hhi, -⟩ | hdev
  · omega
  · omega
  · unfold deviceRc at hdev; omega

/-- READ_CLEAR keeps the word of an RC register that no wait runs into, and clears the register. -/
theorem exec_readClear_counter (hu : hostOk d = true) (hm : s.mayAccess d addr.toNat false = true)
    (hrc : rcReg addr.toNat = true) (hshown : s.shown addr.toNat = true)
    (hheld : ¬ (0x100000 ≤ addr.toNat ∧ addr.toNat < 0x200000 ∧ addr.toNat % 65536 = 0xC00C))
    (hstall : ¬ (0x10000 ≤ addr.toNat ∧ addr.toNat < 0x11000 ∧ addr.toNat % 256 = 0x10)) :
    exec (.readClear d addr) s =
      .next ((s.setReg (regKey d addr.toNat) 0).keepRead d [s.peek d addr.toNat]) := by
  obtain ⟨hlt, hport⟩ := rcReg_address hrc
  have hread : s.regRead d addr.toNat = (s.peek d addr.toNat, s.setReg (regKey d addr.toNat) 0) := by
    rw [State.regRead, if_neg (by simp [hshown]), if_neg hstall, if_neg hheld, if_pos hrc]
  rw [exec_readClear hu, plainAddr_of_lt (by omega), if_pos hrc,
    State.hostLoad_register hm hlt (dataPortOf_eq_none hport), hread]

/-- LO_READ keeps the low word of a 64-bit register and latches the high one. -/
theorem exec_loRead_wide (hu : hostOk d = true) (hm : s.mayAccess d addr.toNat false = true) {v : Nat}
    (hv : s.wide d addr.toNat = some v) (hshown : s.shown addr.toNat = true) :
    exec (.loRead d addr) s = .next ((s.latchHi d addr.toNat v).keepRead d [.ofNat 32 v]) := by
  have hwide := s.wideAddr_of_wide d hv
  obtain ⟨hlt, hport, hcord, -⟩ := wideAddr_facts hwide
  have hrc : rcReg addr.toNat = false := by
    by_contra h
    exact (rcReg_apart_from_wide (by simpa using h)).1 hwide
  have hpeek : s.peek d addr.toNat = .ofNat 32 v := by rw [State.peek, hv]
  have hread : s.regRead d addr.toNat = (.ofNat 32 v, s.latchHi d addr.toNat v) := by
    rw [State.regRead, if_neg (by simp [hshown]), if_neg (by omega), if_neg (by omega), if_neg (by simp [hrc]), hv,
      ← hpeek]
  rw [exec_loRead hu, plainAddr_of_lt (by omega), if_pos (by simp [hv]),
    State.hostLoad_register hm hlt (dataPortOf_eq_none (by omega)), hread]

/-- The 64-bit registers of a domain read the same where the states differ in other parts of the host ports alone. -/
theorem State.wide_eq_of_same {t : State} (hrest : { t with hosts := s.hosts } = s)
    (hoffset : (t.host d).offset = (s.host d).offset) (href : (t.host d).refHost = (s.host d).refHost)
    (hports : (t.host d).ports = (s.host d).ports) (a : Nat) : t.wide d a = s.wide d a := by
  have htime : t.time = s.time := (congrArg State.time hrest :)
  have hlay : t.layShown = s.layShown := (congrArg State.layShown hrest :)
  have hcounts : t.hostCounts = s.hostCounts := (congrArg State.hostCounts hrest :)
  have hcord (n : Nat) : t.cordRt n = s.cordRt n := (congrArg (State.cordRt · n) hrest :)
  have hport (p : Nat) : t.port d p = s.port d p := by rw [State.port, State.port, hports]
  simp only [State.wide, htime, hlay, hcounts, hcord, hport, hoffset, href]

theorem State.host_latchHi_keepRead (a v : Nat) (ws : List Word) :
    ((s.latchHi d a v).keepRead d ws).host d = { s.host d with
      latches := (s.host d).latches.put (fun _ => 0) a (.ofNat 32 (v / 2 ^ 32)), lastRead := ws } := by
  rw [State.keepRead, State.latchHi, State.host_setHost_same, State.host_setHost_same]

theorem State.wide_latchHi_keepRead (a v b : Nat) (ws : List Word) :
    ((s.latchHi d a v).keepRead d ws).wide d b = s.wide d b := by
  have hhost := State.host_latchHi_keepRead (s := s) (d := d) a v ws
  apply State.wide_eq_of_same (State.latchHi_keepRead_rest a v ws) <;> rw [hhost]

/-- The `_HI` half reads what the `_LO` read has latched (R513). -/
theorem State.peek_hi {a v : Nat} (hv : s.wide d a = some v) :
    s.peek d (a + 4) = (s.host d).latches.look (fun _ => 0) a := by
  obtain ⟨-, -, -, hnext⟩ := wideAddr_facts (s.wideAddr_of_wide d hv)
  have hhi : s.isHi d (a + 4) = true := by simp [State.isHi, hv]
  rw [State.peek, s.wide_eq_none d hnext]
  dsimp only
  rw [if_pos hhi, Nat.add_sub_cancel, word_ofNat_toNat]

/-- LO_READ keeps the low word of a 64-bit register, and its `_HI` then reads the high one. -/
theorem loRead_latches (hu : hostOk d = true) (hm : s.mayAccess d addr.toNat false = true) {v : Nat}
    (hv : s.wide d addr.toNat = some v) (hshown : s.shown addr.toNat = true) :
    Completes (exec (.loRead d addr) s) fun t =>
      (t.host d).lastRead = [.ofNat 32 v] ∧ t.peek d (addr.toNat + 4) = .ofNat 32 (v / 2 ^ 32) ∧
      t.wide d addr.toNat = some v ∧ { t with hosts := s.hosts } = s := by
  refine ⟨_, exec_loRead_wide hu hm hv hshown, ?_⟩
  have hhost := State.host_latchHi_keepRead (s := s) (d := d) addr.toNat v [.ofNat 32 v]
  have hwide : ((s.latchHi d addr.toNat v).keepRead d [.ofNat 32 v]).wide d addr.toNat = some v := by
    rw [State.wide_latchHi_keepRead, hv]
  exact ⟨by rw [hhost], by rw [State.peek_hi hwide, hhost, SMap.look_put_same], hwide,
    State.latchHi_keepRead_rest ..⟩

/-- READ_CLEAR keeps what an RC register held, and leaves 0 there. -/
theorem readClear_clears (hu : hostOk d = true) (hm : s.mayAccess d addr.toNat false = true)
    (hrc : rcReg addr.toNat = true) (hshown : s.shown addr.toNat = true)
    (hheld : ¬ (0x100000 ≤ addr.toNat ∧ addr.toNat < 0x200000 ∧ addr.toNat % 65536 = 0xC00C))
    (hstall : ¬ (0x10000 ≤ addr.toNat ∧ addr.toNat < 0x11000 ∧ addr.toNat % 256 = 0x10)) :
    Completes (exec (.readClear d addr) s) fun t =>
      (t.host d).lastRead = [s.peek d addr.toNat] ∧ t.reg (regKey d addr.toNat) = 0 ∧ t.peek d addr.toNat = 0 ∧
      (∀ x, x ≠ regKey d addr.toNat → t.reg x = s.reg x) ∧ { t with regs := s.regs, hosts := s.hosts } = s := by
  refine ⟨_, exec_readClear_counter hu hm hrc hshown hheld hstall, ?_⟩
  have hclear : ((s.setReg (regKey d addr.toNat) 0).keepRead d [s.peek d addr.toNat]).reg (regKey d addr.toNat) =
      0 := by
    rw [State.reg_keepRead, State.reg_setReg_same]
  refine ⟨State.lastRead_keepRead _, hclear, ?_, fun x hx => ?_,
    State.regs_hosts_rest_trans (State.setReg_rest s _ 0) (State.keepRead_rest _)⟩
  · rw [State.peek_rcReg _ d hrc (State.aligned_of_mayAccess hm), hclear, ite_self]
  · rw [State.reg_keepRead, State.reg_setReg, if_neg hx]

end

end Sys2Proof.Machine
end

section
/-! PROOF. The rows of data ports, of time synchronisation and of single registers. -/

namespace Sys2Proof.Machine

/-- DP_DATA_READ on an outbound port (R81). -/
theorem dpDataRead_outbound {s : State} {d p : Nat} {c : CordCfg} (hu : portOk d p = true)
    (hopen : s.reaches d p) (hc : s.cordCfg (s.port d p).cord = some c) (hout : (s.port d p).outbound = true)
    (hue : s.dramUe = []) (n : Nat) :
    let x := s.port d p
    let k := min n x.held
    Completes (exec (.dpDataRead d p n) s) fun t =>
      t.port d p = x.drained k ∧
      (t.host d).lastRead = (List.range k).map (fun i => .ofNat 32 (s.cordLe c (x.wordAddr i) 4)) ∧
      t.dram = s.dram ∧ { t with hosts := s.hosts } = s := by
  intro x k
  have hrest (ws : List Word) : { (s.setPort d p (x.drained k)).keepRead d ws with hosts := s.hosts } = s :=
    State.hosts_rest_trans (State.setHost_rest s d _) (State.keepRead_rest ws)
  refine ⟨_, (exec_dpDataRead s d p hu n).trans (congrArg _ (State.portTake_outbound hopen hc hout hue n)),
    ?_, State.lastRead_keepRead _, (State.setHost_dram ..).trans (State.setPort_dram ..), hrest _⟩
  exact (State.port_keepRead ..).trans (State.port_setPort_same ..)

/-- DP_DATA_READ on an inbound port (R81). -/
theorem dpDataRead_inbound {s : State} {d p : Nat} (hu : portOk d p = true) (hopen : s.reaches d p)
    (hin : (s.port d p).outbound = false) (n : Nat) :
    Completes (exec (.dpDataRead d p n) s) fun t =>
      (t.host d).lastRead = List.replicate n 0 ∧ { t with hosts := s.hosts } = s ∧ ∀ q, t.port d q = s.port d q :=
  ⟨_, (exec_dpDataRead s d p hu n).trans (congrArg _ (State.portTake_inbound hopen hin n)),
    State.lastRead_keepRead _, rfl, fun _ => State.port_keepRead ..⟩

/-- OUTBOUND_RING_RESUME for a COPY job (R83). -/
theorem outboundRingResume_copy {s : State} {d p sub t0 : Nat} {j : Job} (hu : portOk d p = true)
    (hout : (s.port d p).outbound = true) (hroom : (s.port d p).held < (s.port d p).size)
    (hw : (s.port d p).waiter = some (sub, t0)) (hj : s.job? sub = some j) (hkind : j.kind = 8)
    (hnone : j.intake.out = []) (hlast : j.intake.last = false) :
    Completes (exec (.outboundRingResume d p) s) fun t =>
      t.port d p = { s.port d p with waiter := none } ∧ (∃ y, t.job? sub = some y ∧ y = { j with ringWait := false }) ∧
      s.waitCounted d p t ∧ t.dram = s.dram := by
  obtain ⟨hexec, hjob⟩ := exec_outboundRingResume_copy hu hout hroom hw hj hkind hnone hlast
  exact ⟨_, hexec, State.port_ringResume .., ⟨_, hjob, rfl⟩, State.waitCounted_ringResume hw, State.ringResume_dram ..⟩

/-- DATA_PORT_STALL of a wait of more than 1 ms (R83). -/
theorem dataPortStall_reports {s : State} {d p : Nat} (hu : portOk d p = true) (h : s.stalls d p) :
    Completes (exec (.dataPortStall d p) s) fun t =>
      t.port d p = { s.port d p with stallSent := true } ∧ Queued s t d 0x0102 1 p ∧ t.jobs = s.jobs ∧
      t.dram = s.dram := by
  refine ⟨_, exec_dataPortStall_of_stalls hu h, ?_, fun hroom => ?_, ?_, ?_⟩
  · rw [State.event_port, State.port_setPort_same]
  · rw [State.event_room _ _ _ _ _ (by rwa [State.setPort_events]), State.setPort_events, State.setPort_time]
  · exact (congrArg State.jobs (State.event_rest _ d 0x0102 1 p) :).trans (State.setPort_jobs ..)
  · exact (congrArg State.dram (State.event_rest _ d 0x0102 1 p) :).trans (State.setPort_dram ..)

/-- TSYNC_RESET (R91). -/
theorem tsyncReset_discards {s : State} {d : Nat} (h : s.mayWrite d 0x1018) :
    Completes (exec (.tsyncReset d) s) fun t =>
      t.host d = { s.host d with open1 := none, exchanges := [], mapped := false, refHost := 0, offset := 0
                                 ratePpb := 0 } ∧
      (∀ x, x ≠ d → t.host x = s.host x) ∧ { t with hosts := s.hosts } = s :=
  ⟨_, exec_tsyncReset s d h, State.host_setHost_same .., fun _ hx => (State.host_setHost ..).trans (if_neg hx), rfl⟩

/-- A write of `LAY_DRAIN_TIMEOUT` (R5, R438). -/
theorem drainTimeout_takes {s : State} {d : Nat} {addr w : Word} (hu : hostOk d = true) (ha : addr.toNat = 0x200018)
    (hm : s.mayAccess d addr.toNat true = true) (m : Merge) :
    Completes (exec (mergeCommand d addr w m) s) fun t =>
      t.reg addr.toNat = m.apply (s.reg addr.toNat) w ∧ (∀ x, x ≠ addr.toNat → t.reg x = s.reg x) ∧
      { t with regs := s.regs } = s :=
  ⟨_, exec_drainTimeout hu ha hm m, State.reg_setReg_same .., fun _ hx => (State.reg_setReg ..).trans (if_neg hx), rfl⟩

/-- A write of `FLT_CTRL` or `MEM_CTRL` (R438, R505). -/
theorem loggedCtrl_takes {s : State} {d : Nat} {addr w : Word} (hu : hostOk d = true)
    (ha : addr.toNat = 0x280004 ∨ addr.toNat = 0x2A0004) (hm : s.mayAccess d addr.toNat true = true) (m : Merge) :
    Completes (exec (mergeCommand d addr w m) s) fun t =>
      t.reg addr.toNat = m.apply (s.reg addr.toNat) w &&& 3 ∧ (∀ x, x ≠ addr.toNat → t.reg x = s.reg x) ∧
      t.trust = { s.trust with
        chg := s.trust.chg.append s.time d 0x101 addr (s.reg addr.toNat) (m.apply (s.reg addr.toNat) w) } ∧
      { t with regs := s.regs, trust := s.trust } = s := by
  refine ⟨_, exec_loggedCtrl hu ha hm m, State.reg_setReg_same .., fun x hx => ?_, ?_, rfl⟩
  · rw [State.reg_setReg, if_neg hx]; rfl
  · rw [State.setReg_trust, State.logChange, word_ofNat_toNat, word_ofNat_toNat, word_ofNat_toNat]

/-- Settles O59: each row by the lemma of what it does; a write, a set and a clear differ in how they merge the word. -/
theorem portsClocksAndRegistersAct : Obligations.PortsClocksAndRegistersAct := by
  unfold Obligations.PortsClocksAndRegistersAct
  intro s d hu
  refine ⟨fun p c hp => ?_, tsyncReset_discards, fun addr w => ?_⟩
  · have hport := portOk_of_hostOk hu hp
    refine ⟨fun hclosed => ⟨fun ws => ?_, fun n => ?_⟩, fun hopen hue hc => ⟨fun ws hout => ?_, fun ws hin => ?_,
      fun n hin => dpDataRead_inbound hport hopen hin n, fun n hout => dpDataRead_outbound hport hopen hc hout hue n⟩,
      exec_outboundRingResume_none hport,
      fun sub t0 j hout hroom hw hj hkind hnone hlast =>
        outboundRingResume_copy hport hout hroom hw hj hkind hnone hlast,
      fun h => exec_dataPortStall_of_not_stalls hport (State.not_stalls h),
      fun x hout hw hlong hsent => dataPortStall_reports hport (State.stalls_of_waiter hout hw hlong hsent)⟩
    · rw [exec_dpDataWrite s d p hport, s.portWrite_of_unreached d p hclosed]
    · rw [exec_dpDataRead s d p hport, s.portTake_of_unreached d p hclosed]
    · rw [exec_dpDataWrite s d p hport, State.portWrite_outbound hopen hc hout]
    · obtain ⟨t, hexec, hx, hdram, hover, hwait⟩ := dpDataWrite_inbound hp hport hopen hc hin hue ws
      refine ⟨t, hexec, by rw [hx]; rfl, by rw [hx]; rfl, by rw [hx]; rfl, fun hn => ?_, hdram, hover,
        fun sub t0 hn hw => hwait sub t0 hn hw⟩
      rw [hx]
      exact if_neg (Nat.ne_of_gt hn)
  · refine ⟨fun hm => ⟨exec_mergeCommand_of_unseen hu hm .write, exec_mergeCommand_of_unseen hu hm .or,
        exec_mergeCommand_of_unseen hu hm .andNot⟩,
      fun hm => ⟨?_, ?_⟩,
      fun ha => ⟨exec_mergeCommand_of_alias hu ha (m := .or) (by decide),
        exec_mergeCommand_of_alias hu ha (m := .andNot) (by decide)⟩,
      fun hm => ⟨fun i v hi => ⟨fun ha => ?_, fun ha => ?_⟩, fun g o ha hslot hue i v hi => ?_⟩,
      fun hm ha => ⟨fun hrc => ?_, fun hrc hshown hheld hstall => readClear_clears hu hm hrc hshown hheld hstall,
        fun hv => ?_, fun v hv hshown => loRead_latches hu hm hv hshown⟩⟩
    · rw [exec_readClear hu, State.hostLoad_of_unseen hm, ite_self]
    · rw [exec_loRead hu, State.hostLoad_of_unseen hm, ite_self]
    · obtain ⟨m, rfl, rfl⟩ := exists_mergeCommand hi
      exact drainTimeout_takes hu ha hm m
    · obtain ⟨m, rfl, rfl⟩ := exists_mergeCommand hi
      exact loggedCtrl_takes hu ha hm m
    · obtain ⟨m, rfl, rfl⟩ := exists_mergeCommand hi
      exact exec_storeWord hu ha hm hslot hue m
    · rw [exec_readClear hu, plainAddr_of_lt ha, hrc, if_neg Bool.false_ne_true]
    · rw [exec_loRead hu, plainAddr_of_lt ha, hv, Option.isSome_none, if_neg Bool.false_ne_true]

end Sys2Proof.Machine
end

section
/-! PROOF. Every command is guarded by the units that it names (R11, R14, R37, R62, R80, R366, R425, R489, R529). -/

namespace Sys2Proof.Machine

/-- Each arm of `exec` runs its command under the guard that `Instr.wf` states for it. -/
theorem exec_eq_withUnit (c : Instr) (s : State) : ∃ t, exec c s = withUnit c.wf t := by
  cases c <;> exact ⟨_, rfl⟩

/-- Settles O4: what a command does stands under the guard of the units that it names. -/
theorem commandsCompleteExactlyOnExistingUnits : Obligations.CommandsCompleteExactlyOnExistingUnits := by
  unfold Obligations.CommandsCompleteExactlyOnExistingUnits
  intro c s
  obtain ⟨t, hexec⟩ := exec_eq_withUnit c s
  refine ⟨fun hunits => ⟨t, ?_⟩, fun hmissing => ?_⟩
  · rw [hexec, hunits, withUnit_true]
  · rw [hexec, hmissing, withUnit_false]

end Sys2Proof.Machine
end

section
/-! PROOF. What is reported to the fault log and to the hosts, and a USB link that goes up or down while no job is in
flight (R65, R88, R486, R487, R488). -/

namespace Sys2Proof.Machine

/-! ### Entries of the fault log (R488) -/

/-- Entry `x` is among the `n` newest ones of the fault log. -/
def State.noted (s : State) (n : Nat) (x : LogEntry) : Prop := x ∈ s.flt.log.entries.take n

variable {s : State} {n : Nat} {x : LogEntry}

theorem State.noted.mem (h : s.noted n x) : x ∈ s.flt.log.entries := List.mem_of_mem_take h

theorem State.noted.mono {m : Nat} (h : s.noted n x) (hnm : n ≤ m) : s.noted m x :=
  List.take_subset_take_left _ hnm h

/-- An older entry moves back by one place, and the log holds 16,384. -/
theorem State.noted.logFault (h : s.noted n x) (hn : n < 16384) (o k a y z : Nat) :
    (s.logFault o k a y z).noted (n + 1) x := by
  simp only [State.noted, State.logFault, Log.append, List.take_take, List.take_succ_cons,
    Nat.min_eq_left (Nat.le_of_lt_succ hn)]
  exact List.mem_cons_of_mem _ h

/-- The newest entry is the one just logged. -/
theorem State.newest_logFault (o k a y z : Nat) :
    (s.logFault o k a y z).flt.log.newest k (.ofNat 32 a) (.ofNat 32 y) (.ofNat 32 z) :=
  ⟨_, Log.head_append .., rfl, rfl, rfl, rfl⟩

theorem State.exists_noted_logFault (s : State) (o k a y z : Nat) : ∃ x, (s.logFault o k a y z).noted 1 x ∧
    x.kind = k ∧ x.addr = .ofNat 32 a ∧ x.old = .ofNat 32 y ∧ x.new = .ofNat 32 z := by
  obtain ⟨x, hx, hfields⟩ := State.newest_logFault (s := s) o k a y z
  exact ⟨x, by rw [State.noted, List.take_one, hx]; exact List.mem_singleton_self x, hfields⟩

/-! ### The parts that reports touch -/

/-- The state without its host ports, plain registers, fault records and panel ports. -/
def State.sansReports (s : State) : State := { s with hosts := [], regs := [], flt := {}, panels := [] }

@[simp] theorem State.logFault_sansReports (o k a y z : Nat) :
    (s.logFault o k a y z).sansReports = s.sansReports := rfl

theorem State.host_logFault (o k a y z d : Nat) : (s.logFault o k a y z).host d = s.host d := rfl

@[simp] theorem State.event_flt (d code block arg : Nat) : (s.event d code block arg).flt = s.flt :=
  (congrArg State.flt (s.event_rest d code block arg) :)

@[simp] theorem State.event_sansReports (d code block arg : Nat) :
    (s.event d code block arg).sansReports = s.sansReports :=
  (congrArg State.sansReports (s.event_rest d code block arg) :)

@[simp] theorem State.eventOwner_flt (code block arg : Nat) : (s.eventOwner code block arg).flt = s.flt :=
  State.event_flt ..

@[simp] theorem State.eventOwner_sansReports (code block arg : Nat) :
    (s.eventOwner code block arg).sansReports = s.sansReports := State.event_sansReports ..

theorem State.noted.of_log_eq {t : State} (h : s.noted n x) (hlog : t.flt.log = s.flt.log) : t.noted n x := by
  rwa [State.noted, hlog]

/-! ### Service causes (R487) -/

theorem State.setService_of_set {b : Nat} (h : s.flt.service.testBit b = true) : s.setService b = s := if_pos h

theorem State.setService_of_clear {b : Nat} (h : s.flt.service.testBit b = false) :
    s.setService b =
      let t := s.logFault (originStop 20) 0x40 b s.flt.service (s.flt.service + 2 ^ b)
      { t with flt := { t.flt with service := s.flt.service + 2 ^ b } }.eventOwner 0x1105 0x28
        (s.flt.service + 2 ^ b) := if_neg (by simp [h])

/-- A cause that is set stands. -/
theorem State.testBit_setService (s : State) (b : Nat) : (s.setService b).flt.service.testBit b = true := by
  cases h : s.flt.service.testBit b with
  | true => rw [State.setService_of_set h, h]
  | false =>
    rw [State.setService_of_clear h, State.eventOwner_flt]
    change (s.flt.service + 2 ^ b).testBit b = true
    rw [Nat.add_comm, Nat.testBit_two_pow_add_eq, h]
    rfl

@[simp] theorem State.setService_sansReports (b : Nat) : (s.setService b).sansReports = s.sansReports := by
  cases h : s.flt.service.testBit b with
  | true => rw [State.setService_of_set h]
  | false => rw [State.setService_of_clear h]; exact State.eventOwner_sansReports ..

theorem State.noted.setService (h : s.noted n x) (hn : n < 16384) (b : Nat) : (s.setService b).noted (n + 1) x := by
  cases hb : s.flt.service.testBit b with
  | true => rw [State.setService_of_set hb]; exact h.mono (Nat.le_succ n)
  | false =>
    rw [State.setService_of_clear hb]
    refine (h.logFault hn (originStop 20) 0x40 b s.flt.service (s.flt.service + 2 ^ b)).of_log_eq ?_
    rw [State.eventOwner_flt]

/-! ### A link that goes down (R88) -/

/-- A host port whose link goes down at device time `now`. -/
def HostPort.dropped (x : HostPort) (now : Nat) : HostPort :=
  { x with rate := 0, responses := [], fence := none, behind := [], downs := min (x.downs + 1) 0xFFFF, downSince := now
           active := x.active.map fun a => { a with lost := true } }

/-- The loss of a link that was up is logged and counted, and its port keeps its rate for one more step. -/
def State.lossLogged (s : State) (d : Nat) : State :=
  (s.logFault (originStop 16) 0x31 d (s.host d).rate 0).setHost d
    { (s.host d).dropped s.time with rate := (s.host d).rate }

theorem State.linkDown_of_down {d : Nat} (h : (s.host d).rate = 0) : s.linkDown d = s := if_pos h

/-! ### Changes of a link's rate while no job is in flight (R65, R88, R403) -/

section
variable (hj : s.jobs = [])
include hj

theorem State.recheckFit_of_no_jobs (c : Nat) (only : Job → Bool) : s.recheckFit c only = s := by
  unfold State.recheckFit
  split
  · rfl
  · rw [hj]; rfl

theorem State.setRate_of_no_jobs (d rate : Nat) (flip : Bool) :
    s.setRate d rate flip = s.setHost d { s.host d with rate := rate, flip := flip } := by
  have hcheck (f : CordCfg → State → Job → Bool) (cs : List CordCfg) :
      cs.foldl (fun t c => t.recheckFit c.cord (f c t)) (s.setHost d { s.host d with rate := rate, flip := flip }) =
        s.setHost d { s.host d with rate := rate, flip := flip } :=
    List.foldl_fixed' (fun c => State.recheckFit_of_no_jobs ((s.setHost_jobs ..).trans hj) _ _) cs
  unfold State.setRate
  dsimp only
  split
  · rfl
  · split
    · exact hcheck (fun c t j => t.copiesToRing c j) _
    · rfl

theorem State.linkDown_of_up {d : Nat} (h : (s.host d).rate ≠ 0) :
    s.linkDown d = (s.lossLogged d).setHost d ((s.host d).dropped s.time) := by
  have hlogged : s.linkDown d = (s.lossLogged d).setRate d 0 (s.host d).flip := if_neg h
  rw [hlogged, State.setRate_of_no_jobs (s := s.lossLogged d) hj, State.lossLogged, State.host_setHost_same]
  rfl

/-- The port of the link alone changes, and only where the link was up. -/
theorem State.host_linkDown {d : Nat} (h : (s.host d).rate ≠ 0) (e : Nat) :
    (s.linkDown d).host e = if e = d then (s.host d).dropped s.time else s.host e := by
  rw [State.linkDown_of_up hj h, State.host_setHost]
  split
  · rfl
  · next he => rw [State.lossLogged, State.host_setHost, if_neg he, State.host_logFault]

/-- The loss is the newest entry. -/
theorem State.newest_linkDown {d : Nat} (h : (s.host d).rate ≠ 0) :
    (s.linkDown d).flt.log.newest 0x31 (.ofNat 32 d) (.ofNat 32 (s.host d).rate) 0 := by
  rw [State.linkDown_of_up hj h]
  exact State.newest_logFault ..

theorem State.linkDown_sansReports (d : Nat) : (s.linkDown d).sansReports = s.sansReports := by
  by_cases h : (s.host d).rate = 0
  · rw [State.linkDown_of_down h]
  · rw [State.linkDown_of_up hj h]; rfl

theorem State.linkDown_jobs (d : Nat) : (s.linkDown d).jobs = [] :=
  (congrArg State.jobs (State.linkDown_sansReports hj d) :).trans hj

theorem State.noted.linkDown (h : s.noted n x) (hn : n < 16384) (d : Nat) : (s.linkDown d).noted (n + 1) x := by
  by_cases hup : (s.host d).rate = 0
  · rw [State.linkDown_of_down hup]; exact h.mono (Nat.le_succ n)
  · rw [State.linkDown_of_up hj hup]
    exact (h.logFault hn _ _ _ _ _).of_log_eq rfl

/-- A link that goes down has no rate, and one that has none gets none. -/
theorem State.rate_linkDown {d e : Nat} (h : e = d ∨ (s.host e).rate = 0) : ((s.linkDown d).host e).rate = 0 := by
  by_cases hup : (s.host d).rate = 0
  · rw [State.linkDown_of_down hup]
    rcases h with rfl | h
    · exact hup
    · exact h
  · rw [State.host_linkDown hj hup]
    split
    · rfl
    · next he => exact h.resolve_left he

end

/-! ### Several links that go down (R486) -/

theorem State.linksDown_sansReports (ds : List Nat) (s : State) (hj : s.jobs = []) :
    (ds.foldl State.linkDown s).sansReports = s.sansReports := by
  induction ds generalizing s with
  | nil => rfl
  | cons d ds ih => exact (ih _ (State.linkDown_jobs hj d)).trans (State.linkDown_sansReports hj d)

theorem State.rate_linksDown (ds : List Nat) (s : State) (hj : s.jobs = []) {e : Nat}
    (h : e ∈ ds ∨ (s.host e).rate = 0) : ((ds.foldl State.linkDown s).host e).rate = 0 := by
  induction ds generalizing s with
  | nil => exact h.resolve_left List.not_mem_nil
  | cons d ds ih =>
    refine ih _ (State.linkDown_jobs hj d) ?_
    rcases h with h | h
    · exact (List.mem_cons.1 h).symm.imp_right fun he => State.rate_linkDown hj (.inl he)
    · exact .inr (State.rate_linkDown hj (.inr h))

theorem State.noted.linksDown (ds : List Nat) {s : State} {n : Nat} (hj : s.jobs = []) (h : s.noted n x)
    (hn : n + ds.length ≤ 16384) : (ds.foldl State.linkDown s).noted (n + ds.length) x := by
  induction ds generalizing s n with
  | nil => exact h
  | cons d ds ih =>
    rw [List.length_cons] at hn ⊢
    rw [← Nat.add_assoc, Nat.add_right_comm]
    exact ih (State.linkDown_jobs hj d) (h.linkDown hj (by omega) d) (by omega)

/-! ### USB_LINK_UP and USB_LINK_DOWN (R65, R88) -/

theorem State.landClear_hosts (s : State) (g i : Nat) : (s.landClear g i).hosts = s.hosts := by
  unfold State.landClear; split <;> rfl

theorem State.landClear_jobs (s : State) (g i : Nat) : (s.landClear g i).jobs = s.jobs := by
  unfold State.landClear; split <;> rfl

theorem State.host_landClear (s : State) (g i d : Nat) : (s.landClear g i).host d = s.host d := by
  rw [State.host, State.landClear_hosts]; rfl

theorem usbLinkUp_sets_rate {d rate : Nat} (flip : Bool) (hl : s.live = true) (hu : hostOk d = true) (h1 : 1 ≤ rate)
    (h5 : rate ≤ 5) (hlock : s.clk.relocking = false) (hj : s.jobs = []) :
    Completes (exec (.usbLinkUp d rate flip) s) fun t =>
      t.host d = { s.host d with rate := rate, flip := flip } ∧ ∀ e, e ≠ d → t.host e = s.host e := by
  have hexec : exec (.usbLinkUp d rate flip) s = .next ((s.landClear (0x10 + d) 5).setRate d rate flip) := by
    change execUsbLinkUp d rate flip s = _
    rw [execUsbLinkUp, show (hostOk d && decide (1 ≤ rate) && decide (rate ≤ 5)) = true by simp [hu, h1, h5],
      withUnit_true, State.linkUp, if_pos (by simp [hl, hlock])]
  refine ⟨_, hexec, ?_⟩
  rw [State.setRate_of_no_jobs ((s.landClear_jobs ..).trans hj)]
  exact ⟨by rw [State.host_setHost_same, State.host_landClear],
    fun e he => by rw [State.host_setHost, if_neg he, State.host_landClear]⟩

theorem usbLinkDown_drops {d : Nat} (hl : s.live = true) (hu : hostOk d = true) (hup : (s.host d).rate ≠ 0)
    (hj : s.jobs = []) :
    Completes (exec (.usbLinkDown d) s) fun t =>
      t.host d = (s.host d).dropped s.time ∧ (∀ e, e ≠ d → t.host e = s.host e) ∧
      t.flt.log.newest 0x31 (.ofNat 32 d) (.ofNat 32 (s.host d).rate) 0 := by
  have hexec : exec (.usbLinkDown d) s = .next (s.linkDown d) := by
    change execUsbLinkDown d s = _
    rw [execUsbLinkDown, hu, withUnit_true, if_pos hl]
  exact ⟨_, hexec, by rw [State.host_linkDown hj hup, if_pos rfl],
    fun e he => by rw [State.host_linkDown hj hup, if_neg he], State.newest_linkDown hj hup⟩

end Sys2Proof.Machine
end

section
/-! PROOF. Clock monitors, relocks and dividers (R19 to R21, R486). -/

namespace Sys2Proof.Machine

variable {s : State} {k m : Nat}

/-! ### Monitor windows (R486) -/

theorem powered_of_live (hl : s.live = true) : s.pwr.powered = true := by
  rw [State.live, Bool.and_eq_true] at hl
  exact hl.1

theorem not_inReset_of_live (hl : s.live = true) : s.pwr.inReset = false := by
  rw [State.live, Bool.and_eq_true, Bool.not_eq_true'] at hl
  exact hl.2

theorem clockOut_iff {e m : Nat} : clockOut e m = true ↔ m * 100 < e * 99 ∨ e * 101 < m * 100 := by
  rw [clockOut, Bool.or_eq_true, decide_eq_true_iff, decide_eq_true_iff]

/-- The suspicions that are left without those of clock `k`. -/
def State.suspectsBut (s : State) (k : Nat) : List (Nat × Nat) := s.clk.suspect.filter fun x => x.1 != k

/-- The state with these suspicions. -/
def State.withSuspects (s : State) (l : List (Nat × Nat)) : State := { s with clk := { s.clk with suspect := l } }

/-- The window of clock `k` that ended just before this one was outside too. -/
def State.suspectedBefore (s : State) (k : Nat) : Prop := ∃ x ∈ s.clk.suspect, x.1 = k ∧ x.2 + 10000 = s.time

theorem State.any_suspect_iff : (s.clk.suspect.any fun x => x.1 == k && x.2 + 10000 == s.time) = true ↔
    s.suspectedBefore k := by
  simp only [List.any_eq_true, Bool.and_eq_true, beq_iff_eq, State.suspectedBefore]

section
variable (hlock : s.clk.relocking = false)
include hlock

theorem State.clockWindow_within (h : clockOut (s.clockKhz k) m = false) :
    s.clockWindow k m = s.withSuspects (s.suspectsBut k) := by
  rw [State.clockWindow, hlock, h]; rfl

theorem State.clockWindow_suspects (h : clockOut (s.clockKhz k) m = true) (hb : ¬ s.suspectedBefore k) :
    s.clockWindow k m = s.withSuspects ((k, s.time) :: s.suspectsBut k) := by
  rw [State.clockWindow, hlock, h]
  exact if_neg fun hany => hb (State.any_suspect_iff.1 hany)

theorem State.clockWindow_faults (h : clockOut (s.clockKhz k) m = true) (hb : s.suspectedBefore k) :
    s.clockWindow k m = (s.withSuspects (s.suspectsBut k)).clockFault k m := by
  rw [State.clockWindow, hlock, h]
  exact if_pos (State.any_suspect_iff.2 hb)

end

/-- The state in which the window of clock `k` that ends now is known to have come. -/
def State.windowSeen (s : State) (k : Nat) : State := { s with came := s.came.put (fun _ => 0) (0x100000 + k) s.time }

/-- A window comes once at a multiple of 10 µs. -/
theorem exec_clockMonitorWindow (hl : s.live = true) (hu : clockOk k = true) (hp : s.time % 10000 = 0)
    (hc : s.came.look (fun _ => 0) (0x100000 + k) < s.time) :
    exec (.clockMonitorWindow k m) s = .next ((s.windowSeen k).clockWindow k m) := by
  change execClockMonitorWindow k m s = _
  rw [execClockMonitorWindow, hu, withUnit_true, if_pos hl, State.each_due s hp hc]
  rfl

/-! ### A fault of a clock other than one Hearth's (R486) -/

theorem State.panelLp11_rest (s : State) (p : Nat) : { s.panelLp11 p with panels := s.panels } = s := by
  unfold State.panelLp11
  dsimp only
  split <;> rfl

theorem State.panelLp11_sansReports (s : State) (p : Nat) : (s.panelLp11 p).sansReports = s.sansReports :=
  (congrArg State.sansReports (s.panelLp11_rest p) :)

theorem State.panelLp11_flt (s : State) (p : Nat) : (s.panelLp11 p).flt = s.flt :=
  (congrArg State.flt (s.panelLp11_rest p) :)

theorem State.panelLp11_hosts (s : State) (p : Nat) : (s.panelLp11 p).hosts = s.hosts :=
  (congrArg State.hosts (s.panelLp11_rest p) :)

/-- The state with every USB link down, and then with the lanes of both panel ports in LP-11. -/
def State.linksOff (s : State) : State := ([0, 1, 2, 3] : List Nat).foldl State.linkDown s
def State.linesOff (s : State) : State := ([0, 1] : List Nat).foldl State.panelLp11 s.linksOff

/-- The state in which the PLL has lost its lock just now. -/
def State.unlocked (s : State) (now : Nat) : State := { s with clk := { s.clk with relocking := true, lostLock := now } }

theorem State.unlocked_clk (s : State) (now : Nat) :
    (s.unlocked now).clk = { s.clk with relocking := true, lostLock := now } := rfl
theorem State.unlocked_flt (s : State) (now : Nat) : (s.unlocked now).flt = s.flt := rfl
theorem State.unlocked_hosts (s : State) (now : Nat) : (s.unlocked now).hosts = s.hosts := rfl

theorem State.clk_eq_of_sansReports {t : State} (h : t.sansReports = s.sansReports) : t.clk = s.clk :=
  (congrArg State.clk h :)

theorem State.rootFault_of_no_jobs (hj : s.jobs = []) : s.rootFault = s.linesOff.unlocked s.time := by
  simp only [State.rootFault, hj, List.filter_nil, List.foldl_nil, State.unlocked, State.linesOff, State.linksOff]

section
variable (hj : s.jobs = [])
include hj

theorem State.rootFault_clk : s.rootFault.clk = { s.clk with relocking := true, lostLock := s.time } := by
  have hsans : s.linesOff.sansReports = s.sansReports :=
    (foldl_keeps State.sansReports State.panelLp11_sansReports _ _).trans (State.linksDown_sansReports _ s hj)
  rw [State.rootFault_of_no_jobs hj, State.unlocked_clk, State.clk_eq_of_sansReports hsans]

theorem State.rate_rootFault {d : Nat} (hd : d < 4) : (s.rootFault.host d).rate = 0 := by
  have hhosts : s.linesOff.hosts = s.linksOff.hosts := foldl_keeps State.hosts State.panelLp11_hosts _ _
  have hport : (s.linesOff.unlocked s.time).host d = s.linksOff.host d := by
    rw [State.host, State.unlocked_hosts, hhosts]; rfl
  have hmem : d ∈ ([0, 1, 2, 3] : List Nat) := by simp; omega
  rw [State.rootFault_of_no_jobs hj, hport]
  exact State.rate_linksDown _ s hj (.inl hmem)

/-- Each link that goes down adds one entry at most. -/
theorem State.noted.rootFault {n : Nat} {x : LogEntry} (h : s.noted n x) (hn : n + 4 ≤ 16384) :
    s.rootFault.noted (n + 4) x := by
  have hflt : s.linesOff.flt = s.linksOff.flt := foldl_keeps State.flt State.panelLp11_flt _ _
  have hlinks : s.linksOff.noted (n + 4) x := h.linksDown [0, 1, 2, 3] hj hn
  rw [State.rootFault_of_no_jobs hj]
  exact hlinks.of_log_eq (by rw [State.unlocked_flt, hflt])

end

/-! ### The entry of a clock fault and its recurrence (R486) -/

/-- A clock fault within 24 h of another one is a service cause. -/
def State.noteRecur (s : State) (recur : Bool) : State := if recur then s.setService 3 else s

theorem State.noteRecur_sansReports (recur : Bool) : (s.noteRecur recur).sansReports = s.sansReports := by
  cases recur
  · rfl
  · exact State.setService_sansReports 3

theorem State.noted.noteRecur {n : Nat} {x : LogEntry} (h : s.noted n x) (hn : n < 16384) (recur : Bool) :
    (s.noteRecur recur).noted (n + 1) x := by
  cases recur
  · exact h.mono (Nat.le_succ n)
  · exact h.setService hn 3

/-- The state with the fault of root clock `k` logged, queued and kept for its recurrence. -/
def State.clockFaultNoted (s : State) (k m : Nat) : State :=
  let t := (s.logFault (originStop 20) 0x21 k (s.clockKhz k) m).eventOwner 0x1107 0x28 k
  { t with clk := { t.clk with faultTimes := s.time :: s.clk.faultTimes } }

theorem State.clockFault_of_root (hk : k < 0x100) : s.clockFault k m =
    ((s.clockFaultNoted k m).noteRecur (s.clk.faultTimes.any fun t => decide (s.time ≤ t + dayNs))).rootFault := by
  unfold State.clockFault
  simp only [hk, if_true]
  rfl

/-- Only what is reported and the times of clock faults change. -/
theorem State.clockFaultNoted_sansReports : (s.clockFaultNoted k m).sansReports =
    { s.sansReports with clk := { s.clk with faultTimes := s.time :: s.clk.faultTimes } } := by
  have hrest : ((s.logFault (originStop 20) 0x21 k (s.clockKhz k) m).eventOwner 0x1107 0x28 k).sansReports =
      s.sansReports := State.eventOwner_sansReports ..
  exact congrArg (fun t : State => { t with clk := { t.clk with faultTimes := s.time :: s.clk.faultTimes } }) hrest

theorem State.exists_noted_clockFaultNoted : ∃ x, (s.clockFaultNoted k m).noted 1 x ∧
    x.kind = 0x21 ∧ x.addr = .ofNat 32 k ∧ x.new = .ofNat 32 m := by
  obtain ⟨x, hx, hkind, haddr, -, hnew⟩ := State.exists_noted_logFault s (originStop 20) 0x21 k (s.clockKhz k) m
  refine ⟨x, hx.of_log_eq ?_, hkind, haddr, hnew⟩
  exact congrArg Faults.log (State.eventOwner_flt ..)

/-- Without a job in flight, a fault of a root clock is logged, takes the links down and begins a relock. -/
theorem State.clockFault_relocks (hj : s.jobs = []) (hk : k < 0x100) :
    (s.clockFault k m).clk = { s.clk with
      relocking := true, lostLock := s.time, faultTimes := s.time :: s.clk.faultTimes } ∧
    (∃ x ∈ (s.clockFault k m).flt.log.entries, x.kind = 0x21 ∧ x.addr = .ofNat 32 k ∧ x.new = .ofNat 32 m) ∧
    ∀ d, d < 4 → ((s.clockFault k m).host d).rate = 0 := by
  obtain ⟨x, hx, hfields⟩ := State.exists_noted_clockFaultNoted (s := s) (k := k) (m := m)
  rw [State.clockFault_of_root hk]
  generalize (s.clk.faultTimes.any fun t => decide (s.time ≤ t + dayNs)) = recur
  have hsans := (State.noteRecur_sansReports (s := s.clockFaultNoted k m) recur).trans State.clockFaultNoted_sansReports
  have hx := hx.noteRecur (by decide) recur
  generalize (s.clockFaultNoted k m).noteRecur recur = t at hsans hx
  have hjobs : t.jobs = [] := (congrArg State.jobs hsans :).trans hj
  have htime : t.time = s.time := (congrArg State.time hsans :)
  have hclk : t.clk = { s.clk with faultTimes := s.time :: s.clk.faultTimes } := (congrArg State.clk hsans :)
  exact ⟨by rw [State.rootFault_clk hjobs, hclk, htime], ⟨x, (hx.rootFault hjobs (by decide)).mem, hfields⟩,
    fun d hd => State.rate_rootFault hjobs hd⟩

/-! ### The end of a relock (R486) and dividers (R21) -/

theorem exec_pllRelock (hl : s.live = true) :
    exec .pllRelock s = .next { s with clk := { s.clk with relocking := false } } := by
  change execPllRelock s = _
  rw [execPllRelock, withUnit_true, if_pos (powered_of_live hl)]

theorem relockTimeout_resets (hl : s.live = true) (hr : s.clk.relocking = true)
    (ht : s.clk.lostLock + 10000000 < s.time) : Completes (exec .relockTimeout s) fun t =>
      t.pwr.inReset = true ∧ t.pwr.nextCause = some 4 ∧ t.flash = s.flash ∧ t.flt.log = s.flt.log := by
  have hexec : exec .relockTimeout s = .next (s.beginReset 4) := by
    change execRelockTimeout s = _
    rw [execRelockTimeout, withUnit_true, State.relockTimeout, if_pos (by simp [hl, hr, ht])]
  refine ⟨_, hexec, ?_⟩
  rw [State.beginReset, powered_of_live hl, not_inReset_of_live hl]
  exact ⟨rfl, rfl, rfl, rfl⟩

theorem exec_dividerChange {h : Nat} (hl : s.live = true) (hu : hearthOk h = true) :
    exec (.dividerChange h) s =
      .next (if s.clk.root % 240 = 0 then s.takeDivReq (s.physOf h) else s) := by
  change execDividerChange h s = _
  rw [execDividerChange, hu, withUnit_true, if_pos hl]
  rfl

theorem State.takeDivReq_of_none {p : Nat} (h : (s.phy p).divReq = none) : s.takeDivReq p = s := by
  rw [State.takeDivReq, h]

theorem State.takeDivReq_of_some {p x : Nat} (h : (s.phy p).divReq = some x) :
    s.takeDivReq p = s.setPhy p { s.phy p with div := x, divReq := none } := by
  rw [State.takeDivReq, h]

theorem dividerChange_takes {h x : Nat} (hl : s.live = true) (hu : hearthOk h = true)
    (hx : (s.phy (s.physOf h)).divReq = some x) (hroot : s.clk.root % 240 = 0) :
    Completes (exec (.dividerChange h) s) fun t =>
      t.phy (s.physOf h) = { s.phy (s.physOf h) with div := x, divReq := none } ∧
      (∀ q, q ≠ s.physOf h → t.phy q = s.phy q) ∧ { t with phys := s.phys } = s := by
  refine ⟨_, exec_dividerChange hl hu, ?_⟩
  rw [if_pos hroot, State.takeDivReq_of_some hx]
  exact ⟨State.phy_setPhy_same .., fun q hq => (State.phy_setPhy ..).trans (if_neg hq), rfl⟩

theorem dividerChange_waits {h : Nat} (hl : s.live = true) (hu : hearthOk h = true)
    (hwait : (s.phy (s.physOf h)).divReq = none ∨ s.clk.root % 240 ≠ 0) : exec (.dividerChange h) s = .next s := by
  rw [exec_dividerChange hl hu]
  split
  · next hroot => rw [State.takeDivReq_of_none (hwait.resolve_right fun hne => hne hroot)]
  · rfl

end Sys2Proof.Machine
end

section
/-! PROOF. Flits on the Braid: what a flit that leaves its sender takes along, and what the receiver does with it (R15 to
R18, R434, R483). -/

namespace Sys2Proof.Machine

variable {s : State} {l dir cls : Nat} {f : Nat × Nat}

/-! ### Links -/

theorem State.link_setLink (s : State) (l i : Nat) (v : Link) :
    (s.setLink l v).link i = if i = l then v else s.link i := SMap.look_put ..

@[simp] theorem State.link_setLink_same (s : State) (l : Nat) (v : Link) : (s.setLink l v).link l = v := by
  rw [State.link_setLink, if_pos rfl]

theorem State.link_setLink_of_ne (s : State) {l i : Nat} (v : Link) (h : i ≠ l) : (s.setLink l v).link i = s.link i := by
  rw [State.link_setLink, if_neg h]

/-! ### A flit leaves its sender (R17, R434, assumption 214) -/

/-- The link without the flits held and without the rotation, which a flit that leaves its sender changes. -/
def Link.sansMoves (v : Link) : Link := { v with held := [], turn := [] }

theorem State.leaveInput_link (s : State) (r c i j : Nat) :
    ((s.leaveInput r c i).link j).sansMoves = (s.link j).sansMoves := by
  unfold State.leaveInput
  dsimp only
  split
  · rfl
  · rw [State.link_setLink]
    split
    · next h => rw [h]; rfl
    · rfl

theorem State.leaveInput_rest (s : State) (r c i : Nat) : { s.leaveInput r c i with links := s.links } = s := by
  unfold State.leaveInput
  dsimp only
  split <;> rfl

/-- A flit that is being retransmitted goes before any other, and its departure changes nothing (R18). -/
theorem State.flitLeaves_of_replay (h : (s.link l).replayOf (dir * 3 + cls) = some f) :
    s.flitLeaves l dir cls f = some s := by
  simp [State.flitLeaves, h]

/-- An edge stop sends what its own units give it, as long as it has a credit. -/
theorem State.flitLeaves_of_stop (hfresh : (s.link l).replayOf (dir * 3 + cls) = none)
    (hcredit : (s.link l).credits dir cls ≠ 0) (hstop : 48 ≤ (linkEnds l dir).1) (hsrc : f.1 = (linkEnds l dir).1) :
    s.flitLeaves l dir cls f = some s := by
  simp [State.flitLeaves, hfresh, hcredit, hstop, hsrc]

/-- What a flit leaves behind it: some link's held flits, and the rotation of its own link. -/
theorem State.flitLeaves_moves {u : State} (h : s.flitLeaves l dir cls f = some u) :
    (u.link l).sansMoves = (s.link l).sansMoves ∧ { u with links := s.links } = s := by
  unfold State.flitLeaves at h
  dsimp only at h
  split at h
  · split at h
    · cases h; exact ⟨rfl, rfl⟩
    · cases h
  · split at h
    · cases h
    · split at h
      · split at h
        · cases h; exact ⟨rfl, rfl⟩
        · cases h
      · obtain ⟨i, -, rfl⟩ := Option.map_eq_some_iff.1 h
        refine ⟨?_, s.leaveInput_rest ..⟩
        rw [State.link_setLink_same]
        exact s.leaveInput_link (linkEnds l dir).1 cls i l

/-! ### FLIT_RECEIVE -/

/-- Flit `x` of a class is the next one of its lane, and its link carries flits. -/
structure State.flitDue (s : State) (l cls : Nat) (x : Flit) : Prop where
  live   : s.live = true
  units  : (linkOk l && decide (cls < 3) && flitOk x) = true
  works  : (s.link l).halves ≠ 0
  number : x.number = (s.link l).nextFlit.look (fun _ => 0) (x.dir * 3 + cls)

theorem State.flitDue.carried {x : Flit} (h : s.flitDue l cls x) :
    ¬ ((s.link l).halves = 0 ∨ x.number ≠ (s.link l).nextFlit.look (fun _ => 0) (x.dir * 3 + cls)) := by
  simp [h.works, h.number]

theorem exec_flitReceive {x : Flit} (h : s.flitDue l cls x) (good : Bool) :
    exec (.flitReceive l cls x good) s = .next (s.flitReceive l cls x good) := by
  change execFlitReceive l cls x good s = _
  rw [execFlitReceive, h.units, withUnit_true, if_pos h.live]

theorem exec_flitReceive_stays {x : Flit} (h : s.flitDue l cls x)
    (hstays : s.flitLeaves l x.dir cls (x.src, x.dst) = none) (good : Bool) :
    exec (.flitReceive l cls x good) s = .next s := by
  rw [exec_flitReceive h, State.flitReceive, if_neg h.carried, hstays]

section
variable {x : Flit} {u : State} (h : s.flitDue l cls x) (hleaves : s.flitLeaves l x.dir cls (x.src, x.dst) = some u)
include h hleaves

theorem exec_flitReceive_passes : exec (.flitReceive l cls x true) s =
    .next (u.flitGood l (x.dir * 3 + cls) (linkEnds l x.dir).2 (x.src, x.dst)) := by
  rw [exec_flitReceive h, State.flitReceive, if_neg h.carried, hleaves]
  exact congrArg _ (if_pos rfl)

theorem exec_flitReceive_fails : exec (.flitReceive l cls x false) s =
    .next (u.flitBad l (x.dir * 3 + cls) (x.src, x.dst)) := by
  rw [exec_flitReceive h, State.flitReceive, if_neg h.carried, hleaves]
  exact congrArg _ (if_neg Bool.false_ne_true)

end

/-! ### A flit that passes its CRC (R16, R18) -/

/-- The link after it has brought a flit of a lane to node `here`, its receiver. -/
def Link.received (v : Link) (lane here : Nat) (f : Nat × Nat) : Link :=
  { v with
    replay := v.replay.put (fun _ => none) lane none, fails := v.fails.put (fun _ => 0) lane 0
    nextFlit := v.nextFlit.put (fun _ => 0) lane (v.nextFlit.look (fun _ => 0) lane + 1)
    held := if here = f.2 then v.held else v.held.put (fun _ => []) lane (v.heldOf lane ++ [f]) }

theorem State.flitGood_eq (s : State) (l lane here : Nat) (f : Nat × Nat) :
    s.flitGood l lane here f = s.setLink l ((s.link l).received lane here f) := rfl

section
variable (v : Link) (lane here : Nat)

theorem Link.nextFlit_received : (v.received lane here f).nextFlit.look (fun _ => 0) lane =
    v.nextFlit.look (fun _ => 0) lane + 1 := by
  rw [Link.received, SMap.look_put_same]

theorem Link.replayOf_received : (v.received lane here f).replayOf lane = none := by
  rw [Link.replayOf, Link.received, SMap.look_put_same]

theorem Link.fails_received : (v.received lane here f).fails.look (fun _ => 0) lane = 0 := by
  rw [Link.received, SMap.look_put_same]

/-- At its destination a flit is delivered, and elsewhere the receiver holds it. -/
theorem Link.heldOf_received :
    (v.received lane here f).heldOf lane = v.heldOf lane ++ (if here = f.2 then [] else [f]) := by
  by_cases h : here = f.2
  · rw [if_pos h, List.append_nil, Link.heldOf, Link.received, if_pos h]; rfl
  · rw [if_neg h, Link.heldOf, Link.received, if_neg h]; exact SMap.look_put_same ..

end

theorem flitReceive_good {x : Flit} {u : State} (h : s.flitDue l cls x)
    (hleaves : s.flitLeaves l x.dir cls (x.src, x.dst) = some u) :
    let lane := x.dir * 3 + cls
    Completes (exec (.flitReceive l cls x true) s) fun t =>
      (t.link l).nextFlit.look (fun _ => 0) lane = x.number + 1 ∧ (t.link l).replayOf lane = none ∧
      (t.link l).fails.look (fun _ => 0) lane = 0 ∧ (t.link l).halves = (s.link l).halves ∧
      (t.link l).heldOf lane = (u.link l).heldOf lane ++ (if (linkEnds l x.dir).2 = x.dst then [] else [(x.src, x.dst)]) ∧
      (∀ i, i ≠ l → t.link i = u.link i) ∧ { t with links := s.links } = s := by
  intro lane
  obtain ⟨hlink, hrest⟩ := State.flitLeaves_moves hleaves
  have hnext : (u.link l).nextFlit = (s.link l).nextFlit := (congrArg Link.nextFlit hlink :)
  have hhalves : (u.link l).halves = (s.link l).halves := (congrArg Link.halves hlink :)
  refine ⟨_, exec_flitReceive_passes h hleaves, ?_⟩
  rw [State.flitGood_eq]
  beta_reduce
  rw [State.link_setLink_same]
  refine ⟨?_, Link.replayOf_received .., Link.fails_received .., hhalves, Link.heldOf_received ..,
    fun i hi => State.link_setLink_of_ne _ _ hi, hrest⟩
  rw [Link.nextFlit_received, hnext, h.number]

/-! ### A flit that fails its CRC (R18, R483) -/

/-- How often in a row the retransmission of the lane's flit has now failed: not yet, if it is sent for the first time.
-/
def Link.failCount (v : Link) (lane : Nat) : Nat :=
  if (v.replayOf lane).isSome then v.fails.look (fun _ => 0) lane + 1 else 0

/-- The link after a flit of a lane has failed its CRC at device time `now`. -/
def Link.failed (v : Link) (lane : Nat) (f : Nat × Nat) (now : Nat) : Link :=
  { v with replay := v.replay.put (fun _ => none) lane (some f)
           fails := v.fails.put (fun _ => 0) lane (v.failCount lane)
           retries := now :: v.retries.filter fun t => decide (now < t + 1000000000) }

/-- The retransmission is counted (`FLT_RETRIES`). -/
def State.retried (s : State) (l lane : Nat) (f : Nat × Nat) : State :=
  (s.setLink l ((s.link l).failed lane f s.time)).bump 0x280050 1

theorem State.link_retried (s : State) (l lane : Nat) (f : Nat × Nat) :
    (s.retried l lane f).link l = (s.link l).failed lane f s.time := s.link_setLink_same l _

theorem State.flitBad_eq (s : State) (l lane : Nat) (f : Nat × Nat) : s.flitBad l lane f =
    if (s.link l).failCount lane = 8 ∨ 1024 < ((s.link l).failed lane f s.time).retries.length then
      (s.retried l lane f).linkFails l
    else s.retried l lane f := rfl

theorem Link.failCount_of_fresh {v : Link} {lane : Nat} (h : v.replayOf lane = none) : v.failCount lane = 0 := by
  rw [Link.failCount, h]; rfl

theorem Link.failCount_of_again {v : Link} {lane : Nat} (h : v.replayOf lane = some f) :
    v.failCount lane = v.fails.look (fun _ => 0) lane + 1 := by
  rw [Link.failCount, h]; rfl

/-- The first failure, with no retry in the second before it, disables nothing. -/
theorem State.flitBad_first {lane : Nat} (hfresh : (s.link l).replayOf lane = none) (hr : (s.link l).retries = []) :
    s.flitBad l lane f = s.retried l lane f := by
  have hone : ((s.link l).failed lane f s.time).retries.length = 1 := by rw [Link.failed, hr]; rfl
  rw [State.flitBad_eq, Link.failCount_of_fresh hfresh, hone]
  exact if_neg (by decide)

theorem flitReceive_bad {x : Flit} {u : State} (h : s.flitDue l cls x)
    (hleaves : s.flitLeaves l x.dir cls (x.src, x.dst) = some u)
    (hfresh : (s.link l).replayOf (x.dir * 3 + cls) = none) (hr : (s.link l).retries = []) :
    let lane := x.dir * 3 + cls
    Completes (exec (.flitReceive l cls x false) s) fun t =>
      (t.link l).replayOf lane = some (x.src, x.dst) ∧ (t.link l).fails.look (fun _ => 0) lane = 0 ∧
      (t.link l).nextFlit = (s.link l).nextFlit ∧ (t.link l).halves = (s.link l).halves ∧
      (t.link l).held = (u.link l).held ∧ t.reg 0x280050 = counted (s.reg 0x280050) ∧
      { t with links := s.links, regs := s.regs } = s := by
  intro lane
  obtain ⟨hlink, hrest⟩ := State.flitLeaves_moves hleaves
  have hreplay : (u.link l).replay = (s.link l).replay := (congrArg Link.replay hlink :)
  have hretries : (u.link l).retries = (s.link l).retries := (congrArg Link.retries hlink :)
  have hnext : (u.link l).nextFlit = (s.link l).nextFlit := (congrArg Link.nextFlit hlink :)
  have hhalves : (u.link l).halves = (s.link l).halves := (congrArg Link.halves hlink :)
  have hreg : u.reg 0x280050 = s.reg 0x280050 := (congrArg (State.reg · 0x280050) hrest :)
  have hfresh' : (u.link l).replayOf lane = none := by rw [Link.replayOf, hreplay]; exact hfresh
  refine ⟨_, exec_flitReceive_fails h hleaves, ?_⟩
  rw [State.flitBad_first hfresh' (hretries.trans hr)]
  beta_reduce
  rw [State.link_retried]
  refine ⟨?_, ?_, hnext, hhalves, rfl, ?_, congrArg (fun t : State => { t with regs := s.regs }) hrest⟩
  · rw [Link.replayOf, Link.failed, SMap.look_put_same]
  · rw [Link.failed, SMap.look_put_same, Link.failCount_of_fresh hfresh']
  · rw [State.retried, State.reg_bump, if_pos rfl, bump_one_eq_counted]
    exact congrArg counted hreg

/-! ### A link that fails (R483) -/

/-- The link with one half disabled. -/
def Link.halved (v : Link) : Link := { v with halves := 1, fails := [], retries := [] }

theorem State.linkFails_of_whole (h : (s.link l).halves = 2) : s.linkFails l =
    (((s.setLink l (s.link l).halved).logFault (linkOrigin l) 0x20 l 0 1).setService 4).eventOwner 0x1106 0x28 l :=
  if_pos h

theorem State.link_eq_of_sansReports {t : State} (h : t.sansReports = s.sansReports) (i : Nat) : t.link i = s.link i :=
  (congrArg (State.link · i) h :)

/-- The failing half is disabled, logged and a service cause. -/
theorem State.linkFails_halves (h : (s.link l).halves = 2) :
    ((s.linkFails l).link l).halves = 1 ∧ (s.linkFails l).flt.service.testBit 4 = true ∧
    ∃ x ∈ (s.linkFails l).flt.log.entries, x.kind = 0x20 ∧ x.addr = .ofNat 32 l ∧ x.old = 0 ∧ x.new = 1 := by
  rw [State.linkFails_of_whole h]
  obtain ⟨x, hx, hfields⟩ := (s.setLink l (s.link l).halved).exists_noted_logFault (linkOrigin l) 0x20 l 0 1
  refine ⟨?_, ?_, x, State.noted.mem ((hx.setService (by decide) 4).of_log_eq ?_), hfields⟩
  · have hsans : ((((s.setLink l (s.link l).halved).logFault (linkOrigin l) 0x20 l 0 1).setService 4).eventOwner
        0x1106 0x28 l).sansReports = (s.setLink l (s.link l).halved).sansReports :=
      (State.eventOwner_sansReports ..).trans (State.setService_sansReports 4)
    rw [State.link_eq_of_sansReports hsans, State.link_setLink_same]
    rfl
  · rw [State.eventOwner_flt, State.testBit_setService]
  · rw [State.eventOwner_flt]

/-- The eighth failed retry of a flit disables half of a whole link (R483). -/
theorem flitReceive_eighth_bad {x : Flit} (h : s.flitDue l cls x)
    (hagain : (s.link l).replayOf (x.dir * 3 + cls) = some (x.src, x.dst))
    (hn : (s.link l).fails.look (fun _ => 0) (x.dir * 3 + cls) = 7) (hwhole : (s.link l).halves = 2) :
    Completes (exec (.flitReceive l cls x false) s) fun t =>
      (t.link l).halves = 1 ∧ t.flt.service.testBit 4 = true ∧
      ∃ e ∈ t.flt.log.entries, e.kind = 0x20 ∧ e.addr = .ofNat 32 l ∧ e.old = 0 ∧ e.new = 1 := by
  have hcount : (s.link l).failCount (x.dir * 3 + cls) = 8 := by rw [Link.failCount_of_again hagain, hn]
  refine ⟨_, exec_flitReceive_fails h (State.flitLeaves_of_replay hagain), ?_⟩
  rw [State.flitBad_eq, if_pos (.inl hcount)]
  exact State.linkFails_halves (by rw [State.link_retried]; exact hwhole)

end Sys2Proof.Machine
end

section
/-! PROOF. The rows of clocks, Braid links and USB links. -/

namespace Sys2Proof.Machine

/-! ### CLOCK_MONITOR_WINDOW (R486) -/

section
variable {s : State} {k m : Nat} (hl : s.live = true) (hu : clockOk k = true) (hlock : s.clk.relocking = false)
  (hp : s.time % 10000 = 0) (hc : s.came.look (fun _ => 0) (0x100000 + k) < s.time)
include hl hu hlock hp hc

theorem clockMonitorWindow_within (hin : clockOut (s.clockKhz k) m = false) :
    exec (.clockMonitorWindow k m) s = .next ((s.windowSeen k).withSuspects (s.suspectsBut k)) :=
  (exec_clockMonitorWindow hl hu hp hc).trans
    (congrArg _ (State.clockWindow_within (s := s.windowSeen k) hlock hin))

theorem clockMonitorWindow_suspects (hout : clockOut (s.clockKhz k) m = true) (hfirst : ¬ s.suspectedBefore k) :
    exec (.clockMonitorWindow k m) s = .next ((s.windowSeen k).withSuspects ((k, s.time) :: s.suspectsBut k)) :=
  (exec_clockMonitorWindow hl hu hp hc).trans
    (congrArg _ (State.clockWindow_suspects (s := s.windowSeen k) hlock hout hfirst))

/-- The second window outside in a row, of a clock that is not one Hearth's. -/
theorem clockMonitorWindow_relocks (hout : clockOut (s.clockKhz k) m = true) (hagain : s.suspectedBefore k)
    (hk : k < 8) (hj : s.jobs = []) :
    Completes (exec (.clockMonitorWindow k m) s) fun t =>
      t.clk.relocking = true ∧ t.clk.suspect = s.suspectsBut k ∧ t.clk.lostLock = s.time ∧
      t.clk.faultTimes = s.time :: s.clk.faultTimes ∧
      (∃ x ∈ t.flt.log.entries, x.kind = 0x21 ∧ x.addr = .ofNat 32 k ∧ x.new = .ofNat 32 m) ∧
      ∀ d, d < 4 → (t.host d).rate = 0 := by
  refine ⟨_, (exec_clockMonitorWindow hl hu hp hc).trans
    (congrArg _ (State.clockWindow_faults (s := s.windowSeen k) hlock hout hagain)), ?_⟩
  obtain ⟨hclk, hlog, hrate⟩ := State.clockFault_relocks (m := m)
    (s := (s.windowSeen k).withSuspects (s.suspectsBut k)) hj (Nat.lt_trans hk (by decide))
  exact ⟨congrArg Clocks.relocking hclk, congrArg Clocks.suspect hclk, congrArg Clocks.lostLock hclk,
    congrArg Clocks.faultTimes hclk, hlog, hrate⟩

end

/-- Settles O45: each row by the lemma of what it does; a flit is first shown to be the next one of its lane. -/
theorem clocksAndLinksAct : Obligations.ClocksAndLinksAct := by
  unfold Obligations.ClocksAndLinksAct
  intro s hl
  refine ⟨fun k m hu hlock hp hc => ?_, exec_pllRelock hl, relockTimeout_resets hl,
    fun h hu => ⟨fun x hx hroot => dividerChange_takes hl hu hx hroot, dividerChange_waits hl hu⟩,
    fun l dir c f src dst hlink hdir hc hsrc hdst hworks hf => ?_,
    fun d rate flip hu h1 h5 hlock hj => ?_, fun d hu hup hj => usbLinkDown_drops hl hu hup hj⟩
  · exact ⟨fun hgood => clockMonitorWindow_within hl hu hlock hp hc
        (Bool.eq_false_iff.2 fun hout => hgood (clockOut_iff.1 hout)),
      fun hbad => clockMonitorWindow_suspects hl hu hlock hp hc (clockOut_iff.2 hbad),
      fun hbad => clockMonitorWindow_relocks hl hu hlock hp hc (clockOut_iff.2 hbad)⟩
  · have hdue : s.flitDue l c ⟨dir, f, src, dst⟩ := ⟨hl, by simp [flitOk, *], hworks, hf⟩
    exact ⟨fun hstays good => exec_flitReceive_stays hdue hstays good,
      fun hfresh hcredit hstop hown => State.flitLeaves_of_stop hfresh hcredit hstop hown,
      fun u hleaves => ⟨flitReceive_good hdue hleaves, fun hfresh hr => flitReceive_bad hdue hleaves hfresh hr⟩,
      fun hagain hn hwhole => flitReceive_eighth_bad hdue hagain hn hwhole⟩
  · obtain ⟨t, hexec, hport, hothers⟩ := usbLinkUp_sets_rate flip hl hu h1 h5 hlock hj
    exact ⟨t, hexec, by rw [hport], by rw [hport], by rw [hport], by rw [hport], hothers⟩

end Sys2Proof.Machine
end

section
/-! PROOF. Counters that events leave alone, and memory regions: wakes of banks, the slots of the background test and
what they find (R439 to R444). -/

namespace Sys2Proof.Machine

variable {s : State}

/-! ### Registers beside the count of lost events (R86) -/

/-- Queueing an event touches no register but `EVT_LOST` of its domain, whose key lies beyond 2^32. -/
theorem State.reg_event {k : Nat} (hk : k < 2 ^ 32) (d code block arg : Nat) :
    (s.event d code block arg).reg k = s.reg k := by
  have hkey : regKey d 0x1010 = (d + 1) * 2 ^ 32 + 0x1010 := if_pos (.inl ⟨by decide, by decide⟩)
  unfold State.event
  dsimp only
  split
  · rw [State.reg_bump, if_neg (by omega)]; rfl
  · rfl

theorem State.reg_eventOwner {k : Nat} (hk : k < 2 ^ 32) (code block arg : Nat) :
    (s.eventOwner code block arg).reg k = s.reg k := State.reg_event hk ..

theorem State.reg_setService {k : Nat} (hk : k < 2 ^ 32) (b : Nat) : (s.setService b).reg k = s.reg k := by
  cases h : s.flt.service.testBit b with
  | true => rw [State.setService_of_set h]
  | false => rw [State.setService_of_clear h]; exact State.reg_eventOwner hk ..

/-- A counter grows by one (R5). -/
theorem State.reg_bump_one (s : State) (k : Nat) : (s.bump k 1).reg k = counted (s.reg k) := by
  rw [State.reg_bump, if_pos rfl, bump_one_eq_counted]

/-! ### Banks in retention (R440) -/

/-- The state without its physical Hearths and plain registers, which a wake of a bank touches. -/
def State.sansBanks (s : State) : State := { s with phys := [], regs := [] }

theorem State.rest_of_sansBanks {t : State} (h : t.sansBanks = s.sansBanks) :
    { t with phys := s.phys, regs := s.regs } = s :=
  congrArg (fun u : State => { u with phys := s.phys, regs := s.regs }) h

theorem State.wakeBank_sansBanks (s : State) (h b : Nat) : (s.wakeBank h b).sansBanks = s.sansBanks := by
  unfold State.wakeBank
  dsimp only
  split <;> rfl

theorem exec_bankWake {h b : Nat} (hu : hearthOk h = true) (hb : b < 16) :
    exec (.bankWake h b) s = .next (s.wakeBank h b) := by
  change execBankWake h b s = _
  rw [execBankWake, show (hearthOk h && decide (b < 16)) = true by simp [hu, hb], withUnit_true]

theorem bankWake_of_on {h b : Nat} (hu : hearthOk h = true) (hb : b < 16)
    (hon : (s.phy (s.physOf h)).retention.look (fun _ => 0) b ≠ 1) : exec (.bankWake h b) s = .next s := by
  rw [exec_bankWake hu hb, State.wakeBank, if_neg hon]

/-- BANK_WAKE of a bank in retention (R440, R463). -/
theorem bankWake_of_retention {h b : Nat} (hu : hearthOk h = true) (hb : b < 16)
    (hret : (s.phy (s.physOf h)).retention.look (fun _ => 0) b = 1) :
    let p := s.physOf h
    let v := s.phy p
    Completes (exec (.bankWake h b) s) fun t =>
      t.phy p = { v with retention := v.retention.put (fun _ => 0) b 0
                         bankUse := v.bankUse.put (fun _ => 0) b s.time } ∧
      (∀ q, q ≠ p → t.phy q = s.phy q) ∧ t.reg 0x27002C = counted (s.reg 0x27002C) ∧
      (∀ x, x ≠ 0x27002C → t.reg x = s.reg x) ∧ { t with phys := s.phys, regs := s.regs } = s := by
  intro p v
  refine ⟨_, exec_bankWake hu hb, ?_⟩
  have hrest := State.rest_of_sansBanks (s.wakeBank_sansBanks h b)
  rw [State.wakeBank, if_pos hret] at hrest ⊢
  exact ⟨State.phy_setPhy_same .., fun q hq => (State.phy_setPhy ..).trans (if_neg hq), State.reg_bump_one ..,
    fun x hx => (State.reg_bump ..).trans (if_neg hx), hrest⟩

/-! ### The slots of the background test (R442, R443) -/

section
variable (m : MemSys) (r : Nat)

@[simp] theorem MemSys.slotEnded_passes :
    (m.slotEnded r).passes = if r = 65535 then m.passes + 1 else m.passes := by
  unfold MemSys.slotEnded; split <;> rfl

@[simp] theorem MemSys.slotEnded_region : (m.slotEnded r).region = m.region := by
  unfold MemSys.slotEnded; split <;> rfl

@[simp] theorem MemSys.slotEnded_running : (m.slotEnded r).running = m.running := by
  unfold MemSys.slotEnded; split <;> rfl

@[simp] theorem MemSys.slotEnded_stopped : (m.slotEnded r).stopped = m.stopped := by
  unfold MemSys.slotEnded; split <;> rfl

@[simp] theorem MemSys.slotEnded_channels : (m.slotEnded r).channels = m.channels := by
  unfold MemSys.slotEnded; split <;> rfl

end

/-- The state in which the slot that comes now is known to have come (assumption 4). -/
def State.slotSeen (s : State) : State := { s with came := s.came.put (fun _ => 0) 4 s.time }

/-- The memory system once the slot of the next region has come: a region that is tested is under test from now on. -/
def State.slotBegun (s : State) : MemSys :=
  let m := { s.mem with region := (s.mem.region + 1) % 65536 }
  if s.regionSkipped s.mem.region then m.slotEnded s.mem.region else { m with running := some s.mem.region }

/-- A slot that begins wakes banks at most, beside the memory system (R440, R442). -/
theorem State.regionTest_sansBanks (s : State) :
    s.regionTest.sansBanks = { s with mem := s.slotBegun }.sansBanks := by
  have hwakes (t : State) (h : Nat) :
      ((List.range 16).foldl (fun t b => t.wakeBank h b) t).sansBanks = t.sansBanks :=
    foldl_keeps State.sansBanks (fun t b => t.wakeBank_sansBanks h b) _ t
  unfold State.regionTest State.slotBegun
  dsimp only
  split
  · rfl
  · split
    · split
      · exact hwakes _ _
      · rfl
    · rfl

section
variable (hl : s.live = true) (hen : (s.reg 0x2A0004).getLsbD 0 = true) (hidle : s.mem.running = none)
include hl hen hidle

theorem exec_regionTest : exec .regionTest s = .next (s.each 4 15000 State.regionTest) := by
  change execRegionTest s = _
  rw [execRegionTest, withUnit_true, if_neg (by simp [hl, hen, hidle])]

/-- Between two multiples of 15 µs, and a second time at one, no slot begins (R442). -/
theorem regionTest_waits (hdue : ¬ (s.time % 15000 = 0 ∧ s.came.look (fun _ => 0) 4 < s.time)) :
    exec .regionTest s = .next s := by
  rw [exec_regionTest hl hen hidle, State.each_not_due s (by omega)]

/-- REGION_TEST at a multiple of 15 µs (R442, R443). -/
theorem regionTest_begins (hp : s.time % 15000 = 0) (hc : s.came.look (fun _ => 0) 4 < s.time) :
    let r := s.mem.region
    Completes (exec .regionTest s) fun t =>
      t.mem.region = (r + 1) % 65536 ∧
      t.mem.running = (if s.regionSkipped r = true then none else some r) ∧
      t.mem.passes = (if s.regionSkipped r = true ∧ r = 65535 then s.mem.passes + 1 else s.mem.passes) ∧
      t.mem.stopped = s.mem.stopped ∧ t.mem.channels = s.mem.channels ∧
      { t with mem := s.mem, phys := s.phys, regs := s.regs, came := s.came } = s := by
  intro r
  have hexec : exec .regionTest s = .next s.slotSeen.regionTest :=
    (exec_regionTest hl hen hidle).trans (congrArg _ (State.each_due s hp hc))
  refine ⟨_, hexec, ?_⟩
  beta_reduce
  have hsans := s.slotSeen.regionTest_sansBanks
  generalize s.slotSeen.regionTest = t at hsans
  have hmem : t.mem = s.slotBegun := (congrArg State.mem hsans :)
  have hrest : { t with mem := s.mem, phys := s.phys, regs := s.regs, came := s.came } = s :=
    (congrArg (fun u : State => { u with mem := s.mem, phys := s.phys, regs := s.regs, came := s.came }) hsans :)
  rw [hmem, State.slotBegun]
  cases hskip : s.regionSkipped s.mem.region with
  | true => simp [r, hidle, hrest]
  | false => simp [r, hrest]

end

/-! ### The end of a test without failing rows (R443, R444) -/

/-- The state once the slot of region `r` has ended. -/
def State.slotOver (s : State) (r : Nat) : State := { s with mem := { s.mem with running := none }.slotEnded r }

theorem State.regionRead_clean {r : Nat} (h : s.regionUe r = []) : s.regionRead r ⟨[], []⟩ = s := by
  unfold State.regionRead
  rw [h]
  rfl

/-- The one uncorrectable word of a region that had none is remembered and noted. -/
theorem State.regionRead_uncorrectable {r w : Nat} (h : s.regionUe r = []) (hw : w < 512) :
    s.regionRead r ⟨[], [w]⟩ = (s.setRegionUe r w).noteRegionUe (regionOrigin r) r w := by
  have hone : ([w] : List Nat).eraseDups = [w] := rfl
  simp [State.regionRead, h, Nat.mod_eq_of_lt hw, hone]

section
variable {r : Nat} (hr : s.mem.running = some r)
include hr

theorem exec_regionTestDone_passed (errors : WordErrors) :
    exec (.regionTestDone ⟨[], errors⟩) s = .next ((s.regionRead r errors).slotOver r) := by
  change execRegionTestDone ⟨[], errors⟩ s = _
  rw [execRegionTestDone, hr]
  rfl

/-- REGION_TEST_DONE without any error (R443). -/
theorem regionTestDone_passes (hue : s.regionUe r = []) :
    Completes (exec (.regionTestDone ⟨[], ⟨[], []⟩⟩) s) fun t =>
      t.mem.running = none ∧ t.mem.passes = (if r = 65535 then s.mem.passes + 1 else s.mem.passes) ∧
      t.mem.stopped = s.mem.stopped ∧ t.mem.region = s.mem.region ∧ { t with mem := s.mem } = s := by
  refine ⟨_, exec_regionTestDone_passed hr _, ?_⟩
  rw [State.regionRead_clean hue]
  simp [State.slotOver]

/-- REGION_TEST_DONE whose copies find an uncorrectable word of a Hearth store (R439, R443). -/
theorem regionTestDone_notes_word (hue : s.regionUe r = []) {h w : Nat} (hlt : r < 49152)
    (hh : s.logicalOf (r / 1024) = some h) (hw : w < 512) :
    Completes (exec (.regionTestDone ⟨[], ⟨[], [w]⟩⟩) s) fun t =>
      (t.hearth h).storeUe.contains (r % 1024 * 512 + w) = true ∧ t.mem.running = none ∧
      t.reg 0x2A0014 = counted (s.reg 0x2A0014) ∧ (∃ x ∈ t.flt.log.entries, x.kind = 0x10) := by
  have hset : s.setRegionUe r w =
      s.setHearth h { s.hearth h with storeUe := (r % 1024 * 512 + w) :: (s.hearth h).storeUe } := by
    rw [State.setRegionUe, if_pos hlt, hh]
  refine ⟨_, exec_regionTestDone_passed hr _, ?_⟩
  rw [State.regionRead_uncorrectable hue hw, hset]
  generalize hst : s.setHearth h { s.hearth h with storeUe := (r % 1024 * 512 + w) :: (s.hearth h).storeUe } = t
  obtain ⟨x, hx, hkind, -⟩ := t.exists_noted_logFault (regionOrigin r) 0x10 r w 0
  refine ⟨?_, by simp [State.slotOver], ?_, x, ?_, hkind⟩
  · have hhearth : ((t.noteRegionUe (regionOrigin r) r w).slotOver r).hearth h = t.hearth h :=
      (congrArg (State.hearth · h) (State.eventOwner_sansReports ..) :)
    rw [hhearth, ← hst, State.hearth_setHearth_same]
    simp
  · have hreg : t.reg 0x2A0014 = s.reg 0x2A0014 := by rw [← hst]; rfl
    refine (State.reg_eventOwner (by decide) ..).trans ((State.reg_bump_one ..).trans ?_)
    rw [← hreg]; rfl
  · have hflt : ((t.noteRegionUe (regionOrigin r) r w).slotOver r).flt = (t.logFault (regionOrigin r) 0x10 r w 0).flt :=
      State.eventOwner_flt ..
    rw [hflt]
    exact hx.mem

end

/-! ### Failing rows (R441, R444) -/

/-- Failing rows or banks of region `r` are counted, logged and queued; `kept` is 1 if the region stays on its spare. -/
def State.rowsFailed (s : State) (r n kept : Nat) : State :=
  ((s.bump 0x2A0018 1).logFault (regionOrigin r) 0x11 r n kept).eventOwner 0x0F03 0x2A r

/-- The test of the memory that holds region `r` stops, and the region stays on its spare. -/
def State.testStopped (s : State) (r : Nat) : State :=
  { s with mem := { s.mem with stopped := memInstance r :: s.mem.stopped, redirected := r :: s.mem.redirected } }

section
variable {r n kept : Nat}

theorem State.reg_rowsFailed : (s.rowsFailed r n kept).reg 0x2A0018 = counted (s.reg 0x2A0018) :=
  (State.reg_eventOwner (by decide) ..).trans (s.reg_bump_one 0x2A0018)

theorem State.rowsFailed_flt :
    (s.rowsFailed r n kept).flt = (s.logFault (regionOrigin r) 0x11 r n kept).flt := State.eventOwner_flt ..

theorem State.rowsFailed_sansReports : (s.rowsFailed r n kept).sansReports = s.sansReports :=
  State.eventOwner_sansReports ..

end

/-- A failing row of a Hearth's bank takes a spare row while one is left (R441). -/
theorem State.replaceRow_of_spare {p b : Nat} (h : (s.phy p).spareRows.look (fun _ => 0) b < 8) :
    s.replaceRow p b =
      let n := (s.phy p).spareRows.look (fun _ => 0) b
      (s.setPhy p { s.phy p with spareRows := (s.phy p).spareRows.put (fun _ => 0) b (n + 1) }).logFault
        (originHearth p) 0x12 (p + b * 256) n (n + 1) := by
  rw [State.replaceRow]
  exact if_pos h

section
variable {r : Nat} (hr : s.mem.running = some r) (hue : s.regionUe r = [])
include hr hue

theorem exec_regionTestDone_failed {rows : List Nat} (hrows : rows ≠ []) :
    exec (.regionTestDone ⟨rows, ⟨[], []⟩⟩) s = .next
      (if 49152 ≤ r then
        (((s.slotOver r).rowsFailed r rows.length 1).testStopped r).setService 5
       else (rows.map (· % 16)).foldl (fun t b => t.replaceRow (r / 1024) b)
         ((s.slotOver r).rowsFailed r rows.length 0)) := by
  change execRegionTestDone ⟨rows, ⟨[], []⟩⟩ s = _
  rw [execRegionTestDone, hr]
  dsimp only
  rw [State.regionRead_clean hue, withUnit_true, if_neg hrows]
  by_cases hkeep : 49152 ≤ r
  · simp only [hkeep, decide_true, if_true]; rfl
  · simp only [hkeep, decide_false, if_false]; rfl

theorem regionTestDone_takes_spare {b : Nat} (hb : b < 16) (hlt : r < 49152)
    (hspare : (s.phy (r / 1024)).spareRows.look (fun _ => 0) b < 8) :
    Completes (exec (.regionTestDone ⟨[b], ⟨[], []⟩⟩) s) fun t =>
      t.mem.running = none ∧ t.reg 0x2A0018 = counted (s.reg 0x2A0018) ∧
      (t.phy (r / 1024)).spareRows.look (fun _ => 0) b = (s.phy (r / 1024)).spareRows.look (fun _ => 0) b + 1 ∧
      (t.flt.log.entries.take 2).map LogEntry.kind = [0x12, 0x11] ∧ t.flt.service = s.flt.service := by
  refine ⟨_, exec_regionTestDone_failed hr hue (List.cons_ne_nil b []), ?_⟩
  rw [if_neg (Nat.not_le.2 hlt), List.map_cons, List.map_nil, List.foldl_cons, List.foldl_nil, Nat.mod_eq_of_lt hb,
    List.length_singleton]
  have hsans := State.rowsFailed_sansReports (s := s.slotOver r) (r := r) (n := 1) (kept := 0)
  have hreg := State.reg_rowsFailed (s := s.slotOver r) (r := r) (n := 1) (kept := 0)
  have hflt := State.rowsFailed_flt (s := s.slotOver r) (r := r) (n := 1) (kept := 0)
  generalize (s.slotOver r).rowsFailed r 1 0 = t at hsans hreg hflt
  have hphy (p : Nat) : t.phy p = s.phy p := (congrArg (State.phy · p) hsans :)
  have hmem : t.mem = (s.slotOver r).mem := (congrArg State.mem hsans :)
  rw [State.replaceRow_of_spare (by rwa [hphy])]
  refine ⟨?_, hreg, ?_, ?_, (congrArg Faults.service hflt :)⟩
  · change t.mem.running = none
    simp [hmem, State.slotOver]
  · change ((t.setPhy _ _).phy _).spareRows.look _ _ = _
    rw [State.phy_setPhy_same, SMap.look_put_same, hphy]
  · simp [State.logFault, Log.append, hflt, List.take_take]

/-- A failure elsewhere stops the memory's test and keeps the region on its spare (R444). -/
theorem regionTestDone_stops_memory {rows : List Nat} (hrows : rows ≠ []) (hge : 49152 ≤ r) :
    Completes (exec (.regionTestDone ⟨rows, ⟨[], []⟩⟩) s) fun t =>
      t.mem.running = none ∧ t.mem.stopped.contains (memInstance r) = true ∧ t.mem.redirected.contains r = true ∧
      t.reg 0x2A0018 = counted (s.reg 0x2A0018) ∧ t.flt.service.testBit 5 = true ∧ t.phys = s.phys := by
  refine ⟨_, exec_regionTestDone_failed hr hue hrows, ?_⟩
  rw [if_pos hge]
  have hsans := State.rowsFailed_sansReports (s := s.slotOver r) (r := r) (n := rows.length) (kept := 1)
  have hreg := State.reg_rowsFailed (s := s.slotOver r) (r := r) (n := rows.length) (kept := 1)
  generalize (s.slotOver r).rowsFailed r rows.length 1 = t at hsans hreg
  have hmem : t.mem = (s.slotOver r).mem := (congrArg State.mem hsans :)
  have hphys : t.phys = s.phys := (congrArg State.phys hsans :)
  have hset := State.setService_sansReports (s := t.testStopped r) 5
  have hsetMem : ((t.testStopped r).setService 5).mem = (t.testStopped r).mem := (congrArg State.mem hset :)
  have hsetPhys : ((t.testStopped r).setService 5).phys = t.phys := (congrArg State.phys hset :)
  beta_reduce
  rw [hsetMem, hsetPhys, State.reg_setService (by decide), State.testStopped]
  refine ⟨?_, by simp, by simp, hreg, State.testBit_setService _ 5, hphys⟩
  simp [hmem, State.slotOver]

end

end Sys2Proof.Machine
end

section
/-! PROOF. The patrol scrub: what the read of a line finds, and what it counts (R446 to R449). -/

namespace Sys2Proof.Machine

/-- Dropping duplicates lengthens no list. -/
theorem length_eraseDups_le {α : Type} [BEq α] (l : List α) : l.eraseDups.length ≤ l.length := by
  induction hn : l.length using Nat.strong_induction_on generalizing l with
  | _ n ih =>
    cases l with
    | nil => simp
    | cons a l =>
      have hfilter : (l.filter fun b => !b == a).length ≤ l.length := List.length_filter_le ..
      rw [List.length_cons] at hn
      have hrest := ih _ (by omega) (l.filter fun b => !b == a) rfl
      rw [List.eraseDups_cons, List.length_cons]
      omega

variable {s : State} {ch : Nat}

/-! ### Channels -/

theorem State.channel_setChannel (s : State) (ch c : Nat) (v : Channel) :
    (s.setChannel ch v).channel c = if c = ch then v else s.channel c := SMap.look_put ..

@[simp] theorem State.channel_setChannel_same (s : State) (ch : Nat) (v : Channel) :
    (s.setChannel ch v).channel ch = v := by
  rw [State.channel_setChannel, if_pos rfl]

theorem State.channel_setChannel_of_ne (s : State) {ch c : Nat} (v : Channel) (h : c ≠ ch) :
    (s.setChannel ch v).channel c = s.channel c := by
  rw [State.channel_setChannel, if_neg h]

/-! ### The words of a line (R446, R447) -/

/-- A word with fewer than two corrected addresses in its block is counted, and its block is not remapped (R446). -/
theorem State.dramCorrected_of_few {w : Nat}
    (h : ((s.channel ch).seen.filter fun e => e.1 == w / 8192).length < 2) :
    let v := s.channel ch
    ∃ seen, s.dramCorrected ch w =
      (s.setChannel ch { v with corrected := v.corrected + 1, seen := seen }).bump 0x2A001C 1 := by
  intro v
  refine ⟨_, if_neg ?_⟩
  rintro ⟨hthree, hnew, -⟩
  rw [if_neg (by simpa using hnew), List.filter_cons_of_pos (by simp), List.length_cons] at hthree
  omega

/-- An uncorrectable word of a channel with fewer than three others is counted, and the channel stays in service (R447,
R484). -/
theorem State.dramUeAt_of_few {off : Nat} (h : (s.channel ch).ueBlocks.length < 3) :
    let v := s.channel ch
    let t := s.dramUeAt ch off
    t.channel ch = { v with
      uncorrectable := v.uncorrectable + 1, ueBlocks := (off / 65536, s.time) :: v.ueBlocks } ∧
    t.reg 0x2A0020 = counted (s.reg 0x2A0020) ∧ t.dramUe = s.dramUe ∧ t.dram = s.dram := by
  intro v t
  let counts : State := s.setChannel ch { v with
    uncorrectable := v.uncorrectable + 1, ueBlocks := (off / 65536, s.time) :: v.ueBlocks }
  let arg := ch + off / 8 % 2 ^ 27 * 32
  have hserves : t =
      ((counts.logFault (originStop (ch / 2)) 0x13 arg 0 0).bump 0x2A0020 1).eventOwner 0x0F05 0x2A arg := by
    refine if_neg (Nat.not_le.2 ?_)
    calc _ ≤ _ := length_eraseDups_le _
      _ = _ := List.length_map ..
      _ ≤ _ := List.length_filter_le ..
      _ < 4 := by rw [List.length_cons]; omega
  have hsans : t.sansReports = counts.sansReports := by rw [hserves]; exact State.eventOwner_sansReports ..
  refine ⟨(congrArg (State.channel · ch) hsans :).trans (State.channel_setChannel_same ..), ?_,
    (congrArg State.dramUe hsans :), (congrArg State.dram hsans :)⟩
  rw [hserves, State.reg_eventOwner (by decide), State.reg_bump_one]
  rfl

/-! ### SCRUB_LINE (R448) -/

/-- The channel's next line comes under the scrubber: it is enabled, and the channel is in service. -/
structure State.scrubs (s : State) (ch : Nat) : Prop where
  unit    : channelOk ch = true
  live    : s.live = true
  enabled : (s.reg 0x2A0004).getLsbD 1 = true
  serves  : s.flt.retiredCh.contains ch = false

/-- The index among the words of all channels of word `i` of the line that a channel reads next. -/
def State.lineWord (s : State) (ch i : Nat) : Nat := ch * (chBytes / 8) + (s.channel ch).scrubLine * 8 + i

/-- The words of that line that are known to be uncorrectable. -/
def State.lineUe (s : State) (ch : Nat) : List Nat :=
  (List.range 8).filter fun i => s.dramUe.contains (s.lineWord ch i)

/-- The channel's next line is its last, which ends a pass. -/
def Channel.atEnd (v : Channel) : Bool := decide (v.scrubLine + 1 = chLines)

/-- The channel once its next line has been read at device time `now`. -/
def Channel.lineRead (v : Channel) (now : Nat) : Channel :=
  { v with scrubLine := if v.atEnd then 0 else v.scrubLine + 1
           scrubFrom := now + scrubGap
           passes := if v.atEnd then v.passes + 1 else v.passes }

/-- The channel has read its next line, in which the words `fresh` have become uncorrectable. -/
def State.lineTaken (s : State) (ch : Nat) (fresh : List Nat) : State :=
  { s with dramUe := s.dramUe ++ fresh.map (s.lineWord ch) }.setChannel ch ((s.channel ch).lineRead s.time)

theorem State.lineTaken_nil (s : State) (ch : Nat) :
    s.lineTaken ch [] = s.setChannel ch ((s.channel ch).lineRead s.time) := by
  simp [State.lineTaken]

/-- The corrected and the uncorrectable words of line `line` are counted. -/
def State.wordsCounted (s : State) (ch line : Nat) (good bad : List Nat) : State :=
  bad.foldl (fun t i => t.dramUeAt ch (line * 64 + 8 * i)) (good.foldl (fun t i => t.dramCorrected ch (line * 8 + i)) s)

/-- At the end of a pass the corrected addresses are forgotten (R446). -/
def State.passOver (s : State) (ch : Nat) (atEnd : Bool) : State :=
  if atEnd then s.setChannel ch { s.channel ch with seen := [] } else s

/-- The errors that the link ECC has corrected are counted. -/
def State.linkCounted (s : State) (n : Nat) : State := if n = 0 then s else s.bump 0x2A0024 n

theorem State.channel_passOver (s : State) (ch c : Nat) (atEnd : Bool) : (s.passOver ch atEnd).channel c =
    if c = ch ∧ atEnd = true then { s.channel ch with seen := [] } else s.channel c := by
  cases atEnd with
  | false => simp [State.passOver]
  | true => simp [State.passOver, State.channel_setChannel]

theorem State.corrected_passOver (s : State) (ch : Nat) (atEnd : Bool) :
    ((s.passOver ch atEnd).channel ch).corrected = (s.channel ch).corrected := by
  rw [State.channel_passOver]; split <;> rfl

theorem State.uncorrectable_passOver (s : State) (ch : Nat) (atEnd : Bool) :
    ((s.passOver ch atEnd).channel ch).uncorrectable = (s.channel ch).uncorrectable := by
  rw [State.channel_passOver]; split <;> rfl

/-- The state without its memory system and its plain registers. -/
def State.sansScrub (s : State) : State := { s with mem := {}, regs := [] }

theorem State.passOver_sansScrub (s : State) (ch : Nat) (atEnd : Bool) :
    (s.passOver ch atEnd).sansScrub = s.sansScrub := by
  unfold State.passOver; split <;> rfl

theorem State.reg_passOver (s : State) (ch : Nat) (atEnd : Bool) (k : Nat) : (s.passOver ch atEnd).reg k = s.reg k := by
  unfold State.passOver; split <;> rfl

theorem State.linkCounted_sansScrub (s : State) (n : Nat) : (s.linkCounted n).sansScrub = s.sansScrub := by
  unfold State.linkCounted; split <;> rfl

theorem State.channel_linkCounted (s : State) (n c : Nat) : (s.linkCounted n).channel c = s.channel c := by
  unfold State.linkCounted; split <;> rfl

/-- The counter of link errors grows by those that the ECC corrected, and no other register changes. -/
theorem State.reg_linkCounted (s : State) (n k : Nat) : (s.linkCounted n).reg k =
    if k = 0x2A0024 then .ofNat 32 (min ((s.reg 0x2A0024).toNat + n) 0xFFFFFFFF) else s.reg k := by
  unfold State.linkCounted
  split
  · next hn =>
    have hlt := (s.reg 0x2A0024).isLt
    have hsame : min ((s.reg 0x2A0024).toNat + n) 0xFFFFFFFF = (s.reg 0x2A0024).toNat := by omega
    rw [hsame, word_ofNat_toNat]
    split
    · next hk => rw [hk]
    · rfl
  · exact State.reg_bump ..

/-- What SCRUB_LINE does to a state in which the line is due. -/
def State.scrubbed (s : State) (ch : Nat) (words : WordErrors) (n : Nat) : State :=
  let bad := (s.lineUe ch ++ words.uncorrectable.map (· % 8)).eraseDups
  let good := (words.corrected.map (· % 8)).eraseDups.filter fun i => !bad.contains i
  (((s.lineTaken ch (bad.filter fun i => !(s.lineUe ch).contains i)).wordsCounted ch (s.channel ch).scrubLine good
    bad).passOver ch (s.channel ch).atEnd).linkCounted n

theorem execScrubLine_eq (s : State) (ch : Nat) (words : WordErrors) (n : Nat) :
    execScrubLine ch ⟨words, none, n⟩ s = withUnit (channelOk ch)
      (if !s.live || !(s.reg 0x2A0004).getLsbD 1 || s.flt.retiredCh.contains ch ||
        decide (s.time < (s.channel ch).scrubFrom) then s else s.scrubbed ch words n) := rfl

theorem State.not_mayScrub_iff (h : s.scrubs ch) :
    (!s.live || !(s.reg 0x2A0004).getLsbD 1 || s.flt.retiredCh.contains ch ||
      decide (s.time < (s.channel ch).scrubFrom)) = decide (s.time < (s.channel ch).scrubFrom) := by
  rw [h.live, h.enabled, h.serves]; rfl

/-- Before the channel's next line is due nothing is read (assumption 4). -/
theorem scrubLine_waits (h : s.scrubs ch) (hwait : s.time < (s.channel ch).scrubFrom) (x : LineErrors) :
    exec (.scrubLine ch x) s = .next s := by
  change execScrubLine ch x s = _
  rw [execScrubLine, h.unit, withUnit_true, State.not_mayScrub_iff h, if_pos (by simpa using hwait)]

section
variable (h : s.scrubs ch) (hdue : (s.channel ch).scrubFrom ≤ s.time)
  (hclean : ∀ i, i < 8 → s.dramUe.contains (s.lineWord ch i) = false)
include h hdue hclean

/-- The read of a line in which no uncorrectable word is known. -/
theorem exec_scrubLine (words : WordErrors) (n : Nat) :
    let v := s.channel ch
    let bad := (words.uncorrectable.map (· % 8)).eraseDups
    let good := (words.corrected.map (· % 8)).eraseDups.filter fun i => !bad.contains i
    exec (.scrubLine ch ⟨words, none, n⟩) s =
      .next ((((s.lineTaken ch bad).wordsCounted ch v.scrubLine good bad).passOver ch v.atEnd).linkCounted n) := by
  intro v bad good
  have hknown : s.lineUe ch = [] :=
    List.filter_eq_nil_iff.2 fun i hi => by simp [-List.contains_eq_mem, hclean i (List.mem_range.1 hi)]
  have hfresh : (bad.filter fun i => !([] : List Nat).contains i) = bad := by simp
  change execScrubLine ch ⟨words, none, n⟩ s = _
  rw [execScrubLine_eq, h.unit, withUnit_true, State.not_mayScrub_iff h, if_neg (by simpa using hdue), State.scrubbed,
    hknown, List.nil_append]
  exact congrArg (fun l => Host.Outcome.next
    ((((s.lineTaken ch l).wordsCounted ch v.scrubLine good bad).passOver ch v.atEnd).linkCounted n)) hfresh

/-- SCRUB_LINE of a line without errors (R448). -/
theorem scrubLine_of_error_free (n : Nat) :
    let v := s.channel ch
    let from' := s.time + scrubGap
    Completes (exec (.scrubLine ch ⟨⟨[], []⟩, none, n⟩) s) fun t =>
      (v.scrubLine + 1 ≠ chLines → t.channel ch = { v with scrubLine := v.scrubLine + 1, scrubFrom := from' }) ∧
      (v.scrubLine + 1 = chLines →
        t.channel ch = { v with scrubLine := 0, scrubFrom := from', passes := v.passes + 1, seen := [] }) ∧
      t.reg 0x2A0024 = .ofNat 32 (min ((s.reg 0x2A0024).toNat + n) 0xFFFFFFFF) ∧
      (∀ x, x ≠ 0x2A0024 → t.reg x = s.reg x) ∧
      (∀ c, c ≠ ch → t.channel c = s.channel c) ∧ { t with mem := s.mem, regs := s.regs } = s := by
  intro v from'
  have hexec : exec (.scrubLine ch ⟨⟨[], []⟩, none, n⟩) s =
      .next (((s.setChannel ch (v.lineRead s.time)).passOver ch v.atEnd).linkCounted n) := by
    rw [exec_scrubLine h hdue hclean ⟨[], []⟩ n, ← State.lineTaken_nil]; rfl
  refine ⟨_, hexec, ?_⟩
  beta_reduce
  have hchan := State.channel_setChannel_same s ch (v.lineRead s.time)
  have hsans := ((State.linkCounted_sansScrub _ n).trans (State.passOver_sansScrub _ ch v.atEnd)).trans
    (rfl : (s.setChannel ch (v.lineRead s.time)).sansScrub = s.sansScrub)
  refine ⟨fun hmore => ?_, fun hend => ?_, ?_, fun x hx => ?_, fun c hc => ?_,
    congrArg (fun u : State => { u with mem := s.mem, regs := s.regs }) hsans⟩
  · have hat : v.atEnd = false := decide_eq_false hmore
    rw [State.channel_linkCounted, State.channel_passOver, if_neg (by simp [hat]), hchan, Channel.lineRead, hat]
    rfl
  · have hat : v.atEnd = true := decide_eq_true hend
    rw [State.channel_linkCounted, State.channel_passOver, if_pos ⟨rfl, hat⟩, hchan, Channel.lineRead, hat]
    rfl
  · rw [State.reg_linkCounted, if_pos rfl, State.reg_passOver]; rfl
  · rw [State.reg_linkCounted, if_neg hx, State.reg_passOver]; rfl
  · rw [State.channel_linkCounted, State.channel_passOver, if_neg (by simp [hc]), State.channel_setChannel_of_ne _ _ hc]

/-- SCRUB_LINE of a line with one correctable word, in a block with fewer than two others (R446). -/
theorem scrubLine_counts_corrected {i : Nat} (hi : i < 8)
    (hfew : ((s.channel ch).seen.filter fun e => e.1 == ((s.channel ch).scrubLine * 8 + i) / 8192).length < 2) :
    Completes (exec (.scrubLine ch ⟨⟨[i], []⟩, none, 0⟩) s) fun t =>
      (t.channel ch).corrected = (s.channel ch).corrected + 1 ∧
      (t.channel ch).uncorrectable = (s.channel ch).uncorrectable ∧ t.reg 0x2A001C = counted (s.reg 0x2A001C) := by
  have hexec : exec (.scrubLine ch ⟨⟨[i], []⟩, none, 0⟩) s =
      .next (((s.setChannel ch ((s.channel ch).lineRead s.time)).dramCorrected ch
        ((s.channel ch).scrubLine * 8 + i)).passOver ch (s.channel ch).atEnd) := by
    have hgood : (([i].map (· % 8)).eraseDups.filter fun j => !([] : List Nat).contains j) = [i] := by
      rw [List.map_singleton, Nat.mod_eq_of_lt hi]; rfl
    rw [exec_scrubLine h hdue hclean ⟨[i], []⟩ 0, ← State.lineTaken_nil]
    exact congrArg (fun l => Host.Outcome.next
      (((s.lineTaken ch []).wordsCounted ch (s.channel ch).scrubLine l []).passOver ch (s.channel ch).atEnd)) hgood
  have hread := State.channel_setChannel_same s ch ((s.channel ch).lineRead s.time)
  obtain ⟨seen, hcorrected⟩ := State.dramCorrected_of_few (s := s.setChannel ch ((s.channel ch).lineRead s.time))
    (w := (s.channel ch).scrubLine * 8 + i) (by rw [hread]; exact hfew)
  refine ⟨_, hexec, ?_⟩
  beta_reduce
  rw [hcorrected, hread, State.corrected_passOver, State.uncorrectable_passOver, State.reg_passOver, State.reg_bump_one]
  have hchan (v : Channel) (u : State) : ((u.setChannel ch v).bump 0x2A001C 1).channel ch = v :=
    State.channel_setChannel_same u ch v
  rw [hchan]
  exact ⟨rfl, rfl, rfl⟩

/-- SCRUB_LINE of a line with one word that has become uncorrectable, of a channel with fewer than three others (R447).
-/
theorem scrubLine_notes_uncorrectable {i : Nat} (hi : i < 8) (hfew : (s.channel ch).ueBlocks.length < 3) :
    Completes (exec (.scrubLine ch ⟨⟨[], [i]⟩, none, 0⟩) s) fun t =>
      t.dramUe.contains (s.lineWord ch i) = true ∧
      (t.channel ch).uncorrectable = (s.channel ch).uncorrectable + 1 ∧
      (t.channel ch).corrected = (s.channel ch).corrected ∧ t.reg 0x2A0020 = counted (s.reg 0x2A0020) ∧
      t.dram = s.dram := by
  have hexec : exec (.scrubLine ch ⟨⟨[], [i]⟩, none, 0⟩) s =
      .next (((s.lineTaken ch [i]).dramUeAt ch ((s.channel ch).scrubLine * 64 + 8 * i)).passOver ch
        (s.channel ch).atEnd) := by
    have hbad : ([i].map (· % 8)).eraseDups = [i] := by rw [List.map_singleton, Nat.mod_eq_of_lt hi]; rfl
    rw [exec_scrubLine h hdue hclean ⟨[], [i]⟩ 0]
    exact congrArg (fun l => Host.Outcome.next
      (((s.lineTaken ch l).wordsCounted ch (s.channel ch).scrubLine [] l).passOver ch (s.channel ch).atEnd)) hbad
  have hread : (s.lineTaken ch [i]).channel ch = (s.channel ch).lineRead s.time := State.channel_setChannel_same ..
  refine ⟨_, hexec, ?_⟩
  beta_reduce
  obtain ⟨hchan, hreg, hue, hdram⟩ := State.dramUeAt_of_few (s := s.lineTaken ch [i]) (ch := ch)
    (off := (s.channel ch).scrubLine * 64 + 8 * i) (by rw [hread]; exact hfew)
  generalize (s.lineTaken ch [i]).dramUeAt ch ((s.channel ch).scrubLine * 64 + 8 * i) = u at *
  have hover := u.passOver_sansScrub ch (s.channel ch).atEnd
  have hoverUe : (u.passOver ch (s.channel ch).atEnd).dramUe = u.dramUe := (congrArg State.dramUe hover :)
  have hoverDram : (u.passOver ch (s.channel ch).atEnd).dram = u.dram := (congrArg State.dram hover :)
  rw [State.corrected_passOver, State.uncorrectable_passOver, State.reg_passOver, hoverUe, hoverDram, hchan, hread,
    hreg, hue, hdram]
  exact ⟨by simp [State.lineTaken, State.setChannel], rfl, rfl, rfl, rfl⟩

end

/-- Settles O39: each row by the lemma of what it does. -/
theorem memoryTestAndScrubAct : Obligations.MemoryTestAndScrubAct := by
  unfold Obligations.MemoryTestAndScrubAct
  intro s
  refine ⟨fun h b hu hb => ⟨bankWake_of_retention hu hb, bankWake_of_on hu hb⟩, fun hl hen hidle => ?_,
    fun r hr hue => ⟨fun h w hlt hh hw => regionTestDone_notes_word hr hue hlt hh hw, regionTestDone_passes hr hue,
      fun b hb hlt hspare => regionTestDone_takes_spare hr hue hb hlt hspare,
      fun rows hrows hge => regionTestDone_stops_memory hr hue hrows hge⟩,
    fun ch hu hl hen hserves => ?_⟩
  · exact ⟨regionTest_waits hl hen hidle, fun ⟨hp, hc⟩ => regionTest_begins hl hen hidle hp hc⟩
  · have hscrubs : s.scrubs ch := ⟨hu, hl, hen, hserves⟩
    exact ⟨scrubLine_waits hscrubs, fun hdue hclean => ⟨scrubLine_of_error_free hscrubs hdue hclean,
      fun i hi hfew => scrubLine_counts_corrected hscrubs hdue hclean hi hfew,
      fun i hi hfew => scrubLine_notes_uncorrectable hscrubs hdue hclean hi hfew⟩⟩

end Sys2Proof.Machine
end

section
/-! PROOF. What an image that passes VERIFY satisfies: its signatures, its part, its Cords and their power (R34, R45,
R51, R53, R55). -/

namespace Sys2Proof.Machine

/-! ### Checks and lists of checks (R53, R55) -/

theorem req_eq_none {ok : Bool} {result off : Nat} : req ok result off = none ↔ ok = true := by
  cases ok <;> simp [req]

theorem firstBad_eq_none {cs : List Bad} : firstBad cs = none ↔ ∀ c ∈ cs, c = none := by
  simp [firstBad]

variable {s : State} {d : List Byte}

/-! ### Signatures and part (R29, R51) -/

theorem signed_of_checkSigned {o : OwnerRec} (h : checkSigned d o = none) :
    let n := leAt d 12 4
    ecdsaOk (o.ecdsaKey, o.lmsKey) (d.take n) ((d.drop n).take trailerLen) = true ∧
    lmsOk (o.ecdsaKey, o.lmsKey) (d.take n) ((d.drop n).take trailerLen) = true ∧ leAt d 32 4 = 0x09600040 := by
  simp only [checkSigned, firstBad_eq_none, List.forall_mem_cons, req_eq_none] at h
  obtain ⟨hecdsa, hlms, -, hpart, -⟩ := h
  exact ⟨hecdsa, hlms, by simpa using hpart⟩

/-! ### Hearths of the Cords (R34) -/

/-- Two CORD sections name no Hearth in common. -/
def cordsApart (d : List Byte) (x y : Sec) : Prop := leAt d (x.off + 8) 8 &&& leAt d (y.off + 8) 8 = 0

theorem cordsApart_of_checkOverlap {earlier : List Sec} {x y : Sec} (h : checkOverlap d earlier x = none)
    (hy : y ∈ earlier) : cordsApart d y x := by
  simp only [checkOverlap, firstBad_eq_none, List.forall_mem_cons, req_eq_none] at h
  obtain ⟨hmask, -⟩ := h
  simp only [Bool.not_eq_true', List.any_eq_false, bne_iff_ne, ne_eq, not_not] at hmask
  exact hmask y hy

/-- Each CORD section is checked against all before it. -/
theorem pairwise_of_checkOverlaps {xs earlier : List Sec} (h : checkOverlaps d earlier xs = none) :
    xs.Pairwise (cordsApart d) ∧ ∀ y ∈ earlier, ∀ x ∈ xs, cordsApart d y x := by
  induction xs generalizing earlier with
  | nil => simp
  | cons x xs ih =>
    rw [checkOverlaps] at h
    split at h
    · cases h
    · next hx =>
      obtain ⟨hpairs, hcross⟩ := ih h
      rw [List.pairwise_cons]
      refine ⟨⟨hcross x (List.mem_cons_self ..), hpairs⟩, fun y hy z hz => ?_⟩
      rcases List.mem_cons.1 hz with rfl | hz
      · exact cordsApart_of_checkOverlap hx hy
      · exact hcross y (List.mem_cons_of_mem x hy) z hz

/-! ### Reserves and ranges of the Cords (R33, R37, R45) -/

/-- Every running sum of the reserves stays within the cap. -/
theorem sum_le_of_checkReserves {cap sum : Nat} {xs : List Sec} (h : checkReserves d cap sum xs = none) :
    sum + (xs.map fun x => leAt d (x.off + 4) 4).sum ≤ max sum cap := by
  induction xs generalizing sum with
  | nil => simp
  | cons x xs ih =>
    rw [checkReserves] at h
    split at h
    · cases h
    · next hcap =>
      have hrest := ih h
      rw [List.map_cons, List.sum_cons]
      omega

theorem cord_of_checkCordRange {x : Sec} (h : checkCordRange d x = none) :
    leAt d x.off 1 = x.inst ∧ leAt d (x.off + 1) 1 < 4 ∧ leAt d (x.off + 8) 8 ≠ 0 := by
  simp only [checkCordRange, firstBad_eq_none, List.forall_mem_cons, req_eq_none] at h
  obtain ⟨hinst, hhost, hhearths, -⟩ := h
  rw [Bool.and_eq_true] at hhearths
  exact ⟨by simpa using hinst, by simpa using hhost, by simpa using hhearths.1⟩

theorem cords_of_checkRange (h : checkRange d = none) : ∀ x ∈ secsOf d 3, checkCordRange d x = none := by
  simp only [checkRange, firstBad_eq_none, List.forall_mem_cons] at h
  obtain ⟨-, -, -, -, hcords, -⟩ := h
  exact List.findSome?_eq_none_iff.1 hcords

/-- What the checks of VERIFY ensure. -/
theorem facts_of_checkImage (h : s.checkImage d = none) :
    let n := leAt d 12 4
    let o := s.trust.owner
    o.isDefault = false ∧ ecdsaOk (o.ecdsaKey, o.lmsKey) (d.take n) ((d.drop n).take trailerLen) = true ∧
    lmsOk (o.ecdsaKey, o.lmsKey) (d.take n) ((d.drop n).take trailerLen) = true ∧ leAt d 32 4 = 0x09600040 ∧
    (secsOf d 3).Pairwise (cordsApart d) ∧
    15000 + ((secsOf d 3).map fun x => leAt d (x.off + 4) 4).sum ≤ max 15000 (s.loader.capW * 1000) ∧
    (∀ x ∈ secsOf d 3, leAt d x.off 1 = x.inst ∧ leAt d (x.off + 1) 1 < 4 ∧ leAt d (x.off + 8) 8 ≠ 0) := by
  intro n o
  rw [State.checkImage] at h
  split at h
  · cases h
  · next howner =>
    simp only [firstBad_eq_none, List.forall_mem_cons] at h
    obtain ⟨-, hsigned, hoverlaps, hrange, -, -, hreserves, -⟩ := h
    obtain ⟨hecdsa, hlms, hpart⟩ := signed_of_checkSigned hsigned
    exact ⟨by simpa using howner, hecdsa, hlms, hpart, (pairwise_of_checkOverlaps hoverlaps).1,
      sum_le_of_checkReserves hreserves, fun x hx => cord_of_checkCordRange (cords_of_checkRange hrange x hx)⟩

end Sys2Proof.Machine
end

section
/-! PROOF. The commands by which a host drives the Lay loader, and the end of a VERIFY (R52 to R55, R58, R60). -/

namespace Sys2Proof.Machine

variable {s : State} {d : Nat}

/-! ### Writes to the loader block (R52, R516) -/

/-- A write that is not logged has its effect and nothing else. -/
theorem State.hostWrite_unlogged {a : Nat} (h : s.mayWrite d a) (hlog : loggedReg a = false) (w : Word)
    (body : State → State) : s.hostWrite d a w body = body s := by
  obtain ⟨-, hlive, hsees⟩ := h
  rw [State.hostWrite, hlive, hsees, State.loggedWrite, hlog]
  rfl

section
variable (h : s.mayWrite d 0x200000)
include h

theorem exec_layOpen : exec (.layOpen d) s = .next s.layOpen := by
  change execLayOpen d s = _
  rw [execLayOpen, h.1, withUnit_true, State.layWrite, State.hostWrite_unlogged h rfl]

theorem exec_layCancel : exec (.layCancel d) s = .next s.layCancel := by
  change execLayCancel d s = _
  rw [execLayCancel, h.1, withUnit_true, State.layWrite, State.hostWrite_unlogged h rfl]

theorem exec_layVerify : exec (.layVerify d) s = .next s.layVerify := by
  change execLayVerify d s = _
  rw [execLayVerify, h.1, withUnit_true, State.layWrite, State.hostWrite_unlogged h rfl]

theorem exec_layApply (policy : Nat) : exec (.layApply d policy) s = .next (s.layApply policy) := by
  change execLayApply d policy s = _
  rw [execLayApply, h.1, withUnit_true, State.layWrite, State.hostWrite_unlogged h rfl]

end

theorem exec_layData (h : s.mayWrite d 0x200008) (w : Word) : exec (.layData d w) s = .next (s.layData w) := by
  change execLayData d w s = _
  rw [execLayData, h.1, withUnit_true, State.layWrite, State.hostWrite_unlogged h rfl]

/-- A command whose effect is on the loader alone. -/
theorem completes_of_modLoader {i : Instr} {f : Loader → Loader} (h : exec i s = .next (s.modLoader f)) :
    Completes (exec i s) fun t => t.loader = f s.loader ∧ { t with loader := s.loader } = s := ⟨_, h, rfl, rfl⟩

/-! ### OPEN, CANCEL, VERIFY and APPLY (R52, R58, R60) -/

section
variable (h : s.mayWrite d 0x200000)
include h

theorem layOpen_of_busy (hb : s.loaderBusy = true) : exec (.layOpen d) s = .next s := by
  rw [exec_layOpen h, State.layOpen, if_pos hb]

theorem layCancel_of_busy (hb : s.loaderBusy = true) : exec (.layCancel d) s = .next s := by
  rw [exec_layCancel h, State.layCancel, if_pos hb]

theorem exec_layOpen_of_idle (hb : s.loaderBusy = false) : exec (.layOpen d) s =
    .next (s.modLoader fun l => { l with state := 1, count := 0, tooBig := false, next := none }) := by
  rw [exec_layOpen h, State.layOpen, if_neg (by simp [hb])]

theorem exec_layCancel_of_idle (hb : s.loaderBusy = false) : exec (.layCancel d) s =
    .next (s.modLoader fun l => { l with state := 0, next := none }) := by
  rw [exec_layCancel h, State.layCancel, if_neg (by simp [hb])]

theorem exec_layVerify_of_receiving (hst : s.loader.state = 1) : exec (.layVerify d) s =
    .next (s.modLoader fun l => { l with state := 2, capW := s.drg.capW }) := by
  rw [exec_layVerify h, State.layVerify, if_pos hst]

theorem layVerify_of_not_receiving (hst : s.loader.state ≠ 1) : exec (.layVerify d) s = .next s := by
  rw [exec_layVerify h, State.layVerify, if_neg hst]

/-- APPLY needs an image that has passed VERIFY. -/
theorem layApply_of_not_verified (hst : s.loader.state ≠ 3 ∨ s.loader.next = none) (policy : Nat) :
    exec (.layApply d policy) s = .next s := by
  rw [exec_layApply h, State.layApply]
  split
  · next hnext => rw [if_pos (hst.resolve_right (by simp [hnext]))]
  · rfl

/-- The loader from the APPLY of image `new` on, while the affected Cords drain (R56, R58). -/
def State.applying (s : State) (new : LayCfg) : Loader :=
  { s.loader with state := 4, affected := affectedMask (s.lay.getD emptyLay) new, applyAt := s.time }

theorem exec_layApply_of_verified {new : LayCfg} (hst : s.loader.state = 3) (hnext : s.loader.next = some new)
    (policy : Nat) : exec (.layApply d policy) s =
      .next (if policy % 4 = 0 then s.modLoader fun _ => s.applying new
        else (s.modLoader fun _ => s.applying new).abortAffected) := by
  rw [exec_layApply h, State.layApply, hnext]
  dsimp only
  rw [if_neg (by simp [hst])]
  rfl

theorem exec_layApply_waiting {new : LayCfg} (hst : s.loader.state = 3) (hnext : s.loader.next = some new)
    {policy : Nat} (hp : policy % 4 = 0) :
    exec (.layApply d policy) s = .next (s.modLoader fun _ => s.applying new) := by
  rw [exec_layApply_of_verified h hst hnext, if_pos hp]

theorem exec_layApply_aborting {new : LayCfg} (hst : s.loader.state = 3) (hnext : s.loader.next = some new)
    {policy : Nat} (hp : policy % 4 ≠ 0) :
    exec (.layApply d policy) s = .next (s.modLoader fun _ => s.applying new).abortAffected := by
  rw [exec_layApply_of_verified h hst hnext, if_neg hp]

end

/-! ### LAY_DATA (R54) -/

section
variable (h : s.mayWrite d 0x200008)
include h

theorem layData_of_not_receiving (hst : s.loader.state ≠ 1) (w : Word) : exec (.layData d w) s = .next s := by
  rw [exec_layData h, State.layData, if_pos hst]

theorem exec_layData_of_too_large (hst : s.loader.state = 1) (hfull : s.stageLimit < s.loader.count + 4) (w : Word) :
    exec (.layData d w) s = .next (s.modLoader fun l => { l with tooBig := true }) := by
  rw [exec_layData h, State.layData, if_neg (not_not.2 hst), if_pos hfull]

theorem layData_stages (hst : s.loader.state = 1) (hroom : s.loader.count + 4 ≤ s.stageLimit) (w : Word) :
    let n := s.loader.count
    Completes (exec (.layData d w) s) fun t =>
      t.loader = { s.loader with count := n + 4 } ∧
      t.dram = s.dram.putList zeroByte (s.stageAddr n) (natLe w.toNat 4) ∧ t.hearths = s.hearths ∧
      { t with dram := s.dram, dramUe := s.dramUe, loader := s.loader } = s := by
  intro n
  refine ⟨_, exec_layData h w, ?_⟩
  rw [State.layData, if_neg (not_not.2 hst), if_neg (Nat.not_lt.2 hroom)]
  exact ⟨rfl, rfl, rfl, rfl⟩

end

/-! ### VERIFY_DONE (R53, R55, R61) -/

section
variable (hl : s.live = true)
include hl

theorem exec_verifyDone : exec .verifyDone s = .next s.verified := by
  change execVerifyDone s = _
  rw [execVerifyDone, withUnit_true, if_pos hl]

theorem verifyDone_of_not_verifying (hst : s.loader.state ≠ 2) : exec .verifyDone s = .next s := by
  rw [exec_verifyDone hl, State.verified, if_pos hst]

/-- The first failed check is reported and logged. -/
theorem verifyDone_reports {r off : Nat} (hst : s.loader.state = 2) (hbad : s.checkImage s.staged = some (r, off)) :
    Completes (exec .verifyDone s) fun t =>
      t.loader = { s.loader with state := 0, result := r, errOffset := .ofNat 32 off, next := none } ∧
      t.trust.chg.newest 0x102 0 0 (.ofNat 32 r) ∧ { t with loader := s.loader, trust := s.trust } = s := by
  refine ⟨_, exec_verifyDone hl, ?_⟩
  rw [State.verified, if_neg (not_not.2 hst), hbad]
  exact ⟨rfl, ⟨_, Log.head_append .., rfl, rfl, rfl, rfl⟩, rfl⟩

theorem exec_verifyDone_of_good (hst : s.loader.state = 2) (hgood : s.checkImage s.staged = none) :
    exec .verifyDone s = .next (s.modLoader fun l =>
      { l with state := 3, result := 1, errOffset := 0xFFFFFFFF, next := some (readLay s.staged) }) := by
  rw [exec_verifyDone hl, State.verified, if_neg (not_not.2 hst), hgood]

end

/-! ### LAY_DRAIN_TIMEOUT (R52, R58) -/

theorem exec_layDrainTimeout : exec .layDrainTimeout s = .next s.drainTimeout := rfl

theorem layDrainTimeout_aborts (hl : s.live = true) (hst : s.loader.state = 4)
    (hlate : s.loader.applyAt + (s.reg 0x200018).toNat * 1000 ≤ s.time) :
    exec .layDrainTimeout s = .next s.abortAffected := by
  rw [exec_layDrainTimeout, State.drainTimeout, if_pos (by simp [hl, hst, hlate])]

theorem layDrainTimeout_waits
    (h : s.time < s.loader.applyAt + (s.reg 0x200018).toNat * 1000 ∨ s.loader.state ≠ 4) :
    exec .layDrainTimeout s = .next s := by
  rw [exec_layDrainTimeout, State.drainTimeout, if_neg]
  rcases h with h | h
  · simp [Nat.not_le.2 h]
  · simp [h]

end Sys2Proof.Machine
end

section
/-! PROOF. The end of a drain: what is reset of the affected Cords, and what stays (R58 steps 4 and 5). -/

namespace Sys2Proof.Machine

/-! ### What a fold of resets clears, and what it spares -/

section
variable {σ α β : Type} {f : σ → α → σ} (g : σ → β) {z : β} {p : α → Prop} [DecidablePred p]
  (hf : ∀ t a, g (f t a) = if p a then z else g t)
include hf

theorem foldl_spares (l : List α) (t : σ) (h : ∀ a ∈ l, ¬ p a) : g (l.foldl f t) = g t := by
  induction l generalizing t with
  | nil => rfl
  | cons a l ih =>
    rw [List.foldl_cons, ih _ fun b hb => h b (List.mem_cons_of_mem a hb), hf, if_neg (h a (List.mem_cons_self ..))]

theorem foldl_clears (l : List α) (t : σ) (h : ∃ a ∈ l, p a) : g (l.foldl f t) = z := by
  induction l generalizing t with
  | nil => simp at h
  | cons a l ih =>
    rw [List.foldl_cons]
    by_cases hl : ∃ b ∈ l, p b
    · exact ih _ hl
    · obtain ⟨b, hb, hpb⟩ := h
      have ha : p a := by
        rcases List.mem_cons.1 hb with rfl | hb
        · exact hpb
        · exact absurd ⟨b, hb, hpb⟩ hl
      rw [foldl_spares g hf l _ fun c hc hpc => hl ⟨c, hc, hpc⟩, hf, if_pos ha]

end

variable {s : State}

/-! ### Hitches on which nothing waits (R58 step 4) -/

/-- Every Hitch of a Cord back at its reset value. -/
def State.wipeHitches (s : State) (c : CordCfg) : State :=
  { s with hitches := s.hitches.wipe c.hitchBase c.hitchCount }

/-- No agent waits on a Hitch. -/
def State.noWaiter (s : State) : Prop := ∀ e ∈ s.hitches, e.2.queue = []

theorem State.resetHitches_of_noWaiter (h : s.noWaiter) (c : CordCfg) : s.resetHitches c = s.wipeHitches c := by
  have hnone : (s.hitches.filter fun e => decide (c.hitchBase ≤ e.1) && decide (e.1 < c.hitchBase + c.hitchCount) &&
      e.2.queue != []) = [] :=
    List.filter_eq_nil_iff.2 fun e he => by simp [h e he]
  simp only [State.resetHitches, hnone]
  rfl

theorem State.noWaiter.wipeHitches (h : s.noWaiter) (c : CordCfg) : (s.wipeHitches c).noWaiter :=
  fun e he => h e (List.mem_of_mem_filter he)

theorem State.noWaiter.foldl_resetHitches (cs : List CordCfg) {s : State} (h : s.noWaiter) :
    cs.foldl State.resetHitches s = cs.foldl State.wipeHitches s := by
  induction cs generalizing s with
  | nil => rfl
  | cons c cs ih => rw [List.foldl_cons, List.foldl_cons, State.resetHitches_of_noWaiter h, ih (h.wipeHitches c)]

theorem State.hitch_wipeHitches (s : State) (c : CordCfg) (k : Nat) : (s.wipeHitches c).hitch k =
    if c.hitchBase ≤ k ∧ k < c.hitchBase + c.hitchCount then {} else s.hitch k := SMap.look_wipe ..

/-! ### What the machine keeps of a Cord, and its sessions (R58 steps 4 and 5) -/

theorem State.cordRt_resetCord (s : State) (n m : Nat) :
    (s.resetCord n).cordRt m = if m = n then {} else s.cordRt m := SMap.look_drop ..

theorem State.sess_resetSessions (s : State) (c : CordCfg) (i : Nat) : (s.resetSessions c).sess i =
    if c.sessionBase ≤ i ∧ i < c.sessionBase + c.sessionCount then {} else s.sess i := SMap.look_wipe ..

theorem State.fillStore_sansDram (s : State) (c : CordCfg) (models : List ModelCfg) :
    (s.fillStore c models).sansDram = s.sansDram :=
  (foldl_keeps State.sansDram (f := fun u m => u.putCordBytes c (u.storeAt c m) m.bytes) (fun _ _ => rfl) _ _).trans
    (rfl : (s.zeroCord c (c.regionBase 1) (c.regionSize 1)).sansDram = s.sansDram)

/-! ### DRAIN_END -/

/-- The Cords, of the image in force or of image `new`, that an apply affects. -/
def State.hitCords (s : State) (new : LayCfg) : List CordCfg :=
  ((s.lay.getD emptyLay).cords.filter fun c => s.affected.contains c.cord) ++
    new.cords.filter fun c => s.affected.contains c.cord

/-- The Cords' resources reset, and their sessions gone. -/
def State.cordsReset (s : State) (new : LayCfg) : State :=
  (s.hitCords new).foldl State.resetSessions
    (s.affected.foldl State.resetCord ((s.hitCords new).foldl State.resetHitches s))

/-- The stores of the Cords of image `new` filled besides. -/
def State.cordsFilled (s : State) (new : LayCfg) : State :=
  (new.cords.filter fun c => s.affected.contains c.cord).foldl (fun t c => t.fillStore c new.models)
    { s.cordsReset new with lay := some new }

/-- The state without what the end of a drain touches. -/
def State.sansDrain (s : State) : State :=
  { s with hitches := [], regs := [], cords := [], fills := [], slots := [], saved := [], hosts := []
           drg := { s.drg with accounts := [] }, sessions := [], sessCache := [], dram := [], dramUe := []
           lay := none }

section
variable (new : LayCfg)

theorem State.cordsFilled_sansDram :
    (s.cordsFilled new).sansDram = { s.cordsReset new with lay := some new }.sansDram :=
  foldl_keeps State.sansDram (fun t c => t.fillStore_sansDram c new.models) _ _

section
variable (h : s.noWaiter)
include h

theorem State.cordsReset_of_noWaiter : s.cordsReset new = (s.hitCords new).foldl State.resetSessions
    (s.affected.foldl State.resetCord ((s.hitCords new).foldl State.wipeHitches s)) := by
  rw [State.cordsReset, h.foldl_resetHitches]

theorem State.cordsFilled_sansDrain : (s.cordsFilled new).sansDrain = s.sansDrain := by
  have hfill : (s.cordsFilled new).sansDrain = (s.cordsReset new).sansDrain :=
    (congrArg State.sansDrain (s.cordsFilled_sansDram new) :)
  rw [hfill, s.cordsReset_of_noWaiter new h,
    foldl_keeps State.sansDrain (f := State.resetSessions) fun _ _ => rfl,
    foldl_keeps State.sansDrain (f := State.resetCord) fun _ _ => rfl,
    foldl_keeps State.sansDrain (f := State.wipeHitches) fun _ _ => rfl]

theorem State.hitch_cordsFilled (k : Nat) :
    (s.cordsFilled new).hitch k = ((s.hitCords new).foldl State.wipeHitches s).hitch k := by
  have hfill : (s.cordsFilled new).hitch k = (s.cordsReset new).hitch k :=
    (congrArg (State.hitch · k) (s.cordsFilled_sansDram new) :)
  rw [hfill, s.cordsReset_of_noWaiter new h,
    foldl_keeps (State.hitch · k) (f := State.resetSessions) fun _ _ => rfl,
    foldl_keeps (State.hitch · k) (f := State.resetCord) fun _ _ => rfl]

theorem State.cordRt_cordsFilled (m : Nat) :
    (s.cordsFilled new).cordRt m = if s.affected.contains m then {} else s.cordRt m := by
  have hfill : (s.cordsFilled new).cordRt m = (s.cordsReset new).cordRt m :=
    (congrArg (State.cordRt · m) (s.cordsFilled_sansDram new) :)
  rw [hfill, s.cordsReset_of_noWaiter new h,
    foldl_keeps (State.cordRt · m) (f := State.resetSessions) fun _ _ => rfl]
  split
  · next hm =>
    exact foldl_clears (State.cordRt · m) (fun t n => t.cordRt_resetCord n m) _ _ ⟨m, by simpa using hm, rfl⟩
  · next hm =>
    have hother : ∀ n ∈ s.affected, ¬ m = n := fun n hn he => hm (by simpa [he] using hn)
    rw [foldl_spares (State.cordRt · m) (fun t n => t.cordRt_resetCord n m) _ _ hother,
      foldl_keeps (State.cordRt · m) (f := State.wipeHitches) fun _ _ => rfl]

theorem State.sess_cordsFilled {i : Nat}
    (hi : ∃ c ∈ s.hitCords new, c.sessionBase ≤ i ∧ i < c.sessionBase + c.sessionCount) :
    (s.cordsFilled new).sess i = {} := by
  have hfill : (s.cordsFilled new).sess i = (s.cordsReset new).sess i :=
    (congrArg (State.sess · i) (s.cordsFilled_sansDram new) :)
  rw [hfill, s.cordsReset_of_noWaiter new h]
  exact foldl_clears (State.sess · i) (fun t c => t.sess_resetSessions c i) _ _ hi

end

end

/-! The three outcomes of DRAIN_END: no drain is in progress, jobs are left, or the Cords are reset. -/

section
variable (hl : s.live = true)
include hl

theorem exec_drainEnd : exec .drainEnd s = .next s.drained := by
  change execDrainEnd s = _
  rw [execDrainEnd, withUnit_true, if_pos hl]

theorem drainEnd_of_not_stopping (hst : s.loader.state ≠ 4) : exec .drainEnd s = .next s := by
  rw [exec_drainEnd hl, State.drained]
  split
  · rfl
  · exact congrArg _ (if_pos (by simp [hst]))

section
variable {new : LayCfg} (hnext : s.loader.next = some new)
include hnext

/-- DRAIN_END waits for the jobs of the affected Cords (R58 step 3). -/
theorem drainEnd_waits (hjob : ∃ j ∈ s.jobs, s.affected.contains j.cord = true) : exec .drainEnd s = .next s := by
  rw [exec_drainEnd hl, State.drained, hnext]
  refine congrArg _ (if_pos ?_)
  rw [List.any_eq_true.2 hjob, Bool.or_true]

theorem exec_drainEnd_of_drained (hst : s.loader.state = 4)
    (hjobs : ∀ j ∈ s.jobs, s.affected.contains j.cord = false) : exec .drainEnd s = .next
      { s.cordsFilled new with lay := s.lay, loader := { (s.cordsFilled new).loader with state := 5 } } := by
  have hnone : (s.jobs.any fun j => s.affected.contains j.cord) = false :=
    List.any_eq_false.2 fun j hj => by rw [hjobs j hj]; exact Bool.false_ne_true
  rw [exec_drainEnd hl, State.drained, hnext]
  refine congrArg _ (if_neg ?_)
  rw [hnone, hst]
  decide

/-- DRAIN_END once no job of an affected Cord is left (R58 steps 4 and 5). -/
theorem drainEnd_resets (hst : s.loader.state = 4) (hjobs : ∀ j ∈ s.jobs, s.affected.contains j.cord = false)
    (hquiet : s.noWaiter) :
    let ours := fun k => ∃ c ∈ s.hitCords new, c.hitchBase ≤ k ∧ k < c.hitchBase + c.hitchCount
    Completes (exec .drainEnd s) fun t =>
      t.loader = { s.loader with state := 5 } ∧ t.lay = s.lay ∧ t.jobs = s.jobs ∧ t.hearths = s.hearths ∧
      (∀ k, ours k → t.hitch k = {}) ∧ (∀ k, ¬ ours k → t.hitch k = s.hitch k) ∧
      (∀ m, s.affected.contains m = true → t.cordRt m = {}) ∧
      (∀ m, s.affected.contains m = false → t.cordRt m = s.cordRt m) ∧
      (∀ i, (∃ c ∈ s.hitCords new, c.sessionBase ≤ i ∧ i < c.sessionBase + c.sessionCount) → t.sess i = {}) := by
  intro ours
  refine ⟨_, exec_drainEnd_of_drained hl hnext hst hjobs, ?_⟩
  have hsans := State.cordsFilled_sansDrain new hquiet
  have hloader : (s.cordsFilled new).loader = s.loader := (congrArg State.loader hsans :)
  refine ⟨by rw [hloader], rfl, (congrArg State.jobs hsans :), (congrArg State.hearths hsans :), fun k hk => ?_,
    fun k hk => ?_, fun m hm => ?_, fun m hm => ?_, fun i hi => State.sess_cordsFilled new hquiet hi⟩
  · exact (State.hitch_cordsFilled new hquiet k).trans
      (foldl_clears (State.hitch · k) (fun t c => t.hitch_wipeHitches c k) _ _ hk)
  · exact (State.hitch_cordsFilled new hquiet k).trans
      (foldl_spares (State.hitch · k) (fun t c => t.hitch_wipeHitches c k) _ _ fun c hc hin => hk ⟨c, hc, hin⟩)
  · exact (State.cordRt_cordsFilled new hquiet m).trans (if_pos hm)
  · exact (State.cordRt_cordsFilled new hquiet m).trans (if_neg (by rw [hm]; exact Bool.false_ne_true))

end

end

end Sys2Proof.Machine
end

section
/-! PROOF. The end of an apply: the image in force, the loader, and the entries of the change log (R58 steps 6 and 7,
R59, R61). -/

namespace Sys2Proof.Machine

/-! ### Entries of the change log (R505) -/

/-- An older entry moves back by one place, and a log holds 16,384. -/
theorem Log.mem_take_append {l : Log} {n : Nat} {x : LogEntry} (h : x ∈ l.entries.take n) (hn : n < 16384)
    (t o k : Nat) (a y z : Word) : x ∈ (l.append t o k a y z).entries.take (n + 1) := by
  simp only [Log.append, List.take_take, List.take_succ_cons, Nat.min_eq_left (Nat.le_of_lt_succ hn)]
  exact List.mem_cons_of_mem _ h

theorem State.exists_take_logChange (s : State) (o k a y z : Nat) :
    ∃ x ∈ (s.logChange o k a y z).trust.chg.entries.take 1, x.kind = k ∧ x.new = .ofNat 32 z :=
  ⟨_, List.mem_cons_self .., rfl, rfl⟩

/-- Several further entries leave an entry in the log as long as it has room for them. -/
theorem State.mem_chg_foldl_logChange {f : State → Nat → State}
    (hf : ∀ t n, ∃ o k a y z, f t n = t.logChange o k a y z) (l : List Nat) {s : State} {n : Nat} {x : LogEntry}
    (h : x ∈ s.trust.chg.entries.take n) (hn : n + l.length ≤ 16384) :
    x ∈ (l.foldl f s).trust.chg.entries := by
  induction l generalizing s n with
  | nil => exact List.mem_of_mem_take h
  | cons m l ih =>
    rw [List.length_cons] at hn
    obtain ⟨o, k, a, y, z, hm⟩ := hf s m
    rw [List.foldl_cons, hm]
    exact ih (Log.mem_take_append h (by omega) ..) (by omega)

variable {s : State}

/-! ### What the steps of an apply leave alone (R58 step 6) -/

/-- The image in force, the loader and the trust block, which the work on the Hearths and Cords leaves alone. -/
def State.layParts (s : State) : Option LayCfg × Loader × Trust := (s.lay, s.loader, s.trust)

theorem State.touch_layParts (s : State) (h a n : Nat) : (s.touch h a n).layParts = s.layParts := by
  have hset (t : State) (p : Nat) (v : Phys) : (t.setPhy p v).layParts = t.layParts := rfl
  have hbump (t : State) (k n : Nat) : (t.bump k n).layParts = t.layParts := rfl
  simp only [State.touch, hset, apply_ite State.layParts, hbump, ite_self]

theorem State.fillShare_layParts (s : State) (c : CordCfg) (m : ModelCfg) (h : Nat) :
    (s.fillShare c m h).layParts = s.layParts := s.touch_layParts h 0 _

theorem State.putCordBytes_layParts (s : State) (c : CordCfg) (a : Nat) (bs : List Byte) :
    (s.putCordBytes c a bs).layParts = s.layParts := rfl

theorem State.emptyCache_layParts (s : State) (c : CordCfg) : (s.emptyCache c).layParts = s.layParts := by
  have hset (v : CordRt) : (s.setCordRt c.cord v).layParts = s.layParts := rfl
  have hfill (t : State) (l : List Nat) :
      (l.foldl (fun t i => t.putCordLe c (c.regionBase 6 + 16 * i) 8 emptyId) t).layParts = t.layParts :=
    foldl_keeps State.layParts (fun u i => u.putCordBytes_layParts c _ _) l t
  simp only [State.emptyCache, apply_ite State.layParts, hfill, hset, ite_self]

theorem State.fillCord_layParts (s : State) (l : LayCfg) (c : CordCfg) : (s.fillCord l c).layParts = s.layParts := by
  unfold State.fillCord
  rw [State.emptyCache_layParts,
    foldl_keeps State.layParts fun t m => by split; exacts [rfl, t.putCordBytes_layParts ..],
    foldl_keeps State.layParts fun t h => by split; exacts [t.fillShare_layParts .., rfl]]

theorem State.powerHearth_layParts (s : State) (old : List Nat) (h : Nat) :
    (s.powerHearth old h).layParts = s.layParts := by
  unfold State.powerHearth
  split <;> rfl

theorem State.setHearthState_layParts (s : State) (p new : Nat) : (s.setHearthState p new).layParts = s.layParts := by
  unfold State.setHearthState
  dsimp only
  split <;> rfl

theorem State.enterService_layParts (s : State) (p : Nat) : (s.enterService p).layParts = s.layParts := by
  have hset (v : Phys) : ((s.setPhy p v).setHearthState p 1).layParts = s.layParts := State.setHearthState_layParts ..
  simp only [State.enterService, apply_ite State.layParts, hset, ite_self]

theorem State.resetPort_layParts (s : State) (old new : LayCfg) (p : Nat) :
    (s.resetPort old new p).layParts = s.layParts := by
  unfold State.resetPort
  split <;> rfl

theorem State.event_layParts (s : State) (d code block arg : Nat) :
    (s.event d code block arg).layParts = s.layParts := (congrArg State.layParts (s.event_rest d code block arg) :)

theorem State.layEvent_layParts (s : State) (old new : LayCfg) (code : Nat) :
    (s.layEvent old new code).layParts = s.layParts :=
  foldl_keeps State.layParts (fun t d => t.event_layParts d code 0x20 _) _ _

/-! ### APPLY_COMPLETE -/

/-- The image that an apply leaves in force: without the affected Cords after an error of the staged image's memory
(R59). -/
def State.imageApplied (s : State) (new : LayCfg) (bad : Bool) : LayCfg :=
  if bad then withoutCords new s.affected else new

/-- The entries of an apply written: one for the image, one for each affected Cord (R61). -/
def State.applyLogged (s : State) (new : LayCfg) : State :=
  s.affected.foldl (fun t n => t.logChange (originHost s.trust.owner.host) 0x104 0 n n)
    (s.logChange (originHost s.trust.owner.host) 0x103 0 (wordAt (hashBytes (s.lay.getD emptyLay).hash) 0)
      (wordAt (hashBytes new.hash) 0))

/-- The Hearths, Cords and panel ports put in the state that image `now` asks for, and the hosts told. -/
def State.imageTaken (s t : State) (new now : LayCfg) (bad : Bool) : State :=
  let old := s.lay.getD emptyLay
  let s4 := (now.cords.filter fun c => s.affected.contains c.cord).foldl (fun t c => t.fillCord now c) t
  let s5 := (List.range 48).foldl (fun t h => t.powerHearth old.roles h) s4
  let s6 := (List.range 48).foldl State.enterService s5
  let s7 := ([0, 1] : List Nat).foldl (fun t p => t.resetPort old now p) s6
  s7.layEvent old new (if bad then 0x0202 else 0x0201)

theorem State.imageTaken_layParts (s t : State) (new now : LayCfg) (bad : Bool) :
    (s.imageTaken t new now bad).layParts = t.layParts := by
  unfold State.imageTaken
  dsimp only
  rw [State.layEvent_layParts, foldl_keeps State.layParts fun u p => u.resetPort_layParts _ _ p,
    foldl_keeps State.layParts State.enterService_layParts,
    foldl_keeps State.layParts fun u h => u.powerHearth_layParts _ h,
    foldl_keeps State.layParts fun u c => u.fillCord_layParts _ c]

/-- The entry of the image stands in the log beside those of at most 16 Cords. -/
theorem State.exists_applyLogged (s : State) (new : LayCfg) : ∃ x ∈ (s.applyLogged new).trust.chg.entries,
    x.kind = 0x103 ∧ x.new = .ofNat 32 (wordAt (hashBytes new.hash) 0) := by
  have hlen : s.affected.length ≤ 16 := (List.length_filter_le ..).trans (by simp)
  obtain ⟨x, hx, hfields⟩ := s.exists_take_logChange (originHost s.trust.owner.host) 0x103 0
    (wordAt (hashBytes (s.lay.getD emptyLay).hash) 0) (wordAt (hashBytes new.hash) 0)
  exact ⟨x, State.mem_chg_foldl_logChange (fun t n => ⟨_, _, _, _, _, rfl⟩) _ hx (by omega), hfields⟩

theorem State.applyLogged_loader (s : State) (new : LayCfg) : (s.applyLogged new).loader = s.loader :=
  foldl_keeps State.loader (f := fun t n => t.logChange (originHost s.trust.owner.host) 0x104 0 n n)
    (fun _ _ => rfl) _ _

/-- The loader after an apply. -/
def Loader.applied (l : Loader) (bad : Bool) : Loader :=
  { l with state := 0, result := if bad then 14 else 1, errOffset := 0xFFFFFFFF, next := none }

section
variable (hl : s.live = true) (e : Bool)
include hl

theorem exec_applyComplete : exec (.applyComplete e) s = .next (s.applied e) := by
  change execApplyComplete e s = _
  rw [execApplyComplete, withUnit_true, if_pos hl]

theorem applyComplete_of_not_applying (hst : s.loader.state ≠ 5) : exec (.applyComplete e) s = .next s := by
  rw [exec_applyComplete hl, State.applied]
  split
  · rfl
  · exact congrArg _ (if_pos hst)

theorem exec_applyComplete_of_applying {new : LayCfg} (hst : s.loader.state = 5) (hnext : s.loader.next = some new) :
    let bad := e || s.stagedUe
    let now := s.imageApplied new bad
    exec (.applyComplete e) s = .next
      ((s.imageTaken { s.applyLogged new with lay := some now } new now bad).modLoader fun l => l.applied bad) := by
  intro bad now
  rw [exec_applyComplete hl, State.applied, hnext]
  exact congrArg _ (if_neg (not_not.2 hst))

/-- APPLY_COMPLETE of a drained apply (R58, R59, R61). -/
theorem applyComplete_takes_image {new : LayCfg} (hst : s.loader.state = 5) (hnext : s.loader.next = some new) :
    Completes (exec (.applyComplete e) s) fun t =>
      let bad := e || s.stagedUe
      t.lay = some (if bad = true then withoutCords new s.affected else new) ∧
      t.loader = { s.loader with state := 0, result := if bad = true then 14 else 1, errOffset := 0xFFFFFFFF
                                 next := none } ∧
      ∃ x ∈ t.trust.chg.entries, x.kind = 0x103 ∧ x.new = .ofNat 32 (wordAt (hashBytes new.hash) 0) := by
  refine ⟨_, exec_applyComplete_of_applying hl e hst hnext, ?_⟩
  generalize (e || s.stagedUe) = bad
  have hparts := s.imageTaken_layParts
    { s.applyLogged new with lay := some (s.imageApplied new bad) } new (s.imageApplied new bad) bad
  generalize s.imageTaken { s.applyLogged new with lay := some (s.imageApplied new bad) } new
    (s.imageApplied new bad) bad = t at hparts
  have hlay : t.lay = some (s.imageApplied new bad) := (congrArg Prod.fst hparts :)
  have hloader : t.loader = s.loader := (congrArg (·.2.1) hparts :).trans (s.applyLogged_loader new)
  have htrust : t.trust = (s.applyLogged new).trust := (congrArg (·.2.2) hparts :)
  refine ⟨hlay, congrArg (Loader.applied · bad) hloader, ?_⟩
  change ∃ x ∈ t.trust.chg.entries, _
  rw [htrust]
  exact s.exists_applyLogged new

end

/-- Settles O60: each row by the lemma of what it does, and a passed VERIFY by what its checks ensure. -/
theorem layLoaderActs : Obligations.LayLoaderActs := by
  unfold Obligations.LayLoaderActs
  refine ⟨fun s d => ⟨fun h => ⟨fun hb => ⟨layOpen_of_busy h hb, layCancel_of_busy h hb⟩, fun hb =>
      ⟨completes_of_modLoader (exec_layOpen_of_idle h hb), completes_of_modLoader (exec_layCancel_of_idle h hb)⟩,
      fun hst => completes_of_modLoader (exec_layVerify_of_receiving h hst), layVerify_of_not_receiving h,
      fun policy => ⟨fun hst => layApply_of_not_verified h hst policy, fun new hst hnext =>
        ⟨fun hp => completes_of_modLoader (exec_layApply_waiting h hst hnext hp), exec_layApply_aborting h hst hnext⟩⟩⟩,
    fun w h => ⟨fun hst => layData_of_not_receiving h hst w,
      fun hst hfull => completes_of_modLoader (exec_layData_of_too_large h hst hfull w),
      fun hst hroom => layData_stages h hst hroom w⟩,
    fun hl => ⟨verifyDone_of_not_verifying hl, fun hst => ⟨fun r off => verifyDone_reports hl hst,
        fun hgood => completes_of_modLoader (exec_verifyDone_of_good hl hst hgood)⟩,
      layDrainTimeout_aborts hl, fun hearly => layDrainTimeout_waits (.inl hearly),
      fun hst => ⟨layDrainTimeout_waits (.inr hst), drainEnd_of_not_stopping hl hst⟩,
      fun hst e => applyComplete_of_not_applying hl e hst,
      fun new hnext => ⟨fun _ hjob => drainEnd_waits hl hnext hjob,
        fun hst hjobs hquiet => drainEnd_resets hl hnext hst hjobs hquiet,
        fun e hst => applyComplete_takes_image hl e hst hnext⟩⟩⟩,
    fun s d h => facts_of_checkImage h⟩

end Sys2Proof.Machine
end

section
/-! PROOF. A tag that waits in the queue of a port is in use, whether or not a FENCE is open (R77). -/

namespace Sys2Proof.Machine

variable {s : State} {d : Nat} {r : ZtReq}

/-- A request whose tag is that of a request in the queue behind a FENCE is refused (R77). -/
theorem State.outstanding_of_held {h : HostPort} {time : Nat} {held : ZtReq}
    (hmem : (time, Instr.readInc d held) ∈ h.behind) (hposted : ZtReq.posted held = false) :
    h.outstanding held.tag.toNat = true := by
  rw [HostPort.outstanding, Bool.or_eq_true, List.any_eq_true]
  exact .inr ⟨_, hmem, by simp [requestOf, hposted]⟩

/-- A FENCE of a tag in use gets TAG_BUSY (R77). -/
theorem exec_ztFence_of_outstanding (hu : hostOk d = true) (hl : s.live = true) (hup : (s.host d).rate ≠ 0)
    (hgood : headerCheck 7 r = 0) (hposted : ZtReq.posted r = false) (hbusy : (s.host d).outstanding r.tag.toNat = true) :
    exec (.ztFence d r) s = .next (s.respond d 7 r 5 [] 0) := by
  have harrive : s.arrive d (.ztFence d r) = s.respond d 7 r 5 [] 0 := by
    simp [State.arrive, requestOf, hl, hup, cutShort, opWrites, hposted, hbusy, hgood]
  change withUnit (hostOk d) (s.arrive d (.ztFence d r)) = _
  rw [hu, harrive]
  rfl

/-- A valid header of a FENCE or a NOP of tag 0. -/
def bareReq : ZtReq := { tag := 0, addr := 0, count := 0, flags := 0, rsv := 0, words := [] }

/-- Right after reset, but with the link of host 0 up and a READ_INC of tag 0 in the queue of its port. -/
def State.strayHeld : State := State.reset.setHost 0 { rate := 1, behind := [(0, .readInc 0 bareReq)] }

/-- Refutes O58: nothing in the statement says that a port with no open FENCE holds no request behind one. In the state
`State.strayHeld` a valid FENCE of tag 0 is refused with TAG_BUSY (R77), and does not stay open. -/
theorem not_hostRequestsAct : ¬ Obligations.HostRequestsAct := by
  intro h
  have hport : State.strayHeld.host 0 = { rate := 1, behind := [(0, .readInc 0 bareReq)] } := State.host_setHost_same ..
  have hup : (State.strayHeld.host 0).rate ≠ 0 := by rw [hport]; decide
  have hbusy : (State.strayHeld.host 0).outstanding bareReq.tag.toNat = true :=
    State.outstanding_of_held (by rw [hport]; exact List.mem_singleton_self _) (by decide)
  obtain ⟨-, -, hlive, -⟩ := h State.strayHeld 0 bareReq rfl
  obtain ⟨-, -, hfree, -⟩ := hlive rfl hup
  obtain ⟨-, -, -, hfence, -⟩ := hfree (by rw [hport]) (by rw [hport])
  obtain ⟨t, ht, hopen, -⟩ := hfence (by decide)
  rw [exec_ztFence_of_outstanding rfl rfl hup (by decide) (by decide) hbusy] at ht
  cases ht
  rw [State.respond, State.host_setHost_same, hport] at hopen
  cases congrArg HostPort.fence hopen

end Sys2Proof.Machine
end

section
/-! PROOF. FSG_SPLIT: the division of the frame store between the panel ports (R372, R505). -/

namespace Sys2Proof.Machine

variable {s : State} {d : Nat} {w : Word}

theorem exec_fsgSplit (h : s.mayWrite d 0x230000) : exec (.fsgSplit d w) s = .next (s.fsgWrite d w) := by
  change execFsgSplit d w s = _
  rw [execFsgSplit, h.1, withUnit_true, State.hostWrite_unlogged h rfl]

/-- Whether a slot of a panel port is enabled. -/
def State.slotEnabled (s : State) : Bool :=
  ([0, 1] : List Nat).any fun p => ([0, 1, 2, 3] : List Nat).any fun i => ((s.panel p).slot i).en

theorem State.fsgWrite_refused (h : s.slotEnabled = true ∨ 384 < w.toNat % 512) : s.fsgWrite d w = s.setReg 0x230004 1 :=
  if_pos h

theorem State.fsgWrite_taken (hused : s.slotEnabled = false) (hw : w.toNat % 512 ≤ 384) :
    s.fsgWrite d w = (s.logWrite (s.setReg 0x230000 (w &&& 0x1FF)) d 0x230000 w).setReg 0x230000 (w &&& 0x1FF) :=
  if_neg fun h => h.elim (fun h => by rw [State.slotEnabled] at hused; simp only [hused] at h; cases h) (by omega)

/-- The register of the split reads as it stands. -/
theorem State.peek_fsgSplit : s.peek d 0x230000 = s.reg 0x230000 := by
  have hw : s.wide d 0x230000 = none := s.wide_eq_none d (by unfold wideAddr; omega)
  have hh : s.isHi d 0x230000 = false := s.isHi_eq_false d (by unfold wideAddr; omega)
  rw [State.peek_device hw hh (by omega) (by omega) (by omega), if_pos (by omega), word_ofNat_toNat]

/-- The bits of a word inside a mask and those outside it make up the word. -/
theorem word_split (w m : Word) : ((w &&& m) &&& m) ||| (w &&& ~~~m) = w := by
  rw [BitVec.and_assoc, BitVec.and_self, ← BitVec.and_or_distrib_left, BitVec.or_not_self, BitVec.and_allOnes]

/-- FSG_SPLIT that is taken is entered in the change log with the word that was written. -/
theorem State.newest_logWrite_fsgSplit :
    ∃ old, (s.logWrite (s.setReg 0x230000 (w &&& 0x1FF)) d 0x230000 w).trust.chg.newest 0x101 0x230000 old w := by
  have hnew : (s.setReg 0x230000 (w &&& 0x1FF)).peek d 0x230000 &&& .ofNat 32 (rwMask 0x230000) |||
      (w &&& ~~~ .ofNat 32 (rwMask 0x230000)) = w := by
    rw [State.peek_fsgSplit, State.reg_setReg_same]
    exact word_split w 0x1FF
  refine ⟨_, _, rfl, rfl, rfl, rfl, ?_⟩
  change BitVec.ofNat 32 (BitVec.toNat _) = w
  rw [hnew, word_ofNat_toNat]

theorem fsgSplit_refused (h : s.mayWrite d 0x230000) (hbad : s.slotEnabled = true ∨ 384 < w.toNat % 512) :
    Completes (exec (.fsgSplit d w) s) fun t =>
      t.reg 0x230004 = 1 ∧ (∀ x, x ≠ 0x230004 → t.reg x = s.reg x) ∧ { t with regs := s.regs } = s := by
  refine ⟨_, exec_fsgSplit h, ?_⟩
  rw [State.fsgWrite_refused hbad]
  exact ⟨State.reg_setReg_same .., fun x hx => by rw [State.reg_setReg, if_neg hx], rfl⟩

theorem fsgSplit_divides (h : s.mayWrite d 0x230000) (hused : s.slotEnabled = false) (hw : w.toNat % 512 ≤ 384) :
    Completes (exec (.fsgSplit d w) s) fun t =>
      t.reg 0x230000 = w &&& 0x1FF ∧ (∀ x, x ≠ 0x230000 → t.reg x = s.reg x) ∧
      (∃ old, t.trust.chg.newest 0x101 0x230000 old w) ∧ { t with regs := s.regs, trust := s.trust } = s := by
  refine ⟨_, exec_fsgSplit h, ?_⟩
  rw [State.fsgWrite_taken hused hw]
  exact ⟨State.reg_setReg_same .., fun x hx => by rw [State.reg_setReg, if_neg hx]; rfl,
    State.newest_logWrite_fsgSplit, rfl⟩

end Sys2Proof.Machine
end

section
/-! PROOF. Reads and writes of an engine job while no memory holds an uncorrectable word (R309, R439, R447). -/

namespace Sys2Proof.Machine

/-! ### A machine without uncorrectable words -/

/-- No word of DRAM or of a Hearth store is uncorrectable. -/
def State.sound (s : State) : Prop := s.dramUe = [] ∧ ∀ h, (s.hearth h).storeUe = []

/-- What a job that reads and writes memory can tell of it, but for the use of its banks. -/
def State.memories (s : State) : SMap Hearth × SMap Byte × List Nat := (s.hearths, s.dram, s.dramUe)

section
variable {s t : State} (hs : s.sound) (c : CordCfg)

theorem State.sound_of_memories (h : t.memories = s.memories) (hs : s.sound) : t.sound := by
  obtain ⟨hhearths, -, hue⟩ : t.hearths = s.hearths ∧ t.dram = s.dram ∧ t.dramUe = s.dramUe :=
    ⟨congrArg Prod.fst h, congrArg (·.2.1) h, congrArg (·.2.2) h⟩
  exact ⟨hue.trans hs.1, fun g => by rw [State.hearth, hhearths]; exact hs.2 g⟩

include hs in
theorem State.cordUe_of_sound (a n : Nat) : s.cordUe c a n = false := by
  rw [State.cordUe, hs.1]; rfl

include hs in
theorem State.spanUe_of_sound (x : Span) : s.spanUe c x = false := by
  unfold State.spanUe
  split
  · simp [Hearth.meetsUe, hs.2]
  · exact State.cordUe_of_sound hs ..

include hs in
theorem State.spanPartUe_of_sound (x : Span) : s.spanPartUe c x = false := by
  unfold State.spanPartUe
  split
  · simp [Hearth.partUe, hs.2]
  · simp [State.cordPartUe, State.cordUe_of_sound hs]

end

/-! ### Reads -/

/-- A job's reads use the banks of the Hearth stores that they meet. -/
def State.touchSpans (s : State) (xs : List Span) : State :=
  xs.foldl (fun t x =>
    match x.hearth with
    | some h => t.touch h x.addr x.len
    | none => t) s

theorem State.readSpans_of_sound {s : State} (hs : s.sound) (sub : Nat) (c : CordCfg) (xs : List Span)
    (body : State → State) : s.readSpans sub c xs body = body (s.touchSpans xs) := by
  have hnone : xs.find? (s.spanUe c) = none := List.find?_eq_none.2 fun x _ => by
    rw [State.spanUe_of_sound hs]; exact Bool.false_ne_true
  rw [State.readSpans, hnone]
  rfl

theorem State.touch_sansBanks (s : State) (h a n : Nat) : (s.touch h a n).sansBanks = s.sansBanks := by
  have hset (t : State) (p : Nat) (v : Phys) : (t.setPhy p v).sansBanks = t.sansBanks := rfl
  have hbump (t : State) (k n : Nat) : (t.bump k n).sansBanks = t.sansBanks := rfl
  simp only [State.touch, hset, apply_ite State.sansBanks, hbump, ite_self]

theorem State.reg_touch (s : State) (h a n : Nat) {k : Nat} (hk : k ≠ wakesKey) : (s.touch h a n).reg k = s.reg k := by
  have hset (t : State) (p : Nat) (v : Phys) : (t.setPhy p v).reg k = t.reg k := rfl
  have hbump (t : State) (n : Nat) : (t.bump 0x27002C n).reg k = t.reg k := (t.reg_bump ..).trans (if_neg hk)
  simp only [State.touch, hset, apply_ite (State.reg · k), hbump, ite_self]

theorem State.touchSpans_sansBanks (s : State) (xs : List Span) : (s.touchSpans xs).sansBanks = s.sansBanks :=
  foldl_keeps State.sansBanks (fun t x => by split; exacts [State.touch_sansBanks .., rfl]) xs s

theorem State.job?_touchSpans (s : State) (xs : List Span) (sub : Nat) : (s.touchSpans xs).job? sub = s.job? sub := by
  have hjobs : (s.touchSpans xs).jobs = s.jobs := (congrArg State.jobs (s.touchSpans_sansBanks xs) :)
  rw [State.job?, State.job?, hjobs]

theorem State.reg_touchSpans (s : State) (xs : List Span) {k : Nat} (hk : k ≠ wakesKey) :
    (s.touchSpans xs).reg k = s.reg k :=
  foldl_keeps (fun t : State => t.reg k) (fun t x => by split; exacts [State.reg_touch _ _ _ _ hk, rfl]) xs s

end Sys2Proof.Machine
end

section
/-! PROOF. The bands of a PUSH job (R382 to R384). -/

namespace Sys2Proof.Machine

variable {s t : State} {sub kind : Nat} {j : Job} {c : CordCfg}

/-! ### Jobs of the engines -/

theorem State.job?_of_engineJob (h : s.engineJob sub kind = some (j, c)) :
    s.job? sub = some j ∧ j.sub = sub ∧ (j.phase = 2 ∨ j.phase = 3) := by
  unfold State.engineJob at h
  split at h
  next x hx =>
    split at h
    next hrun =>
      obtain ⟨c', -, he⟩ := Option.map_eq_some_iff.1 h
      cases he
      exact ⟨hx, by simpa using List.find?_some hx, by simpa using (Bool.and_eq_true_iff.1 hrun).2⟩
    · cases h
  · cases h

/-- A running job works; a stopping one works on to the next boundary (R409). -/
theorem Job.mayWork_eq_true {boundary : Bool} (h : j.phase = 2 ∨ j.phase = 3) (hgo : j.phase = 2 ∨ boundary = false) :
    j.mayWork boundary = true := by
  rcases hgo with hrun | hb
  · simp [Job.mayWork, hrun]
  · rcases h with h | h <;> simp [Job.mayWork, h, hb]

theorem Job.mayWork_eq_false (h : j.phase = 3) : j.mayWork true = false := by simp [Job.mayWork, h]

theorem State.job?_advanced (h : s.job? sub = some j) (k : Nat) :
    (s.modJob sub fun x => { x with done := k }).job? sub = some { j with done := k } := by
  refine (State.job?_modJob _ _ fun x => ?_).trans (by rw [h]; rfl)
  rfl

/-! ### What a job reads depends on the memories alone -/

theorem State.memories_of_sansBanks (h : t.sansBanks = s.sansBanks) : t.memories = s.memories :=
  (congrArg State.memories h :)

theorem State.spanBytes_of_memories (h : t.memories = s.memories) (x : Span) : t.spanBytes c x = s.spanBytes c x := by
  have hhearths : t.hearths = s.hearths := congrArg Prod.fst h
  have hdram : t.dram = s.dram := congrArg (·.2.1) h
  unfold State.spanBytes
  split
  · rw [State.hearth, hhearths]; rfl
  · simp only [State.cordBytes, State.cordByte, hdram]

/-! ### One band -/

def Job.pushImg (j : Job) : ImgRef := readImg j.desc 8
def State.pushRegion (s : State) (j : Job) : PRegion := (s.panel (leAt j.desc 0 1)).region (leAt j.desc 1 1)
def State.pushSlot (s : State) (j : Job) : PSlot := (s.panel (leAt j.desc 0 1)).slot (leAt j.desc 2 1)

/-- The number of the band that comes next, its first line, and its lines. -/
def State.nextBand (s : State) (j : Job) : Nat := (s.pushRegion j).y / 16 + j.done
def State.bandTop (s : State) (j : Job) : Nat := max (s.pushRegion j).y (16 * s.nextBand j)
def State.bandLines (s : State) (j : Job) : Nat :=
  min ((s.pushRegion j).y + (s.pushRegion j).h) (16 * s.nextBand j + 16) - s.bandTop j

/-- The frame store with line `i` of the band. -/
def State.putLine (s : State) (c : CordCfg) (j : Job) (m : SMap Byte) (i : Nat) : SMap Byte :=
  m.putList zeroByte
    (s.slotBase (leAt j.desc 0 1) (s.pushSlot j) + (s.bandTop j + i) * slotPitch (s.pushSlot j).w + 3 * (s.pushRegion j).x)
    (pushRow j.pushImg (s.imgRow c j j.pushImg (s.pushRegion j).w (s.bandTop j - (s.pushRegion j).y + i))
      (s.pushRegion j).w)

/-- The state once the band's pixels stand in the frame store. -/
def State.bandWritten (s : State) (c : CordCfg) (j : Job) : State :=
  let t := s.touchSpans (j.pushImg.spans j (s.pushRegion j).w (s.bandTop j - (s.pushRegion j).y) (s.bandLines j))
  { t with frame := (List.range (s.bandLines j)).foldl (s.putLine c j) s.frame }.modJob j.sub fun x =>
    { x with done := j.done + 1 }

theorem State.frame_touchSpans (xs : List Span) : (s.touchSpans xs).frame = s.frame :=
  (congrArg State.frame (s.touchSpans_sansBanks xs) :)

theorem State.imgRow_touchSpans (xs : List Span) (img : ImgRef) (w y : Nat) :
    (s.touchSpans xs).imgRow c j img w y = s.imgRow c j img w y :=
  State.spanBytes_of_memories (State.memories_of_sansBanks (s.touchSpans_sansBanks xs)) _

theorem State.slotBase_touchSpans (xs : List Span) (p : Nat) (x : PSlot) :
    (s.touchSpans xs).slotBase p x = s.slotBase p x := by
  simp only [State.slotBase, State.portUnits, s.reg_touchSpans xs (show 0x230000 ≠ wakesKey by decide)]

theorem State.pushBand_held (h : s.bandHeld (leAt j.desc 0 1) (leAt j.desc 2 1) (s.nextBand j) = true) :
    s.pushBand c j = s := if_pos h

/-- A band that is not held is written; the last one ends the job's work (R384). -/
theorem State.pushBand_free (hs : s.sound)
    (h : s.bandHeld (leAt j.desc 0 1) (leAt j.desc 2 1) (s.nextBand j) = false) :
    s.pushBand c j =
      if (s.pushRegion j).hasBand (s.nextBand j + 1) then s.bandWritten c j
      else (s.bandWritten c j).pushRetire { j with done := j.done + 1 } := by
  refine (if_neg (Bool.eq_false_iff.1 h)).trans ?_
  rw [State.readSpans_of_sound hs, State.bandWritten]
  simp only [State.frame_touchSpans, State.imgRow_touchSpans, State.slotBase_touchSpans]
  rfl

/-- What a band of a job changes, but for its panel port (R384). -/
def State.bandMoved (s : State) (c : CordCfg) (sub : Nat) (j : Job) (u : State) : Prop :=
  (∃ y, u.job? sub = some y ∧ y.done = j.done + 1) ∧ u.hearths = s.hearths ∧ u.dram = s.dram ∧
    u.frame = (List.range (s.bandLines j)).foldl (s.putLine c j) s.frame

theorem State.bandMoved_bandWritten (hj : s.job? sub = some j) (hsub : j.sub = sub) :
    s.bandMoved c sub j (s.bandWritten c j) := by
  have hbanks (xs : List Span) : (s.touchSpans xs).sansBanks = s.sansBanks := s.touchSpans_sansBanks xs
  refine ⟨⟨{ j with done := j.done + 1 }, ?_, rfl⟩, (congrArg State.hearths (hbanks _) :), (congrArg State.dram (hbanks _) :), rfl⟩
  subst hsub
  refine State.job?_advanced ?_ (j.done + 1)
  exact (s.job?_touchSpans _ j.sub).trans hj

/-! ### PUSH_BAND_WRITE -/

section
variable (h : s.engineJob sub 7 = some (j, c))
include h

theorem exec_pushBandWrite : exec (.pushBandWrite sub) s = .next
    (if !j.mayWork (j.done % 4 == 0) then s
     else if j.done = 0 ∧ !s.pushOk c j then s.endJob sub 0x8B else s.pushBand c j) := by
  change execPushBandWrite sub s = _
  rw [execPushBandWrite, h]
  rfl

theorem pushBandWrite_waits (hstop : j.phase = 3) (hb : j.done % 4 = 0) : exec (.pushBandWrite sub) s = .next s := by
  rw [exec_pushBandWrite h, hb, beq_self_eq_true, Job.mayWork_eq_false hstop]
  rfl

section
variable (hgo : j.phase = 2 ∨ j.done % 4 ≠ 0)
include hgo

theorem pushBandWrite_of_bad (h0 : j.done = 0) (hbad : s.pushOk c j = false) :
    exec (.pushBandWrite sub) s = .next (s.endJob sub 0x8B) := by
  have hwork := Job.mayWork_eq_true (State.job?_of_engineJob h).2.2 (hgo.imp_right beq_eq_false_iff_ne.2)
  rw [exec_pushBandWrite h, hwork, if_neg (by decide), if_pos ⟨h0, by rw [hbad]; rfl⟩]

theorem exec_pushBandWrite_of_good (hok : j.done ≠ 0 ∨ s.pushOk c j = true) :
    exec (.pushBandWrite sub) s = .next (s.pushBand c j) := by
  have hwork := Job.mayWork_eq_true (State.job?_of_engineJob h).2.2 (hgo.imp_right beq_eq_false_iff_ne.2)
  have hgood : ¬ (j.done = 0 ∧ (!s.pushOk c j) = true) := fun ⟨h0, hbad⟩ =>
    hok.elim (· h0) fun hok => by rw [hok] at hbad; cases hbad
  rw [exec_pushBandWrite h, hwork, if_neg (by decide), if_neg hgood]

end

end

end Sys2Proof.Machine
end

section
/-! PROOF. What a COPY job moves (R83, R400). -/

namespace Sys2Proof.Machine

variable {s t : State} {sub : Nat} {j : Job} {c : CordCfg}

/-! ### Words from span to span -/

/-- Put bytes at a span. -/
def State.putSpan (s : State) (c : CordCfg) (x : Span) (bs : List Byte) : State :=
  match x.hearth with
  | some h =>
    let u := s.touch h x.addr x.len
    u.setHearth h ((u.hearth h).write x.addr bs)
  | none => s.putCordBytes c x.addr bs

theorem State.writeSpans_of_sound (hs : s.sound) (sub : Nat) (c : CordCfg) (x : Span) (bs : List Byte)
    (body : State → State) : s.writeSpans sub c [(x, bs)] body = body (s.putSpan c x bs) := by
  have hnone : ([(x, bs)] : List (Span × List Byte)).find? (fun y => s.spanPartUe c y.1) = none := by
    simp [State.spanPartUe_of_sound hs]
  rw [State.writeSpans, hnone]
  rfl

theorem State.sound_putSpan (hs : s.sound) (c : CordCfg) (x : Span) (bs : List Byte) : (s.putSpan c x bs).sound := by
  unfold State.putSpan
  split
  next g hg =>
    have hue : (s.touch g x.addr x.len).dramUe = s.dramUe := (congrArg State.dramUe (s.touch_sansBanks g x.addr x.len) :)
    refine ⟨hue.trans hs.1, fun g' => ?_⟩
    dsimp only
    rw [State.hearth_setHearth, State.touch_hearth, State.touch_hearth]
    split
    · simp [Hearth.write, hs.2]
    · exact hs.2 g'
  · exact ⟨by simp [State.putCordBytes, hs.1], hs.2⟩

/-- What stands in the memories after bytes are put at a span depends on the memories before alone. -/
theorem State.memories_putSpan (h : t.memories = s.memories) (x : Span) (bs : List Byte) :
    (t.putSpan c x bs).memories = (s.putSpan c x bs).memories := by
  obtain ⟨hhearths, hdram, hue⟩ : t.hearths = s.hearths ∧ t.dram = s.dram ∧ t.dramUe = s.dramUe :=
    ⟨congrArg Prod.fst h, congrArg (·.2.1) h, congrArg (·.2.2) h⟩
  have hhearth (g : Nat) : t.hearth g = s.hearth g := by rw [State.hearth, hhearths]; rfl
  have htouch (u : State) (g a n : Nat) : (u.touch g a n).dramUe = u.dramUe :=
    (congrArg State.dramUe (u.touch_sansBanks g a n) :)
  unfold State.putSpan
  split
  · simp only [State.memories, State.setHearth, State.touch_hearths, State.touch_dram, State.touch_hearth, htouch,
      hhearths, hdram, hue, hhearth]
  · simp only [State.memories, State.putCordBytes, hhearths, hdram, hue]

theorem State.jobs_putSpan (x : Span) (bs : List Byte) : (s.putSpan c x bs).jobs = s.jobs := by
  unfold State.putSpan
  split
  · exact (congrArg State.jobs (s.touch_sansBanks ..) :)
  · rfl

/-- Copy a word from one span to another, for a job. -/
def State.copyWord (sub : Nat) (c : CordCfg) (src dst : Nat → Span) (s : State) (i : Nat) : State :=
  s.writeSpans sub c [(dst i, s.spanBytes c (src i))] id

/-- Copies leave the jobs alone, and what stands in the memories after them depends on the memories before alone. -/
theorem State.foldl_copyWord (src dst : Nat → Span) (l : List Nat) (hs : s.sound) (h : t.memories = s.memories) :
    (l.foldl (State.copyWord sub c src dst) t).memories = (l.foldl (State.copyWord sub c src dst) s).memories ∧
      (l.foldl (State.copyWord sub c src dst) t).jobs = t.jobs := by
  induction l generalizing s t with
  | nil => exact ⟨h, rfl⟩
  | cons i l ih =>
    have hword {u : State} (hu : u.sound) :
        State.copyWord sub c src dst u i = u.putSpan c (dst i) (u.spanBytes c (src i)) :=
      State.writeSpans_of_sound hu ..
    simp only [List.foldl_cons]
    rw [hword hs, hword (State.sound_of_memories h hs), State.spanBytes_of_memories h]
    obtain ⟨hmem, hjobs⟩ := ih (State.sound_putSpan hs c (dst i) (s.spanBytes c (src i)))
      (State.memories_putSpan h (dst i) (s.spanBytes c (src i)))
    exact ⟨hmem, hjobs.trans (State.jobs_putSpan ..)⟩

/-- Where word `i` that a COPY job moves next comes from, and where it goes. -/
def Job.copySrc (j : Job) (i : Nat) : Span := copySpan (leAt j.desc 0 1) (leAt j.desc 8 8) (4 * (j.done + i)) 4
def Job.copyDst (j : Job) (i : Nat) : Span := copySpan (leAt j.desc 1 1) (leAt j.desc 16 8) (4 * (j.done + i)) 4

theorem State.copyWords_of_sound (hs : s.sound) (n : Nat) :
    s.copyWords c j n = ((List.range n).foldl (State.copyWord j.sub c j.copySrc j.copyDst)
      (s.touchSpans ((List.range n).map j.copySrc))).copied j n := by
  have hnone (xs ys : List Span) : ys.find? ((s.touchSpans xs).spanPartUe c) = none := by
    have htouched : (s.touchSpans xs).sound :=
      State.sound_of_memories (State.memories_of_sansBanks (s.touchSpans_sansBanks xs)) hs
    exact List.find?_eq_none.2 fun x _ => by rw [State.spanPartUe_of_sound htouched]; exact Bool.false_ne_true
  rw [State.copyWords]
  dsimp only
  rw [State.readSpans_of_sound hs, hnone]
  rfl

/-! ### Words into a ring (R83) -/

theorem leNat_lt (bs : List Byte) : leNat bs < 2 ^ (8 * bs.length) := by
  induction bs with
  | nil => decide
  | cons b bs ih =>
    have hb : b.toNat < 256 := b.isLt
    rw [leNat, List.length_cons, Nat.mul_add, Nat.pow_add]
    omega

theorem leAt_lt (bs : List Byte) (o n : Nat) : leAt bs o n < 2 ^ (8 * n) :=
  (leNat_lt _).trans_le (Nat.pow_le_pow_right (by decide) (Nat.mul_le_mul_left 8 (List.length_take_le ..)))

theorem State.dram_foldl_putCordLe (h : t.dram = s.dram) (a v : Nat → Nat) (l : List Nat) :
    (l.foldl (fun (u : State) i => u.putCordLe c (a i) 4 (v i)) t).dram =
      (l.foldl (fun (u : State) i => u.putCordLe c (a i) 4 (v i)) s).dram := by
  induction l generalizing s t with
  | nil => exact h
  | cons i l ih => exact ih (by simp only [State.putCordLe, State.putCordBytes, h])

theorem State.levelEvent_port (d p old e q : Nat) : (s.levelEvent d p old).port e q = s.port e q := by
  unfold State.levelEvent
  dsimp only
  split
  · exact State.event_port ..
  · rfl

theorem State.levelEvent_sansReports (d p old : Nat) : (s.levelEvent d p old).sansReports = s.sansReports := by
  unfold State.levelEvent
  dsimp only
  split
  · exact State.event_sansReports ..
  · rfl

/-- The words that `k` times four bytes spell, as they go into a ring. -/
def ringWords (bs : List Byte) (k : Nat) : List Word := (List.range k).map fun i => BitVec.ofNat 32 (leAt bs (4 * i) 4)

theorem toNat_getD_ringWords (bs : List Byte) {k i : Nat} (hi : i < k) :
    ((ringWords bs k).getD i 0).toNat = leAt bs (4 * i) 4 := by
  have hlt : leAt bs (4 * i) 4 < 2 ^ 32 := leAt_lt ..
  simpa [ringWords, List.getD, hi] using hlt

theorem State.port_ringAppend (d p : Nat) (ws : List Word) :
    ((s.ringAppend c d p ws).port d p).held = (s.port d p).held + ws.length := by
  rw [State.ringAppend, State.levelEvent_port, State.port_setPort_same]

theorem State.ringAppend_rest (d p : Nat) (ws : List Word) :
    (s.ringAppend c d p ws).sansReports.sansDram = s.sansReports.sansDram := by
  rw [State.ringAppend, State.levelEvent_sansReports]
  exact congrArg (fun u : State => u.sansReports) (s.putWords_sansDram c (s.port d p) ws ws.length)

theorem State.job?_ringAppend (d p : Nat) (ws : List Word) (sub : Nat) :
    (s.ringAppend c d p ws).job? sub = s.job? sub := by
  have hjobs : (s.ringAppend c d p ws).jobs = s.jobs := (congrArg State.jobs (State.ringAppend_rest d p ws) :)
  rw [State.job?, State.job?, hjobs]

theorem State.hearths_ringAppend (d p : Nat) (ws : List Word) : (s.ringAppend c d p ws).hearths = s.hearths :=
  (congrArg State.hearths (State.ringAppend_rest d p ws) :)

theorem State.dram_ringAppend (d p : Nat) (bs : List Byte) (k : Nat) :
    (s.ringAppend c d p (ringWords bs k)).dram =
      ((List.range k).foldl (fun (u : State) i =>
        u.putCordLe c ((s.port d p).wordAddr ((s.port d p).held + i)) 4 (leAt bs (4 * i) 4)) s).dram := by
  have hlen : (ringWords bs k).length = k := by simp [ringWords]
  have hwords : s.putWords c (s.port d p) (ringWords bs k) k = (List.range k).foldl (fun (u : State) i =>
      u.putCordLe c ((s.port d p).wordAddr ((s.port d p).held + i)) 4 (leAt bs (4 * i) 4)) s :=
    List.foldl_ext _ _ _ fun u i hi => by rw [toNat_getD_ringWords bs (List.mem_range.1 hi)]
  rw [← hwords]
  refine (congrArg State.dram (State.levelEvent_sansReports ..) :).trans ?_
  rw [hlen]
  rfl

/-! ### COPY_JOB -/

/-- The next words of a COPY job whose descriptor is valid. -/
def State.copyStep (s : State) (c : CordCfg) (j : Job) : State :=
  if leAt j.desc 1 1 = 3 then
    match s.ringPort c j.session true with
    | some p => s.copyRing c j p (copyChunk j)
    | none => s.endJob j.sub 0x8C
  else s.copyWords c j (copyChunk j)

theorem State.copyStep_of_ring (hloc : leAt j.desc 1 1 = 3) {p : Nat} (hp : s.ringPort c j.session true = some p) :
    s.copyStep c j = s.copyRing c j p (copyChunk j) := by
  rw [State.copyStep, if_pos hloc, hp]

theorem State.copyStep_of_memory (hloc : leAt j.desc 1 1 ≠ 3) : s.copyStep c j = s.copyWords c j (copyChunk j) :=
  if_neg hloc

section
variable (h : s.engineJob sub 8 = some (j, c))
include h

theorem exec_copyJob : exec (.copyJob sub) s = .next
    (if !j.mayWork (j.done % 1024 == 0) || j.ringWait then s
     else if j.done = 0 ∧ !s.copyOk c j then s.endJob sub 0x8C else s.copyStep c j) := by
  obtain ⟨-, rfl, -⟩ := State.job?_of_engineJob h
  change execCopyJob j.sub s = _
  rw [execCopyJob, h]
  rfl

theorem copyJob_waits (hwait : j.ringWait = true ∨ (j.phase = 3 ∧ j.done % 1024 = 0)) :
    exec (.copyJob sub) s = .next s := by
  rw [exec_copyJob h]
  refine congrArg _ (if_pos ?_)
  rcases hwait with hwait | ⟨hstop, hb⟩
  · simp [hwait]
  · rw [hb, beq_self_eq_true, Job.mayWork_eq_false hstop]; rfl

section
variable (hgo : j.ringWait = false ∧ (j.phase = 2 ∨ j.done % 1024 ≠ 0))
include hgo

theorem exec_copyJob_of_working : exec (.copyJob sub) s = .next
    (if j.done = 0 ∧ !s.copyOk c j then s.endJob sub 0x8C else s.copyStep c j) := by
  have hwork := Job.mayWork_eq_true (State.job?_of_engineJob h).2.2 (hgo.2.imp_right beq_eq_false_iff_ne.2)
  rw [exec_copyJob h, hwork, hgo.1]
  rfl

theorem copyJob_of_bad (h0 : j.done = 0) (hbad : s.copyOk c j = false) :
    exec (.copyJob sub) s = .next (s.endJob sub 0x8C) := by
  rw [exec_copyJob_of_working h hgo, if_pos ⟨h0, by rw [hbad]; rfl⟩]

theorem exec_copyJob_of_good (hok : j.done ≠ 0 ∨ s.copyOk c j = true) :
    exec (.copyJob sub) s = .next (s.copyStep c j) := by
  have hgood : ¬ (j.done = 0 ∧ (!s.copyOk c j) = true) := fun ⟨h0, hbad⟩ =>
    hok.elim (· h0) fun hok => by rw [hok] at hbad; cases hbad
  rw [exec_copyJob_of_working h hgo, if_neg hgood]

end

end

/-- A COPY job has moved `k` words: it goes on, or the last word retires it. -/
def State.copyEnds (s : State) (sub : Nat) (j : Job) (k : Nat) (moved : State → Prop) : Prop :=
  ((j.done + k) * 4 ≠ leAt j.desc 4 4 → Completes (exec (.copyJob sub) s) fun t =>
    (∃ y, t.job? sub = some y ∧ y.done = j.done + k) ∧ moved t) ∧
  ((j.done + k) * 4 = leAt j.desc 4 4 → ∃ u : State, (∃ y, u.job? sub = some y ∧ y.done = j.done + k) ∧ moved u ∧
    exec (.copyJob sub) s = .next (u.retireJob sub))

theorem State.copyEnds_of_copied {u : State} {k : Nat} {moved : State → Prop} (hsub : j.sub = sub)
    (he : exec (.copyJob sub) s = .next (u.copied j k)) (hj : u.job? sub = some j)
    (hmoved : moved (u.modJob sub fun x => { x with done := j.done + k })) : s.copyEnds sub j k moved := by
  subst hsub
  have hdone : ∃ y, (u.modJob j.sub fun x => { x with done := j.done + k }).job? j.sub = some y ∧ y.done = j.done + k :=
    ⟨{ j with done := j.done + k }, State.job?_advanced hj _, rfl⟩
  exact ⟨fun hgo => ⟨_, he.trans (congrArg _ (if_neg hgo)), hdone, hmoved⟩,
    fun hend => ⟨_, hdone, hmoved, he.trans (congrArg _ (if_pos hend))⟩⟩

section
variable (h : s.engineJob sub 8 = some (j, c)) (hs : s.sound)
  (hgo : j.ringWait = false ∧ (j.phase = 2 ∨ j.done % 1024 ≠ 0)) (hok : j.done ≠ 0 ∨ s.copyOk c j = true)
include h hs hgo hok

/-- Between memories a COPY job moves the words up to the next 4 KiB boundary, one after the other (R400). -/
theorem copyJob_to_memory (hloc : leAt j.desc 1 1 ≠ 3) : s.copyEnds sub j (copyChunk j) fun t =>
    let done := (List.range (copyChunk j)).foldl (State.copyWord sub c j.copySrc j.copyDst) s
    t.dram = done.dram ∧ ∀ g, (t.hearth g).store = (done.hearth g).store := by
  obtain ⟨hj, rfl, -⟩ := State.job?_of_engineJob h
  have hbanks := s.touchSpans_sansBanks ((List.range (copyChunk j)).map j.copySrc)
  obtain ⟨hmem, hjobs⟩ := State.foldl_copyWord (sub := j.sub) (c := c) j.copySrc j.copyDst (List.range (copyChunk j)) hs
    (State.memories_of_sansBanks hbanks)
  refine State.copyEnds_of_copied rfl ((exec_copyJob_of_good h hgo hok).trans (congrArg _
    ((State.copyStep_of_memory hloc).trans (State.copyWords_of_sound hs _)))) ?_ ⟨(congrArg (·.2.1) hmem :), fun g => ?_⟩
  · rw [State.job?, hjobs]
    exact (s.job?_touchSpans _ j.sub).trans hj
  · exact congrArg Hearth.store (congrArg (fun m : SMap Hearth × SMap Byte × List Nat => m.1.look (fun _ => {}) g) hmem :)

section
variable (hloc : leAt j.desc 1 1 = 3) {p : Nat} (hp : s.ringPort c j.session true = some p)
include hloc hp

omit hs in
theorem exec_copyJob_to_ring : exec (.copyJob sub) s = .next (s.copyRing c j p (copyChunk j)) :=
  (exec_copyJob_of_good h hgo hok).trans (congrArg _ (State.copyStep_of_ring hloc hp))

omit hs in
/-- A full ring makes a COPY job wait (R83). -/
theorem copyJob_on_full_ring (hfull : min (copyChunk j) ((s.port c.ownerHost p).size - (s.port c.ownerHost p).held) = 0)
    (hnone : (s.port c.ownerHost p).waiter = none) : Completes (exec (.copyJob sub) s) fun t =>
      (t.port c.ownerHost p).waiter = some (sub, s.time) ∧ ∃ y, t.job? sub = some y ∧ y.ringWait = true := by
  obtain ⟨hj, rfl, -⟩ := State.job?_of_engineJob h
  refine ⟨_, (exec_copyJob_to_ring h hgo hok hloc hp).trans (congrArg _ ((if_pos hfull).trans
    (if_neg (by rw [hnone]; decide)))), ?_, { j with ringWait := true }, ?_, rfl⟩
  · exact congrArg DataPort.waiter (State.port_setPort_same ..)
  · refine (State.job?_modJob _ _ fun x => ?_).trans (by rw [State.job?, State.setPort, State.setHost_jobs, ← State.job?, hj]; rfl)
    rfl

/-- A COPY job moves as many words as its ring has room for (R83, R400). -/
theorem copyJob_to_ring {k : Nat} (hk : k = min (copyChunk j) ((s.port c.ownerHost p).size - (s.port c.ownerHost p).held))
    (hpos : k ≠ 0) : s.copyEnds sub j k fun t =>
      (t.port c.ownerHost p).held = (s.port c.ownerHost p).held + k ∧ t.hearths = s.hearths ∧
      t.dram = ((List.range k).foldl (fun (u : State) i =>
        u.putCordLe c ((s.port c.ownerHost p).wordAddr ((s.port c.ownerHost p).held + i)) 4
          (leAt (s.spanBytes c (copySpan (leAt j.desc 0 1) (leAt j.desc 8 8) (4 * j.done) (4 * k))) (4 * i) 4)) s).dram := by
  obtain ⟨hj, rfl, -⟩ := State.job?_of_engineJob h
  let src := copySpan (leAt j.desc 0 1) (leAt j.desc 8 8) (4 * j.done) (4 * k)
  have hbanks := s.touchSpans_sansBanks [src]
  have hport : (s.touchSpans [src]).port c.ownerHost p = s.port c.ownerHost p :=
    (congrArg (State.port · c.ownerHost p) hbanks :)
  have hring : s.copyRing c j p (copyChunk j) =
      ((s.touchSpans [src]).ringAppend c c.ownerHost p (ringWords (s.spanBytes c src) k)).copied j k := by
    rw [State.copyRing]
    dsimp only
    rw [← hk, if_neg hpos, State.readSpans_of_sound hs, State.spanBytes_of_memories (State.memories_of_sansBanks hbanks)]
    rfl
  refine State.copyEnds_of_copied rfl ((exec_copyJob_to_ring h hgo hok hloc hp).trans (congrArg _ hring)) ?_
    ⟨?_, (State.hearths_ringAppend ..).trans (congrArg State.hearths hbanks :), ?_⟩
  · rw [State.job?_ringAppend, State.job?_touchSpans, hj]
  · refine (State.port_ringAppend ..).trans ?_
    rw [hport]
    simp [ringWords]
  · have hdram : (s.touchSpans [src]).dram = s.dram := (congrArg State.dram hbanks :)
    refine (State.dram_ringAppend ..).trans ?_
    rw [hport]
    exact State.dram_foldl_putCordLe hdram _ _ _

end

end

/-- Settles O57: FSG_SPLIT by its two outcomes, and each job by the case that it stands in. -/
theorem pushAndCopyJobsAct : Obligations.PushAndCopyJobsAct := by
  unfold Obligations.PushAndCopyJobsAct
  intro s
  refine ⟨fun d w h => ⟨fsgSplit_refused h, fsgSplit_divides h⟩, fun sub j c hd hh => ?_⟩
  have hs : s.sound := ⟨hd, hh⟩
  refine ⟨fun h => ?_, fun h => ?_⟩
  · obtain ⟨hj, hsub, -⟩ := State.job?_of_engineJob h
    refine ⟨pushBandWrite_waits h, pushBandWrite_of_bad h, fun hgo hok => ⟨fun hheld => ?_, fun hfree => ?_⟩⟩
    · exact (exec_pushBandWrite_of_good h hgo hok).trans (congrArg _ (State.pushBand_held hheld))
    · have hexec := (exec_pushBandWrite_of_good h hgo hok).trans (congrArg _ (State.pushBand_free hs hfree))
      have hmoved := State.bandMoved_bandWritten (c := c) hj hsub
      exact ⟨fun hmore => ⟨_, hexec.trans (congrArg _ (if_pos hmore)), hmoved⟩,
        fun hlast => ⟨_, hmoved, hexec.trans (congrArg _ (if_neg (Bool.eq_false_iff.1 hlast)))⟩⟩
  · exact ⟨copyJob_waits h, copyJob_of_bad h, fun hgo hok => ⟨copyJob_to_memory h hs hgo hok,
      fun p hloc hp => ⟨fun hfull hnone => copyJob_on_full_ring h hgo hok hloc hp hfull hnone,
        copyJob_to_ring h hs hgo hok hloc hp rfl⟩⟩⟩

end Sys2Proof.Machine
end

section
/-! PROOF. Writes to the registers of a Cord: they reach it past the change log (R395, R505), and the completion ring
takes its size (R420). -/

namespace Sys2Proof.Machine

variable {s : State} {d n : Nat} {w : Word} {c : CordCfg}

/-! ### Writes that reach a Cord -/

/-- The state with another change log. -/
def State.withChg (s : State) (l : Log) : State := { s with trust := { s.trust with chg := l } }

/-- A write that reaches its register has its effect, with at most an entry in the change log before it (R505). -/
theorem State.exists_hostWrite {a : Nat} (h : s.mayWrite d a) (w : Word) (body : State → State) :
    ∃ l, s.hostWrite d a w body = body (s.withChg l) := by
  obtain ⟨-, hlive, hsees⟩ := h
  rw [State.hostWrite, hlive, hsees, Bool.and_self, if_pos rfl, State.loggedWrite]
  split
  · exact ⟨_, rfl⟩
  · exact ⟨s.trust.chg, rfl⟩

theorem State.exists_cordWrite {off : Nat} (h : s.mayWrite d (cordAddr n off)) (hc : s.cordCfg n = some c) (w : Word)
    (body : State → CordCfg → State) : ∃ l, s.cordWrite d n off w body = body (s.withChg l) c := by
  obtain ⟨l, hl⟩ := State.exists_hostWrite h w fun s =>
    match s.cordCfg n with
    | some c => body s c
    | none => s
  have hcl : (s.withChg l).cordCfg n = some c := hc
  refine ⟨l, hl.trans ?_⟩
  rw [hcl]

theorem loggedReg_submission {off : Nat} (hn : n < 16) (ho : off = 0x1C ∨ off = 0x13C ∨ off = 0x17C) :
    loggedReg (cordAddr n off) = false := by
  have hoff : cordAddr n off % 65536 = off := by unfold cordAddr; omega
  rw [loggedReg, if_pos (by unfold cordAddr; omega), hoff]
  rcases ho with rfl | rfl | rfl <;> rfl

/-- Submissions and the size of the completion ring are not logged (R505). -/
theorem State.cordWrite_unlogged {off : Nat} (h : s.mayWrite d (cordAddr n off)) (hn : n < 16)
    (ho : off = 0x1C ∨ off = 0x13C ∨ off = 0x17C) (hc : s.cordCfg n = some c) (w : Word)
    (body : State → CordCfg → State) : s.cordWrite d n off w body = body s c := by
  rw [State.cordWrite, State.hostWrite_unlogged h (loggedReg_submission hn ho), hc]

theorem State.cord_of_cordCfg (h : s.cordCfg n = some c) : c.cord = n := by
  obtain ⟨l, -, hfind⟩ := Option.bind_eq_some_iff.1 h
  simpa using List.find?_some hfind

/-! ### The rows -/

section
variable (hn : cordOk n = true) (hc : s.cordCfg n = some c)
include hn hc

theorem exec_sessionOpen (h : s.mayWrite d (cordAddr n 4)) :
    ∃ l, exec (.sessionOpen d n w) s = .next ((s.withChg l).openSession c (w.toNat % 2 ^ 20)) := by
  obtain ⟨l, hl⟩ := State.exists_cordWrite h hc w fun s c => s.openSession c (w.toNat % 2 ^ 20)
  refine ⟨l, ?_⟩
  change execSessionOpen d n w s = _
  rw [execSessionOpen, h.1, hn, hl]
  rfl

theorem exec_sessionClose (h : s.mayWrite d (cordAddr n 8)) :
    ∃ l, exec (.sessionClose d n w) s = .next ((s.withChg l).closeSession c (w.toNat % 2 ^ 20)) := by
  obtain ⟨l, hl⟩ := State.exists_cordWrite h hc w fun s c => s.closeSession c (w.toNat % 2 ^ 20)
  refine ⟨l, ?_⟩
  change execSessionClose d n w s = _
  rw [execSessionClose, h.1, hn, hl]
  rfl

theorem exec_dispAbort (h : s.mayWrite d (cordAddr n 0x10)) :
    ∃ l, exec (.dispAbort d n w) s = .next ((s.withChg l).abortJob n w.toNat) := by
  obtain ⟨l, hl⟩ := State.exists_cordWrite h hc w fun s _ => s.abortJob n w.toNat
  refine ⟨l, ?_⟩
  change execDispAbort d n w s = _
  rw [execDispAbort, h.1, hn, hl]
  rfl

theorem exec_submitLc (h : s.mayWrite d (cordAddr n 0x13C)) :
    exec (.submitLc d n w) s = .next (s.stageWord c true 15 w) := by
  change execSubmitLc d n w s = _
  rw [execSubmitLc, h.1, hn, State.cordWrite_unlogged h (of_decide_eq_true hn) (.inr (.inl rfl)) hc]
  rfl

theorem exec_submitBe (h : s.mayWrite d (cordAddr n 0x17C)) :
    exec (.submitBe d n w) s = .next (s.stageWord c false 15 w) := by
  change execSubmitBe d n w s = _
  rw [execSubmitBe, h.1, hn, State.cordWrite_unlogged h (of_decide_eq_true hn) (.inr (.inr rfl)) hc]
  rfl

theorem exec_dispCqSize (h : s.mayWrite d (cordAddr n 0x1C)) :
    exec (.dispCqSize d n w) s = .next (s.cqSize n w) := by
  change execDispCqSize d n w s = _
  rw [execDispCqSize, h.1, hn, State.cordWrite_unlogged h (of_decide_eq_true hn) (.inl rfl) hc]
  rfl

end

/-! ### DISP_CQ_SIZE (R420) -/

theorem powerIn_iff {x lo hi : Nat} : powerIn x lo hi = true ↔ ∃ k, lo ≤ k ∧ k ≤ hi ∧ x = 2 ^ k := by
  simp only [powerIn, List.any_eq_true, List.mem_range, beq_iff_eq]
  exact ⟨fun ⟨k, hk, hx⟩ => ⟨lo + k, by omega, by omega, hx⟩,
    fun ⟨k, hlo, hhi, hx⟩ => ⟨k - lo, by omega, by rw [hx]; congr 1; omega⟩⟩

/-- The size that the completion ring takes. -/
def ringSize (w : Word) : Nat := if powerIn (w.toNat % 2 ^ 20) 6 19 then w.toNat % 2 ^ 20 else 0

theorem State.reg_setCordRt (t : State) (m : Nat) (v : CordRt) (x : Nat) : (t.setCordRt m v).reg x = t.reg x := rfl

theorem State.cqSize_eq : ∃ v, v.cqWr = 0 ∧ s.cqSize n w =
    ((s.setReg (cordAddr n 0x1C) (.ofNat 32 (ringSize w))).setReg (cordAddr n 0x24) 0).setCordRt n v :=
  ⟨_, rfl, rfl⟩

theorem State.reg_cqSize (x : Nat) : (s.cqSize n w).reg x =
    if x = cordAddr n 0x24 then 0 else if x = cordAddr n 0x1C then .ofNat 32 (ringSize w) else s.reg x := by
  obtain ⟨v, -, hv⟩ := State.cqSize_eq (s := s) (n := n) (w := w)
  rw [hv, State.reg_setCordRt, State.reg_setReg, State.reg_setReg]

theorem State.cqWr_cqSize : ((s.cqSize n w).cordRt n).cqWr = 0 := by
  obtain ⟨v, hwr, hv⟩ := State.cqSize_eq (s := s) (n := n) (w := w)
  rw [hv, State.cordRt_setCordRt_same, hwr]

theorem State.cqSize_sansCounts : (s.cqSize n w).sansCounts = s.sansCounts := by
  obtain ⟨v, -, hv⟩ := State.cqSize_eq (s := s) (n := n) (w := w)
  rw [hv, State.setCordRt_sansCounts, State.setReg_sansCounts, State.setReg_sansCounts]

theorem dispCqSize_restarts (hn : cordOk n = true) (hc : s.cordCfg n = some c) (h : s.mayWrite d (cordAddr n 0x1C)) :
    Completes (exec (.dispCqSize d n w) s) fun t =>
      (∀ k, 6 ≤ k → k ≤ 19 → w.toNat % 2 ^ 20 = 2 ^ k → t.reg (cordAddr n 0x1C) = .ofNat 32 (w.toNat % 2 ^ 20)) ∧
      ((∀ k, 6 ≤ k → k ≤ 19 → w.toNat % 2 ^ 20 ≠ 2 ^ k) → t.reg (cordAddr n 0x1C) = 0) ∧
      (t.cordRt n).cqWr = 0 ∧ t.reg (cordAddr n 0x24) = 0 ∧
      (∀ x, x ≠ cordAddr n 0x1C → x ≠ cordAddr n 0x24 → t.reg x = s.reg x) ∧
      { t with regs := s.regs, cords := s.cords } = s := by
  have hne : cordAddr n 0x1C ≠ cordAddr n 0x24 := by unfold cordAddr; omega
  refine ⟨_, exec_dispCqSize hn hc h, fun k h1 h2 hk => ?_, fun hk => ?_, ?_, ?_, fun x h1 h2 => ?_, ?_⟩
  · rw [State.reg_cqSize, if_neg hne, if_pos rfl, ringSize, if_pos (powerIn_iff.2 ⟨k, h1, h2, hk⟩)]
  · rw [State.reg_cqSize, if_neg hne, if_pos rfl, ringSize,
      if_neg fun hp => (powerIn_iff.1 hp).elim fun k hk' => hk k hk'.1 hk'.2.1 hk'.2.2]
    rfl
  · exact State.cqWr_cqSize
  · rw [State.reg_cqSize, if_pos rfl]
  · rw [State.reg_cqSize, if_neg h2, if_neg h1]
  · have hsans : (s.cqSize n w).sansCounts = s.sansCounts := State.cqSize_sansCounts
    exact congrArg (fun u : State => { u with regs := s.regs, cords := s.cords }) hsans

end Sys2Proof.Machine
end

section
/-! PROOF. Sessions open and close (R80, R395, R396). -/

namespace Sys2Proof.Machine

variable {s t : State} {d n i r : Nat} {w : Word} {c : CordCfg}

/-! ### What a session's start and end leave alone -/

/-- The state without its data ports, its DRAM, its sessions, registers and counts of Cords. -/
def State.sansSessions (s : State) : State :=
  { s with hosts := [], dram := [], dramUe := [], sessions := [], regs := [], cords := [] }

theorem State.jobs_of_sansSessions (h : t.sansSessions = s.sansSessions) : t.jobs = s.jobs := (congrArg State.jobs h :)

theorem State.frame_of_sansSessions (h : t.sansSessions = s.sansSessions) :
    t.jobs = s.jobs ∧ t.hearths = s.hearths ∧ t.hitches = s.hitches :=
  ⟨State.jobs_of_sansSessions h, (congrArg State.hearths h :), (congrArg State.hitches h :)⟩

theorem State.event_sansSessions (d code block arg : Nat) :
    (s.event d code block arg).sansSessions = s.sansSessions := by
  unfold State.event
  dsimp only
  split <;> rfl

theorem State.levelEvent_frame (d p old : Nat) : (s.levelEvent d p old).sansSessions = s.sansSessions ∧
    (s.levelEvent d p old).dram = s.dram ∧ (s.levelEvent d p old).cords = s.cords := by
  unfold State.levelEvent
  dsimp only
  split
  · exact ⟨State.event_sansSessions .., (congrArg State.dram (s.event_rest d 0x0101 0x01 p) :),
      (congrArg State.cords (s.event_rest d 0x0101 0x01 p) :)⟩
  · exact ⟨rfl, rfl, rfl⟩

/-- A byte that is written as a number reads back. -/
theorem State.cordLe_putCordLe_byte (a : Nat) {x : Nat} (hx : x < 256) : (s.putCordLe c a 1 x).cordLe c a 1 = x := by
  have hbyte : (s.putCordLe c a 1 x).cordByte c a = BitVec.ofNat 8 x := by
    simp [State.cordByte, State.putCordLe, State.putCordBytes, natLe, List.range_succ]
  simp [State.cordLe, State.cordBytes, List.range_succ, hbyte, leNat, Nat.mod_eq_of_lt hx]

theorem State.sessLe_of_dram (h : t.dram = s.dram) (off k : Nat) : t.sessLe c i off k = s.sessLe c i off k := by
  simp only [State.sessLe, State.cordLe, State.cordBytes, State.cordByte, h]

theorem State.sessResult_result (s : State) (n i r : Nat) :
    ((s.sessResult n i r).cordRt n).sessResult = .ofNat 32 (i + r * 2 ^ 24) := by
  rw [State.sessResult, State.cordRt_setCordRt_same]

/-! ### SESSION_OPEN (R395) -/

theorem State.openSession_of_range (h : c.hasSession i = false ∨ s.sessFieldsOk c i = false) :
    s.openSession c i = s.sessResult c.cord i 1 :=
  if_pos (by rcases h with h | h <;> simp [h])

section
variable (hi : c.hasSession i = true) (hok : s.sessFieldsOk c i = true)
include hi hok

theorem State.openSession_of_open (h : s.sessLe c i 0 1 ≠ 0) : s.openSession c i = s.sessResult c.cord i 2 :=
  (if_neg (by simp [hi, hok])).trans (if_pos h)

variable (hfree : s.sessLe c i 0 1 = 0)
include hfree

theorem State.openSession_of_bound_port (h : ∃ p ∈ s.sessPorts c i, (s.port c.ownerHost p.1).bound = true) :
    s.openSession c i = s.sessResult c.cord i 3 :=
  (if_neg (by simp [hi, hok])).trans ((if_neg (not_not.2 hfree)).trans (if_pos (List.any_eq_true.2 h)))

variable (hports : ∀ p ∈ s.sessPorts c i, (s.port c.ownerHost p.1).bound = false)
include hports

omit hi hok hfree in
theorem State.any_bound_eq_false : ¬ ((s.sessPorts c i).any fun p => (s.port c.ownerHost p.1).bound) = true := by
  rw [List.any_eq_true]
  exact fun ⟨p, hp, hb⟩ => by rw [hports p hp] at hb; cases hb

theorem State.openSession_of_large_track (h : c.scaleBytes < s.sessLe c i 0x28 4) :
    s.openSession c i = s.sessResult c.cord i 4 :=
  (if_neg (by simp [hi, hok])).trans ((if_neg (not_not.2 hfree)).trans
    ((if_neg (State.any_bound_eq_false hports)).trans (if_pos h)))

/-- Bind each of some ports of a session to its ring. -/
def State.bindPorts (s : State) (c : CordCfg) (i : Nat) (ps : List (Nat × Bool × Nat × Nat)) : State :=
  ps.foldl (fun t (p, out, base, words) => t.bindPort c i p out base words) s

/-- The session after its open, with history block `b`. -/
def State.sessionOpened (s : State) (c : CordCfg) (i b : Nat) : State :=
  let t := (s.clearSession c i b).bindPorts c i (s.sessPorts c i)
  (t.setSess i { opened := t.time }).sessResult c.cord i 0

theorem State.openSession_opens (htrack : s.sessLe c i 0x28 4 ≤ c.scaleBytes)
    (hblock : s.sessLe c i 0x44 2 = 0 ∨ (s.freeBlock c).isSome = true) :
    ∃ b, s.openSession c i = s.sessionOpened c i b := by
  have hb : ∃ b, (if decide (s.sessLe c i 0x44 2 ≠ 0) = true then s.freeBlock c else some 0xFFFFFFFF) = some b := by
    rcases hblock with h0 | hsome
    · exact ⟨_, if_neg (by simp [h0])⟩
    · split
      · exact Option.isSome_iff_exists.1 hsome
      · exact ⟨_, rfl⟩
  obtain ⟨b, hb⟩ := hb
  refine ⟨b, (if_neg (by simp [hi, hok])).trans ((if_neg (not_not.2 hfree)).trans
    ((if_neg (State.any_bound_eq_false hports)).trans ((if_neg (Nat.not_lt.2 htrack)).trans ?_)))⟩
  dsimp only
  rw [hb]
  rfl

end

/-! ### The session that an open leaves -/

theorem State.bindPort_frame (p : Nat) (out : Bool) (base size : Nat) :
    (s.bindPort c i p out base size).sansSessions = s.sansSessions ∧ (s.bindPort c i p out base size).dram = s.dram :=
  ⟨(State.levelEvent_frame ..).1, (State.levelEvent_frame ..).2.1⟩

theorem State.port_bindPort (p : Nat) (out : Bool) (base size q : Nat) :
    (s.bindPort c i p out base size).port c.ownerHost q =
      if q = p then { bound := true, outbound := out, cord := c.cord, session := i, base := base, size := size }
      else s.port c.ownerHost q := by
  rw [State.bindPort, State.levelEvent_port, State.port_setPort]
  simp only [true_and]

/-- A port is bound and its ring is empty. -/
def DataPort.fresh (x : DataPort) : Prop := x.bound = true ∧ x.held = 0

theorem State.fresh_bindPorts (ps : List (Nat × Bool × Nat × Nat)) {q : Nat}
    (h : (s.port c.ownerHost q).fresh ∨ ∃ p ∈ ps, p.1 = q) : ((s.bindPorts c i ps).port c.ownerHost q).fresh := by
  induction ps generalizing s with
  | nil => exact h.resolve_right fun ⟨_, hp, _⟩ => List.not_mem_nil hp
  | cons p ps ih =>
    obtain ⟨p, out, base, words⟩ := p
    refine ih (s := s.bindPort c i p out base words) ?_
    rw [State.port_bindPort]
    by_cases hq : q = p
    · exact .inl (by rw [if_pos hq]; exact ⟨rfl, rfl⟩)
    · rw [if_neg hq]
      refine h.imp_right fun ⟨x, hx, hxq⟩ => ⟨x, (List.mem_cons.1 hx).resolve_left ?_, hxq⟩
      rintro rfl
      exact hq hxq.symm

theorem State.bindPorts_frame (ps : List (Nat × Bool × Nat × Nat)) :
    (s.bindPorts c i ps).sansSessions = s.sansSessions ∧ (s.bindPorts c i ps).dram = s.dram :=
  ⟨foldl_keeps State.sansSessions (fun _ _ => (State.bindPort_frame ..).1) ps s,
    foldl_keeps State.dram (fun _ _ => (State.bindPort_frame ..).2) ps s⟩

theorem State.sessLe_sessionOpened (b : Nat) : (s.sessionOpened c i b).sessLe c i 0 1 = 1 := by
  have hset (t : State) (v : SessRt) (r : Nat) : ((t.setSess i v).sessResult c.cord i r).dram = t.dram := rfl
  have hdram : (s.sessionOpened c i b).dram = (s.clearSession c i b).dram := by
    rw [State.sessionOpened, hset, (State.bindPorts_frame _).2]
  exact (State.sessLe_of_dram hdram 0 1).trans (State.cordLe_putCordLe_byte _ (by decide))

theorem State.port_sessionOpened (b : Nat) {p : Nat × Bool × Nat × Nat} (hp : p ∈ s.sessPorts c i) :
    ((s.sessionOpened c i b).port c.ownerHost p.1).fresh := by
  have hset (t : State) (v : SessRt) (r : Nat) :
      ((t.setSess i v).sessResult c.cord i r).port c.ownerHost p.1 = t.port c.ownerHost p.1 := rfl
  rw [State.sessionOpened, hset]
  exact State.fresh_bindPorts _ (.inr ⟨p, hp, rfl⟩)

theorem State.putSessLe_sansSessions (off k x : Nat) : (s.putSessLe c i off k x).sansSessions = s.sansSessions := rfl

theorem State.clearSession_sansSessions (b : Nat) : (s.clearSession c i b).sansSessions = s.sansSessions := by
  simp only [State.clearSession, State.putSessLe_sansSessions]

theorem State.sessionOpened_sansSessions (b : Nat) : (s.sessionOpened c i b).sansSessions = s.sansSessions := by
  have hset (t : State) (v : SessRt) (r : Nat) : ((t.setSess i v).sessResult c.cord i r).sansSessions = t.sansSessions :=
    rfl
  rw [State.sessionOpened, hset, (State.bindPorts_frame _).1, State.clearSession_sansSessions]

/-! ### SESSION_CLOSE (R396) -/

theorem State.closeSession_of_not_open (h : c.hasSession i = false ∨ s.sessLe c i 0 1 ≠ 1) :
    s.closeSession c i = s.sessResult c.cord i 5 :=
  if_pos (by rcases h with h | h <;> simp [h])

/-- The session while it closes, and once its ports are unbound. -/
def State.sessionClosing (s : State) (c : CordCfg) (i : Nat) : State := (s.sessResult c.cord i 0).putSessLe c i 0 1 2
def State.sessionClosed (s : State) (c : CordCfg) (i : Nat) : State :=
  (((s.sessionClosing c i).unbind c i).putSessLe c i 0x40 4 0xFFFFFFFF).putSessLe c i 0 1 0

theorem State.closeSession_of_idle (hc : s.cordCfg n = some c) (hi : c.hasSession i = true)
    (hopen : s.sessLe c i 0 1 = 1) (hjobs : ∀ j ∈ s.jobs, j.cord ≠ n ∨ j.session ≠ i) :
    s.closeSession c i = (s.sessionClosed c i).eventCordBlock n 0x0E03 i := by
  obtain rfl := State.cord_of_cordCfg hc
  have hnone (q : Job → Bool) :
      s.jobs.filter (fun j => j.cord == c.cord && j.session == i && q j) = [] :=
    List.filter_eq_nil_iff.2 fun j hj => by rcases hjobs j hj with h | h <;> simp [h]
  have hany : (s.jobs.any fun j => j.cord == c.cord && j.session == i) = false :=
    List.any_eq_false.2 fun j hj => by rcases hjobs j hj with h | h <;> simp [h]
  have hstate : (s.sessionClosing c i).sessLe c i 0 1 = 2 := State.cordLe_putCordLe_byte _ (by decide)
  have hcfg : (s.sessionClosing c i).cordCfg c.cord = some c := hc
  have hfinish : (s.sessionClosing c i).finishClose c.cord i = (s.sessionClosed c i).eventCordBlock c.cord 0x0E03 i := by
    rw [State.finishClose, hcfg]
    refine if_pos ?_
    rw [hi, hstate]
    exact congrArg (fun b => !b) hany
  refine (if_neg (by simp [hi, hopen])).trans ?_
  rw [← hfinish]
  refine congrArg (State.finishClose · c.cord i) ?_
  exact congrArg (List.foldl (fun (t : State) (j : Job) => t.endJob j.sub 0x8E) (s.sessionClosing c i)) (hnone Job.queued)

/-! ### The session that a close leaves -/

/-- A port that is bound to session `i` of a Cord. -/
def DataPort.serves (x : DataPort) (n i : Nat) : Bool := x.bound && x.cord == n && x.session == i

/-- Unbind one data port, if it serves a session. -/
def State.unbindPort (c : CordCfg) (i : Nat) (s : State) (p : Nat) : State :=
  if (s.port c.ownerHost p).serves c.cord i then s.setPort c.ownerHost p {} else s

theorem State.unbindPort_frame (p : Nat) : (State.unbindPort c i s p).sansSessions = s.sansSessions ∧
    (State.unbindPort c i s p).cords = s.cords := by
  unfold State.unbindPort
  split <;> exact ⟨rfl, rfl⟩

theorem State.unbind_frame : (s.unbind c i).sansSessions = s.sansSessions ∧ (s.unbind c i).cords = s.cords :=
  ⟨foldl_keeps State.sansSessions (fun _ _ => (State.unbindPort_frame _).1) (List.range 16) s,
    foldl_keeps State.cords (fun _ _ => (State.unbindPort_frame _).2) (List.range 16) s⟩

theorem State.port_foldl_unbindPort (ps : List Nat) {q : Nat}
    (h : (s.port c.ownerHost q).serves c.cord i = false ∨ q ∈ ps) :
    ((ps.foldl (State.unbindPort c i) s).port c.ownerHost q).serves c.cord i = false := by
  induction ps generalizing s with
  | nil => exact h.resolve_right (List.not_mem_nil)
  | cons p ps ih =>
    refine ih (s := State.unbindPort c i s p) ?_
    by_cases hp : (s.port c.ownerHost p).serves c.cord i
    · rw [State.unbindPort, if_pos hp, State.port_setPort]
      by_cases hq : q = p
      · exact .inl (by rw [if_pos ⟨rfl, hq⟩]; rfl)
      · rw [if_neg fun hqp => hq hqp.2]
        exact h.imp_right fun hmem => (List.mem_cons.1 hmem).resolve_left hq
    · rw [State.unbindPort, if_neg hp]
      rcases h with h | h
      · exact .inl h
      · rcases List.mem_cons.1 h with rfl | h
        · exact .inl (Bool.eq_false_iff.2 hp)
        · exact .inr h

theorem State.port_unbind {q : Nat} (hq : q < 16) : ((s.unbind c i).port c.ownerHost q).serves c.cord i = false :=
  State.port_foldl_unbindPort (List.range 16) (.inr (List.mem_range.2 hq))

/-- What an event of any domain keeps, an event of a Cord's owner keeps. -/
theorem State.eventCord_keeps {β : Type} (g : State → β) (n code block arg : Nat)
    (h : ∀ d, g (s.event d code block arg) = g s) : g (s.eventCord n code block arg) = g s := by
  unfold State.eventCord
  split
  · exact h _
  · rfl

theorem State.eventCordBlock_rest (n code arg : Nat) :
    { s.eventCordBlock n code arg with hosts := s.hosts, regs := s.regs } = s :=
  State.eventCord_keeps (fun t : State => { t with hosts := s.hosts, regs := s.regs }) n code (0x10 + n) arg fun d =>
    s.event_rest d code (0x10 + n) arg

theorem State.eventCordBlock_cords (n code arg : Nat) : (s.eventCordBlock n code arg).cords = s.cords :=
  (congrArg State.cords (State.eventCordBlock_rest n code arg) :)

theorem State.eventCordBlock_dram (n code arg : Nat) : (s.eventCordBlock n code arg).dram = s.dram :=
  (congrArg State.dram (State.eventCordBlock_rest n code arg) :)

theorem State.eventCordBlock_jobs (n code arg : Nat) : (s.eventCordBlock n code arg).jobs = s.jobs :=
  (congrArg State.jobs (State.eventCordBlock_rest n code arg) :)

theorem State.eventCordBlock_port (n code arg d p : Nat) : (s.eventCordBlock n code arg).port d p = s.port d p :=
  State.eventCord_keeps (State.port · d p) n code (0x10 + n) arg fun e => s.event_port e code (0x10 + n) arg d p

theorem State.sessionClosed_sansSessions : (s.sessionClosed c i).sansSessions = s.sansSessions := by
  rw [State.sessionClosed, State.putSessLe_sansSessions, State.putSessLe_sansSessions, State.unbind_frame.1,
    State.sessionClosing, State.putSessLe_sansSessions]
  rfl

theorem State.sessionClosed_cords : (s.sessionClosed c i).cords = (s.sessResult c.cord i 0).cords := by
  have hput (t : State) (off k x : Nat) : (t.putSessLe c i off k x).cords = t.cords := rfl
  rw [State.sessionClosed, hput, hput, State.unbind_frame.2, State.sessionClosing, hput]

theorem State.sessLe_sessionClosed : (s.sessionClosed c i).sessLe c i 0 1 = 0 :=
  State.cordLe_putCordLe_byte _ (by decide)

theorem State.port_sessionClosed {p : Nat} (hp : p < 16) :
    ((s.sessionClosed c i).port c.ownerHost p).serves c.cord i = false := by
  have hput (t : State) (off k x : Nat) : (t.putSessLe c i off k x).port c.ownerHost p = t.port c.ownerHost p := rfl
  rw [State.sessionClosed, hput, hput, State.port_unbind hp]

/-- SESSION_CLOSE of a session without jobs (R396). -/
theorem State.closeSession_closes (hc : s.cordCfg n = some c) (hi : c.hasSession i = true)
    (hopen : s.sessLe c i 0 1 = 1) (hjobs : ∀ j ∈ s.jobs, j.cord ≠ n ∨ j.session ≠ i) :
    ((s.closeSession c i).cordRt n).sessResult = .ofNat 32 i ∧ (s.closeSession c i).sessLe c i 0 1 = 0 ∧
      (s.closeSession c i).jobs = s.jobs ∧ ∀ p, p < 16 → ((s.closeSession c i).port c.ownerHost p).bound = true →
        ((s.closeSession c i).port c.ownerHost p).cord = n → ((s.closeSession c i).port c.ownerHost p).session ≠ i := by
  rw [State.closeSession_of_idle hc hi hopen hjobs]
  refine ⟨?_, ?_, ?_, fun p hp hb hcord hsess => ?_⟩
  · rw [State.cordRt, State.eventCordBlock_cords, State.sessionClosed_cords, ← State.cordRt, State.cord_of_cordCfg hc,
      State.sessResult_result, Nat.zero_mul, Nat.add_zero]
  · rw [State.sessLe_of_dram (State.eventCordBlock_dram ..), State.sessLe_sessionClosed]
  · rw [State.eventCordBlock_jobs]
    exact State.jobs_of_sansSessions State.sessionClosed_sansSessions
  · rw [State.eventCordBlock_port] at hb hcord hsess
    have hserves := State.port_sessionClosed (s := s) (c := c) (i := i) hp
    rw [DataPort.serves, hb, hcord, hsess, State.cord_of_cordCfg hc] at hserves
    simp at hserves

/-! ### The rows -/

section
variable (hn : cordOk n = true) (hc : s.cordCfg n = some c)

/-- A row that only reports result `r` for session `i` of a Cord (R395). -/
def answersSession (x : Instr) (s : State) (n i r : Nat) : Prop :=
  Completes (exec x s) fun t =>
    (t.cordRt n).sessResult = .ofNat 32 (i + r * 2 ^ 24) ∧ t.dram = s.dram ∧ t.jobs = s.jobs

theorem answersSession_of_sessResult {x : Instr} {l : Log} (h : exec x s = .next ((s.withChg l).sessResult n i r)) :
    answersSession x s n i r := ⟨_, h, State.sessResult_result .., rfl, rfl⟩

section
variable (h : s.mayWrite d (cordAddr n 4))
include hn hc h

theorem sessionOpen_of_range (hbad : c.hasSession (w.toNat % 2 ^ 20) = false ∨ s.sessFieldsOk c (w.toNat % 2 ^ 20) = false) :
    answersSession (.sessionOpen d n w) s n (w.toNat % 2 ^ 20) 1 := by
  obtain rfl := State.cord_of_cordCfg hc
  obtain ⟨l, hl⟩ := exec_sessionOpen (w := w) hn hc h
  exact answersSession_of_sessResult (hl.trans (congrArg _ (State.openSession_of_range (s := s.withChg l) hbad)))

variable (hi : c.hasSession (w.toNat % 2 ^ 20) = true) (hok : s.sessFieldsOk c (w.toNat % 2 ^ 20) = true)
include hi hok

theorem sessionOpen_of_open (hopen : s.sessLe c (w.toNat % 2 ^ 20) 0 1 ≠ 0) :
    answersSession (.sessionOpen d n w) s n (w.toNat % 2 ^ 20) 2 := by
  obtain rfl := State.cord_of_cordCfg hc
  obtain ⟨l, hl⟩ := exec_sessionOpen (w := w) hn hc h
  exact answersSession_of_sessResult (hl.trans (congrArg _ (State.openSession_of_open (s := s.withChg l) hi hok hopen)))

variable (hfree : s.sessLe c (w.toNat % 2 ^ 20) 0 1 = 0)
include hfree

theorem sessionOpen_of_bound_port
    (hbound : ∃ p ∈ s.sessPorts c (w.toNat % 2 ^ 20), (s.port c.ownerHost p.1).bound = true) :
    answersSession (.sessionOpen d n w) s n (w.toNat % 2 ^ 20) 3 := by
  obtain rfl := State.cord_of_cordCfg hc
  obtain ⟨l, hl⟩ := exec_sessionOpen (w := w) hn hc h
  exact answersSession_of_sessResult
    (hl.trans (congrArg _ (State.openSession_of_bound_port (s := s.withChg l) hi hok hfree hbound)))

variable (hports : ∀ p ∈ s.sessPorts c (w.toNat % 2 ^ 20), (s.port c.ownerHost p.1).bound = false)
include hports

theorem sessionOpen_of_large_track (hlarge : c.scaleBytes < s.sessLe c (w.toNat % 2 ^ 20) 0x28 4) :
    answersSession (.sessionOpen d n w) s n (w.toNat % 2 ^ 20) 4 := by
  obtain rfl := State.cord_of_cordCfg hc
  obtain ⟨l, hl⟩ := exec_sessionOpen (w := w) hn hc h
  exact answersSession_of_sessResult
    (hl.trans (congrArg _ (State.openSession_of_large_track (s := s.withChg l) hi hok hfree hports hlarge)))

/-- SESSION_OPEN with its resources at hand (R395). -/
theorem sessionOpen_opens (htrack : s.sessLe c (w.toNat % 2 ^ 20) 0x28 4 ≤ c.scaleBytes)
    (hblock : s.sessLe c (w.toNat % 2 ^ 20) 0x44 2 = 0 ∨ (s.freeBlock c).isSome = true) :
    Completes (exec (.sessionOpen d n w) s) fun t =>
      (t.cordRt n).sessResult = .ofNat 32 (w.toNat % 2 ^ 20) ∧ t.sessLe c (w.toNat % 2 ^ 20) 0 1 = 1 ∧
      (∀ p ∈ s.sessPorts c (w.toNat % 2 ^ 20),
        (t.port c.ownerHost p.1).bound = true ∧ (t.port c.ownerHost p.1).held = 0) ∧
      t.jobs = s.jobs ∧ t.hearths = s.hearths ∧ t.hitches = s.hitches := by
  obtain rfl := State.cord_of_cordCfg hc
  obtain ⟨l, hl⟩ := exec_sessionOpen (w := w) hn hc h
  obtain ⟨b, hb⟩ := State.openSession_opens (s := s.withChg l) hi hok hfree hports htrack hblock
  obtain ⟨hjobs, hhearths, hhitches⟩ := State.frame_of_sansSessions
    (State.sessionOpened_sansSessions (s := s.withChg l) (c := c) (i := w.toNat % 2 ^ 20) b)
  refine ⟨_, hl.trans (congrArg _ hb), ?_, State.sessLe_sessionOpened b,
    fun p hp => State.port_sessionOpened (s := s.withChg l) b hp, hjobs, hhearths, hhitches⟩
  rw [State.sessionOpened, State.sessResult_result, Nat.zero_mul, Nat.add_zero]

end

section
variable (h : s.mayWrite d (cordAddr n 8))
include hn hc h

theorem sessionClose_of_not_open
    (hbad : c.hasSession (w.toNat % 2 ^ 20) = false ∨ s.sessLe c (w.toNat % 2 ^ 20) 0 1 ≠ 1) :
    answersSession (.sessionClose d n w) s n (w.toNat % 2 ^ 20) 5 := by
  obtain rfl := State.cord_of_cordCfg hc
  obtain ⟨l, hl⟩ := exec_sessionClose (w := w) hn hc h
  exact answersSession_of_sessResult (hl.trans (congrArg _ (State.closeSession_of_not_open (s := s.withChg l) hbad)))

theorem sessionClose_closes (hi : c.hasSession (w.toNat % 2 ^ 20) = true)
    (hopen : s.sessLe c (w.toNat % 2 ^ 20) 0 1 = 1) (hjobs : ∀ j ∈ s.jobs, j.cord ≠ n ∨ j.session ≠ w.toNat % 2 ^ 20) :
    Completes (exec (.sessionClose d n w) s) fun t =>
      (t.cordRt n).sessResult = .ofNat 32 (w.toNat % 2 ^ 20) ∧ t.sessLe c (w.toNat % 2 ^ 20) 0 1 = 0 ∧ t.jobs = s.jobs ∧
      ∀ p, p < 16 → (t.port c.ownerHost p).bound = true → (t.port c.ownerHost p).cord = n →
        (t.port c.ownerHost p).session ≠ w.toNat % 2 ^ 20 := by
  obtain ⟨l, hl⟩ := exec_sessionClose (w := w) hn hc h
  exact ⟨_, hl, State.closeSession_closes (s := s.withChg l) hc hi hopen hjobs⟩

end

end

end Sys2Proof.Machine
end

section
/-! PROOF. Submissions: a refused one takes a completion record, an accepted one joins the jobs (R398, R401, R402, R420). -/

namespace Sys2Proof.Machine

variable {s t : State} {n sub i : Nat} {j : Job} {c : CordCfg}

/-! ### Completion records (R420) -/

/-- The state without what the writing of a completion record touches, but for the ring's position. -/
def State.sansRecords (s : State) : State := { s with dram := [], dramUe := [], regs := [], hosts := [] }

theorem State.eventCordBlock_sansRecords (n code arg : Nat) :
    (s.eventCordBlock n code arg).sansRecords = s.sansRecords :=
  (congrArg State.sansRecords (State.eventCordBlock_rest n code arg) :)

theorem State.cqLevel_sansRecords (n : Nat) : (s.cqLevel n).sansRecords = s.sansRecords := by
  unfold State.cqLevel
  dsimp only
  split
  · exact State.eventCordBlock_sansRecords ..
  · rfl

/-- The position of a Cord's completion ring moves on by one record. -/
def State.recordTaken (s : State) (n : Nat) : State :=
  s.setCordRt n { s.cordRt n with cqWr := ((s.cordRt n).cqWr + 1) % 2 ^ 32 }

theorem State.setCordRt_sansRecords (h : t.sansRecords = s.sansRecords) (wr : Nat) :
    (t.setCordRt n { t.cordRt n with cqWr := (wr + 1) % 2 ^ 32 }).sansRecords =
      (s.setCordRt n { s.cordRt n with cqWr := (wr + 1) % 2 ^ 32 }).sansRecords :=
  (congrArg (fun u : State => (u.setCordRt n { u.cordRt n with cqWr := (wr + 1) % 2 ^ 32 }).sansRecords) h :)

theorem State.frame_of_sansRecords (h : t.sansRecords = s.sansRecords) :
    t.jobs = s.jobs ∧ t.nextSub = s.nextSub ∧ t.cords = s.cords :=
  ⟨(congrArg State.jobs h :), (congrArg State.nextSub h :), (congrArg State.cords h :)⟩

theorem State.complete_of_no_ring (h : s.reg (cordAddr n 0x1C) = 0 ∨ s.cordCfg n = none) (status flags : Nat) :
    s.complete n sub j status flags = s := by
  unfold State.complete
  split
  · rfl
  next c hc =>
    refine if_pos (h.elim (fun h => ?_) fun h => ?_)
    · rw [h]; rfl
    · rw [h] at hc; cases hc

theorem State.complete_sansRecords (hc : s.cordCfg n = some c) (h : s.reg (cordAddr n 0x1C) ≠ 0) (status flags : Nat) :
    (s.complete n sub j status flags).sansRecords = (s.recordTaken n).sansRecords := by
  have hsize : (s.reg (cordAddr n 0x1C)).toNat ≠ 0 := fun h0 => h (BitVec.eq_of_toNat_eq h0)
  have hput (t : State) (a : Nat) (bs : List Byte) : (t.putCordBytes c a bs).sansRecords = t.sansRecords := rfl
  have hbump (t : State) (k m : Nat) : (t.bump k m).sansRecords = t.sansRecords := rfl
  rw [State.complete, hc]
  dsimp only
  rw [if_neg hsize, State.cqLevel_sansRecords]
  refine State.setCordRt_sansRecords ?_ (s.cordRt n).cqWr
  simp only [apply_ite State.sansRecords, hput, hbump, ite_self]

/-! ### Admission (R401) -/

theorem State.submit_of_draining (h : s.draining c.cord = true) (lc : Bool) (bs : List Byte) :
    (s.submit c lc bs).1 = s := by
  rw [State.submit, if_pos h]

section
variable (h : s.draining c.cord = false) {lc : Bool} {bs : List Byte}
include h

theorem State.submit_of_refused {st : Nat} (hst : s.admission c (s.classOf c (readJob c.cord c.ownerHost lc bs)) bs = some st) :
    (s.submit c lc bs).1 = s.complete c.cord 0 (s.classOf c (readJob c.cord c.ownerHost lc bs)) st 1 := by
  rw [State.submit, if_neg (Bool.eq_false_iff.1 h)]
  dsimp only
  rw [hst]

theorem State.submit_of_admitted (hst : s.admission c (s.classOf c (readJob c.cord c.ownerHost lc bs)) bs = none) :
    (s.submit c lc bs).1 = s.accept c (s.classOf c (readJob c.cord c.ownerHost lc bs)) := by
  rw [State.submit, if_neg (Bool.eq_false_iff.1 h)]
  dsimp only
  rw [hst]

end

/-- The class that a job takes changes nothing else of it (R240). -/
theorem State.classOf_eq (s : State) (c : CordCfg) (j : Job) : ∃ lc, s.classOf c j = { j with lc := lc } := by
  unfold State.classOf
  split
  · split
    · exact ⟨_, rfl⟩
    · exact ⟨j.lc, rfl⟩
  · exact ⟨j.lc, rfl⟩

/-! ### An accepted job (R397, R402) -/

/-- The state without the session cache, the registers, DRAM and the counts of hosts. -/
def State.sansCache (s : State) : State :=
  { s with sessCache := [], regs := [], dram := [], dramUe := [], hostCounts := [] }

theorem State.cacheSession_sansCache (i : Nat) : (s.cacheSession i).sansCache = s.sansCache := by
  unfold State.cacheSession
  dsimp only
  split
  · rfl
  · split <;> rfl

/-- The job that an accepted submission adds. -/
def State.acceptedJob (s : State) (c : CordCfg) (j : Job) : Job :=
  let prev : Nat := s.sessLe c j.session 0xC8 4
  { j with sub := s.nextSub, energyNj := ((s.admFigures c j).map Prod.snd).getD 0, prev := prev
           chain := if prev = 0 ∨ (s.job? prev).isSome then none else (s.sess j.session).last }

def State.withJob (s : State) (c : CordCfg) (j : Job) : State :=
  { s with nextSub := if s.nextSub = 2 ^ 32 - 1 then 1 else s.nextSub + 1, jobs := s.jobs ++ [s.acceptedJob c j] }

/-- The start wait of a job has succeeded. -/
def Job.waited (j : Job) : Job := { j with waitOk := true }

/-- The state in which a job has joined, and its session is known, but its start wait has not been tried. -/
def State.jobJoined (s : State) (c : CordCfg) (j : Job) : State :=
  (((s.withJob c j).countJob c.cord c.ownerHost 0).putSessLe c j.session 0xC8 4 s.nextSub).cacheSession j.session

theorem State.accept_of_no_wait (h : j.startEn = false) :
    s.accept c j = (s.jobJoined c j).modJob s.nextSub Job.waited := by
  change (s.jobJoined c j).startWait (s.acceptedJob c j) = _
  exact if_pos (congrArg (fun b => !b) h)

theorem State.frame_of_sansCache (h : t.sansCache = s.sansCache) :
    t.jobs = s.jobs ∧ t.nextSub = s.nextSub ∧ t.cords = s.cords ∧ t.hearths = s.hearths :=
  ⟨(congrArg State.jobs h :), (congrArg State.nextSub h :), (congrArg State.cords h :), (congrArg State.hearths h :)⟩

theorem State.jobJoined_sansCache :
    (s.jobJoined c j).sansCache = ((s.withJob c j).countJob c.cord c.ownerHost 0).sansCache := by
  rw [State.jobJoined, State.cacheSession_sansCache]
  rfl

theorem State.map_waited_of_new (hnew : ∀ q ∈ s.jobs, q.sub ≠ s.nextSub) :
    (s.withJob c j).jobs.map (fun q => if q.sub == s.nextSub then q.waited else q) =
      s.jobs ++ [(s.acceptedJob c j).waited] := by
  have hold : s.jobs.map (fun q => if q.sub == s.nextSub then q.waited else q) = s.jobs :=
    (List.map_congr_left fun q hq => if_neg (by simpa using hnew q hq)).trans (List.map_id' _)
  have hlast : (s.acceptedJob c j).sub = s.nextSub := rfl
  rw [State.withJob, List.map_append, hold, List.map_singleton, hlast, beq_self_eq_true, if_pos rfl]

/-- What an accepted job without a start wait changes (R402). -/
theorem State.accept_frame (h : j.startEn = false) (hnew : ∀ q ∈ s.jobs, q.sub ≠ s.nextSub) :
    (s.accept c j).jobs = s.jobs ++ [(s.acceptedJob c j).waited] ∧
      (s.accept c j).nextSub = (if s.nextSub = 2 ^ 32 - 1 then 1 else s.nextSub + 1) ∧
      ((s.accept c j).cordRt c.cord).accepted = (s.cordRt c.cord).accepted + 1 ∧ (s.accept c j).hearths = s.hearths := by
  obtain ⟨hjobs, hnext, hcords, hhearths⟩ := State.frame_of_sansCache (State.jobJoined_sansCache (s := s) (c := c) (j := j))
  rw [State.accept_of_no_wait h]
  refine ⟨?_, hnext, ?_, hhearths⟩
  · exact (congrArg (List.map _) hjobs).trans (State.map_waited_of_new hnew)
  · refine (congrArg (fun m : SMap CordRt => (m.look (fun _ => {}) c.cord).accepted) hcords).trans ?_
    exact congrArg CordRt.accepted (State.cordRt_setCordRt_same ..)

/-- What a refused submission changes (R401, R420). -/
theorem State.complete_frame (hc : s.cordCfg n = some c) (status flags : Nat) :
    (s.complete n sub j status flags).jobs = s.jobs ∧ (s.complete n sub j status flags).nextSub = s.nextSub ∧
      ((s.complete n sub j status flags).cordRt n).accepted = (s.cordRt n).accepted ∧
      (s.reg (cordAddr n 0x1C) ≠ 0 →
        ((s.complete n sub j status flags).cordRt n).cqWr = ((s.cordRt n).cqWr + 1) % 2 ^ 32) := by
  by_cases h0 : s.reg (cordAddr n 0x1C) = 0
  · rw [State.complete_of_no_ring (.inl h0)]
    exact ⟨rfl, rfl, rfl, fun h => absurd h0 h⟩
  · obtain ⟨hjobs, hnext, hcords⟩ := State.frame_of_sansRecords
      (State.complete_sansRecords (sub := sub) (j := j) hc h0 status flags)
    have hrt : (s.complete n sub j status flags).cordRt n = (s.recordTaken n).cordRt n := by rw [State.cordRt, hcords]; rfl
    rw [hrt, State.recordTaken, State.cordRt_setCordRt_same]
    exact ⟨hjobs, hnext, rfl, fun _ => rfl⟩

/-! ### SUBMIT_LC and SUBMIT_BE (R401) -/

/-- What a submission through a window of Cord n does: `s` before the last word of the descriptor `bs`, `s1` with it. -/
def submitsJob (x : Instr) (s : State) (c : CordCfg) (n : Nat) (lc : Bool) (s1 : State) (bs : List Byte) : Prop :=
  let j := s1.classOf c (readJob n c.ownerHost lc bs)
  (s.draining n = true → Completes (exec x s) fun t => t.jobs = s.jobs ∧ t.nextSub = s.nextSub) ∧
  (s.draining n = false → s1.admission c j bs = none → j.startEn = false → (∀ q ∈ s.jobs, q.sub ≠ s.nextSub) →
    Completes (exec x s) fun t =>
      (∃ q, t.jobs = s.jobs ++ [q] ∧ q.sub = s.nextSub ∧ q.phase = 0 ∧ q.waitOk = true ∧ q.lc = j.lc ∧
        q.cord = n ∧ q.kind = j.kind ∧ q.session = j.session ∧ q.deadline = j.deadline ∧ q.tag = j.tag) ∧
      t.nextSub = (if s.nextSub = 2 ^ 32 - 1 then 1 else s.nextSub + 1) ∧
      (t.cordRt n).accepted = (s.cordRt n).accepted + 1 ∧ t.hearths = s.hearths) ∧
  (∀ st, s.draining n = false → s1.admission c j bs = some st → Completes (exec x s) fun t =>
    t.jobs = s.jobs ∧ t.nextSub = s.nextSub ∧ (t.cordRt n).accepted = (s.cordRt n).accepted ∧
    (s.reg (cordAddr n 0x1C) ≠ 0 → (t.cordRt n).cqWr = ((s.cordRt n).cqWr + 1) % 2 ^ 32))

theorem submitsJob_of_submit {x : Instr} {lc : Bool} {bs : List Byte} {v : CordRt} (hc : s.cordCfg n = some c)
    (ha : v.accepted = (s.cordRt n).accepted) (hwr : v.cqWr = (s.cordRt n).cqWr)
    (he : exec x s = .next ((s.setCordRt n v).submit c lc bs).1) : submitsJob x s c n lc (s.setCordRt n v) bs := by
  obtain rfl := State.cord_of_cordCfg hc
  have hrt : (s.setCordRt c.cord v).cordRt c.cord = v := State.cordRt_setCordRt_same ..
  refine ⟨fun h => ⟨_, he.trans (congrArg _ (State.submit_of_draining (s := s.setCordRt c.cord v) h lc bs)), rfl, rfl⟩,
    fun h hst hwait hnew =>
      ⟨_, he.trans (congrArg _ (State.submit_of_admitted (s := s.setCordRt c.cord v) h hst)), ?_⟩,
    fun st h hst => ⟨_, he.trans (congrArg _ (State.submit_of_refused (s := s.setCordRt c.cord v) h hst)), ?_⟩⟩
  · obtain ⟨hjobs, hnext, hacc, hhearths⟩ := State.accept_frame (s := s.setCordRt c.cord v) (c := c) hwait hnew
    obtain ⟨lc', hclass⟩ := (s.setCordRt c.cord v).classOf_eq c (readJob c.cord c.ownerHost lc bs)
    rw [hrt, ha] at hacc
    exact ⟨⟨_, hjobs, rfl, congrArg Job.phase hclass, rfl, rfl, congrArg Job.cord hclass, rfl, rfl, rfl, rfl⟩, hnext, hacc,
      hhearths⟩
  · obtain ⟨hjobs, hnext, hacc, hcq⟩ := State.complete_frame (s := s.setCordRt c.cord v) (sub := 0)
      (j := (s.setCordRt c.cord v).classOf c (readJob c.cord c.ownerHost lc bs)) hc st 1
    rw [hrt, ha] at hacc
    rw [hrt, hwr] at hcq
    exact ⟨hjobs, hnext, hacc, hcq⟩

theorem State.stageWord_lc (w : Word) :
    let lc := (s.cordRt c.cord).stagedLc.put (fun _ => 0) 15 w
    s.stageWord c true 15 w =
      ((s.setCordRt c.cord { s.cordRt c.cord with stagedLc := lc }).submit c true (windowBytes lc)).1 := by
  rw [State.stageWord]
  rfl

theorem State.stageWord_be (w : Word) :
    let be := (s.cordRt c.cord).stagedBe.put (fun _ => 0) 15 w
    s.stageWord c false 15 w =
      ((s.setCordRt c.cord { s.cordRt c.cord with stagedBe := be }).submit c false (windowBytes be)).1 := by
  rw [State.stageWord]
  rfl

section
variable {d : Nat} {w : Word} (hn : cordOk n = true) (hc : s.cordCfg n = some c)
include hn hc

theorem submitLc_submits (h : s.mayWrite d (cordAddr n 0x13C)) :
    let lc := (s.cordRt n).stagedLc.put (fun _ => 0) 15 w
    submitsJob (.submitLc d n w) s c n true (s.setCordRt n { s.cordRt n with stagedLc := lc }) (windowBytes lc) := by
  obtain rfl := State.cord_of_cordCfg hc
  exact submitsJob_of_submit hc rfl rfl ((exec_submitLc hn hc h).trans (congrArg _ (State.stageWord_lc w)))

theorem submitBe_submits (h : s.mayWrite d (cordAddr n 0x17C)) :
    let be := (s.cordRt n).stagedBe.put (fun _ => 0) 15 w
    submitsJob (.submitBe d n w) s c n false (s.setCordRt n { s.cordRt n with stagedBe := be }) (windowBytes be) := by
  obtain rfl := State.cord_of_cordCfg hc
  exact submitsJob_of_submit hc rfl rfl ((exec_submitBe hn hc h).trans (congrArg _ (State.stageWord_be w)))

end

end Sys2Proof.Machine
end

section
/-! PROOF. What the end of a job keeps of the books of the dispatch unit: the results of aborts, the submissions
that have ended, and which submissions are jobs (R415 to R419). -/

namespace Sys2Proof.Machine

variable {s t u : State}

/-! ### The books -/

/-- The jobs, the submissions that have ended, and the run-time state of the Cords. -/
def State.books (s : State) : List Job × List (Nat × Nat) × SMap CordRt :=
  (s.jobs, s.ended, s.cords)

/-- From s to t the results of aborts stay, what has ended stays ended, and no submission becomes a job. -/
structure State.BooksTo (s t : State) : Prop where
  results : ∀ n, (t.cordRt n).abortResult = (s.cordRt n).abortResult
  ended   : ∀ e ∈ s.ended, e ∈ t.ended
  jobs    : ∀ j ∈ t.jobs, ∃ i ∈ s.jobs, i.sub = j.sub

theorem State.BooksTo.refl (s : State) : s.BooksTo s := ⟨fun _ => rfl, fun _ => id, fun j hj => ⟨j, hj, rfl⟩⟩

theorem State.BooksTo.trans (h1 : s.BooksTo t) (h2 : t.BooksTo u) : s.BooksTo u where
  results n := (h2.results n).trans (h1.results n)
  ended e he := h2.ended e (h1.ended e he)
  jobs j hj := by
    obtain ⟨i, hi, hij⟩ := h2.jobs j hj
    obtain ⟨k, hk, hki⟩ := h1.jobs i hi
    exact ⟨k, hk, hki.trans hij⟩

theorem State.jobs_of_books (h : t.books = s.books) : t.jobs = s.jobs := congrArg Prod.fst h

theorem State.ended_of_books (h : t.books = s.books) : t.ended = s.ended := congrArg (·.2.1) h

theorem State.cordRt_of_books (h : t.books = s.books) (n : Nat) : t.cordRt n = s.cordRt n := by
  have hcords : t.cords = s.cords := congrArg (·.2.2) h
  rw [State.cordRt, hcords, State.cordRt]

theorem State.BooksTo.of_books (h : t.books = s.books) : s.BooksTo t where
  results n := by rw [State.cordRt_of_books h]
  ended e he := by rwa [State.ended_of_books h]
  jobs j hj := ⟨j, State.jobs_of_books h ▸ hj, rfl⟩

theorem State.BooksTo.foldl {α : Type} {f : State → α → State} (hf : ∀ (t : State) (a : α), t.BooksTo (f t a)) (l : List α)
    (s : State) : s.BooksTo (l.foldl f s) := by
  induction l generalizing s with
  | nil => exact .refl s
  | cons a l ih => exact (hf s a).trans (ih (f s a))

/-! ### Operations that leave the books alone -/

theorem State.books_of_sansReports (h : t.sansReports = s.sansReports) : t.books = s.books := (congrArg State.books h :)

theorem State.event_books (d code block arg : Nat) : (s.event d code block arg).books = s.books :=
  State.books_of_sansReports (State.event_sansReports ..)

theorem State.eventCord_books (n code block arg : Nat) : (s.eventCord n code block arg).books = s.books :=
  State.eventCord_keeps State.books n code block arg fun d => State.event_books d code block arg

theorem State.eventCordBlock_books (n code arg : Nat) : (s.eventCordBlock n code arg).books = s.books :=
  State.eventCord_books n code (0x10 + n) arg

theorem State.setHearth_books (h : Nat) (v : Hearth) : (s.setHearth h v).books = s.books := rfl
theorem State.setCore_books (h c : Nat) (k : Core) : (s.setCore h c k).books = s.books := rfl
theorem State.setHitch_books (k : Nat) (v : Hitch) : (s.setHitch k v).books = s.books := rfl
theorem State.setPort_books (d p : Nat) (v : DataPort) : (s.setPort d p v).books = s.books := rfl
theorem State.setSess_books (i : Nat) (v : SessRt) : (s.setSess i v).books = s.books := rfl
theorem State.bump_books (k n : Nat) : (s.bump k n).books = s.books := rfl
theorem State.bumpUnits_books (k m n : Nat) : (s.bumpUnits k m n).books = s.books := rfl
theorem State.anyCycles_books (k : Nat) : (s.anyCycles k).books = s.books := rfl
theorem State.putCordBytes_books (c : CordCfg) (a : Nat) (bs : List Byte) : (s.putCordBytes c a bs).books = s.books := rfl
theorem State.putSessLe_books (c : CordCfg) (i off n x : Nat) : (s.putSessLe c i off n x).books = s.books := rfl

/-! Grants of Hitches, and the engines of a Hearth that stop. -/

theorem State.retireInstr_books (h c : Nat) (pair : Bool) : (s.retireInstr h c pair).books = s.books := by
  cases pair <;> rfl

theorem State.spliceRows_books (h : Nat) : (s.spliceRows h).books = s.books := by
  unfold State.spliceRows
  dsimp only
  split
  · rw [State.bump_books, State.setHearth_books]
    split <;> rfl
  · rfl

theorem State.grant_books (k : Nat) (a : Agent) : (s.grant k a).books = s.books := by
  cases a with
  | core h c =>
    unfold State.grant
    dsimp only
    split
    · rw [State.anyCycles_books, State.retireInstr_books, State.setCore_books]
    · rfl
  | window h side =>
    unfold State.grant
    dsimp only
    split <;> rfl
  | splice h => exact (State.anyCycles_books ..).trans (State.spliceRows_books h)
  | _ => rfl

theorem State.grantAll_books (k : Nat) (as : List Agent) : (s.grantAll k as).books = s.books :=
  foldl_keeps State.books (fun _ a => State.grant_books k a) as s

theorem State.hitchCancel_books (k : Nat) (a : Agent) : (s.hitchCancel k a).books = s.books :=
  State.grantAll_books k ((s.hitch k).cancel a).2

theorem State.setPhy_books (p : Nat) (v : Phys) : (s.setPhy p v).books = s.books := rfl

theorem State.withdraw_books (h : Nat) : (s.withdraw h).books = s.books := by
  unfold State.withdraw
  extract_lets s1 v s2
  have h1 : s1.books = s.books := foldl_keeps State.books (fun t c => by
    dsimp only
    split
    · exact State.hitchCancel_books ..
    · rfl) [0, 1] s
  have h2 : s2.books = s1.books := foldl_keeps State.books (fun _ _ => State.hitchCancel_books ..) v.win.waiting s1
  split
  · split
    · exact h2.trans h1
    · exact (State.hitchCancel_books ..).trans (h2.trans h1)
  · exact h2.trans h1

theorem State.clearHearth_books (h : Nat) (bad : Bool) : (s.clearHearth h bad).books = s.books := by
  unfold State.clearHearth
  extract_lets s0 v stop cores kilns s1 p
  rw [State.setPhy_books, State.setHearth_books, State.withdraw_books]

/-! History, completion records and slots. -/

theorem State.clearTags_books (i : Nat) : (s.clearTags i).books = s.books :=
  foldl_keeps State.books (fun t h => by
    dsimp only
    split
    · split <;> rfl
    · rfl) (List.range 48) s

theorem State.histCommit_books (c : CordCfg) (j : Job) : (s.histCommit c j).books = s.books := by
  unfold State.histCommit
  extract_lets i hs pl cap len head steps fl fl' s1
  have h1 : s1.books = s.books := by simp only [s1, State.putSessLe_books]
  split
  · rfl
  · refine Eq.trans ?_ h1
    exact foldl_keeps State.books (fun _ _ => State.setHearth_books ..) (List.range j.hearths.length) s1

theorem State.histDiscard_books (c : CordCfg) (j : Job) : (s.histDiscard c j).books = s.books := by
  unfold State.histDiscard
  extract_lets i p cap len len' s1 fl fl'
  split
  · rfl
  split
  · exact State.clearTags_books i
  · rw [State.eventCordBlock_books, State.bump_books, State.putSessLe_books, State.putSessLe_books]
    exact State.clearTags_books i

theorem State.trackWriteBack_books (c : CordCfg) (j : Job) : (s.trackWriteBack c j).books = s.books :=
  foldl_keeps State.books (fun _ _ => State.putCordBytes_books ..) (List.range j.hearths.length) s

theorem State.fillFlag_books (c : CordCfg) (i b : Nat) (v : Bool) : (s.fillFlag c i b v).books = s.books := by
  simp only [State.fillFlag, State.putSessLe_books]

theorem State.feedFrame_books (c : CordCfg) (i : Nat) : (s.feedFrame c i).books = s.books := by
  simp only [State.feedFrame, State.putSessLe_books]

theorem State.setReg_books (k : Nat) (w : Word) : (s.setReg k w).books = s.books := rfl

theorem State.setHold_books (n : Nat) (b : Bool) : (s.setHold n b).books = s.books := by
  unfold State.setHold
  exact State.setReg_books ..

theorem State.setSlots_books (l : List SlotRt) : ({ s with slots := l } : State).books = s.books := rfl

theorem State.slotDone_books (c : CordCfg) (sl : SlotRt) (status seq : Nat) : (s.slotDone c sl status seq).books = s.books := by
  have hput (t : State) (a k x : Nat) : (t.putCordLe c a k x).books = t.books := rfl
  unfold State.slotDone
  extract_lets late s1 s2 s3 kind s4
  have h1 : s1.books = s.books := by
    unfold s1
    split
    · simp only [hput]
    · rfl
  have h2 : s2.books = s1.books := by
    unfold s2
    split
    · exact State.fillFlag_books ..
    · rfl
  have h3 : s3.books = s2.books := by
    unfold s3
    split
    · rw [State.eventCordBlock_books, State.bump_books]
    · rfl
  have h4 : s4.books = s3.books := by
    unfold s4
    split
    · exact State.feedFrame_books ..
    · rfl
  rw [State.setSlots_books, h4, h3, h2, h1]

theorem State.slotJobEnded_books (c : CordCfg) (j : Job) (status : Nat) : (s.slotJobEnded c j status).books = s.books := by
  unfold State.slotJobEnded
  split
  · rfl
  next sl _ =>
    extract_lets next later upd q s1 ok r s1' s2
    have h1 : s1.books = s.books := by
      unfold s1
      split
      · rfl
      · exact State.fillFlag_books ..
    have h1' : s1'.books = s1.books := by
      unfold s1'
      split
      · exact State.setSess_books ..
      · rfl
    have h2 : s2.books = s1'.books := by
      unfold s2
      split
      · exact State.fillFlag_books ..
      · rfl
    have h : s2.books = s.books := h2.trans (h1'.trans h1)
    split
    · rfl
    split
    · exact State.setSlots_books _
    split
    · rw [State.setSlots_books, h]
    split
    · rw [State.setSlots_books, h]
    · rw [State.slotDone_books, h]

theorem State.refund_books (c : CordCfg) (j : Job) : (s.refund c j).books = s.books := by
  unfold State.refund
  dsimp only
  split
  · rfl
  · split <;> rfl

theorem State.unbind_books (c : CordCfg) (i : Nat) : (s.unbind c i).books = s.books :=
  foldl_keeps State.books (fun _ _ => by dsimp only; split <;> rfl) (List.range 16) s

theorem State.finishClose_books (n i : Nat) : (s.finishClose n i).books = s.books := by
  unfold State.finishClose
  split
  · rfl
  · split
    · rw [State.eventCordBlock_books, State.putSessLe_books, State.putSessLe_books, State.unbind_books]
    · rfl

end Sys2Proof.Machine
end

section
/-! PROOF. A job that ends leaves the jobs for good, whatever its end does to Hitches, records and other jobs (R415, R419). -/

namespace Sys2Proof.Machine

variable {s t : State} {n sub : Nat} {j : Job} {c : CordCfg}

/-! ### Operations that keep the books as `State.BooksTo` says -/

theorem State.BooksTo.ite {p : Prop} [Decidable p] (h : s.BooksTo t) : s.BooksTo (if p then t else s) := by
  split
  · exact h
  · exact .refl s

theorem State.BooksTo.setCordRt {v : CordRt} (h : v.abortResult = (s.cordRt n).abortResult) : s.BooksTo (s.setCordRt n v) where
  results m := by
    rw [State.cordRt_setCordRt]
    split
    next hm => rw [h, hm]
    · rfl
  ended _ := id
  jobs k hk := ⟨k, hk, rfl⟩

theorem State.BooksTo.mapJobs {f : Job → Job} (hf : ∀ q, (f q).sub = q.sub) : s.BooksTo { s with jobs := s.jobs.map f } where
  results _ := rfl
  ended _ := id
  jobs k hk := by
    obtain ⟨i, hi, rfl⟩ := List.mem_map.1 hk
    exact ⟨i, hi, (hf i).symm⟩

theorem State.BooksTo.filterJobs (p : Job → Bool) : s.BooksTo { s with jobs := s.jobs.filter p } where
  results _ := rfl
  ended _ := id
  jobs k hk := ⟨k, (List.mem_filter.1 hk).1, rfl⟩

theorem State.BooksTo.modJob (sub : Nat) {f : Job → Job} (hf : ∀ q, (f q).sub = q.sub) : s.BooksTo (s.modJob sub f) :=
  .mapJobs fun q => by split; exacts [hf q, rfl]

theorem State.BooksTo.ringResume (d p : Nat) : s.BooksTo (s.ringResume d p) := by
  unfold State.ringResume
  dsimp only
  split
  · refine State.BooksTo.trans ?_ (.of_books (State.bumpUnits_books ..))
    exact (State.BooksTo.of_books (State.setPort_books ..)).trans (.modJob _ fun _ => rfl)
  · exact .refl s

theorem State.BooksTo.dropWaits (host sub : Nat) : s.BooksTo (s.dropWaits host sub) :=
  .foldl (fun t p => by
    split
    · exact .ringResume host p
    · exact .refl t) (List.range 16) s

theorem State.BooksTo.countJob (n host which : Nat) : s.BooksTo (s.countJob n host which) := by
  unfold State.countJob
  extract_lets r r' s1
  have h1 : s.BooksTo s1 := .setCordRt (by unfold r'; split; · rfl
                                           split <;> rfl)
  exact h1.trans (.of_books rfl)

theorem State.books_of_sansRecords (h : t.sansRecords = s.sansRecords) : t.books = s.books := (congrArg State.books h :)

theorem State.BooksTo.complete (n sub : Nat) (j : Job) (status flags : Nat) : s.BooksTo (s.complete n sub j status flags) := by
  by_cases h0 : s.reg (cordAddr n 0x1C) = 0
  · rw [State.complete_of_no_ring (.inl h0)]
    exact .refl s
  cases hc : s.cordCfg n with
  | none =>
    rw [State.complete_of_no_ring (.inr hc)]
    exact .refl s
  | some c =>
    have htaken : s.BooksTo (s.recordTaken n) := .setCordRt rfl
    exact htaken.trans (.of_books (State.books_of_sansRecords (State.complete_sansRecords hc h0 status flags)))

/-! Signals of Hitches, and the jobs that wait for them. -/

theorem State.BooksTo.tryPass (k : Nat) (j : Job) : s.BooksTo (s.tryPass k j) := by
  unfold State.tryPass
  dsimp only
  split
  · exact (State.BooksTo.of_books (State.setHitch_books ..)).trans (.modJob _ fun _ => rfl)
  · exact .refl s

theorem State.BooksTo.retryStarts (k : Nat) : s.BooksTo (s.retryStarts k) := by
  unfold State.retryStarts
  extract_lets s1
  have h1 : s.BooksTo s1 := .foldl (fun t j => .tryPass k j) _ s
  refine h1.trans (.foldl (fun t j => ?_) _ s1)
  dsimp only
  split
  · exact (State.BooksTo.of_books (State.setHitch_books ..)).trans (.modJob _ fun _ => rfl)
  · exact .refl t

theorem State.BooksTo.hitchSignal (k m : Nat) : s.BooksTo (s.hitchSignal k m) := by
  unfold State.hitchSignal
  extract_lets h
  split
  next h1 g _ =>
    extract_lets s1 s2
    have hs1 : s.BooksTo s1 := .of_books ((State.grantAll_books k g).trans (State.setHitch_books ..))
    have hs2 : s1.BooksTo s2 := by
      unfold s2
      split
      · split
        · exact .of_books (State.eventCord_books ..)
        · exact .of_books (State.event_books ..)
      · exact .refl s1
    exact (hs1.trans hs2).trans (.retryStarts k)

/-! The brown-out hold. -/

theorem State.BooksTo.countHeld (n : Nat) : s.BooksTo (s.countHeld n) := by
  unfold State.countHeld
  split
  · refine State.BooksTo.trans ?_ (.of_books (State.bumpUnits_books ..))
    exact .setCordRt rfl
  · exact .refl s

theorem State.BooksTo.endHold (n : Nat) : s.BooksTo (s.endHold n) := by
  unfold State.endHold
  extract_lets t
  have ht : s.BooksTo t := .countHeld n
  refine State.BooksTo.trans ?_ (.of_books (State.setHold_books ..))
  exact ht.trans (.setCordRt rfl)

theorem State.BooksTo.checkHold (c : CordCfg) : s.BooksTo (s.checkHold c) := by
  unfold State.checkHold
  split
  · exact .endHold _
  · exact .refl s

/-! ### The end of a job (R415) -/

/-- A submission is no job any more, and has ended. -/
def State.hasEnded (s : State) (sub n : Nat) : Prop := (∀ q ∈ s.jobs, q.sub ≠ sub) ∧ (sub, n) ∈ s.ended

theorem State.hasEnded.keep (h : s.hasEnded sub n) (ht : s.BooksTo t) : t.hasEnded sub n :=
  ⟨fun q hq he => by
    obtain ⟨i, hi, his⟩ := ht.jobs q hq
    exact h.1 i hi (his.trans he), ht.ended _ h.2⟩

theorem State.hasEnded.job? (h : s.hasEnded sub n) : s.job? sub = none :=
  List.find?_eq_none.2 fun q hq => by simpa using h.1 q hq

theorem State.hasEnded.contains (h : s.hasEnded sub n) : s.ended.contains (sub, n) = true :=
  List.contains_iff_mem.2 h.2

/-! The end of a job in two parts: what it does until it is no job, and what follows. -/

/-- What a job leaves in its Hearths, its history and its rings, before it leaves the jobs. -/
def State.jobReleased (s : State) (c : CordCfg) (sub status : Nat) (j0 j : Job) : State :=
  let s1 := if stGood status then
      (if j0.resident then (let t := s.histCommit c j
                            if j.onHearths then t.trackWriteBack c j else t)
       else s)
    else if j0.resident || j.phase == 5 || stTornCount status then s.histDiscard c j
    else s
  let s2 := if j0.resident then j.hearths.foldl (fun t h => t.clearHearth h (stTornCount status)) s1 else s1
  if j0.resident then s2.dropWaits c.ownerHost sub else s2

def State.jobLeft (s : State) (n sub : Nat) : State :=
  { s with
    jobs := s.jobs.filter fun x => x.sub != sub
    ended := (sub, n) :: s.ended
    drg := { s.drg with queue := s.drg.queue.filter fun q => q.sub != sub
                        granted := s.drg.granted.filter fun q => q != sub } }

def State.recordsDropped (s : State) (n sub : Nat) (records : List Nat) : State :=
  let t := s.setCordRt n { s.cordRt n with records := (s.cordRt n).records.filter fun r => r.2 != sub }
  { t with saved := records.foldl (fun (m : SMap Hearth) r => m.drop (n * 65536 + r)) t.saved }

/-- The jobs that follow a job of their session learn how it ended. -/
def State.chainTold (s : State) (c : CordCfg) (n sub status : Nat) (j : Job) : State :=
  let t : State := { s with jobs := s.jobs.map fun (q : Job) => if q.cord == n && q.prev == sub then
    { q with chain := some (j.chainLink status)
             usedNj := if j.slot.isSome && q.slot = j.slot then q.usedNj + j.usedNj else q.usedNj } else q }
  let r := t.sess j.session
  t.setSess j.session { r with
    last := if t.sessLe c j.session 0xC8 4 = sub then some (j.chainLink status) else r.last
    fillHearths := if j.kind = 6 && j.hearths != [] then j.hearths else r.fillHearths }

/-- What follows when a job has left the jobs. -/
def State.jobSettled (s : State) (c : CordCfg) (n sub status : Nat) (j : Job) (granted : Bool) : State :=
  let s4 := s.recordsDropped n sub j.records
  let s5 := if j.firstStart.isSome || j.slot.isSome || granted then s4.refund c j else s4
  let s6 := s5.countJob n j.host (if stTornCount status then 2 else 1)
  let s7 := s6.putSessLe c j.session 0xC0 8 (s6.sessLe c j.session 0xC0 8 + 1)
  let s8 := s7.chainTold c n sub status j
  let s9 := s8.complete n sub j status ((if j.demoted then 2 else 0) + (if j.preempts = 0 then 0 else 4))
  let s9' := if j.intake.failures = [] then s9 else s9.eventCordBlock n 0x0C02 j.intake.failures.length
  let s10 := if j.feedFrame && (status == 0 || status == 1) then s9'.feedFrame c j.session else s9'
  let s11 := s10.slotJobEnded c j status
  let s12 := if stRetires status && j.doneEn then s11.hitchSignal j.doneHitch 1 else s11
  (s12.checkHold c).finishClose n j.session

theorem State.endJobBase_eq (hj : s.job? sub = some j) (hc : s.cordCfg j.cord = some c) (status : Nat) :
    ∃ (k : Job) (granted : Bool), s.endJobBase sub status =
      ((s.jobReleased c sub status j k).jobLeft j.cord sub).jobSettled c j.cord sub status k granted := by
  refine ⟨if j.resident then { j with residentNs := j.residentNs + (s.time - j.resumed) } else j,
    s.drg.granted.contains sub, ?_⟩
  unfold State.endJobBase
  rw [hj]
  dsimp -zeta only
  extract_lets n running k
  have hcn : s.cordCfg n = some c := hc
  rw [hcn]
  rfl

theorem State.BooksTo.jobReleased (c : CordCfg) (sub status : Nat) (j k : Job) : s.BooksTo (s.jobReleased c sub status j k) := by
  unfold State.jobReleased
  extract_lets committed kept cleared
  have hkept : s.BooksTo kept := .of_books <| by
    unfold kept committed
    split
    · split
      · split
        · rw [State.trackWriteBack_books, State.histCommit_books]
        · exact State.histCommit_books ..
      · rfl
    · split
      · exact State.histDiscard_books ..
      · rfl
  have hcleared : kept.BooksTo cleared := .ite (.foldl (fun t h => .of_books (State.clearHearth_books ..)) _ _)
  exact (hkept.trans hcleared).trans (.ite (.dropWaits ..))

theorem State.BooksTo.jobLeft (n sub : Nat) : s.BooksTo (s.jobLeft n sub) where
  results _ := rfl
  ended _ he := List.mem_cons_of_mem _ he
  jobs k hk := ⟨k, (List.mem_filter.1 hk).1, rfl⟩

theorem State.jobLeft_hasEnded (n sub : Nat) : (s.jobLeft n sub).hasEnded sub n :=
  ⟨fun q hq => by simpa using (List.mem_filter.1 hq).2, List.mem_cons_self ..⟩

theorem State.setSaved_books (m : SMap Hearth) : ({ s with saved := m } : State).books = s.books := rfl

theorem State.BooksTo.recordsDropped (n sub : Nat) (records : List Nat) : s.BooksTo (s.recordsDropped n sub records) := by
  unfold State.recordsDropped
  extract_lets r t
  have ht : s.BooksTo t := .setCordRt rfl
  exact ht.trans (.of_books (State.setSaved_books _))

theorem State.BooksTo.chainTold (c : CordCfg) (n sub status : Nat) (j : Job) : s.BooksTo (s.chainTold c n sub status j) := by
  unfold State.chainTold
  extract_lets t r
  have ht : s.BooksTo t := .mapJobs fun q => by split <;> rfl
  exact ht.trans (.of_books (State.setSess_books ..))

theorem State.BooksTo.jobSettled (c : CordCfg) (n sub status : Nat) (j : Job) (granted : Bool) :
    s.BooksTo (s.jobSettled c n sub status j granted) := by
  unfold State.jobSettled
  extract_lets s4 s5 s6 s7 s8 s9 s9' s10 s11 s12
  have h4 : s.BooksTo s4 := .recordsDropped ..
  have h5 : s4.BooksTo s5 := .ite (.of_books (State.refund_books ..))
  have h6 : s5.BooksTo s6 := .countJob ..
  have h7 : s6.BooksTo s7 := .of_books (State.putSessLe_books ..)
  have h8 : s7.BooksTo s8 := .chainTold ..
  have h9 : s8.BooksTo s9 := .complete ..
  have h9' : s9.BooksTo s9' := by
    unfold s9'
    split
    · exact .refl s9
    · exact .of_books (State.eventCordBlock_books ..)
  have h10 : s9'.BooksTo s10 := .ite (.of_books (State.feedFrame_books ..))
  have h11 : s10.BooksTo s11 := .of_books (State.slotJobEnded_books ..)
  have h12 : s11.BooksTo s12 := .ite (.hitchSignal ..)
  have hclose : s12.BooksTo ((s12.checkHold c).finishClose n j.session) :=
    (State.BooksTo.checkHold c).trans (.of_books (State.finishClose_books ..))
  exact h4.trans <| h5.trans <| h6.trans <| h7.trans <| h8.trans <| h9.trans <| h9'.trans <| h10.trans <| h11.trans <|
    h12.trans hclose

theorem State.endJobBase_ends (hj : s.job? sub = some j) (hc : s.cordCfg j.cord = some c) (status : Nat) :
    s.BooksTo (s.endJobBase sub status) ∧ (s.endJobBase sub status).hasEnded sub j.cord := by
  obtain ⟨k, granted, heq⟩ := State.endJobBase_eq hj hc status
  rw [heq]
  exact ⟨((State.BooksTo.jobReleased ..).trans (.jobLeft ..)).trans (.jobSettled ..),
    (State.jobLeft_hasEnded ..).keep (.jobSettled ..)⟩

theorem State.BooksTo.endJobBase (sub status : Nat) : s.BooksTo (s.endJobBase sub status) := by
  cases hj : s.job? sub with
  | none =>
    rw [State.endJobBase, hj]
    exact .refl s
  | some j =>
    cases hc : s.cordCfg j.cord with
    | none =>
      unfold State.endJobBase
      rw [hj]
      dsimp -zeta only
      extract_lets n running k
      have hcn : s.cordCfg n = none := hc
      rw [hcn]
      exact .filterJobs _
    | some c =>
      exact (State.endJobBase_ends hj hc status).1

theorem State.BooksTo.poisonHitch (k : Nat) : s.BooksTo (s.poisonHitch k) := by
  unfold State.poisonHitch
  extract_lets h
  split
  next h1 as _ =>
    extract_lets s1 s2 starts
    have hs1 : s.BooksTo s1 := .of_books (State.setHitch_books ..)
    have hs2 : s1.BooksTo s2 := by
      unfold s2
      split
      · exact .refl s1
      · split
        · exact .of_books (State.eventCord_books ..)
        · exact .refl s1
    exact (hs1.trans hs2).trans (.foldl (fun t q => .endJobBase ..) _ s2)

/-- A job that ends, however it does, is no job any more; the results of aborts stay. -/
theorem State.endJob_ends (hj : s.job? sub = some j) (hc : s.cordCfg j.cord = some c) (status : Nat) :
    s.BooksTo (s.endJob sub status) ∧ (s.endJob sub status).hasEnded sub j.cord := by
  obtain ⟨hbase, hended⟩ := State.endJobBase_ends hj hc status
  have hpoison : (s.endJobBase sub status).BooksTo (s.endJob sub status) := by
    rw [State.endJob, hj]
    exact .ite (.foldl (fun t k => .poisonHitch k) _ _)
  exact ⟨hbase.trans hpoison, hended.keep hpoison⟩

end Sys2Proof.Machine
end

section
/-! PROOF. DISP_ABORT of a queued job, of a running POST job, and of what is no job (R418, R419); with the sessions and
the submissions, all that the host asks of the dispatch unit (O47). -/

namespace Sys2Proof.Machine

variable {s t : State} {d n sub : Nat} {w : Word} {j : Job} {c : CordCfg}

/-! ### DISP_ABORT -/

theorem State.abortResult_abortResult (r : Nat) : ((s.abortResult n r).cordRt n).abortResult = r := by
  rw [State.abortResult, State.cordRt_setCordRt_same]

theorem State.sub_of_job? (hj : s.job? sub = some j) : j.sub = sub := by simpa using List.find?_some hj

/-- What is no job answers 2 when it has ended and 3 when it is unknown. -/
theorem State.abortJob_of_no_job (hj : s.job? sub = none) :
    s.abortJob n sub = s.abortResult n (if s.ended.contains (sub, n) then 2 else 3) := by
  rw [State.abortJob, hj]
  dsimp only
  split <;> rfl

/-- A job that stands where it is told to stop. -/
def Job.stopping (j : Job) : Job := { j with phase := 3, aborting := true }

/-- The cores of a job's Hearths, told to stop. -/
def State.coresStopped (s : State) (sub : Nat) (j : Job) : State :=
  j.hearths.foldl (fun t h => t.stopCores h false) (s.modJob sub Job.stopping)

theorem State.stopCores_books (h : Nat) (force : Bool) : (s.stopCores h force).books = s.books :=
  foldl_keeps State.books (fun _ _ => State.setCore_books ..) [0, 1] s

theorem State.coresStopped_books : (s.coresStopped sub j).books = (s.modJob sub Job.stopping).books :=
  foldl_keeps State.books (fun _ _ => State.stopCores_books ..) j.hearths _

theorem Job.onHearths_of_post (hk : j.kind = 5) : j.onHearths = false := by rw [Job.onHearths, hk]; rfl

/-- A POST job is nowhere at a point where a stop ends it: it stops at its own end. -/
theorem State.atPoint_of_post (hk : j.kind = 5) : s.atPoint j = false := by
  rw [State.atPoint, Job.onHearths_of_post hk, hk]
  rfl

theorem State.atRetirement_of_post (hk : j.kind = 5) : s.atRetirement j = false := by
  rw [State.atRetirement, Job.onHearths_of_post hk]
  rfl

section
variable (hj : s.job? sub = some j)
include hj

theorem State.job?_coresStopped : (s.coresStopped sub j).job? sub = some j.stopping := by
  rw [State.job?, State.jobs_of_books State.coresStopped_books]
  change (s.modJob sub Job.stopping).job? sub = _
  rw [State.job?_modJob s sub (f := Job.stopping) fun _ => rfl, hj]
  rfl

theorem State.abortJob_of_queued (hn : j.cord = n) (hp : j.phase = 0) :
    s.abortJob n sub = (s.abortResult n 0).endJob sub stAborted := by
  rw [State.abortJob, hj]
  dsimp only
  rw [if_neg (not_not_intro hn), if_pos hp, State.abortOne, if_pos hp, State.sub_of_job? hj]

theorem State.abortRunning_of_post (hp : j.phase = 2) (hk : j.kind = 5) (hw : j.ringWait = false) :
    s.abortRunning sub = s.coresStopped sub j := by
  have hpoint : (s.coresStopped sub j).atPoint j.stopping = false := State.atPoint_of_post hk
  have hwait : j.stopping.ringWait = false := hw
  rw [State.abortRunning, hj]
  dsimp only
  rw [if_pos (.inl hp)]
  change (s.coresStopped sub j).endAborted sub = _
  rw [State.endAborted, State.job?_coresStopped hj]
  dsimp only
  rw [hpoint, hwait, Bool.or_self, Bool.and_false]
  rfl

theorem State.abortJob_of_post (hn : j.cord = n) (hp : j.phase = 2) (hk : j.kind = 5) (hw : j.ringWait = false) :
    s.abortJob n sub = (s.abortResult n 1).coresStopped sub j := by
  have hj1 : (s.abortResult n 1).job? sub = some j := hj
  have hp0 : j.phase ≠ 0 := by omega
  rw [State.abortJob, hj]
  dsimp only
  rw [if_neg (not_not_intro hn), if_neg hp0, State.abortOne, if_neg hp0, State.atRetirement_of_post hk, State.sub_of_job? hj]
  exact State.abortRunning_of_post hj1 hp hk hw

end

section
variable (hn : cordOk n = true) (hc : s.cordCfg n = some c) (h : s.mayWrite d (cordAddr n 0x10))
include hn hc h

theorem dispAbort_of_queued (hj : s.job? w.toNat = some j) (hcord : j.cord = n) (hp : j.phase = 0) :
    Completes (exec (.dispAbort d n w) s) fun t =>
      (t.cordRt n).abortResult = 0 ∧ t.job? w.toNat = none ∧ t.ended.contains (w.toNat, n) = true := by
  obtain ⟨l, hl⟩ := exec_dispAbort (w := w) hn hc h
  have hj' : (s.withChg l).job? w.toNat = some j := hj
  have hja : ((s.withChg l).abortResult n 0).job? w.toNat = some j := hj
  have hca : ((s.withChg l).abortResult n 0).cordCfg j.cord = some c := hcord ▸ hc
  obtain ⟨hbooks, hended⟩ := State.endJob_ends hja hca stAborted
  rw [hcord] at hended
  refine ⟨_, hl.trans (congrArg _ (State.abortJob_of_queued hj' hcord hp)), ?_, hended.job?, hended.contains⟩
  exact (hbooks.results n).trans (State.abortResult_abortResult 0)

theorem dispAbort_of_post (hj : s.job? w.toNat = some j) (hcord : j.cord = n) (hp : j.phase = 2) (hk : j.kind = 5)
    (hw : j.ringWait = false) :
    Completes (exec (.dispAbort d n w) s) fun t =>
      (t.cordRt n).abortResult = 1 ∧ t.job? w.toNat = some { j with phase := 3, aborting := true } := by
  obtain ⟨l, hl⟩ := exec_dispAbort (w := w) hn hc h
  have hj' : (s.withChg l).job? w.toNat = some j := hj
  have hja : ((s.withChg l).abortResult n 1).job? w.toNat = some j := hj
  refine ⟨_, hl.trans (congrArg _ (State.abortJob_of_post hj' hcord hp hk hw)), ?_, State.job?_coresStopped hja⟩
  rw [State.cordRt_of_books State.coresStopped_books]
  exact State.abortResult_abortResult 1

theorem dispAbort_of_no_job (hj : s.job? w.toNat = none) :
    Completes (exec (.dispAbort d n w) s) fun t =>
      (t.cordRt n).abortResult = (if s.ended.contains (w.toNat, n) then 2 else 3) ∧ t.jobs = s.jobs := by
  obtain ⟨l, hl⟩ := exec_dispAbort (w := w) hn hc h
  exact ⟨_, hl.trans (congrArg _ (State.abortJob_of_no_job hj)), State.abortResult_abortResult _, rfl⟩

end

/-- Settles O47: a row for every result of a session or an abort, and the end of an aborted job by what its steps keep. -/
theorem sessionsAndSubmissions : Obligations.SessionsAndSubmissions := by
  unfold Obligations.SessionsAndSubmissions
  intro s d n w c hn hc i answers
  refine ⟨fun h => ⟨sessionOpen_of_range hn hc h, fun hi hok => ⟨sessionOpen_of_open hn hc h hi hok,
      sessionOpen_of_bound_port hn hc h hi hok, sessionOpen_of_large_track hn hc h hi hok,
      sessionOpen_opens hn hc h hi hok⟩⟩,
    fun h => ⟨sessionClose_of_not_open hn hc h, sessionClose_closes hn hc h⟩,
    ⟨submitLc_submits hn hc, submitBe_submits hn hc⟩,
    fun h => ⟨fun j hj hcord hp _ => dispAbort_of_queued hn hc h hj hcord hp,
      fun j hj hcord hp hk hw => dispAbort_of_post hn hc h hj hcord hp hk hw, dispAbort_of_no_job hn hc h⟩,
    dispCqSize_restarts hn hc⟩

end Sys2Proof.Machine
end

section
/-! PROOF. Lanes of vector registers and bits of predicates: what a built register reads (R183, R184). -/

namespace Sys2Proof.Machine

/-! ### Numbers written in digits -/

/-- The number whose digit `i` in base 2 ^ b is `f i` mod 2 ^ b, for `n` digits. -/
def digitsNat (b : Nat) (f : Nat → Nat) (n : Nat) : Nat :=
  (List.range n).foldl (fun a i => a + f i % 2 ^ b * 2 ^ (b * i)) 0

theorem digitsNat_succ (b : Nat) (f : Nat → Nat) (n : Nat) :
    digitsNat b f (n + 1) = digitsNat b f n + f n % 2 ^ b * 2 ^ (b * n) := by
  simp [digitsNat, List.range_succ]

theorem digitsNat_lt (b : Nat) (f : Nat → Nat) (n : Nat) : digitsNat b f n < 2 ^ (b * n) := by
  induction n with
  | zero => simp [digitsNat]
  | succ n ih =>
    have hd : f n % 2 ^ b + 1 ≤ 2 ^ b := Nat.mod_lt _ (Nat.two_pow_pos b)
    calc digitsNat b f (n + 1) = digitsNat b f n + f n % 2 ^ b * 2 ^ (b * n) := digitsNat_succ ..
      _ < (f n % 2 ^ b + 1) * 2 ^ (b * n) := by rw [Nat.succ_mul]; omega
      _ ≤ 2 ^ b * 2 ^ (b * n) := Nat.mul_le_mul_right _ hd
      _ = 2 ^ (b * (n + 1)) := by rw [← Nat.pow_add]; congr 1; ring

theorem digit_digitsNat (b : Nat) (f : Nat → Nat) {n i : Nat} (h : i < n) :
    digitsNat b f n / 2 ^ (b * i) % 2 ^ b = f i % 2 ^ b := by
  induction n with
  | zero => omega
  | succ n ih =>
    rw [digitsNat_succ]
    rcases Nat.lt_succ_iff_lt_or_eq.1 h with hi | rfl
    · have hsplit : 2 ^ (b * n) = 2 ^ (b * i) * (2 ^ b * 2 ^ (b * (n - 1 - i))) := by
        rw [← Nat.pow_add, ← Nat.pow_add]
        congr 1
        obtain ⟨m, rfl⟩ : ∃ m, n = i + 1 + m := ⟨n - (i + 1), by omega⟩
        rw [show i + 1 + m - 1 - i = m by omega]
        ring
      rw [hsplit, Nat.mul_left_comm, Nat.add_mul_div_left _ _ (Nat.two_pow_pos _), Nat.mul_left_comm,
        Nat.add_mul_mod_self_left, ih hi]
    · rw [Nat.add_mul_div_right _ _ (Nat.two_pow_pos _), Nat.div_eq_of_lt (digitsNat_lt ..), Nat.zero_add, Nat.mod_mod]

theorem toNat_ofNat_of_lt {n x : Nat} (h : x < 2 ^ n) : (BitVec.ofNat n x).toNat = x :=
  (BitVec.toNat_ofNat ..).trans (Nat.mod_eq_of_lt h)

/-! ### Lanes as words -/

/-- Lane `i` of a vector in the form `w16`, as a word. -/
def laneWord (w16 : Bool) (v : VWord) (i : Nat) : BitVec (laneBits w16) :=
  v.extractLsb' (laneBits w16 * i) (laneBits w16)

theorem lane_eq_toNat (w16 : Bool) (v : VWord) (i : Nat) : lane w16 v i = (laneWord w16 v i).toNat := by
  simp [lane, laneWord, Nat.shiftRight_eq_div_pow]

theorem laneS_eq_toInt (w16 : Bool) (v : VWord) (i : Nat) : laneS w16 v i = (laneWord w16 v i).toInt := by
  have hpos : laneBits w16 ≠ 0 := by cases w16 <;> decide
  have hpow : 2 ^ laneBits w16 = 2 * 2 ^ (laneBits w16 - 1) := by
    rw [← Nat.pow_succ', Nat.succ_eq_add_one, Nat.sub_one_add_one hpos]
  rw [laneS, lane_eq_toNat, BitVec.toInt_eq_toNat_cond]
  exact if_congr (by omega) rfl rfl

theorem laneShift_eq_toNat (w16 : Bool) (v : VWord) (i : Nat) :
    laneShift w16 v i = (laneWord w16 v i).toNat % laneBits w16 := by
  rw [laneShift, lane_eq_toNat]

theorem laneWord_ofLanes {w16 : Bool} {f : Nat → Nat} {i : Nat} (h : i < laneCount w16) :
    laneWord w16 (ofLanes w16 f) i = BitVec.ofNat _ (f i) := by
  have hsize : laneBits w16 * laneCount w16 = 512 := by cases w16 <;> rfl
  have hlt := digitsNat_lt (laneBits w16) f (laneCount w16)
  rw [hsize] at hlt
  apply BitVec.eq_of_toNat_eq
  rw [← lane_eq_toNat, lane, BitVec.toNat_ofNat]
  have hnum : (ofLanes w16 f).toNat = digitsNat (laneBits w16) f (laneCount w16) :=
    toNat_ofNat_of_lt hlt
  rw [hnum, digit_digitsNat _ _ h]

/-- A merge under a predicate (R184): a lane is new where its bit is 1. -/
theorem laneWord_maskLanes {w16 : Bool} {pr : Word} {old : VWord} {f : Nat → Nat} {i : Nat} (h : i < laneCount w16) :
    laneWord w16 (maskLanes w16 pr old f) i =
      if pr.getLsbD i then BitVec.ofNat _ (f i) else laneWord w16 old i := by
  rw [maskLanes, laneWord_ofLanes h]
  change BitVec.ofNat _ (if pr.getLsbD i = true then f i else lane w16 old i) = _
  split
  · rfl
  · rw [lane_eq_toNat, BitVec.ofNat_toNat, BitVec.setWidth_eq]

/-! ### Bits of predicates -/

theorem ofBits_eq_digits (n : Nat) (f : Nat → Bool) :
    ofBits n f = BitVec.ofNat 32 (digitsNat 1 (fun i => (f i).toNat) n) := by
  have hterm (i : Nat) : (if f i then 2 ^ i else 0) = (f i).toNat % 2 ^ 1 * 2 ^ (1 * i) := by cases f i <;> simp
  simp only [ofBits, digitsNat, hterm]

theorem getLsbD_ofBits {n : Nat} {f : Nat → Bool} {i : Nat} (hn : n ≤ 32) :
    (ofBits n f).getLsbD i = (decide (i < n) && f i) := by
  have hlt : digitsNat 1 (fun i => (f i).toNat) n < 2 ^ n := by simpa using digitsNat_lt 1 (fun i => (f i).toNat) n
  rw [ofBits_eq_digits, BitVec.getLsbD_ofNat]
  by_cases hi : i < n
  · have hdigit := digit_digitsNat 1 (fun i => (f i).toNat) hi
    rw [Nat.one_mul, Nat.pow_one] at hdigit
    rw [Nat.testBit_eq_decide_div_mod_eq, hdigit, decide_eq_true hi, decide_eq_true (by omega : i < 32)]
    cases f i <;> rfl
  · have hbig : 2 ^ n ≤ 2 ^ i := Nat.pow_le_pow_right (by decide) (by omega)
    rw [Nat.testBit_lt_two_pow (by omega), decide_eq_false hi, Bool.and_false, Bool.false_and]

/-- A comparison (R184, R188): the bits of the predicated lanes of the form, and 0 elsewhere. -/
theorem getLsbD_cmpPred {w16 : Bool} {pr : Word} {f : Nat → Bool} {i : Nat} :
    (cmpPred w16 pr f).getLsbD i = (decide (i < laneCount w16) && pr.getLsbD i && f i) := by
  rw [cmpPred, getLsbD_ofBits (by cases w16 <;> decide), Bool.and_assoc]
  rfl

/-! ### Words from numbers -/

section
variable {n : Nat} (a b : BitVec n)

@[simp] theorem ofNat_bitsOf (n : Nat) (x : Int) : BitVec.ofNat n (bitsOf n x) = BitVec.ofInt n x := by
  have hpos : ((2 ^ n : Nat) : Int) ≠ 0 := by positivity
  apply BitVec.eq_of_toNat_eq
  rw [BitVec.toNat_ofNat, BitVec.toNat_ofInt, bitsOf, Nat.mod_eq_of_lt]
  rw [Int.toNat_lt (Int.emod_nonneg _ hpos)]
  exact Int.emod_lt_of_pos _ (by positivity)

theorem ofNat_add_toNat : BitVec.ofNat n (a.toNat + b.toNat) = a + b := by simp [BitVec.ofNat_add]

theorem ofInt_sub_toInt : BitVec.ofInt n (a.toInt - b.toInt) = a - b := by
  rw [Int.sub_eq_add_neg, BitVec.ofInt_add, BitVec.ofInt_neg, BitVec.ofInt_toInt, BitVec.ofInt_toInt, BitVec.sub_eq_add_neg]

theorem ofNat_mul_toNat : BitVec.ofNat n (a.toNat * b.toNat) = a * b := by simp [BitVec.ofNat_mul]

theorem ofNat_mul_two_pow (k : Nat) : BitVec.ofNat n (a.toNat * 2 ^ k) = a <<< k :=
  BitVec.eq_of_toNat_eq (by simp [Nat.shiftLeft_eq])

theorem ofNat_div_two_pow (k : Nat) : BitVec.ofNat n (a.toNat / 2 ^ k) = a >>> k := by
  rw [← Nat.shiftRight_eq_div_pow, ← BitVec.toNat_ushiftRight, BitVec.ofNat_toNat, BitVec.setWidth_eq]

theorem ofInt_div_two_pow (k : Nat) : BitVec.ofInt n (a.toInt / (2 ^ k : Nat)) = a.sshiftRight k := by
  rw [← Int.shiftRight_eq_div_pow, ← BitVec.toInt_sshiftRight, BitVec.ofInt_toInt]

theorem ofNat_and_toNat : BitVec.ofNat n (a.toNat &&& b.toNat) = a &&& b := by
  rw [← BitVec.toNat_and, BitVec.ofNat_toNat, BitVec.setWidth_eq]

theorem ofNat_or_toNat : BitVec.ofNat n (a.toNat ||| b.toNat) = a ||| b := by
  rw [← BitVec.toNat_or, BitVec.ofNat_toNat, BitVec.setWidth_eq]

theorem ofNat_xor_toNat : BitVec.ofNat n (a.toNat ^^^ b.toNat) = a ^^^ b := by
  rw [← BitVec.toNat_xor, BitVec.ofNat_toNat, BitVec.setWidth_eq]

theorem ofInt_min_toInt : BitVec.ofInt n (min a.toInt b.toInt) = if a.slt b then a else b := by
  simp only [BitVec.slt, decide_eq_true_eq]
  split <;> rename_i h
  · rw [min_eq_left h.le, BitVec.ofInt_toInt]
  · rw [min_eq_right (not_lt.1 h), BitVec.ofInt_toInt]

theorem ofInt_max_toInt : BitVec.ofInt n (max a.toInt b.toInt) = if a.slt b then b else a := by
  simp only [BitVec.slt, decide_eq_true_eq]
  split <;> rename_i h
  · rw [max_eq_right h.le, BitVec.ofInt_toInt]
  · rw [max_eq_left (not_lt.1 h), BitVec.ofInt_toInt]

theorem ofNat_min_toNat : BitVec.ofNat n (min a.toNat b.toNat) = if a.ult b then a else b := by
  simp only [BitVec.ult, decide_eq_true_eq]
  split <;> rename_i h
  · rw [min_eq_left h.le, BitVec.ofNat_toNat, BitVec.setWidth_eq]
  · rw [min_eq_right (not_lt.1 h), BitVec.ofNat_toNat, BitVec.setWidth_eq]

theorem ofNat_max_toNat : BitVec.ofNat n (max a.toNat b.toNat) = if a.ult b then b else a := by
  simp only [BitVec.ult, decide_eq_true_eq]
  split <;> rename_i h
  · rw [max_eq_right h.le, BitVec.ofNat_toNat, BitVec.setWidth_eq]
  · rw [max_eq_left (not_lt.1 h), BitVec.ofNat_toNat, BitVec.setWidth_eq]

end

end Sys2Proof.Machine
end

section
/-! PROOF. The lane-by-lane integer vector instructions in both forms (R184, R188). -/

namespace Sys2Proof.Machine

variable {s : State} {h c : Nat} {vd vs1 vs2 : BitVec 5} {pr : BitVec 3}

/-- An instruction that writes one vector register of its core. -/
theorem VecDoes.of_coreNext {i : Instr} {w v m : Word} {f : Core → VWord} {P : VWord → Prop}
    (he : exec i s = withUnit (coreOk h c) (s.coreStep h c v m fun s => s.coreNext h c fun k => k.writeV vd (f k)))
    (hs : s.standsAt h c w = true) (hw : w &&& m = v &&& m) (hP : P (f (s.core h c))) : VecDoes i s h c vd P := by
  obtain ⟨t, ht, hto⟩ := CoreDoes.of_coreNext (f := fun k => k.writeV vd (f k)) he hs hw (Core.writeV_pc ..)
  exact ⟨t, ht, _, hP, hto⟩

/-- The predicated lanes of v[vd] take what the instruction computes from the core; the others keep their values. -/
theorem VecDoes.of_coreV {i : Instr} {w v m : Word} {w16 : Bool} {F : Core → Nat → Nat}
    (he : exec i s = withUnit (coreOk h c) (s.coreStep h c v m fun s => s.coreV h c vd pr w16 F))
    (hs : s.standsAt h c w = true) (hw : w &&& m = v &&& m) :
    VecDoes i s h c vd fun x => ∀ j, j < laneCount w16 → laneWord w16 x j =
      if ((s.core h c).readP pr).getLsbD j then BitVec.ofNat _ (F (s.core h c) j)
      else laneWord w16 ((s.core h c).readV vd) j :=
  .of_coreNext he hs hw fun _ hj => laneWord_maskLanes hj

/-- Both forms of an instruction that applies `f` lane by lane. -/
theorem vecDoes_both_forms {funct : BitVec 7} {i : Bool → Instr} {F : Bool → Core → Nat → Nat}
    {f : (n : Nat) → BitVec n → BitVec n → BitVec n → BitVec n}
    (he : ∀ w16, exec (i w16) s = withUnit (coreOk h c)
      (s.coreStep h c (encV 0x30 funct vd vs1 vs2 pr w16) maskAll fun s => s.coreV h c vd pr w16 (F w16)))
    (hf : ∀ w16 (k : Core) j, BitVec.ofNat _ (F w16 k j) = f (laneBits w16) (laneWord w16 (k.readV vd) j)
      (laneWord w16 (k.readV vs1) j) (laneWord w16 (k.readV vs2) j)) :
    let k := s.core h c
    (s.standsAt h c (0x30#6 ++ vd ++ vs1 ++ vs2 ++ pr ++ 0#1 ++ funct) = true →
      VecDoes (i false) s h c vd fun v => ∀ j, j < 16 → lane32 v j = if (k.readP pr).getLsbD j
        then f 32 (lane32 (k.readV vd) j) (lane32 (k.readV vs1) j) (lane32 (k.readV vs2) j) else lane32 (k.readV vd) j) ∧
    (s.standsAt h c (0x30#6 ++ vd ++ vs1 ++ vs2 ++ pr ++ 1#1 ++ funct) = true →
      VecDoes (i true) s h c vd fun v => ∀ j, j < 32 → lane16 v j = if (k.readP pr).getLsbD j
        then f 16 (lane16 (k.readV vd) j) (lane16 (k.readV vs1) j) (lane16 (k.readV vs2) j) else lane16 (k.readV vd) j) := by
  have form (w16 : Bool) (hs : s.standsAt h c (encV 0x30 funct vd vs1 vs2 pr w16) = true) :
      VecDoes (i w16) s h c vd fun v => ∀ j, j < laneCount w16 → laneWord w16 v j =
        if ((s.core h c).readP pr).getLsbD j then f (laneBits w16) (laneWord w16 ((s.core h c).readV vd) j)
          (laneWord w16 ((s.core h c).readV vs1) j) (laneWord w16 ((s.core h c).readV vs2) j)
        else laneWord w16 ((s.core h c).readV vd) j := by
    simp only [← hf w16]
    exact .of_coreV (he w16) hs rfl
  exact ⟨form false, form true⟩

/-- Settles O18: each instruction by what its lane operation computes, in the two forms at once. -/
theorem vectorLaneOps : Obligations.VectorLaneOps := by
  unfold Obligations.VectorLaneOps
  intro s h c vd vs1 vs2 pr k form row
  have holds {funct : BitVec 7} {i : Bool → Instr} {F : Bool → Core → Nat → Nat}
      {f : (n : Nat) → BitVec n → BitVec n → BitVec n → BitVec n}
      (he : ∀ w16, exec (i w16) s = withUnit (coreOk h c)
        (s.coreStep h c (encV 0x30 funct vd vs1 vs2 pr w16) maskAll fun s => s.coreV h c vd pr w16 (F w16)))
      (hf : ∀ w16 (k : Core) j, BitVec.ofNat _ (F w16 k j) = f (laneBits w16) (laneWord w16 (k.readV vd) j)
        (laneWord w16 (k.readV vs1) j) (laneWord w16 (k.readV vs2) j)) : row funct i f :=
    vecDoes_both_forms he hf
  clear_value row
  refine ⟨holds (fun _ => rfl) ?vadd, holds (fun _ => rfl) ?vsub, holds (fun _ => rfl) ?vadds, holds (fun _ => rfl) ?vmul,
    holds (fun _ => rfl) ?vmulh, holds (fun _ => rfl) ?vmac, holds (fun _ => rfl) ?vrshr, holds (fun _ => rfl) ?vsll,
    holds (fun _ => rfl) ?vsra, holds (fun _ => rfl) ?vsrl, holds (fun _ => rfl) ?vand, holds (fun _ => rfl) ?vor,
    holds (fun _ => rfl) ?vxor, holds (fun _ => rfl) ?vmin, holds (fun _ => rfl) ?vmax, holds (fun _ => rfl) ?vminu,
    holds (fun _ => rfl) ?vmaxu⟩ <;>
    intro w16 k j <;> simp only [lane_eq_toNat, laneS_eq_toInt, laneShift_eq_toNat, ofNat_bitsOf]
  case vadd => exact ofNat_add_toNat ..
  case vsub => exact ofInt_sub_toInt ..
  case vmul => exact ofNat_mul_toNat ..
  case vmac => rw [BitVec.ofNat_add, ofNat_mul_toNat, BitVec.ofNat_toNat, BitVec.setWidth_eq]
  case vsll => exact ofNat_mul_two_pow ..
  case vsra => exact ofInt_div_two_pow ..
  case vsrl => exact ofNat_div_two_pow ..
  case vand => exact ofNat_and_toNat ..
  case vor => exact ofNat_or_toNat ..
  case vxor => exact ofNat_xor_toNat ..
  case vmin => exact ofInt_min_toInt ..
  case vmax => exact ofInt_max_toInt ..
  case vminu => exact ofNat_min_toNat ..
  case vmaxu => exact ofNat_max_toNat ..

end Sys2Proof.Machine
end

section
/-! PROOF. The instructions on pairs of registers, the lookup, the select and the comparisons (R184, R188). -/

namespace Sys2Proof.Machine

variable {s : State} {h c : Nat} {vd vs1 vs2 : BitVec 5} {pd pr : BitVec 3}

/-! ### Pairs of 32-bit lanes -/

theorem append_ofNat_halves (x : Nat) :
    (BitVec.ofNat 32 (x / 2 ^ 32) ++ BitVec.ofNat 32 x : BitVec 64) = BitVec.ofNat 64 x := by
  apply BitVec.eq_of_toNat_eq
  rw [BitVec.toNat_append, ← Nat.shiftLeft_add_eq_or_of_lt (BitVec.isLt _), Nat.shiftLeft_eq, BitVec.toNat_ofNat,
    BitVec.toNat_ofNat, BitVec.toNat_ofNat]
  omega

/-- A pair of lanes as one signed number. -/
theorem pairLane_eq_toInt (lo hi : VWord) (i : Nat) : pairLane lo hi i = (lane32 hi i ++ lane32 lo i).toInt := by
  rw [pairLane, laneS_eq_toInt, lane_eq_toNat, BitVec.toInt_append, mul_comm]
  rfl

theorem toInt_ofInt_of_fits {x : Int} (hlo : -(2 ^ 63) ≤ x) (hhi : x < 2 ^ 63) : (BitVec.ofInt 64 x).toInt = x := by
  rw [BitVec.toInt_ofInt]
  exact Int.bmod_eq_of_le (by omega) (by omega)

/-- The pair that VMACW writes in a lane: the number under the predicate, and the old pair elsewhere. -/
theorem maskLanes_pair {p : Word} {lo hi : VWord} {x : Nat → Nat} {i : Nat} (h : i < 16) :
    lane32 (maskLanes false p hi fun i => x i / 2 ^ 32) i ++ lane32 (maskLanes false p lo x) i =
      if p.getLsbD i then BitVec.ofNat 64 (x i) else lane32 hi i ++ lane32 lo i := by
  have hhi := laneWord_maskLanes (w16 := false) (pr := p) (old := hi) (f := fun i => x i / 2 ^ 32) h
  have hlo := laneWord_maskLanes (w16 := false) (pr := p) (old := lo) (f := x) h
  change lane32 _ _ = _ at hhi hlo
  rw [hhi, hlo]
  split
  · exact append_ofNat_halves _
  · rfl

/-- What VMACW puts in the pair of lane `i`; `draws` numbers the free value of a sum beyond 64 bits (assumption 13). -/
def Core.macwSum (k : Core) (vd vs1 vs2 : BitVec 5) (draws i : Nat) : Nat :=
  let x := pairLane (k.readV vd) (k.readV (vd + 1)) i + laneS false (k.readV vs1) i * laneS false (k.readV vs2) i
  if -(2 ^ 63) ≤ x ∧ x < 2 ^ 63 then bitsOf 64 x else (Config.freeValue (draws + i)).toNat

/-- The two registers that VMACW writes. -/
def Core.macwLo (k : Core) (vd vs1 vs2 : BitVec 5) (pr : BitVec 3) (draws : Nat) : VWord :=
  maskLanes false (k.readP pr) (k.readV vd) (k.macwSum vd vs1 vs2 draws)
def Core.macwHi (k : Core) (vd vs1 vs2 : BitVec 5) (pr : BitVec 3) (draws : Nat) : VWord :=
  maskLanes false (k.readP pr) (k.readV (vd + 1)) fun i => k.macwSum vd vs1 vs2 draws i / 2 ^ 32

/-- The core after VMACW, but for its pc. -/
def Core.macw (k : Core) (vd vs1 vs2 : BitVec 5) (pr : BitVec 3) (draws : Nat) : Core :=
  (k.writeV vd (k.macwLo vd vs1 vs2 pr draws)).writeV (vd + 1) (k.macwHi vd vs1 vs2 pr draws)

theorem Core.macw_pc (k : Core) (vd vs1 vs2 : BitVec 5) (pr : BitVec 3) (draws : Nat) :
    (k.macw vd vs1 vs2 pr draws).pc = k.pc := by
  rw [Core.macw, Core.writeV_pc, Core.writeV_pc]

theorem exec_vmacw (hs : s.standsAt h c (encV 0x30 0x06 vd vs1 vs2 pr false) = true) :
    exec (.vmacw h c vd vs1 vs2 pr false) s =
      .next (({ s with draws := s.draws + 16 } : State).coreNext h c fun k => k.macw vd vs1 vs2 pr s.draws) := by
  change execVmacw h c vd vs1 vs2 pr false s = _
  rw [execVmacw, coreOk_of_standsAt hs, State.coreStep_standsAt hs rfl]
  rfl

/-- Values drawn before an instruction do not show in its frame. -/
theorem CoreTo.of_drawn {t : State} {n : Nat} {k : Core} (ht : CoreTo { s with draws := n } t h c k) : CoreTo s t h c k where
  core := ht.core
  cores := ht.cores
  hearth := ht.hearth
  hearths := ht.hearths
  retired := ht.retired
  dual := ht.dual
  regs := ht.regs
  rest := congrArg (fun u : State => { u with draws := s.draws }) ht.rest

/-- VMACW: an accumulation in pairs of lanes (R188). -/
theorem vmacw_adds_products (hs : s.standsAt h c (encV 0x30 0x06 vd vs1 vs2 pr false) = true) :
    let k := s.core h c
    let pair := fun j => lane32 (k.readV (vd + 1)) j ++ lane32 (k.readV vd) j
    Completes (exec (.vmacw h c vd vs1 vs2 pr false) s) fun t => ∃ lo hi : VWord,
      (∀ j, j < 16 →
        let sum := (pair j).toInt + (lane32 (k.readV vs1) j).toInt * (lane32 (k.readV vs2) j).toInt
        let r : BitVec 64 := lane32 hi j ++ lane32 lo j
        ((k.readP pr).getLsbD j = true → -(2 ^ 63) ≤ sum → sum < 2 ^ 63 → r.toInt = sum) ∧
        ((k.readP pr).getLsbD j = false → r = pair j)) ∧
      CoreTo s t h c ((k.writeV vd lo).writeV (vd + 1) hi).advanced := by
  intro k pair
  have hto := CoreTo.coreNext (s := { s with draws := s.draws + 16 }) (f := fun k => k.macw vd vs1 vs2 pr s.draws)
    (Core.macw_pc k vd vs1 vs2 pr s.draws)
  refine ⟨_, exec_vmacw hs, k.macwLo vd vs1 vs2 pr s.draws, k.macwHi vd vs1 vs2 pr s.draws, fun j hj => ?_, hto.of_drawn⟩
  intro sum r
  have hr : r = if (k.readP pr).getLsbD j then BitVec.ofNat 64 (k.macwSum vd vs1 vs2 s.draws j) else pair j :=
    maskLanes_pair hj
  refine ⟨fun hon hlo hhi => ?_, fun hoff => by rw [hr, if_neg (Bool.eq_false_iff.1 hoff)]⟩
  have hsum : pairLane (k.readV vd) (k.readV (vd + 1)) j + laneS false (k.readV vs1) j * laneS false (k.readV vs2) j = sum := by
    rw [pairLane_eq_toInt, laneS_eq_toInt, laneS_eq_toInt]
    rfl
  rw [hr, if_pos hon, Core.macwSum, hsum, if_pos ⟨hlo, hhi⟩, ofNat_bitsOf, toInt_ofInt_of_fits hlo hhi]

/-! ### Comparisons -/

/-- An instruction that writes one predicate register of its core. -/
theorem PredDoes.of_coreCmp {i : Instr} {w v m : Word} {w16 : Bool} {F : Core → Nat → Bool}
    (he : exec i s = withUnit (coreOk h c) (s.coreStep h c v m fun s => s.coreCmp h c pd pr w16 F))
    (hs : s.standsAt h c w = true) (hw : w &&& m = v &&& m) :
    PredDoes i s h c pd fun x => ∀ j, j < 32 → x.getLsbD j =
      (decide (j < laneCount w16) && ((s.core h c).readP pr).getLsbD j && F (s.core h c) j) := by
  obtain ⟨t, ht, hto⟩ := CoreDoes.of_coreNext
    (f := fun k => k.writeP pd (cmpPred w16 (k.readP pr) (F k))) he hs hw (Core.writeP_pc ..)
  exact ⟨t, ht, _, fun _ _ => getLsbD_cmpPred, hto⟩

theorem and_append_congr {n m : Nat} {x x' a : BitVec n} (y b : BitVec m) (h : x &&& a = x' &&& a) :
    (x ++ y) &&& (a ++ b) = (x' ++ y) &&& (a ++ b) := by
  rw [BitVec.and_append, BitVec.and_append, h]

/-- The two bits above a predicate destination are free (R186). -/
theorem and_maskPd (op : BitVec 6) (free : BitVec 2) (pd : BitVec 3) (vs1 vs2 : BitVec 5) (pr : BitVec 3) (w16 : Bool)
    (funct : BitVec 7) :
    (op ++ free ++ pd ++ vs1 ++ vs2 ++ pr ++ (if w16 then 1#1 else 0#1) ++ funct) &&& maskPd =
      encVP op funct pd vs1 vs2 pr w16 &&& maskPd := by
  have hmask : maskPd = BitVec.allOnes 6 ++ 0#2 ++ BitVec.allOnes 3 ++ BitVec.allOnes 5 ++ BitVec.allOnes 5 ++
      BitVec.allOnes 3 ++ BitVec.allOnes 1 ++ BitVec.allOnes 7 := by decide
  have hpd : op ++ (0#2 ++ pd) = op ++ 0#2 ++ pd := BitVec.append_assoc'
  have hdest : (op ++ free ++ pd) &&& (BitVec.allOnes 6 ++ 0#2 ++ BitVec.allOnes 3) =
      (op ++ (0#2 ++ pd)) &&& (BitVec.allOnes 6 ++ 0#2 ++ BitVec.allOnes 3) := by
    rw [hpd]
    exact and_append_congr _ _ (by rw [BitVec.and_append, BitVec.and_append, BitVec.and_zero, BitVec.and_zero])
  rw [hmask]
  exact and_append_congr _ _ (and_append_congr _ _ (and_append_congr _ _ (and_append_congr _ _
    (and_append_congr _ _ hdest))))

/-- Both forms of a comparison. -/
theorem predDoes_both_forms {funct : BitVec 7} {free : BitVec 2} {i : Bool → Instr} {F : Bool → Core → Nat → Bool}
    {f : (n : Nat) → BitVec n → BitVec n → Bool}
    (he : ∀ w16, exec (i w16) s = withUnit (coreOk h c)
      (s.coreStep h c (encVP 0x30 funct pd vs1 vs2 pr w16) maskPd fun s => s.coreCmp h c pd pr w16 (F w16)))
    (hf : ∀ w16 (k : Core) j, F w16 k j = f (laneBits w16) (laneWord w16 (k.readV vs1) j) (laneWord w16 (k.readV vs2) j)) :
    let k := s.core h c
    (s.standsAt h c (0x30#6 ++ free ++ pd ++ vs1 ++ vs2 ++ pr ++ 0#1 ++ funct) = true →
      PredDoes (i false) s h c pd fun v => ∀ j, j < 32 → v.getLsbD j =
        (decide (j < 16) && (k.readP pr).getLsbD j && f 32 (lane32 (k.readV vs1) j) (lane32 (k.readV vs2) j))) ∧
    (s.standsAt h c (0x30#6 ++ free ++ pd ++ vs1 ++ vs2 ++ pr ++ 1#1 ++ funct) = true →
      PredDoes (i true) s h c pd fun v => ∀ j, j < 32 → v.getLsbD j =
        ((k.readP pr).getLsbD j && f 16 (lane16 (k.readV vs1) j) (lane16 (k.readV vs2) j))) := by
  intro k
  constructor <;> intro hs
  · obtain ⟨t, ht, v, hv, hto⟩ := PredDoes.of_coreCmp (he false) hs (and_maskPd (w16 := false) ..)
    exact ⟨t, ht, v, fun j hj => (hv j hj).trans (by rw [hf]; rfl), hto⟩
  · obtain ⟨t, ht, v, hv, hto⟩ := PredDoes.of_coreCmp (he true) hs (and_maskPd (w16 := true) ..)
    refine ⟨t, ht, v, fun j hj => (hv j hj).trans ?_, hto⟩
    rw [hf, decide_eq_true (show j < laneCount true from hj), Bool.true_and]
    rfl

theorem beq_toNat {n : Nat} (a b : BitVec n) : (a.toNat == b.toNat) = (a == b) := by
  rw [Bool.eq_iff_iff, beq_iff_eq, beq_iff_eq, BitVec.toNat_inj]

/-! ### The statement -/

theorem vrshrw_rounds_pairs (hs : s.standsAt h c (encV 0x30 0x08 vd vs1 vs2 pr false) = true) :
    let k := s.core h c
    VecDoes (.vrshrw h c vd vs1 vs2 pr false) s h c vd fun v => ∀ j, j < 16 →
      lane32 v j = if (k.readP pr).getLsbD j
        then .ofInt 32 (satS 32 (rshiftRne (lane32 (k.readV (vs1 + 1)) j ++ lane32 (k.readV vs1) j).toInt
          ((lane32 (k.readV vs2) j).toNat % 64)))
        else lane32 (k.readV vd) j := by
  intro k
  obtain ⟨t, ht, v, hv, hto⟩ := VecDoes.of_coreV (i := .vrshrw h c vd vs1 vs2 pr false) (vd := vd) rfl hs rfl
  have hval (j : Nat) : BitVec.ofNat 32 (bitsOf 32 (sat32 (rshiftRne (pairLane (k.readV vs1) (k.readV (vs1 + 1)) j)
      (lane false (k.readV vs2) j % 64)))) =
      .ofInt 32 (satS 32 (rshiftRne (lane32 (k.readV (vs1 + 1)) j ++ lane32 (k.readV vs1) j).toInt
        ((lane32 (k.readV vs2) j).toNat % 64))) := by
    rw [ofNat_bitsOf, pairLane_eq_toInt, lane_eq_toNat]
    rfl
  exact ⟨t, ht, v, fun j hj => (hv j hj).trans (if_congr Iff.rfl (hval j) rfl), hto⟩

theorem vlut_looks_up (w16 : Bool) (hs : s.standsAt h c (encV 0x30 0x13 vd vs1 vs2 pr w16) = true) :
    let k := s.core h c
    VecDoes (.vlut h c vd vs1 vs2 pr w16) s h c vd fun v => ∀ j, j < laneCount w16 →
      laneWord w16 v j = if (k.readP pr).getLsbD j
        then laneWord w16 (k.readV vs2) ((laneWord w16 (k.readV vs1) j).toNat % laneCount w16)
        else laneWord w16 (k.readV vd) j := by
  intro k
  obtain ⟨t, ht, v, hv, hto⟩ := VecDoes.of_coreV (i := .vlut h c vd vs1 vs2 pr w16) (vd := vd) rfl hs rfl
  refine ⟨t, ht, v, fun j hj => (hv j hj).trans ?_, hto⟩
  rw [lane_eq_toNat, lane_eq_toNat, BitVec.ofNat_toNat, BitVec.setWidth_eq]

theorem vsel_selects (w16 : Bool) (hs : s.standsAt h c (encV 0x30 0x17 vd vs1 vs2 pr w16) = true) :
    let k := s.core h c
    VecDoes (.vsel h c vd vs1 vs2 pr w16) s h c vd fun v => ∀ j, j < laneCount w16 →
      laneWord w16 v j = if (k.readP pr).getLsbD j then laneWord w16 (k.readV vs1) j
        else laneWord w16 (k.readV vs2) j := by
  intro k
  refine VecDoes.of_coreNext rfl hs rfl fun j hj => (laneWord_maskLanes hj).trans ?_
  rw [lane_eq_toNat, BitVec.ofNat_toNat, BitVec.setWidth_eq]

/-- Settles O19: the pairs, the lookup and the select by their lanes, the comparisons by their bits. -/
theorem vectorPairsTablesAndComparisons : Obligations.VectorPairsTablesAndComparisons := by
  unfold Obligations.VectorPairsTablesAndComparisons
  intro s h c vd vs1 vs2 pd pr free k on at' pat pair
  refine ⟨vmacw_adds_products, vrshrw_rounds_pairs, vlut_looks_up false, vlut_looks_up true, vsel_selects false,
    vsel_selects true, ?_⟩
  intro cmp
  have holds {funct : BitVec 7} {i : Bool → Instr} {F : Bool → Core → Nat → Bool}
      {f : (n : Nat) → BitVec n → BitVec n → Bool}
      (he : ∀ w16, exec (i w16) s = withUnit (coreOk h c)
        (s.coreStep h c (encVP 0x30 funct pd vs1 vs2 pr w16) maskPd fun s => s.coreCmp h c pd pr w16 (F w16)))
      (hf : ∀ w16 (k : Core) j, F w16 k j = f (laneBits w16) (laneWord w16 (k.readV vs1) j)
        (laneWord w16 (k.readV vs2) j)) : cmp funct i f :=
    predDoes_both_forms he hf
  clear_value cmp
  refine ⟨holds (fun _ => rfl) ?eq, holds (fun _ => rfl) ?lt, holds (fun _ => rfl) ?ltu⟩ <;> intro w16 k j <;>
    simp only [lane_eq_toNat, laneS_eq_toInt]
  case eq => exact beq_toNat ..
  case lt => rfl
  case ltu => rfl

end Sys2Proof.Machine
end

section
/-! PROOF. One accumulation of a Kiln: clamp, clamp bit and residue lane (R99, R104, R115, R116). -/

namespace Sys2Proof.Machine

theorem sat32_eq_clamp (v : Int) : sat32 v = max (-2147483648) (min v 2147483647) := rfl

theorem toInt_ofInt_sat32 (v : Int) : (BitVec.ofInt 32 (sat32 v)).toInt = sat32 v := by
  rw [BitVec.toInt_ofInt, sat32_eq_clamp]
  exact Int.bmod_eq_of_le (by omega) (by omega)

theorem sat32_ne_iff (v : Int) : sat32 v ≠ v ↔ v < -2147483648 ∨ 2147483647 < v := by
  rw [sat32_eq_clamp]; omega

theorem val_accStep (e : Acc) (a w : Int) : (accStep e a w).val.toInt = sat32 (e.val.toInt + a * w) :=
  toInt_ofInt_sat32 _

theorem clamp_accStep_iff (e : Acc) (a w : Int) :
    (accStep e a w).clamp = true ↔ e.clamp = true ∨ sat32 (e.val.toInt + a * w) ≠ e.val.toInt + a * w := by
  simp [accStep]

theorem natCast_res7 (x : Int) : (res7 x : Int) = x % 7 := Int.toNat_of_nonneg (Int.emod_nonneg x (by decide))

/-- The residue of a sum of products is that of the residues (R115). -/
theorem res7_add_mul (x a w : Int) : res7 (x + a * w) = (res7 x + res7 a * res7 w) % 7 := by
  have h : (res7 (x + a * w) : Int) = ((res7 x + res7 a * res7 w) % 7 : Nat) := by
    push_cast
    simp only [natCast_res7]
    rw [Int.add_emod x, Int.mul_emod a, Int.add_emod_emod]
  exact_mod_cast h

theorem lane_accStep (e : Acc) (a w : Int) :
    (accStep e a w).lane.toNat = (e.lane.toNat + res7 a * res7 w) % 7 := by
  change BitVec.toNat (BitVec.ofNat 3 _) = _
  rw [BitVec.toNat_ofNat]
  omega

theorem residueOk_iff (mode : Nat) (e : Acc) :
    residueOk mode e = true ↔ mode = 3 ∨ e.clamp = true ∨ res7 e.val.toInt = e.lane.toNat := by
  simp [residueOk, or_assoc]

/-- An entry that passes the comparison of R116 passes it after an accumulation: either the clamp acted, or the lane
followed the exact sum. -/
theorem residueOk_accStep {mode : Nat} {e : Acc} (a w : Int) (h : residueOk mode e = true) :
    residueOk mode (accStep e a w) = true := by
  rw [residueOk_iff] at h ⊢
  rcases h with hmode | hclamp | hlane
  · exact .inl hmode
  · exact .inr (.inl ((clamp_accStep_iff e a w).2 (.inl hclamp)))
  · by_cases hsat : sat32 (e.val.toInt + a * w) = e.val.toInt + a * w
    · exact .inr (.inr (by rw [val_accStep, hsat, lane_accStep, res7_add_mul, hlane]))
    · exact .inr (.inl ((clamp_accStep_iff e a w).2 (.inr hsat)))

theorem residueOk_zero (mode : Nat) : residueOk mode {} = true := (residueOk_iff ..).2 (.inr (.inr rfl))

/-- Settles O28: the value, the clamp bit and the lane of one accumulation. -/
theorem accumulatorsSaturateAndKeepTheirResidue : Obligations.AccumulatorsSaturateAndKeepTheirResidue := by
  unfold Obligations.AccumulatorsSaturateAndKeepTheirResidue
  refine ⟨fun e a w mode => ?_, residueOk_zero⟩
  intro x
  exact ⟨val_accStep e a w, (clamp_accStep_iff e a w).trans (or_congr_right (sat32_ne_iff x)), residueOk_accStep a w⟩

end Sys2Proof.Machine
end

section
/-! PROOF. What an operation on every entry of a slot writes, and what it leaves alone (R94, R95). -/

namespace Sys2Proof

variable {β γ : Type} [DecidableEq β] {dflt : Nat → β} {key : γ → Nat} {g : γ → β → β}

theorem SMap.look_modify_self (m : SMap β) (k : Nat) (f : β → β) : (m.modify dflt k f).look dflt k = f (m.look dflt k) :=
  SMap.look_put_same ..

theorem SMap.look_modify_of_ne (m : SMap β) {k j : Nat} (f : β → β) (h : j ≠ k) :
    (m.modify dflt k f).look dflt j = m.look dflt j := SMap.look_put_of_ne _ _ h

/-- A fold of changes at the keys of a list leaves every other index. -/
theorem SMap.look_foldl_modify_of_ne {x : Nat} (l : List γ) (m : SMap β) (h : ∀ a ∈ l, x ≠ key a) :
    (l.foldl (fun m a => m.modify dflt (key a) (g a)) m).look dflt x = m.look dflt x := by
  induction l generalizing m with
  | nil => rfl
  | cons a l ih =>
    rw [List.foldl_cons, ih _ fun b hb => h b (List.mem_cons_of_mem a hb),
      SMap.look_modify_of_ne _ _ (h a (List.mem_cons_self ..))]

/-- With distinct keys, it changes the value at each key once. -/
theorem SMap.look_foldl_modify {a : γ} (l : List γ) (m : SMap β) (hl : (l.map key).Nodup) (ha : a ∈ l) :
    (l.foldl (fun m a => m.modify dflt (key a) (g a)) m).look dflt (key a) = g a (m.look dflt (key a)) := by
  induction l generalizing m with
  | nil => exact absurd ha (List.not_mem_nil)
  | cons b l ih =>
    obtain ⟨hb, hl⟩ := List.nodup_cons.1 hl
    rw [List.foldl_cons]
    rcases List.mem_cons.1 ha with rfl | ha
    · rw [SMap.look_foldl_modify_of_ne l _ fun c hc he => hb (List.mem_map.2 ⟨c, hc, he.symm⟩), SMap.look_modify_self]
    · have hne : key a ≠ key b := fun he => hb (he ▸ List.mem_map_of_mem ha)
      rw [ih _ hl ha, SMap.look_modify_of_ne _ _ hne]

end Sys2Proof

namespace Sys2Proof.Machine

variable {mode slot : Nat}

/-- A slot that exists in a Kiln's mode (R94, R95, R109). -/
def slotOk (mode slot : Nat) : Prop := 1 ≤ mode ∧ mode ≤ 3 ∧ slot < modeSlots mode

theorem slotOk_of_kilnCmdOk {m : SMap Byte} {c : KilnCmd} {fmt : Nat} (h : kilnCmdOk m c fmt = true) :
    slotOk c.mode c.slot := by
  rw [kilnCmdOk, Bool.and_eq_true, kilnFieldsOk] at h
  obtain ⟨hfields, -⟩ := h
  split_ifs at hfields <;> simp only [Bool.and_eq_true, decide_eq_true_eq] at hfields <;> unfold slotOk <;> tauto

theorem mem_tileCells {r ch : Nat} : (r, ch) ∈ tileCells mode ↔ r < 16 ∧ ch < modeChannels mode := by
  simp [tileCells]

theorem accIndex_injective (hs : slotOk mode slot) {r r' ch ch' : Nat}
    (hc : ch < modeChannels mode) (hc' : ch' < modeChannels mode)
    (h : accIndex mode slot r ch = accIndex mode slot r' ch') : r = r' ∧ ch = ch' := by
  obtain ⟨h1, h3, hslot⟩ := hs
  have hmode : mode = 1 ∨ mode = 2 ∨ mode = 3 := by omega
  rcases hmode with rfl | rfl | rfl <;> simp [accIndex, modePer, modeChannels, modeSlots] at * <;> omega

theorem nodup_accIndex_tileCells (hs : slotOk mode slot) :
    ((tileCells mode).map fun x => accIndex mode slot x.1 x.2).Nodup := by
  have hcells : (tileCells mode).Nodup :=
    List.Nodup.product (List.nodup_range (n := 16)) (List.nodup_range (n := modeChannels mode))
  refine hcells.map_on ?_
  rintro ⟨r, ch⟩ hx ⟨r', ch'⟩ hy he
  obtain ⟨rfl, rfl⟩ := accIndex_injective hs (mem_tileCells.1 hx).2 (mem_tileCells.1 hy).2 he
  rfl

theorem look_mapSlot (hs : slotOk mode slot) (acc : SMap Acc) (f : Nat → Nat → Acc → Acc) {r ch : Nat} (hr : r < 16)
    (hc : ch < modeChannels mode) :
    (mapSlot acc mode slot f).look accZero (accIndex mode slot r ch) =
      f r ch (acc.look accZero (accIndex mode slot r ch)) :=
  SMap.look_foldl_modify (key := fun x : Nat × Nat => accIndex mode slot x.1 x.2) (g := fun x => f x.1 x.2) (a := (r, ch))
    (tileCells mode) acc (nodup_accIndex_tileCells hs) (mem_tileCells.2 ⟨hr, hc⟩)

theorem look_mapSlot_of_ne (acc : SMap Acc) (f : Nat → Nat → Acc → Acc) {x : Nat}
    (h : ∀ r ch, r < 16 → ch < modeChannels mode → x ≠ accIndex mode slot r ch) :
    (mapSlot acc mode slot f).look accZero x = acc.look accZero x :=
  SMap.look_foldl_modify_of_ne (key := fun x : Nat × Nat => accIndex mode slot x.1 x.2) (g := fun x => f x.1 x.2)
    (tileCells mode) acc fun a ha => h a.1 a.2 (mem_tileCells.1 ha).1 (mem_tileCells.1 ha).2

end Sys2Proof.Machine
end

section
/-! PROOF. What an engine of a Hearth does with its queue, its reads and its Hearth, and what it leaves alone (R197, R439, R440). -/

namespace Sys2Proof.Machine

variable {s t : State} {h q : Nat} {v w : Hearth} {e : QEntry} {rest : List QEntry} {reads : List (Nat × Nat)}

/-! ### The head of a queue -/

/-- A command that may start, at the head of its queue, is performed. -/
theorem exec_onHead {i : Instr} {ok : Bool} {op : Nat} {body : QEntry → State}
    (he : exec i s = withUnit ok (s.onHead h q op body)) (hu : ok = true) (hs : s.headStarts h q op e rest) :
    exec i s = .next (body e) := by
  obtain ⟨hq, hstart, hop⟩ := hs
  rw [he, hu, withUnit_true, State.onHead, hq]
  dsimp only
  rw [hstart, hop, beq_self_eq_true, Bool.and_self, if_pos rfl]

theorem hearthOk_of_kilnOk {k : Nat} (hu : kilnOk h k = true) : hearthOk h = true :=
  ((Bool.and_eq_true _ _).mp hu).1

/-! ### The reads of a command -/

/-- The wake of the banks that the reads of an engine meet. -/
def State.touchReads (s : State) (h : Nat) (reads : List (Nat × Nat)) : State :=
  reads.foldl (fun t r => t.touch h r.1 r.2) s

theorem State.unlessUe_of_none (hr : s.readsUe h reads = none) (body : State) : s.unlessUe h reads body = body := by
  rw [State.unlessUe, hr]

theorem State.afterReads_of_none (hr : s.readsUe h reads = none) (body : State → State) :
    s.afterReads h reads body = body (s.touchReads h reads) := State.unlessUe_of_none hr _

theorem State.touchReads_sansBanks (s : State) (h : Nat) (reads : List (Nat × Nat)) :
    (s.touchReads h reads).sansBanks = s.sansBanks :=
  foldl_keeps State.sansBanks (fun _ _ => State.touch_sansBanks ..) reads s

@[simp] theorem State.touchReads_hearth (s : State) (h g : Nat) (reads : List (Nat × Nat)) :
    (s.touchReads h reads).hearth g = s.hearth g :=
  foldl_keeps (fun t : State => t.hearth g) (fun _ _ => State.touch_hearth ..) reads s

@[simp] theorem State.touchReads_kiln (s : State) (h g k : Nat) (reads : List (Nat × Nat)) :
    (s.touchReads h reads).kiln g k = s.kiln g k := by rw [State.kiln, State.touchReads_hearth]; rfl

theorem State.touchReads_flt (s : State) (h : Nat) (reads : List (Nat × Nat)) : (s.touchReads h reads).flt = s.flt :=
  (congrArg State.flt (s.touchReads_sansBanks h reads) :)

theorem State.touchReads_physOf (s : State) (h g : Nat) (reads : List (Nat × Nat)) :
    (s.touchReads h reads).physOf g = s.physOf g :=
  (congrArg (fun t : State => t.physOf g) (s.touchReads_sansBanks h reads) :)

/-- A physical Hearth without the record of its banks. -/
def Phys.sansBanks (v : Phys) : Phys := { v with retention := [], bankUse := [] }

theorem Phys.foldl_sansBanks {α : Type} {f : Phys → α → Phys} (hf : ∀ x a, (f x a).sansBanks = x.sansBanks) (l : List α)
    (x : Phys) : (l.foldl f x).sansBanks = x.sansBanks := by
  induction l generalizing x with
  | nil => rfl
  | cons a l ih => rw [List.foldl_cons, ih, hf]

theorem State.phy_touch_of_ne (s : State) (h a n : Nat) {p : Nat} (hp : p ≠ s.physOf h) : (s.touch h a n).phy p = s.phy p := by
  unfold State.touch
  dsimp only
  rw [State.phy_setPhy, if_neg hp]
  split
  · rfl
  · exact (State.phy_setPhy ..).trans (if_neg hp)

/-- An access changes nothing of a physical Hearth but the record of its banks. -/
theorem State.phy_touch_sansBanks (s : State) (h a n p : Nat) : ((s.touch h a n).phy p).sansBanks = (s.phy p).sansBanks := by
  by_cases hp : p = s.physOf h
  · subst hp
    unfold State.touch
    dsimp only
    rw [State.phy_setPhy_same]
    refine (Phys.foldl_sansBanks (by exact fun _ _ => rfl) ..).trans ?_
    split
    · rfl
    · exact (congrArg Phys.sansBanks (State.phy_setPhy_same ..)).trans (Phys.foldl_sansBanks (by exact fun _ _ => rfl) ..)
  · rw [State.phy_touch_of_ne s h a n hp]

theorem State.phy_touchReads_sansBanks (s : State) (h p : Nat) (reads : List (Nat × Nat)) :
    ((s.touchReads h reads).phy p).sansBanks = (s.phy p).sansBanks :=
  foldl_keeps (fun t : State => (t.phy p).sansBanks) (fun _ _ => State.phy_touch_sansBanks ..) reads s

/-! ### The parts of a Hearth that an engine changes -/

def Hearth.setKiln (v : Hearth) (k : Nat) (x : Kiln) : Hearth := { v with kilns := v.kilns.put (fun _ => {}) k x }

/-- The head of a target queue leaves it. -/
def Hearth.popQueue (v : Hearth) (q : Nat) : Hearth :=
  { v with queues := v.queues.put (fun _ => []) q ((v.queues.look (fun _ => []) q).drop 1) }

/-- A command of one of its cores is no longer outstanding (R198). -/
def Hearth.cmdDone (v : Hearth) (q core : Nat) : Hearth :=
  let k := v.cores.look (fun _ => {}) core
  { v with cores := v.cores.put (fun _ => {}) core { k with issued := k.issued.modify (fun _ => 0) q (· - 1) } }

/-- From s to t an engine has acted: Hearth h is now `v`, the banks of its physical Hearth may have been used and woken,
counters may count and free counts may have been drawn. Nothing else has changed. -/
structure State.ActsOn (s t : State) (h : Nat) (v : Hearth) : Prop where
  hearth  : t.hearth h = v
  hearths : ∀ g, g ≠ h → t.hearth g = s.hearth g
  phys    : ∀ p, p ≠ s.physOf h → t.phy p = s.phy p
  rest    : { t with hearths := s.hearths, phys := s.phys, regs := s.regs, draws := s.draws } = s

namespace State.ActsOn

theorem refl (s : State) (h : Nat) : s.ActsOn s h (s.hearth h) := ⟨rfl, fun _ _ => rfl, fun _ _ => rfl, rfl⟩

theorem physOf (ht : s.ActsOn t h v) (g : Nat) : t.physOf g = s.physOf g :=
  (congrArg (fun u : State => u.physOf g) ht.rest :)

theorem touch (ht : s.ActsOn t h v) (a n : Nat) : s.ActsOn (t.touch h a n) h v where
  hearth := (State.touch_hearth ..).trans ht.hearth
  hearths g hg := (State.touch_hearth ..).trans (ht.hearths g hg)
  phys p hp := (State.phy_touch_of_ne _ _ _ _ (ht.physOf h ▸ hp)).trans (ht.phys p hp)
  rest := (congrArg (fun u : State => { u with hearths := s.hearths, phys := s.phys, regs := s.regs, draws := s.draws })
    (t.touch_sansBanks h a n)).trans ht.rest

theorem touchReads (ht : s.ActsOn t h v) (reads : List (Nat × Nat)) : s.ActsOn (t.touchReads h reads) h v := by
  unfold State.touchReads
  induction reads generalizing t with
  | nil => exact ht
  | cons r reads ih => exact ih (ht.touch r.1 r.2)

theorem setHearth (ht : s.ActsOn t h v) (w : Hearth) : s.ActsOn (t.setHearth h w) h w where
  hearth := State.hearth_setHearth_same ..
  hearths g hg := ((State.hearth_setHearth ..).trans (if_neg hg)).trans (ht.hearths g hg)
  phys := ht.phys
  rest := ht.rest

theorem bump (ht : s.ActsOn t h v) (k n : Nat) : s.ActsOn (t.bump k n) h v :=
  ⟨ht.hearth, ht.hearths, ht.phys, ht.rest⟩

theorem cycles (ht : s.ActsOn t h v) (k most : Nat) : s.ActsOn (t.cycles k most) h v :=
  ⟨ht.hearth, ht.hearths, ht.phys, ht.rest⟩

theorem setKiln (ht : s.ActsOn t h v) (k : Nat) (x : Kiln) : s.ActsOn (t.setKiln h k x) h (v.setKiln k x) :=
  ht.hearth ▸ ht.setHearth _

theorem popQueue (ht : s.ActsOn t h v) (q : Nat) : s.ActsOn (t.popQueue h q) h (v.popQueue q) :=
  ht.hearth ▸ ht.setHearth _

theorem cmdDone (ht : s.ActsOn t h v) (q core : Nat) : s.ActsOn (t.cmdDone h q core) h (v.cmdDone q core) :=
  ht.hearth ▸ ht.setHearth _

/-- What an engine does to its Hearth, as the statements say it. -/
theorem engineTo (ht : s.ActsOn t h v) (hq : v.queues = (s.hearth h).queues.put (fun _ => []) q rest)
    (hjob : v.job = (s.hearth h).job) (hhist : v.hist = (s.hearth h).hist) : EngineTo s t h q rest where
  queue := by rw [State.queueOf, ht.hearth, hq, SMap.look_put_same]
  queues x hx := by rw [State.queueOf, ht.hearth, hq, SMap.look_put_of_ne _ _ hx]; rfl
  hearths := ht.hearths
  phys := ht.phys
  job := by rw [ht.hearth, hjob]
  hist := by rw [ht.hearth, hhist]
  rest := ht.rest

theorem kiln (ht : s.ActsOn t h v) (k : Nat) : t.kiln h k = v.kilns.look (fun _ => {}) k := by rw [State.kiln, ht.hearth]

end State.ActsOn

end Sys2Proof.Machine
end

section
/-! PROOF. A command of a Kiln that completes: MAC, MERGE and CLEAR (R100 to R111, R168, R170). -/

namespace Sys2Proof.Machine

variable {s t : State} {h k : Nat} {v : Hearth} {e : QEntry} {rest : List QEntry} {c : KilnCmd} {x : Kiln}

/-! ### Its end -/

/-- A Hearth in which a command of Kiln k has completed with `x` as the Kiln. -/
def Hearth.kilnDone (v : Hearth) (k : Nat) (e : QEntry) (x : Kiln) : Hearth :=
  ((v.setKiln k x).popQueue k).cmdDone k e.core

theorem State.ActsOn.kilnDone (ht : s.ActsOn t h v) (k : Nat) (e : QEntry) (c : KilnCmd) (x : Kiln) (most : Nat × Nat) :
    s.ActsOn (t.kilnDone h k e c x most) h (v.kilnDone k e x) := by
  have hdone := ((((ht.setKiln k x).popQueue k).cmdDone k e.core).cycles (kilnKey 8 h k) (most.1 + most.2)).cycles
    (kilnKey 12 h k) most.2
  unfold State.kilnDone
  dsimp only
  split
  · exact hdone.bump ..
  · exact hdone

/-- The end of a stream in its Hearth: the window unit and a core may change. -/
theorem State.ActsOn.streamTaken (ht : s.ActsOn t h v) (k st : Nat) :
    ∃ win cores, s.ActsOn (t.streamTaken h k st) h { v with win := win, cores := cores } := by
  obtain rfl := ht.hearth
  unfold State.streamTaken
  dsimp only
  split
  · exact ⟨_, _, (((ht.setHearth _).bump ..).bump ..).cmdDone ..⟩
  · exact ⟨_, _, ht.setHearth _⟩

theorem Hearth.kilnDone_queues (v : Hearth) (k : Nat) (e : QEntry) (x : Kiln) :
    (v.kilnDone k e x).queues = v.queues.put (fun _ => []) k ((v.queues.look (fun _ => []) k).drop 1) := rfl

theorem Hearth.kilnDone_kilns (v : Hearth) (k : Nat) (e : QEntry) (x : Kiln) (j : Nat) :
    (v.kilnDone k e x).kilns.look (fun _ => {}) j = if j = k then x else v.kilns.look (fun _ => {}) j :=
  SMap.look_put ..

/-- From s to t a command of Kiln k has completed with `x` as the Kiln, and left its queue. -/
structure State.KilnTo (s t : State) (h k : Nat) (rest : List QEntry) (x : Kiln) : Prop where
  engine : EngineTo s t h k rest
  kiln   : t.kiln h k = x
  kilns  : ∀ j, j ≠ k → t.kiln h j = s.kiln h j
  store  : (t.hearth h).store = (s.hearth h).store

theorem State.ActsOn.kilnTo {win : Window} {cores : SMap Core} (hq : s.queueOf h k = e :: rest)
    (ht : s.ActsOn t h { (s.hearth h).kilnDone k e x with win := win, cores := cores }) : s.KilnTo t h k rest x := by
  have hqueues : ((s.hearth h).kilnDone k e x).queues = (s.hearth h).queues.put (fun _ => []) k rest := by
    rw [Hearth.kilnDone_queues, show (s.hearth h).queues.look (fun _ => []) k = e :: rest from hq]
    rfl
  have hkilns (j : Nat) : t.kiln h j = if j = k then x else s.kiln h j :=
    (ht.kiln j).trans (Hearth.kilnDone_kilns (s.hearth h) k e x j)
  exact ⟨ht.engineTo hqueues rfl rfl, (hkilns k).trans (if_pos rfl), fun j hj => (hkilns j).trans (if_neg hj),
    (congrArg Hearth.store ht.hearth :)⟩

theorem State.kilnDone_kilnTo (hq : s.queueOf h k = e :: rest) (reads : List (Nat × Nat)) (most : Nat × Nat) :
    s.KilnTo ((s.touchReads h reads).kilnDone h k e c x most) h k rest x :=
  (((State.ActsOn.refl s h).touchReads reads).kilnDone k e c x most).kilnTo hq

theorem State.streamTaken_kilnTo (hq : s.queueOf h k = e :: rest) (reads : List (Nat × Nat)) (most : Nat × Nat) (st : Nat) :
    s.KilnTo (((s.touchReads h reads).kilnDone h k e c x most).streamTaken h k st) h k rest x := by
  obtain ⟨win, cores, hacts⟩ := (((State.ActsOn.refl s h).touchReads reads).kilnDone k e c x most).streamTaken k st
  exact hacts.kilnTo hq

/-! ### MERGE and CLEAR -/

/-- A Kiln command that writes the entries of its slot with `f`: what it does, as the statements say it. -/
structure State.SlotTo (s t : State) (h k : Nat) (rest : List QEntry) (c : KilnCmd) (f : Nat → Nat → Acc → Acc) : Prop
    extends s.KilnTo t h k rest (kilnFinish (s.kiln h k) c (mapSlot (s.kiln h k).acc c.mode c.slot f)) where
  slot : slotOk c.mode c.slot

variable {f : Nat → Nat → Acc → Acc}

theorem State.SlotTo.entries (ht : s.SlotTo t h k rest c f) {r ch : Nat} (hr : r < 16) (hch : ch < modeChannels c.mode) :
    (t.kiln h k).acc.look accZero (accIndex c.mode c.slot r ch) =
      f r ch ((s.kiln h k).acc.look accZero (accIndex c.mode c.slot r ch)) := by
  rw [ht.kiln]
  exact look_mapSlot ht.slot _ _ hr hch

theorem State.SlotTo.others (ht : s.SlotTo t h k rest c f) {x : Nat}
    (hx : ∀ r ch, r < 16 → ch < modeChannels c.mode → x ≠ accIndex c.mode c.slot r ch) :
    (t.kiln h k).acc.look accZero x = (s.kiln h k).acc.look accZero x := by
  rw [ht.kiln]
  exact look_mapSlot_of_ne _ _ hx

theorem State.SlotTo.held (ht : s.SlotTo t h k rest c f) : (t.kiln h k).held =
    if c.isLast then (s.kiln h k).held ++ [⟨c.slot, c.mode, c.chBase⟩] else (s.kiln h k).held := by
  rw [ht.kiln]
  rfl

/-- An entry after a MERGE: the rounded and clamped sum of its sources (R105, R106, R118). -/
def mergeEntry (m : SMap Byte) (c : KilnCmd) (acc : SMap Acc) (r ch : Nat) : Acc :=
  let w := rshiftRne ((((readMergeTable m c.wAddr c.sources).getD []).map fun x =>
    (acc.look accZero (accIndex c.mode x.1 r ch)).val.toInt * (x.2 : Int)).sum) c.shift
  { val := .ofInt 32 (sat32 w), clamp := decide (sat32 w ≠ w), lane := .ofNat 3 (res7 (sat32 w)) }

theorem mergeResult_eq_mapSlot (m : SMap Byte) (c : KilnCmd) (acc : SMap Acc) :
    mergeResult m c acc = mapSlot acc c.mode c.slot fun r ch _ => mergeEntry m c acc r ch := rfl

section
variable (hu : kilnOk h k = true) (hready : s.kilnReady h k = true) (hc : c = readKilnCmd (cmdMem e.cmd) 0)
  (hok : kilnCmdOk (s.hearth h).store c 0 = true)
include hu hready hc hok

/-- MERGE (R105) at the head of its queue, valid, on a READY Kiln. -/
theorem exec_merge_of_valid (hs : s.headStarts h k 2 e rest)
    (hfree : ((kilnCmdSlots (s.hearth h).store c).any fun x => meetsHeld (s.kiln h k).held c.mode x) = false)
    (hue : s.readsUe h (kilnReads (s.hearth h).store c) = none) (chk : KilnCheck) :
    exec (.merge h k chk) s = .next (
      let t := s.touchReads h (kilnReads (s.hearth h).store c)
      if chk ≠ .none then t.kilnFailed h k c.mode (kilnCause chk)
      else t.kilnDone h k e c (kilnFinish (s.kiln h k) c (mergeResult (s.hearth h).store c (s.kiln h k).acc)) (kilnCycles c)) := by
  subst hc
  rw [exec_onHead (i := .merge h k chk) rfl hu hs]
  simp [State.mergeHead, hready, hok, hfree, State.unlessUe_of_none hue, State.afterReads_of_none hue]

theorem merge_writes_slot (hs : s.headStarts h k 2 e rest)
    (hfree : ((kilnCmdSlots (s.hearth h).store c).any fun x => meetsHeld (s.kiln h k).held c.mode x) = false)
    (hue : s.readsUe h (kilnReads (s.hearth h).store c) = none) :
    Completes (exec (.merge h k .none) s) fun t =>
      s.SlotTo t h k rest c fun r ch _ => mergeEntry (s.hearth h).store c (s.kiln h k).acc r ch :=
  ⟨_, exec_merge_of_valid hu hready hc hok hs hfree hue .none,
    State.kilnDone_kilnTo (c := c) hs.1 (kilnReads (s.hearth h).store c) (kilnCycles c), slotOk_of_kilnCmdOk hok⟩

/-- CLEAR (R107) at the head of its queue, valid, on a READY Kiln. -/
theorem clear_writes_slot (hs : s.headStarts h k 3 e rest) (hfree : meetsHeld (s.kiln h k).held c.mode c.slot = false) :
    Completes (exec (.kilnClear h k) s) fun t => s.SlotTo t h k rest c fun _ _ _ => {} := by
  refine ⟨s.kilnDone h k e c (kilnFinish (s.kiln h k) c (clearResult c (s.kiln h k).acc)) (kilnCycles c), ?_,
    State.kilnDone_kilnTo (c := c) hs.1 [] (kilnCycles c), slotOk_of_kilnCmdOk hok⟩
  subst hc
  rw [exec_onHead (i := .kilnClear h k) rfl hu hs]
  simp [State.clearHead, hready, hok, hfree]

end

/-- Settles O30: each entry of the slot by the operation on it, the frame by what the end of a command changes. -/
theorem mergeAndClearWriteTheirSlot : Obligations.MergeAndClearWriteTheirSlot := by
  unfold Obligations.MergeAndClearWriteTheirSlot
  intro s h k e rest v c kiln tab at' done hu hready hok
  refine ⟨fun hs hfree hue => ?_, fun hs hfree => ?_⟩
  · obtain ⟨t, ht, hto⟩ := merge_writes_slot hu hready rfl hok hs hfree hue
    exact ⟨t, ht, hto.engine, fun r ch => hto.entries, fun x => hto.others, hto.held, hto.kilns, hto.store⟩
  · obtain ⟨t, ht, hto⟩ := clear_writes_slot hu hready rfl hok hs hfree
    exact ⟨t, ht, hto.engine, fun r ch => hto.entries, fun x => hto.others, hto.held, hto.kilns, hto.store⟩

end Sys2Proof.Machine
end

section
/-! PROOF. A MAC that completes, fed by a dense or a diagonal stream (R100 to R104, R109, R116, R168 to R170). -/

namespace Sys2Proof.Machine

/-! ### The accumulators after a MAC -/

section
variable (m : SMap Byte) (c : KilnCmd) (wcb acb : List Int) (ch : Nat)

theorem macFold_append (l l' : List Tap) (t : Nat) (e : Acc) :
    macFold m c wcb acb ch t (l ++ l') e = macFold m c wcb acb ch (t + l.length) l' (macFold m c wcb acb ch t l e) := by
  induction l generalizing t e with
  | nil => rfl
  | cons x l ih =>
    rw [List.cons_append, macFold, macFold, ih, List.length_cons]
    congr 1
    omega

/-- The comparison in the middle of a MAC (R116) divides its terms and changes nothing. -/
theorem macFold_take_drop (n : Nat) (l : List Tap) (e : Acc) :
    macFold m c wcb acb ch n (l.drop n) (macFold m c wcb acb ch 0 (l.take n) e) = macFold m c wcb acb ch 0 l e := by
  by_cases hn : n ≤ l.length
  · conv_rhs => rw [← List.take_append_drop n l, macFold_append, List.length_take_of_le hn, Nat.zero_add]
  · rw [List.take_of_length_le (by omega), List.drop_of_length_le (by omega), macFold]

end

/-- The codes that a MAC's codebook at `a` expands to. -/
def bookOf (m : SMap Byte) (a : Nat) : List Int := ((readCodebook m a).map Prod.snd).getD []

/-- The taps of PE row `r`, term by term. -/
def rowTaps (terms : List (List Tap)) (r : Nat) : List Tap := terms.map fun x => x.getD r .zero

variable {m : SMap Byte} {c : KilnCmd} {terms : List (List Tap)} {acc : SMap Acc}

/-- The entries of a MAC whose comparisons pass: begun, and run over the terms in two parts. -/
theorem macResult_of_passed (hok : (macResult m c terms acc).2 = true) : (macResult m c terms acc).1 =
    macRun m c (bookOf m c.wcb) (bookOf m c.acb) 2048 (rowTaps (terms.drop 2048))
      (macRun m c (bookOf m c.wcb) (bookOf m c.acb) 0 (rowTaps (terms.take 2048))
        (mapSlot acc c.mode c.slot fun _ ch e => accInit m c e ch)) := by
  revert hok
  unfold macResult
  dsimp only
  split
  · exact fun h => absurd h Bool.false_ne_true
  · exact fun _ => rfl

theorem look_macResult (hs : slotOk c.mode c.slot) (hok : (macResult m c terms acc).2 = true) {r ch : Nat} (hr : r < 16)
    (hc : ch < modeChannels c.mode) : (macResult m c terms acc).1.look accZero (accIndex c.mode c.slot r ch) =
      macFold m c (bookOf m c.wcb) (bookOf m c.acb) ch 0 (rowTaps terms r)
        (accInit m c (acc.look accZero (accIndex c.mode c.slot r ch)) ch) := by
  rw [macResult_of_passed hok, macRun, look_mapSlot hs _ _ hr hc, macRun, look_mapSlot hs _ _ hr hc,
    look_mapSlot hs _ _ hr hc, rowTaps, rowTaps, List.map_drop, List.map_take, macFold_take_drop]
  rfl

theorem look_macResult_of_ne (hok : (macResult m c terms acc).2 = true) {x : Nat}
    (hx : ∀ r ch, r < 16 → ch < modeChannels c.mode → x ≠ accIndex c.mode c.slot r ch) :
    (macResult m c terms acc).1.look accZero x = acc.look accZero x := by
  rw [macResult_of_passed hok, macRun, look_mapSlot_of_ne _ _ hx, macRun, look_mapSlot_of_ne _ _ hx,
    look_mapSlot_of_ne _ _ hx]

theorem look_diagResult_of_ne {st : Stream} {x : Nat}
    (hx : ∀ r ch, r < 16 → ch < modeChannels c.mode → x ≠ accIndex c.mode c.slot r ch) :
    (diagResult m c st acc).1.look accZero x = acc.look accZero x := by
  unfold diagResult
  dsimp only
  exact look_mapSlot_of_ne _ _ hx

/-! ### The command -/

/-- Kiln k after the refills of a MAC. -/
def State.fed (s : State) (h k : Nat) (c : KilnCmd) : Kiln :=
  { s.kiln h k with weights := weightRefill (s.hearth h).store c (s.kiln h k).weights }

/-- A MAC that has started, on the state in which its reads are done. -/
def State.macStarted (s t : State) (h k : Nat) (e : QEntry) (c : KilnCmd) (st : Stream) : State :=
  if st.diag = 0 then
    if (macResult (s.hearth h).store c st.terms (s.kiln h k).acc).2 then
      (t.kilnDone h k e c (kilnFinish (s.fed h k c) c (macResult (s.hearth h).store c st.terms (s.kiln h k).acc).1)
        (kilnCycles c)).streamTaken h k c.stream
    else t.kilnFailed h k c.mode 1
  else
    if (diagResult (s.hearth h).store c st (s.kiln h k).acc).2 then
      (t.kilnDone h k e c (kilnHand (s.fed h k c) c (diagSlot c.mode c.slot) (diagMode c.mode)
        (diagResult (s.hearth h).store c st (s.kiln h k).acc).1) (diagCycles c.mode st)).streamTaken h k c.stream
    else t.kilnFailed h k c.mode 1

variable {s : State} {h k : Nat} {e : QEntry} {rest : List QEntry} {st : Stream}

/-- A MAC of entry `e`, decoded as `c`, whose stream `st` is open, that is valid and need not wait (R109, R111). -/
structure State.MacValid (s : State) (h k : Nat) (e : QEntry) (rest : List QEntry) (c : KilnCmd) (st : Stream) : Prop where
  unit    : kilnOk h k = true
  starts  : s.headStarts h k 1 e rest
  ready   : s.kilnReady h k = true
  decoded : c = readKilnCmd (cmdMem e.cmd) 0
  stream  : st = (s.hearth h).win.streams.look (fun _ => {}) c.stream
  opened  : st.phase = 2
  pending : st.taken.contains k = false
  fits    : st.diag = 0 ∨ diagFits c.mode st = true
  valid   : kilnCmdOk (s.hearth h).store c st.fmt = true
  count   : st.terms.length = c.terms
  free    : meetsHeld (s.kiln h k).held c.mode c.slot = false
  sound   : s.readsUe h (kilnReads (s.hearth h).store c) = none

/-- A MAC on a READY Kiln whose stream is open and fits, up to the judgement of its fields (R109, R111). -/
theorem State.macHead_of_fit (hc : c = readKilnCmd (cmdMem e.cmd) 0) (hready : s.kilnReady h k = true)
    (hst : st = (s.hearth h).win.streams.look (fun _ => {}) c.stream) (hopen : st.phase = 2)
    (htaken : st.taken.contains k = false) (hfits : st.diag = 0 ∨ diagFits c.mode st = true)
    (hue : s.readsUe h (kilnReads (s.hearth h).store c) = none) (chk : KilnCheck) : s.macHead h k chk e =
      if !kilnCmdOk (s.hearth h).store c st.fmt then s.refuseCmd h k e 7
      else if st.terms.length ≠ c.terms then s.refuseCmd h 4 st.entry 1
      else if meetsHeld (s.kiln h k).held c.mode c.slot then s.kilnWait h k c
      else s.afterReads h (kilnReads (s.hearth h).store c) fun t =>
        if chk ≠ .none then t.kilnFailed h k c.mode (kilnCause chk) else s.macStarted t h k e c st := by
  have hnofit : ¬(st.diag ≠ 0 ∧ (!diagFits c.mode st) = true) := by
    rintro ⟨hd, hf⟩
    rw [hfits.resolve_left hd] at hf
    exact Bool.false_ne_true hf
  subst hc hst
  rw [State.macHead]
  dsimp only
  rw [hready, hopen, htaken, if_neg (by decide), if_neg (by decide), if_neg hnofit, State.unlessUe_of_none hue]
  rfl

theorem State.MacValid.exec_mac (hv : s.MacValid h k e rest c st) (chk : KilnCheck) :
    exec (.mac h k chk) s = .next (
      let t := s.touchReads h (kilnReads (s.hearth h).store c)
      if chk ≠ .none then t.kilnFailed h k c.mode (kilnCause chk) else s.macStarted t h k e c st) := by
  rw [exec_onHead (i := .mac h k chk) rfl hv.unit hv.starts, State.macHead_of_fit hv.decoded hv.ready hv.stream hv.opened
    hv.pending hv.fits hv.sound, hv.valid, hv.free, if_neg (by decide), if_neg (not_not_intro hv.count), if_neg (by decide),
    State.afterReads_of_none hv.sound]

/-- A MAC fed by a dense stream, whose residue comparisons pass. -/
theorem State.MacValid.mac_dense (hv : s.MacValid h k e rest c st) (hd : st.diag = 0)
    (hpass : (macResult (s.hearth h).store c st.terms (s.kiln h k).acc).2 = true) :
    Completes (exec (.mac h k .none) s) fun t => s.KilnTo t h k rest
      (kilnFinish (s.fed h k c) c (macResult (s.hearth h).store c st.terms (s.kiln h k).acc).1) := by
  refine ⟨_, hv.exec_mac .none, ?_⟩
  dsimp only
  rw [if_neg (not_not_intro rfl), State.macStarted, if_pos hd, if_pos hpass]
  exact State.streamTaken_kilnTo hv.starts.1 ..

/-- A MAC fed by a diagonal stream, whose residue comparisons pass. -/
theorem State.MacValid.mac_diagonal (hv : s.MacValid h k e rest c st) (hd : st.diag ≠ 0)
    (hpass : (diagResult (s.hearth h).store c st (s.kiln h k).acc).2 = true) :
    Completes (exec (.mac h k .none) s) fun t => s.KilnTo t h k rest
      (kilnHand (s.fed h k c) c (diagSlot c.mode c.slot) (diagMode c.mode)
        (diagResult (s.hearth h).store c st (s.kiln h k).acc).1) := by
  refine ⟨_, hv.exec_mac .none, ?_⟩
  dsimp only
  rw [if_neg (not_not_intro rfl), State.macStarted, if_neg hd, if_pos hpass]
  exact State.streamTaken_kilnTo hv.starts.1 ..

/-- Settles O29: the two forms of the stream, each by the accumulators it leaves and the end of the command. -/
theorem macAccumulatesItsStream : Obligations.MacAccumulatesItsStream := by
  unfold Obligations.MacAccumulatesItsStream
  intro s h k e rest v c st kiln book hu hs hready hopen htaken hok hcount hfree hue
  have hv (hfits : st.diag = 0 ∨ diagFits c.mode st = true) : s.MacValid h k e rest c st :=
    ⟨hu, hs, hready, rfl, rfl, hopen, htaken, hfits, hok, hcount, hfree, hue⟩
  refine ⟨fun hd hpass => ?_, fun hd hfits hpass => ?_⟩
  · obtain ⟨t, ht, hto⟩ := (hv (.inl hd)).mac_dense hd hpass
    refine ⟨t, ht, hto.engine, fun r ch hr hch => ?_, fun x hx => ?_, ?_, ?_, ?_, hto.kilns, hto.store⟩ <;> rw [hto.kiln]
    · exact look_macResult (slotOk_of_kilnCmdOk hok) hpass hr hch
    · exact look_macResult_of_ne hpass hx
    all_goals rfl
  · obtain ⟨t, ht, hto⟩ := (hv (.inr hfits)).mac_diagonal hd hpass
    refine ⟨t, ht, hto.engine, ?_, fun x hx => ?_, ?_, hto.kilns, hto.store⟩ <;> rw [hto.kiln]
    · rfl
    · exact look_diagResult_of_ne hx
    · rfl

end Sys2Proof.Machine
end

section
/-! PROOF. A failed check of a Kiln: the fault, the quarantine and the log (R115, R120, R123, R475, R481, R489). -/

namespace Sys2Proof.Machine

variable {s t : State} {h k : Nat} {e : QEntry} {rest : List QEntry} {c : KilnCmd} {st : Stream}

/-- A Hearth in service whose parts nobody suspects, in a machine without a rotation slot. -/
structure State.Unsuspected (s : State) (h : Nat) : Prop where
  service  : (s.phy (s.physOf h)).service = 0
  suspects : (s.phy (s.physOf h)).suspects = []
  slot     : s.flt.slot = none

theorem State.setHearthState_recovering (s : State) (p : Nat) : s.setHearthState p 1 =
    (s.logFault (originHearth p) 0x04 (p + ((s.logicalOf p).getD p) * 256) (s.phy p).service 1).setPhy p
      { s.phy p with service := 1 } := rfl

theorem State.logFault_flt_setPhy (s : State) (p : Nat) (v : Phys) (o n a y z : Nat) :
    ((s.setPhy p v).logFault o n a y z).flt = (s.logFault o n a y z).flt := rfl

theorem State.suspect_kiln_eq (hk : k < 4) (hs : s.Unsuspected h) : ∃ v w : Phys,
    s.suspect h k = ((s.setPhy (s.physOf h) v).setPhy (s.physOf h) w).setHearthState (s.physOf h) 1 ∧
      w.kilns.look (fun _ => 0) k = 2 := by
  obtain ⟨hservice, hsuspects, hslot⟩ := hs
  have hhosting (v : Phys) : (s.setPhy (s.physOf h) v).hosting h (s.physOf h) = false := by
    rw [State.hosting, State.setPhy_flt, hslot]
  unfold State.suspect
  dsimp only
  rw [hsuspects, if_neg (by simp), if_pos ⟨hk, hhosting _⟩, State.phy_setPhy_same, if_neg (by simp [hservice]), if_pos hk]
  exact ⟨_, _, rfl, by dsimp only; exact SMap.look_put_same ..⟩

/-- The first suspicion of a Kiln: it is QUARANTINED and its Hearth RECOVERING, which is logged (R481, R489). -/
theorem State.suspect_kiln (hk : k < 4) (hs : s.Unsuspected h) :
    (s.suspect h k).hearths = s.hearths ∧ ((s.suspect h k).phy (s.physOf h)).kilns.look (fun _ => 0) k = 2 ∧
      ((s.suspect h k).phy (s.physOf h)).service = 1 ∧ ∃ o a y z, (s.suspect h k).flt = (s.logFault o 0x04 a y z).flt := by
  obtain ⟨v, w, heq, hkilns⟩ := State.suspect_kiln_eq hk hs
  rw [heq, State.setHearthState_recovering, State.phy_setPhy_same, State.phy_setPhy_same, State.setPhy_flt,
    State.logFault_flt_setPhy, State.logFault_flt_setPhy]
  refine ⟨?_, hkilns, rfl, _, _, _, _, congrArg State.flt (Eq.refl (s.logFault _ _ _ _ _))⟩
  rw [State.setPhy_hearths, State.logFault_hearths, State.setPhy_hearths, State.setPhy_hearths]

/-- The fault of a Kiln in its own registers (R120, R123). -/
def State.kilnMarked (s : State) (h k mode cause : Nat) : State :=
  (s.setKiln h k { s.kiln h k with mode := mode }).setKiln h k
    { s.kiln h k with mode := mode, faulted := true, cause := cause }

/-- The fault with its entry in the fault log (R489). -/
def State.kilnReported (s : State) (h k mode cause : Nat) : State :=
  (s.kilnMarked h k mode cause).logFault (originHearth (s.physOf h)) 0x01 (s.physOf h + k * 256) (s.jobOf h) cause

/-- The state in which a Kiln's check has failed, before the job of its Hearth is torn down. -/
def State.kilnSuspected (s : State) (h k mode cause : Nat) : State := (s.kilnReported h k mode cause).suspect h k

/-- What a failed check leaves, before its job is torn down (R120, R123, R481, R489). -/
structure State.KilnFaulted (s u : State) (h k mode cause : Nat) : Prop where
  kiln    : u.kiln h k = { s.kiln h k with mode := mode, faulted := true, cause := cause }
  lost    : (u.phy (s.physOf h)).kilns.look (fun _ => 0) k = 2
  service : (u.phy (s.physOf h)).service = 1
  logged  : ∃ x ∈ u.flt.log.entries, x.kind = 1 ∧ x.addr = .ofNat 32 (s.physOf h + k * 256) ∧ x.new = .ofNat 32 cause

variable {mode cause : Nat}

theorem State.exists_take_logFault (s : State) (o n a y z : Nat) :
    ∃ x ∈ (s.logFault o n a y z).flt.log.entries.take 1, x.kind = n ∧ x.addr = .ofNat 32 a ∧ x.new = .ofNat 32 z :=
  ⟨_, List.mem_cons_self .., rfl, rfl, rfl⟩

theorem State.job_setKiln (s : State) (h k : Nat) (x : Kiln) : ((s.setKiln h k x).hearth h).job = (s.hearth h).job := by
  rw [State.setKiln, State.hearth_setHearth_same]

theorem State.Unsuspected.setKiln (hs : s.Unsuspected h) (g k : Nat) (x : Kiln) : (s.setKiln g k x).Unsuspected h :=
  ⟨hs.service, hs.suspects, hs.slot⟩

theorem State.Unsuspected.logFault (hs : s.Unsuspected h) (o n a y z : Nat) : (s.logFault o n a y z).Unsuspected h :=
  ⟨hs.service, hs.suspects, hs.slot⟩

theorem State.Unsuspected.kilnReported (hs : s.Unsuspected h) : (s.kilnReported h k mode cause).Unsuspected h :=
  ((hs.setKiln ..).setKiln ..).logFault ..

theorem State.kilnSuspected_hearths (hk : k < 4) (hs : s.Unsuspected h) :
    (s.kilnSuspected h k mode cause).hearths = (s.kilnMarked h k mode cause).hearths := by
  obtain ⟨hhearths, -⟩ := State.suspect_kiln hk (hs.kilnReported (k := k) (mode := mode) (cause := cause))
  exact hhearths

theorem State.kilnSuspected_faults (hk : k < 4) (hs : s.Unsuspected h) :
    s.KilnFaulted (s.kilnSuspected h k mode cause) h k mode cause := by
  have hkiln : (s.kilnSuspected h k mode cause).kiln h k = (s.kilnMarked h k mode cause).kiln h k := by
    rw [State.kiln, State.hearth, State.kilnSuspected_hearths hk hs]
    rfl
  obtain ⟨-, hlost, hservice, o, a, y, z, hflt⟩ :=
    State.suspect_kiln hk (hs.kilnReported (k := k) (mode := mode) (cause := cause))
  obtain ⟨x, hx, hfields⟩ := (s.kilnMarked h k mode cause).exists_take_logFault (originHearth (s.physOf h)) 0x01
    (s.physOf h + k * 256) (s.jobOf h) cause
  refine ⟨hkiln.trans (State.kiln_setKiln_same ..), hlost, hservice, x, ?_, hfields⟩
  rw [State.kilnSuspected, hflt]
  exact List.mem_of_mem_take (Log.mem_take_append hx (by decide) ..)

/-- A failed check faults the Kiln, and then tears the job of the Hearth down. -/
theorem State.kilnFailed_tears (hk : k < 4) (hs : s.Unsuspected h) :
    s.kilnFailed h k mode cause = (s.kilnSuspected h k mode cause).tearHearth h := by
  let t := s.setKiln h k { s.kiln h k with mode := mode }
  have hjob : ((s.kilnSuspected h k mode cause).hearth h).job = (t.hearth h).job := by
    rw [State.hearth, State.kilnSuspected_hearths hk hs]
    exact State.job_setKiln ..
  have hjobOf : t.jobOf h = s.jobOf h := congrArg (Option.getD · 0) (State.job_setKiln ..)
  rw [State.kilnFailed, State.kilnFault, State.kiln_setKiln_same, hjobOf]
  exact if_pos hjob

/-- The reads of a command suspect nothing. -/
theorem State.Unsuspected.touchReads (hs : s.Unsuspected h) (reads : List (Nat × Nat)) :
    (s.touchReads h reads).Unsuspected h := by
  have hphy := s.phy_touchReads_sansBanks h (s.physOf h) reads
  refine ⟨?_, ?_, (congrArg Faults.slot (State.touchReads_flt ..)).trans hs.slot⟩ <;> rw [State.touchReads_physOf]
  · exact (congrArg Phys.service hphy :).trans hs.service
  · exact (congrArg Phys.suspects hphy :).trans hs.suspects

theorem State.kilnFailed_after_reads (hk : k < 4) (hs : s.Unsuspected h) (reads : List (Nat × Nat)) (mode cause : Nat) :
    ∃ u, (s.touchReads h reads).kilnFailed h k mode cause = u.tearHearth h ∧ s.KilnFaulted u h k mode cause := by
  obtain ⟨hkiln, hlost, hservice, hlogged⟩ := State.kilnSuspected_faults (mode := mode) (cause := cause) hk (hs.touchReads reads)
  rw [State.touchReads_physOf] at hlost hservice hlogged
  rw [State.touchReads_kiln] at hkiln
  exact ⟨_, State.kilnFailed_tears hk (hs.touchReads reads), hkiln, hlost, hservice, hlogged⟩

/-- Settles O31: MERGE and MAC come to the same fault, after their reads. -/
theorem failedChecksFaultTheKiln : Obligations.FailedChecksFaultTheKiln := by
  unfold Obligations.FailedChecksFaultTheKiln
  intro s h k e rest chk v p c st faults hu hready hservice hsuspects hslot hchk hue
  have hk : k < 4 := of_decide_eq_true ((Bool.and_eq_true _ _).mp hu).2
  have hfaults {i : Instr}
      (hi : exec i s = .next ((s.touchReads h (kilnReads v.store c)).kilnFailed h k c.mode (kilnCause chk))) : faults i := by
    obtain ⟨u, htear, hkiln, hlost, hserv, hlogged⟩ :=
      State.kilnFailed_after_reads hk ⟨hservice, hsuspects, hslot⟩ (kilnReads v.store c) c.mode (kilnCause chk)
    refine ⟨u, hi.trans (congrArg _ htear), ?_, ?_, ?_, ?_, hlost, hserv, hlogged⟩ <;> rw [hkiln]
  refine ⟨fun hs hok hfree => hfaults ?_, fun hs hopen hd htaken hok hcount hfree => hfaults ?_⟩
  · rw [exec_merge_of_valid hu hready rfl hok hs hfree hue]
    exact congrArg _ (if_pos hchk)
  · have hv : s.MacValid h k e rest c st :=
      ⟨hu, hs, hready, rfl, rfl, hopen, htaken, .inl hd, hok, hcount, hfree, hue⟩
    rw [hv.exec_mac]
    exact congrArg _ (if_pos hchk)

end Sys2Proof.Machine
end

section
/-! PROOF. Commands that their target refuses (R109, R147, R181, R199). -/

namespace Sys2Proof.Machine

variable {s : State} {h k : Nat} {e : QEntry} {rest : List QEntry}

/-! ### Kilns (R109) -/

section
variable {c : KilnCmd} {st : Stream} (hc : c = readKilnCmd (cmdMem e.cmd) 0) (hready : s.kilnReady h k = true)
include hc hready

section
variable (hst : st = (s.hearth h).win.streams.look (fun _ => {}) c.stream) (hopen : st.phase = 2)
  (htaken : st.taken.contains k = false) (chk : KilnCheck)
include hst hopen htaken

theorem State.macHead_of_unfit (hfits : ¬(st.diag = 0 ∨ diagFits c.mode st = true)) :
    s.macHead h k chk e = s.refuseCmd h 4 st.entry 1 := by
  subst hc hst
  obtain ⟨hd, hf⟩ := not_or.1 hfits
  rw [State.macHead]
  dsimp only
  rw [hready, hopen, htaken, if_neg (by decide), if_neg (by decide), if_pos ⟨hd, by rw [Bool.eq_false_iff.2 hf]; rfl⟩]

section
variable (hfits : st.diag = 0 ∨ diagFits c.mode st = true) (hue : s.readsUe h (kilnReads (s.hearth h).store c) = none)
include hfits hue

theorem State.macHead_of_invalid (hbad : kilnCmdOk (s.hearth h).store c st.fmt = false) :
    s.macHead h k chk e = s.refuseCmd h k e 7 := by
  rw [State.macHead_of_fit hc hready hst hopen htaken hfits hue chk, hbad]
  rfl

theorem State.macHead_of_other_count (hok : kilnCmdOk (s.hearth h).store c st.fmt = true)
    (hcount : st.terms.length ≠ c.terms) : s.macHead h k chk e = s.refuseCmd h 4 st.entry 1 := by
  rw [State.macHead_of_fit hc hready hst hopen htaken hfits hue chk, hok, if_neg (by decide), if_pos hcount]

end

end

theorem State.mergeHead_of_invalid (hue : s.readsUe h (kilnReads (s.hearth h).store c) = none)
    (hbad : kilnCmdOk (s.hearth h).store c 0 = false) (chk : KilnCheck) :
    s.mergeHead h k chk e = s.refuseCmd h k e 7 := by
  subst hc
  rw [State.mergeHead]
  rw [hready, hbad, if_neg (by decide), State.unlessUe_of_none hue]
  rfl

theorem State.clearHead_of_invalid (hbad : kilnCmdOk (s.hearth h).store c 0 = false) :
    s.clearHead h k e = s.refuseCmd h k e 7 := by
  subst hc
  rw [State.clearHead]
  rw [hready, hbad]
  rfl

end

/-! ### The Quench unit (R147) -/

theorem State.mem_notHeld {c : QCmd} {x : Nat × Nat × Nat × Nat} :
    x ∈ s.notHeld h c ↔ x ∈ readSlotList (s.hearth h).store c ∧ s.heldTile h x = none := by
  rw [State.notHeld, List.mem_filter, Option.isNone_iff_eq_none]

/-- A QUENCH with bad fields, or with a slot that is not held and that no command will hand over. -/
theorem State.quenchHead_of_invalid {c : QCmd} (hc : c = readQCmd (cmdMem e.cmd) 0)
    (hue : s.readsUe h [(c.params, 64), (c.list, 4 * (c.nslots + 1))] = none)
    (hbad : quenchFieldsOk (s.hearth h).store c = false ∨
      ∃ x ∈ readSlotList (s.hearth h).store c, s.heldTile h x = none ∧ s.willHand h x.1 x.2.1 = false)
    (chk : QuenchCheck) : s.quenchHead h chk e = s.refuseCmd h 5 e 1 := by
  subst hc
  rw [State.quenchHead]
  dsimp only
  rw [State.unlessUe_of_none hue, if_pos]
  rcases hbad with hfields | ⟨x, hx, hnone, hhand⟩
  · exact .inl (by rw [hfields]; rfl)
  · exact .inr (List.any_eq_true.2 ⟨x, State.mem_notHeld.2 ⟨hx, hnone⟩, by rw [hhand]; rfl⟩)

/-! ### The window unit (R181) -/

section
variable {c : WinCmd} (hc : c = readWinCmd (cmdMem e.cmd) 0) (hue : s.readsUe h [(c.params, 64)] = none)
include hc hue

theorem State.streamSetup_of_invalid (hbad : winCmdOk (s.hearth h).store c = false) (diag : Nat) :
    s.streamSetup h e diag = s.refuseCmd h 4 e 1 := by
  subst hc
  rw [State.streamSetup]
  dsimp only
  rw [State.unlessUe_of_none hue, hbad]
  rfl

theorem State.mtableHead_of_invalid (hbad : winCmdOk (s.hearth h).store c = false) :
    s.mtableHead h e = s.refuseCmd h 4 e 1 := by
  subst hc
  rw [State.mtableHead]
  rw [State.unlessUe_of_none hue, hbad]
  rfl

variable (hok : winCmdOk (s.hearth h).store c = true) (hrows : rowsInRange (readBlock (s.hearth h).store c.params) c = false)
include hok hrows

theorem State.streamSetup_of_rows_outside (diag : Nat) : s.streamSetup h e diag = s.refuseCmd h 4 e 2 := by
  subst hc
  rw [State.streamSetup]
  dsimp only
  rw [State.unlessUe_of_none hue, hok, hrows]
  rfl

theorem State.mtableHead_of_rows_outside : s.mtableHead h e = s.refuseCmd h 4 e 2 := by
  subst hc
  rw [State.mtableHead]
  rw [State.unlessUe_of_none hue, hok, hrows]
  rfl

end

theorem State.regroupHead_of_invalid {c : WinCmd} (hc : c = readWinCmd (cmdMem e.cmd) 0)
    (hue : s.readsUe h [(c.params, 64), (c.aux, 64)] = none) (hbad : regroupKind (s.hearth h).store c = none) :
    s.regroupHead h e = s.refuseCmd h 4 e 1 := by
  subst hc
  rw [State.regroupHead]
  rw [State.unlessUe_of_none hue, hbad]

section
variable {c : SpliceCmd} (hc : c = readSplice (cmdMem e.cmd) 0) (hue : s.readsUe h [(c.params, 64)] = none)
include hc hue

theorem State.spliceHead_of_invalid (hbad : spliceOk (s.hearth h).store c = false) :
    s.spliceHead h e = s.refuseCmd h 4 e 1 := by
  subst hc
  rw [State.spliceHead]
  dsimp only
  rw [State.unlessUe_of_none hue, hbad]
  rfl

theorem State.releaseHead_of_invalid (hbad : c.nrows ≠ 0 ∨ c.dst ≠ 0 ∨ addrOk c.params 64 64 = false) :
    s.releaseHead h e = s.refuseCmd h 4 e 1 := by
  subst hc
  rw [State.releaseHead]
  dsimp only
  rw [State.unlessUe_of_none hue, if_pos]
  rcases hbad with hn | hd | ha
  · simp [hn]
  · simp [hd]
  · simp [ha]

end

/-- A stream whose `fanout` its MACs do not match (R154, R181). -/
theorem exec_streamOpen_of_fanoutBad {id : Nat} (hu : hearthOk h = true) (hid : id < 4) {st : Stream}
    (hst : st = (s.hearth h).win.streams.look (fun _ => {}) id) (hphase : st.phase ≠ 0)
    (hbad : s.fanoutBad h id st = true) : exec (.streamOpen h id) s = .next (s.refuseCmd h 4 st.entry 1) := by
  subst hst
  change execStreamOpen h id s = _
  rw [execStreamOpen, hu, decide_eq_true hid, Bool.and_self, withUnit_true, State.streamStart]
  dsimp only
  rw [if_neg hphase, if_pos hbad]

/-- Settles O32: each command that is the head of its queue, by the judgement of its target. -/
theorem invalidEngineCommandsAreRefused : Obligations.InvalidEngineCommandsAreRefused := by
  unfold Obligations.InvalidEngineCommandsAreRefused
  intro s h k e rest m c st q w b x refuses hu
  have hh : hearthOk h = true := hearthOk_of_kilnOk hu
  have head {i : Instr} {ok : Bool} {t op : Nat} {body : QEntry → State} {u : State} (hs : s.headStarts h t op e rest)
      (hok : ok = true) (he : exec i s = withUnit ok (s.onHead h t op body)) (hbody : body e = u) : exec i s = .next u :=
    (exec_onHead he hok hs).trans (congrArg _ hbody)
  refine ⟨fun hready => ⟨fun hs hopen htaken => ?mac, fun hs hue hbad chk => ?merge, fun hs hbad => ?clear⟩,
    fun hs hue hbad chk => ?quench, fun id hid hphase hbad => ?stream, fun hbad hue => ?fields,
    fun hok hrows hue => ?rows, fun hs hbad hue => ?regroup, fun hs hbad hue => ?splice, fun hs hue hbad => ?release⟩
  case mac =>
    intro fits reads
    have hunfit (hfits : ¬fits) (chk : KilnCheck) : exec (.mac h k chk) s = .next (s.refuseCmd h 4 st.entry 1) :=
      head hs hu rfl (State.macHead_of_unfit rfl hready rfl hopen htaken chk hfits)
    refine ⟨fun hfits hue hbad chk =>
      head hs hu rfl (State.macHead_of_invalid rfl hready rfl hopen htaken chk hfits hue hbad), fun hbad chk => ?_⟩
    by_cases hfits : fits
    · obtain ⟨hue, hok, hcount⟩ := hbad.resolve_left (not_not_intro hfits)
      exact head hs hu rfl (State.macHead_of_other_count rfl hready rfl hopen htaken chk hfits hue hok hcount)
    · exact hunfit hfits chk
  case merge => exact head hs hu rfl (State.mergeHead_of_invalid rfl hready hue hbad chk)
  case clear => exact head hs hu rfl (State.clearHead_of_invalid rfl hready hbad)
  case quench => exact head hs hh rfl (State.quenchHead_of_invalid rfl hue hbad chk)
  case stream => exact exec_streamOpen_of_fanoutBad hh hid rfl hphase hbad
  case fields =>
    exact ⟨fun hs => head hs hh rfl (State.streamSetup_of_invalid rfl hue hbad 0),
      fun hs => head hs hh rfl (State.streamSetup_of_invalid rfl hue hbad 1),
      fun hs => head hs hh rfl (State.streamSetup_of_invalid rfl hue hbad 2),
      fun hs => head hs hh rfl (State.mtableHead_of_invalid rfl hue hbad)⟩
  case rows =>
    exact ⟨fun hs => head hs hh rfl (State.streamSetup_of_rows_outside rfl hue hok hrows 0),
      fun hs => head hs hh rfl (State.streamSetup_of_rows_outside rfl hue hok hrows 1),
      fun hs => head hs hh rfl (State.streamSetup_of_rows_outside rfl hue hok hrows 2),
      fun hs => head hs hh rfl (State.mtableHead_of_rows_outside rfl hue hok hrows)⟩
  case regroup => exact head hs hh rfl (State.regroupHead_of_invalid rfl hue hbad)
  case splice => exact head hs hh rfl (State.spliceHead_of_invalid rfl hue hbad)
  case release => exact head hs hh rfl (State.releaseHead_of_invalid rfl hue hbad)

end Sys2Proof.Machine
end

section
/-! PROOF. A QUENCH that completes (R111, R143, R146 to R148). -/

namespace Sys2Proof.Machine

variable {s t : State} {h : Nat} {v : Hearth} {e : QEntry} {rest : List QEntry} {c : QCmd}

/-! ### What it writes -/

/-- The default scale of the job that holds a Hearth (R134). -/
def State.defaultK (s : State) (h : Nat) : Nat :=
  match (s.hearthJob h).bind fun j => (s.cordCfg j.cord).bind fun g => s.jobModel g j with
  | some m => m.scaleK
  | none => 1

/-- The group of a QUENCH command with these parameters and slots on a store: the store after it, and its counts. -/
def State.quenchOf (s : State) (h : Nat) (c : QCmd) (p : QParams) (slots : List (Nat × Nat × Nat × Nat)) (m : SMap Byte) :
    SMap Byte × QCounts :=
  quenchGroup m c p (s.defaultK h) (fun k => (s.kiln h k).acc) (slots.filterMap (s.heldTile h))

/-- The group of a QUENCH command that its Hearth's store holds. -/
abbrev State.quenchOut (s : State) (h : Nat) (c : QCmd) : SMap Byte → SMap Byte × QCounts :=
  s.quenchOf h c (readParams (s.hearth h).store c.params) (readSlotList (s.hearth h).store c)

/-- It does not depend on the record of the banks. -/
theorem State.quenchOf_touchReads (s : State) (h : Nat) (reads : List (Nat × Nat)) (p : QParams)
    (slots : List (Nat × Nat × Nat × Nat)) : (s.touchReads h reads).quenchOf h c p slots = s.quenchOf h c p slots :=
  (congrArg (fun t : State => t.quenchOf h c p slots) (s.touchReads_sansBanks h reads) :)

theorem State.engineStore_of_none {f : SMap Byte → SMap Byte} (hn : (s.hearth h).needs f = none) (body : State → State) :
    s.engineStore h f body = body (s.setHearth h ((s.hearth h).change f)) := by rw [State.engineStore, hn]

/-- A store that a change needs no uncorrectable word of keeps, of those words, the ones that the change leaves unused. -/
theorem Hearth.mem_storeUe_change {f : SMap Byte → SMap Byte} (hn : v.needs f = none) {w : Nat}
    (hw : w ∈ (v.change f).storeUe) : w ∈ v.storeUe ∧ wordUse f v.store w = .unused := by
  obtain ⟨hmem, hnotWhole⟩ := List.mem_filter.1 hw
  have hnotNeeded : ¬(wordUse f v.store w == .needed) = true := List.find?_eq_none.1 hn w hmem
  refine ⟨hmem, ?_⟩
  cases huse : wordUse f v.store w with
  | unused => rfl
  | whole => rw [huse] at hnotWhole; exact absurd hnotWhole (by decide)
  | needed => rw [huse] at hnotNeeded; exact absurd rfl hnotNeeded

/-! ### The slots that it frees (R111) -/

/-- The Kilns after the slots of a list have left their held slots. -/
def freeSlots (m : SMap Kiln) (slots : List (Nat × Nat × Nat × Nat)) : SMap Kiln :=
  slots.foldl (fun m x => m.modify (fun _ => {}) x.1 fun q => { q with held := q.held.filter fun y => y.slot != x.2.1 }) m

/-- Whether a slot list names a slot of Kiln k. -/
def namesSlot (slots : List (Nat × Nat × Nat × Nat)) (k slot : Nat) : Bool := slots.any fun x => x.1 == k && x.2.1 == slot

theorem namesSlot_cons (x : Nat × Nat × Nat × Nat) (slots : List (Nat × Nat × Nat × Nat)) (k slot : Nat) :
    namesSlot (x :: slots) k slot = ((x.1 == k && x.2.1 == slot) || namesSlot slots k slot) := rfl

theorem look_freeSlots (slots : List (Nat × Nat × Nat × Nat)) (m : SMap Kiln) (k : Nat) :
    (freeSlots m slots).look (fun _ => {}) k =
      { m.look (fun _ => {}) k with
        held := (m.look (fun _ => {}) k).held.filter fun y => !namesSlot slots k y.slot } := by
  induction slots generalizing m with
  | nil => simp [freeSlots, namesSlot]
  | cons x slots ih =>
    change (freeSlots (m.modify (fun _ => {}) x.1 _) slots).look _ k = _
    rw [ih]
    by_cases hk : x.1 = k
    · subst hk
      have hheld (l : List HeldSlot) : (l.filter fun y => y.slot != x.2.1).filter (fun y => !namesSlot slots x.1 y.slot) =
          l.filter fun y => !namesSlot (x :: slots) x.1 y.slot := by
        rw [List.filter_filter]
        refine List.filter_congr fun y _ => ?_
        rw [namesSlot_cons, beq_self_eq_true, Bool.true_and, Bool.not_or, Bool.and_comm, bne, Bool.beq_comm]
      rw [SMap.look_modify_self, ← hheld]
    · have hheld (y : Nat) : namesSlot (x :: slots) k y = namesSlot slots k y := by
        rw [namesSlot_cons, beq_eq_false_iff_ne.2 hk, Bool.false_and, Bool.false_or]
      simp only [SMap.look_modify_of_ne _ _ (Ne.symm hk), hheld]

/-! ### The command -/

theorem State.ActsOn.quenchCounts (ht : s.ActsOn t h v) (n : QCounts) : s.ActsOn (t.quenchCounts h n) h v :=
  (((((ht.bump ..).bump ..).bump ..).bump ..).bump ..).bump ..

/-- What a QUENCH command reads before it starts. -/
def quenchReads (c : QCmd) : List (Nat × Nat) := [(c.params, 64), (c.list, 4 * (c.nslots + 1))]

/-- A Hearth after the slots of a QUENCH are free and its map rows recorded. -/
def Hearth.freeQuenched (v : Hearth) (c : QCmd) (p : QParams) (slots : List (Nat × Nat × Nat × Nat)) : Hearth :=
  { v with kilns := freeSlots v.kilns slots, mapRows := if p.isMap then mapRowsAfter v.mapRows c else v.mapRows }

/-- The state after a QUENCH that has written its group is done, before the one behind it is judged (R147). -/
def State.quenchEnd (s : State) (h : Nat) (e : QEntry) (c : QCmd) (p : QParams) (slots : List (Nat × Nat × Nat × Nat))
    (n : QCounts) : State :=
  (((s.setHearth h ((s.hearth h).freeQuenched c p slots)).quenchCounts h n).popQueue h 5).cmdDone h 5 e.core

theorem State.ActsOn.quenchEnd (ht : s.ActsOn t h v) (e : QEntry) (p : QParams) (slots : List (Nat × Nat × Nat × Nat))
    (n : QCounts) : s.ActsOn (t.quenchEnd h e c p slots n) h (((v.freeQuenched c p slots).popQueue 5).cmdDone 5 e.core) :=
  ht.hearth ▸ (((ht.setHearth _).quenchCounts n).popQueue 5).cmdDone 5 e.core

/-- The state in which a QUENCH is done, before the one behind it is judged (R147). -/
def State.quenched (s : State) (h : Nat) (e : QEntry) (c : QCmd) : State :=
  ((s.touchReads h (quenchReads c)).setHearth h ((s.hearth h).change fun m => (s.quenchOut h c m).1)).quenchEnd h e c
    (readParams (s.hearth h).store c.params) (readSlotList (s.hearth h).store c) (s.quenchOut h c (s.hearth h).store).2

/-- The Hearth in which a QUENCH is done. -/
def State.quenchedHearth (s : State) (h : Nat) (e : QEntry) (c : QCmd) : Hearth :=
  ((((s.hearth h).change fun m => (s.quenchOut h c m).1).freeQuenched c (readParams (s.hearth h).store c.params)
    (readSlotList (s.hearth h).store c)).popQueue 5).cmdDone 5 e.core

theorem State.quenched_actsOn (s : State) (h : Nat) (e : QEntry) (c : QCmd) :
    s.ActsOn (s.quenched h e c) h (s.quenchedHearth h e c) :=
  (((State.ActsOn.refl s h).touchReads (quenchReads c)).setHearth _).quenchEnd e _ _ _

theorem State.notHeld_eq_nil (hheld : ∀ x ∈ readSlotList (s.hearth h).store c, (s.heldTile h x).isSome = true) :
    s.notHeld h c = [] :=
  List.filter_eq_nil_iff.2 fun x hx => by rw [Option.isNone_eq_false_iff.2 (hheld x hx)]; exact Bool.false_ne_true

theorem quenchFieldsOk_of_quenchOk {m : SMap Byte} {rows : List (Nat × Nat × Nat)} {tiles : List QTile}
    (hok : quenchOk m rows c tiles = true) : quenchFieldsOk m c = true := by
  simp only [quenchOk, Bool.and_eq_true] at hok
  tauto

/-- A valid QUENCH whose slots are all held, and that needs no uncorrectable word. -/
theorem exec_quench_of_valid (hu : hearthOk h = true) (hs : s.headStarts h 5 0x10 e rest)
    (hc : c = readQCmd (cmdMem e.cmd) 0)
    (hheld : ∀ x ∈ readSlotList (s.hearth h).store c, (s.heldTile h x).isSome = true)
    (hok : quenchOk (s.hearth h).store (s.hearth h).mapRows c
      ((readSlotList (s.hearth h).store c).filterMap (s.heldTile h)) = true)
    (hue : s.readsUe h (quenchReads c) = none) (hn : (s.hearth h).needs (fun m => (s.quenchOut h c m).1) = none) :
    exec (.quench h .none) s = .next ((s.quenched h e c).quenchReach h) := by
  rw [exec_onHead (i := .quench h .none) rfl hu hs, State.quenchHead]
  dsimp only
  rw [← hc]
  have hfields := quenchFieldsOk_of_quenchOk hok
  have hnil := State.notHeld_eq_nil hheld
  have hvalid : ¬((!quenchFieldsOk (s.hearth h).store c) = true ∨
      ((s.notHeld h c).any fun x => !s.willHand h x.1 x.2.1) = true) := by
    rintro (hbad | hmissing)
    · rw [hfields] at hbad; exact Bool.false_ne_true hbad
    · rw [hnil] at hmissing; exact Bool.false_ne_true hmissing
  change Host.Outcome.next (s.unlessUe h (quenchReads c) _) = _
  rw [State.unlessUe_of_none hue, if_neg hvalid, hnil, if_neg (not_not_intro rfl), hok, if_neg (by decide)]
  change Host.Outcome.next (s.afterReads h (quenchReads c) _) = _
  rw [State.afterReads_of_none hue]
  let p := readParams (s.hearth h).store c.params
  let slots := readSlotList (s.hearth h).store c
  let u := s.touchReads h (quenchReads c)
  change Host.Outcome.next (u.engineStore h (fun m => (u.quenchOf h c p slots m).1) fun t =>
    (t.quenchEnd h e c p slots (u.quenchOf h c p slots (s.hearth h).store).2).quenchReach h) = _
  rw [State.quenchOf_touchReads, State.engineStore_of_none (by rw [State.touchReads_hearth]; exact hn),
    State.touchReads_hearth]
  rfl

/-- Settles O34: the command runs on the state that its reads leave, which differs in the record of the banks only; each
slot of its list leaves its Kiln's held slots in turn. -/
theorem quenchFreesItsSlots : Obligations.QuenchFreesItsSlots := by
  intro s h e rest v c slots tiles dk hu hs hheld hok hue group hn
  have hact := s.quenched_actsOn h e c
  have hengine : EngineTo s (s.quenched h e c) h 5 rest := by
    refine hact.engineTo ?_ rfl rfl
    have hq : (s.hearth h).queues.look (fun _ => []) 5 = e :: rest := hs.1
    change (s.hearth h).queues.put (fun _ => []) 5 (((s.hearth h).queues.look (fun _ => []) 5).drop 1) = _
    rw [hq, List.drop_one, List.tail_cons]
  have hstore : ((s.quenched h e c).hearth h).storeUe = (v.change group).storeUe := (congrArg Hearth.storeUe hact.hearth :)
  refine ⟨s.quenched h e c, exec_quench_of_valid hu hs rfl hheld hok hue hn, fun hrest => ?_, hengine,
    (congrArg Hearth.store hact.hearth :), fun w hw => Hearth.mem_storeUe_change hn (hstore ▸ hw), fun k => ?_⟩
  · rw [State.quenchReach, hengine.queue, hrest]
  · have hkiln : (s.quenched h e c).kiln h k = (freeSlots v.kilns slots).look (fun _ => {}) k := hact.kiln k
    rw [hkiln, look_freeSlots]
    exact ⟨rfl, rfl⟩

end Sys2Proof.Machine
end

section
/-! PROOF. Stage 4 of the Quench unit codes a value: the nearest level, and whether the value lies outside the levels
(R131). -/

namespace Sys2Proof.Machine

variable {lv : List Int} {num : Int} {den k : Nat}

/-! ### The code of a value -/

/-- The distance from num / den to the level of code k, in units of 1 / den. -/
def levelDist (lv : List Int) (num : Int) (den k : Nat) : Nat := (num - lv.getD k 0 * (den : Int)).natAbs

/-- What R131 compares of code k: the distance first, then the magnitude of its level, the larger one before. -/
def codeRank (lv : List Int) (num : Int) (den k : Nat) : ℕ ×ₗ ℕᵒᵈ :=
  toLex (levelDist lv num den k, OrderDual.toDual (lv.getD k 0).natAbs)

theorem codeRank_le_iff {a b : Nat} : codeRank lv num den a ≤ codeRank lv num den b ↔
    levelDist lv num den a < levelDist lv num den b ∨
      levelDist lv num den a = levelDist lv num den b ∧ (lv.getD b 0).natAbs ≤ (lv.getD a 0).natAbs :=
  Prod.Lex.toLex_le_toLex

theorem codeRank_lt_iff {a b : Nat} : codeRank lv num den a < codeRank lv num den b ↔
    levelDist lv num den a < levelDist lv num den b ∨
      levelDist lv num den a = levelDist lv num den b ∧ (lv.getD b 0).natAbs < (lv.getD a 0).natAbs :=
  Prod.Lex.toLex_lt_toLex

/-- The search of stage 4 keeps its best code until one of a lower rank comes. -/
theorem nearestCode_eq_foldl (lv : List Int) (num : Int) (den : Nat) : nearestCode lv num den =
    (List.range lv.length).foldl
      (fun best k => if codeRank lv num den k < codeRank lv num den best then k else best) 0 := by
  simp only [nearestCode, codeRank_lt_iff, levelDist, Bool.or_eq_true, Bool.and_eq_true, decide_eq_true_eq, beq_iff_eq]

/-- Such a search through 0 to n finds the first code of least rank. -/
theorem argmin_range_succ {β : Type} [LinearOrder β] (rank : Nat → β) (n : Nat) :
    (List.range (n + 1)).argmin rank =
      some ((List.range (n + 1)).foldl (fun best k => if rank k < rank best then k else best) 0) := by
  induction n with
  | zero => simp
  | succ n ih =>
    rw [List.range_succ, List.argmin_concat, ih, List.foldl_append]
    exact (apply_ite some ..).symm

theorem idxOf_range {n : Nat} (hk : k < n) : (List.range n).idxOf k = k := by
  simpa using List.nodup_range.idxOf_getElem k (hk.trans_eq List.length_range.symm)

theorem nearestCode_mem_argmin (hlv : lv ≠ []) :
    nearestCode lv num den ∈ (List.range lv.length).argmin (codeRank lv num den) := by
  obtain ⟨n, hn⟩ := Nat.exists_eq_succ_of_ne_zero (mt List.eq_nil_of_length_eq_zero hlv)
  rw [nearestCode_eq_foldl, hn]
  exact argmin_range_succ ..

theorem nearestCode_lt_length (hlv : lv ≠ []) : nearestCode lv num den < lv.length :=
  List.mem_range.1 (List.argmin_mem (nearestCode_mem_argmin hlv))

theorem codeRank_nearestCode_le (hk : k < lv.length) :
    codeRank lv num den (nearestCode lv num den) ≤ codeRank lv num den k :=
  List.le_of_mem_argmin (List.mem_range.2 hk)
    (nearestCode_mem_argmin (List.ne_nil_of_length_pos (Nat.zero_lt_of_lt hk)))

theorem nearestCode_le_of_codeRank_le (hk : k < lv.length)
    (hrank : codeRank lv num den k ≤ codeRank lv num den (nearestCode lv num den)) : nearestCode lv num den ≤ k := by
  have hlv : lv ≠ [] := List.ne_nil_of_length_pos (Nat.zero_lt_of_lt hk)
  have hidx := List.index_of_argmin (nearestCode_mem_argmin hlv) (List.mem_range.2 hk) hrank
  rwa [idxOf_range (nearestCode_lt_length hlv), idxOf_range hk] at hidx

/-! ### The largest and the smallest level -/

theorem max?_eq_levelMax (hlv : lv ≠ []) : lv.max? = some (levelMax lv) := by
  obtain ⟨v, lv, rfl⟩ := List.exists_cons_of_ne_nil hlv
  rw [levelMax, List.max?_cons', List.getD_cons_zero, List.foldl_cons, max_self]

theorem min?_eq_levelMin (hlv : lv ≠ []) : lv.min? = some (levelMin lv) := by
  obtain ⟨v, lv, rfl⟩ := List.exists_cons_of_ne_nil hlv
  rw [levelMin, List.min?_cons', List.getD_cons_zero, List.foldl_cons, min_self]

theorem levelMax_mul_lt_iff (hlv : lv ≠ []) : levelMax lv * (den : Int) < num ↔ ∀ v ∈ lv, v * (den : Int) < num := by
  obtain ⟨hmem, hmax⟩ := List.max?_eq_some_iff.1 (max?_eq_levelMax hlv)
  exact ⟨fun h v hv => (Int.mul_le_mul_of_nonneg_right (hmax v hv) (Int.natCast_nonneg den)).trans_lt h,
    fun h => h _ hmem⟩

theorem lt_levelMin_mul_iff (hlv : lv ≠ []) : num < levelMin lv * (den : Int) ↔ ∀ v ∈ lv, num < v * (den : Int) := by
  obtain ⟨hmem, hmin⟩ := List.min?_eq_some_iff.1 (min?_eq_levelMin hlv)
  exact ⟨fun h v hv => h.trans_le (Int.mul_le_mul_of_nonneg_right (hmin v hv) (Int.natCast_nonneg den)),
    fun h => h _ hmem⟩

theorem saturates_iff (hlv : lv ≠ []) : saturates lv num den = true ↔
    (∀ v ∈ lv, v * (den : Int) < num) ∨ ∀ v ∈ lv, num < v * (den : Int) := by
  rw [saturates, Bool.or_eq_true, decide_eq_true_eq, decide_eq_true_eq, levelMax_mul_lt_iff hlv,
    lt_levelMin_mul_iff hlv]

/-! ### The same of the exact quotient -/

theorem tDen_pos {mant : Nat} (hm : 0 < mant) : 0 < tDen mant := Nat.mul_pos hm (by decide)

/-- The fraction that stage 4 compares is the quotient by the row scale, exactly. -/
theorem tNum_div_tDen (y : Int) (mant : Nat) {exp : Int} (he : exp ≤ 0) :
    (tNum y exp : ℚ) / (tDen mant : ℚ) = (y : ℚ) * 2 ^ (-16 : ℤ) / ((mant : ℚ) * 2 ^ exp) := by
  obtain ⟨n, rfl⟩ := Int.exists_eq_neg_ofNat he
  have hnum : (tNum y (-n) : ℚ) = y * 2 ^ n := by simp [tNum]
  have hden : (tDen mant : ℚ) = mant * 2 ^ 16 := by norm_num [tDen]
  rw [hnum, hden, zpow_neg, zpow_neg, zpow_natCast]
  field_simp

theorem abs_sub_level (hd : 0 < den) (k : Nat) :
    |(num : ℚ) / den - lv.getD k 0| = levelDist lv num den k / den := by
  have hd' : (0 : ℚ) < den := Nat.cast_pos.2 hd
  rw [levelDist, Nat.cast_natAbs, Int.cast_abs, div_sub' hd'.ne', abs_div, abs_of_pos hd', mul_comm]
  push_cast
  rfl

theorem abs_sub_level_le_iff (hd : 0 < den) {a b : Nat} :
    |(num : ℚ) / den - lv.getD a 0| ≤ |(num : ℚ) / den - lv.getD b 0| ↔
      levelDist lv num den a ≤ levelDist lv num den b := by
  rw [abs_sub_level hd, abs_sub_level hd, div_le_div_iff_of_pos_right (Nat.cast_pos.2 hd), Nat.cast_le]

theorem abs_level_le_iff {v w : Int} : |(v : ℚ)| ≤ |(w : ℚ)| ↔ v.natAbs ≤ w.natAbs := by
  rw [← Int.cast_abs, ← Int.cast_abs, ← Nat.cast_natAbs, ← Nat.cast_natAbs, Nat.cast_le]

theorem level_lt_quotient_iff (hd : 0 < den) {v : Int} : (v : ℚ) < num / den ↔ v * (den : Int) < num := by
  rw [lt_div_iff₀ (Nat.cast_pos.2 hd)]
  exact_mod_cast Iff.rfl

theorem quotient_lt_level_iff (hd : 0 < den) {v : Int} : (num : ℚ) / den < v ↔ num < v * (den : Int) := by
  rw [div_lt_iff₀ (Nat.cast_pos.2 hd)]
  exact_mod_cast Iff.rfl

/-- What the least rank says of the code chosen, in the words of R131, for t = num / den. -/
theorem nearestCode_spec (hd : 0 < den) (hk : k < lv.length) :
    let t : ℚ := num / den
    let v := fun k => ((lv.getD k 0 : Int) : ℚ)
    let c := nearestCode lv num den
    |t - v c| ≤ |t - v k| ∧ (|t - v k| = |t - v c| → |v k| ≤ |v c|) ∧
      (|t - v k| = |t - v c| → |v k| = |v c| → c ≤ k) := by
  intro t v c
  have hrank : codeRank lv num den c ≤ codeRank lv num den k := codeRank_nearestCode_le hk
  rw [codeRank_le_iff] at hrank
  refine ⟨(abs_sub_level_le_iff hd).2 ?_, fun hdist => abs_level_le_iff.2 ?_, fun hdist hsize => ?_⟩
  · omega
  · have hle := (abs_sub_level_le_iff hd).1 hdist.le
    omega
  · have hle := (abs_sub_level_le_iff hd).1 hdist.le
    have hmag := abs_level_le_iff.1 hsize.ge
    have hback : codeRank lv num den k ≤ codeRank lv num den c := codeRank_le_iff.2 (by omega)
    exact nearestCode_le_of_codeRank_le hk hback

theorem saturates_quotient_iff (hd : 0 < den) (hlv : lv ≠ []) : saturates lv num den = true ↔
    (∀ v ∈ lv, (v : ℚ) < num / den) ∨ ∀ v ∈ lv, (num : ℚ) / den < v := by
  simp only [saturates_iff hlv, level_lt_quotient_iff hd, quotient_lt_level_iff hd]

/-! ### The levels of a codebook -/

theorem levels_getD (entry : List Int) (zp : Int) (hk : k < entry.length) :
    (levels entry zp).getD k 0 = entry.getD k 0 - zp := by
  rw [List.getD_eq_getElem _ _ hk, List.getD_eq_getElem _ _ (by rwa [levels, List.length_map])]
  exact List.getElem_map ..

theorem forall_mem_levels_iff {entry : List Int} {zp : Int} {P : Int → Prop} :
    (∀ v ∈ levels entry zp, P v) ↔ ∀ k, k < entry.length → P (entry.getD k 0 - zp) := by
  rw [levels, List.forall_mem_map, List.forall_mem_iff_getElem]
  exact forall₂_congr fun k hk => by rw [List.getD_eq_getElem _ _ hk]

/-- Settles O33: the code of least rank, its rank read against the exact quotient. -/
theorem nearestCodeOfAValue : Obligations.NearestCodeOfAValue := by
  intro entry zp y mant exp hentry hm he lv t v c
  have hlv : lv ≠ [] := mt List.map_eq_nil_iff.1 hentry
  have hlen : lv.length = entry.length := List.length_map ..
  have ht : t = tNum y exp / tDen mant := (tNum_div_tDen y mant he).symm
  have hv (k : Nat) (hk : k < entry.length) : v k = (lv.getD k 0 : Int) :=
    congrArg Int.cast (levels_getD entry zp hk).symm
  have hc : c < entry.length := hlen ▸ nearestCode_lt_length hlv
  refine ⟨hc, fun k hk => ?_, ?_⟩
  · rw [ht, hv c hc, hv k hk]
    exact nearestCode_spec (tDen_pos hm) (hlen ▸ hk)
  · rw [ht, saturates_quotient_iff (tDen_pos hm) hlv]
    exact or_congr forall_mem_levels_iff forall_mem_levels_iff

end Sys2Proof.Machine
end

section
/-! PROOF. The lines that the line buffer holds for a stream that opens (R153, R155, R163). -/

namespace Sys2Proof.Machine

variable {b : WinBlock} {m : SMap Byte} {name fresh : Nat} {owner : Option Nat} {need : List (Nat × Nat)} {x y : Line}

/-! ### Room for the fetched lines -/

/-- The lines `r`, without the line `x` unless `fresh` bytes fit beside them. -/
def dropLine (fresh : Nat) (r : List Line) (x : Line) : List Line :=
  if lineRoom r + fresh ≤ 262144 then r else r.filter fun y => y != x

theorem dropLine_subset (fresh : Nat) (r : List Line) (x : Line) : dropLine fresh r x ⊆ r := by
  unfold dropLine
  split
  · exact List.Subset.refl r
  · exact List.filter_subset_self r

theorem mem_dropLine_iff (hxy : x ≠ y) (r : List Line) : x ∈ dropLine fresh r y ↔ x ∈ r := by
  unfold dropLine
  split
  · rfl
  · simp [hxy]

theorem foldl_dropLine_subset (fresh : Nat) (l r : List Line) : l.foldl (dropLine fresh) r ⊆ r := by
  induction l generalizing r with
  | nil => exact List.Subset.refl r
  | cons y l ih => exact List.Subset.trans (ih _) (dropLine_subset ..)

theorem mem_foldl_dropLine_iff {l : List Line} (hl : x ∉ l) (r : List Line) : x ∈ l.foldl (dropLine fresh) r ↔ x ∈ r := by
  induction l generalizing r with
  | nil => rfl
  | cons y l ih =>
    obtain ⟨hxy, hl⟩ := List.ne_and_not_mem_of_not_mem_cons hl
    rw [List.foldl_cons, ih hl, mem_dropLine_iff hxy]

/-- The lines `a` without as many of those that `ok` allows, oldest first, as `fresh` bytes more need. -/
def dropLines (ok : Line → Bool) (fresh : Nat) (a : List Line) : List Line := (a.filter ok).foldl (dropLine fresh) a

theorem makeRoom_eq_dropLines (old free : Line → Bool) (fresh : Nat) (ls : List Line) :
    makeRoom old free fresh ls = dropLines free fresh (dropLines (fun x => old x && free x) fresh ls) := rfl

theorem mem_dropLines_iff {ok : Line → Bool} (hx : ok x = false) (a : List Line) : x ∈ dropLines ok fresh a ↔ x ∈ a :=
  mem_foldl_dropLine_iff (fun hmem => Bool.false_ne_true (hx.symm.trans (List.mem_filter.1 hmem).2)) a

theorem makeRoom_subset (old free : Line → Bool) (fresh : Nat) (ls : List Line) : makeRoom old free fresh ls ⊆ ls :=
  List.Subset.trans (foldl_dropLine_subset ..) (foldl_dropLine_subset ..)

/-- A line that may not be dropped stays. -/
theorem mem_makeRoom {old free : Line → Bool} {ls : List Line} (hx : free x = false) (hmem : x ∈ ls) :
    x ∈ makeRoom old free fresh ls := by
  rw [makeRoom_eq_dropLines, mem_dropLines_iff hx, mem_dropLines_iff (by rw [hx, Bool.and_false])]
  exact hmem

/-! ### The line of a row and channel -/

theorem Line.isOf_iff : x.isOf name owner need = true ↔ x.block = name ∧ x.owner = owner ∧ (x.row, x.chan) ∈ need := by
  simp [Line.isOf, and_assoc]

theorem Line.isOf_fetchLine {p : Nat × Nat} (hp : p ∈ need) : (fetchLine m b name owner p).isOf name owner need = true :=
  Line.isOf_iff.2 ⟨rfl, rfl, hp⟩

/-- Where every line of a row and channel is `x`, and there is one, its bytes are those of the row and channel. -/
theorem lineOf_eq_of_unique {ls : List Line} {r ch : Nat} (hmem : x ∈ ls) (hx : x.isOf name owner [(r, ch)] = true)
    (huniq : ∀ z ∈ ls, z.isOf name owner [(r, ch)] = true → z = x) : lineOf ls name owner r ch = x.bytes := by
  unfold lineOf
  cases hfind : ls.find? fun z => z.isOf name owner [(r, ch)] with
  | none => exact absurd hx (List.find?_eq_none.1 hfind x hmem)
  | some z =>
    have hof := List.find?_some hfind
    rw [huniq z (List.mem_of_find?_eq_some hfind) hof]
    rfl

variable {s : State} {h id : Nat} {c : WinCmd}

section
variable (hc : c = readWinCmd (cmdMem ((s.hearth h).win.streams.look (fun _ => {}) id).cmd) 0)
  (hb : b = readBlock (s.hearth h).store c.params)
include hc hb

/-- The lines of a stream that opens stay or are fetched, and nothing else of its rows and channels is resident. -/
theorem State.mem_streamLines_iff (hx : x.isOf (haloId c.params b) (b.lineOwner id) (cmdLines b c) = true) :
    x ∈ (s.streamLines h id).1 ++ (s.streamLines h id).2 ↔
      x ∈ (cmdLines b c).map (fetchLine (s.hearth h).store b (haloId c.params b) (b.lineOwner id)) := by
  subst hb hc
  unfold State.streamLines
  dsimp only
  rw [List.mem_append, List.mem_filter]
  constructor
  · rintro (hkept | ⟨hwant, -⟩)
    · have hold := (List.mem_filter.1 (makeRoom_subset _ _ _ _ hkept)).2
      rwa [hx, Bool.not_true, Bool.false_or, List.contains_iff_mem] at hold
    · exact hwant
  · intro hwant
    have hcontains := List.contains_iff_mem.2 hwant
    by_cases hres : x ∈ (s.hearth h).win.lines
    · refine .inl (mem_makeRoom ?_ (List.mem_filter.2 ⟨hres, ?_⟩))
      · rw [hcontains, Bool.not_true, Bool.false_and]
      · rw [hcontains, Bool.or_true]
    · exact .inr ⟨hwant, by simpa using hres⟩

/-- The line of each row and channel that a stream needs is the row as the store holds it (R153). -/
theorem State.lineOf_streamLines {p : Nat × Nat} (hp : p ∈ cmdLines b c) :
    lineOf ((s.streamLines h id).1 ++ (s.streamLines h id).2) (haloId c.params b) (b.lineOwner id) p.1 p.2 =
      (fetchLine (s.hearth h).store b (haloId c.params b) (b.lineOwner id) p).bytes := by
  refine lineOf_eq_of_unique ((State.mem_streamLines_iff hc hb (Line.isOf_fetchLine hp)).2 (List.mem_map_of_mem hp))
    (Line.isOf_fetchLine (List.mem_singleton.2 rfl)) fun z hz hof => ?_
  obtain ⟨hblock, howner, hp'⟩ := Line.isOf_iff.1 hof
  have hneed : z.isOf (haloId c.params b) (b.lineOwner id) (cmdLines b c) = true :=
    Line.isOf_iff.2 ⟨hblock, howner, List.mem_singleton.1 hp' ▸ hp⟩
  obtain ⟨q, -, rfl⟩ := List.mem_map.1 ((State.mem_streamLines_iff hc hb hneed).1 hz)
  rw [show q = p from List.mem_singleton.1 hp']

end

end Sys2Proof.Machine
end

section
/-! PROOF. ROWS, DIAG and DIAGMAX set up a stream, and STREAM_OPEN opens it (R153 to R155, R160 to
R163, R168, R172, R178). -/

namespace Sys2Proof.Machine

variable {s t : State} {h q id : Nat} {v : Hearth} {e : QEntry} {rest : List QEntry} {c : WinCmd} {b : WinBlock}
  {st : Stream}

/-! ### A stream of a Hearth -/

def Hearth.putStream (v : Hearth) (id : Nat) (x : Stream) : Hearth :=
  { v with win := { v.win with streams := v.win.streams.put (fun _ => {}) id x } }

def Hearth.putLines (v : Hearth) (ls : List Line) : Hearth := { v with win := { v.win with lines := ls } }

theorem Hearth.stream_putStream_same (v : Hearth) (id : Nat) (x : Stream) :
    (v.putStream id x).win.streams.look (fun _ => {}) id = x := SMap.look_put_same ..

theorem Hearth.stream_putStream_of_ne (v : Hearth) (x : Stream) {i : Nat} (hi : i ≠ id) :
    (v.putStream id x).win.streams.look (fun _ => {}) i = v.win.streams.look (fun _ => {}) i := SMap.look_put_of_ne _ _ hi

theorem State.queues_popQueue_of_head (hq : s.queueOf h q = e :: rest) :
    ((s.hearth h).popQueue q).queues = (s.hearth h).queues.put (fun _ => []) q rest := by
  change (s.hearth h).queues.put (fun _ => []) q ((s.queueOf h q).drop 1) = _
  rw [hq, List.drop_one, List.tail_cons]

/-- An engine that takes the head of its queue, and whose Hearth goes on with its job and history. -/
theorem State.ActsOn.engineTo_of_head (ht : s.ActsOn t h v) (hq : s.queueOf h q = e :: rest)
    (hqueues : v.queues = ((s.hearth h).popQueue q).queues) (hjob : v.job = (s.hearth h).job)
    (hhist : v.hist = (s.hearth h).hist) : EngineTo s t h q rest :=
  ht.engineTo (hqueues.trans (State.queues_popQueue_of_head hq)) hjob hhist

/-! ### The set-up (R155, R178) -/

/-- The stream that a window command of entry `e` sets up: dense, DIAG or DIAGMAX. -/
def setUpStream (e : QEntry) (b : WinBlock) (c : WinCmd) (diag : Nat) : Stream where
  phase := 1
  cmd := e.cmd
  core := e.core
  pc := e.pc
  fmt := b.fmt
  fanout := fanoutOf c.stream
  diag := diag
  nky := c.nky
  nkx := c.nkx
  nc := c.nc

/-- The state in which a window command has set up stream `x`. -/
def State.streamSet (s : State) (h : Nat) (c : WinCmd) (x : Stream) : State :=
  ((s.touchReads h [(c.params, 64)]).setHearth h ((s.hearth h).putStream (c.stream % 4) x)).popQueue h 4

/-- From s to t a window command has set up stream `x` in place `id`, and left its queue. -/
structure State.SetsUp (s t : State) (h : Nat) (rest : List QEntry) (id : Nat) (x : Stream) : Prop where
  engine  : EngineTo s t h 4 rest
  stream  : (t.hearth h).win.streams.look (fun _ => {}) id = x
  streams : ∀ i, i ≠ id →
    (t.hearth h).win.streams.look (fun _ => {}) i = (s.hearth h).win.streams.look (fun _ => {}) i
  store   : (t.hearth h).store = (s.hearth h).store

theorem State.streamSet_setsUp (hq : s.queueOf h 4 = e :: rest) (c : WinCmd) (x : Stream) :
    s.SetsUp (s.streamSet h c x) h rest (c.stream % 4) x := by
  have hact : s.ActsOn (s.streamSet h c x) h (((s.hearth h).putStream (c.stream % 4) x).popQueue 4) :=
    (((State.ActsOn.refl s h).touchReads _).setHearth _).popQueue 4
  have hwin : ((s.streamSet h c x).hearth h).win = ((s.hearth h).putStream (c.stream % 4) x).win :=
    (congrArg Hearth.win hact.hearth :)
  refine ⟨hact.engineTo_of_head hq rfl rfl rfl, ?_, fun i hi => ?_, (congrArg Hearth.store hact.hearth :)⟩ <;> rw [hwin]
  · exact Hearth.stream_putStream_same ..
  · exact Hearth.stream_putStream_of_ne _ _ hi

theorem State.streamSetup_of_valid (hc : c = readWinCmd (cmdMem e.cmd) 0) (hb : b = readBlock (s.hearth h).store c.params)
    (hok : winCmdOk (s.hearth h).store c = true) (hrows : rowsInRange b c = true)
    (hclosed : ((s.hearth h).win.streams.look (fun _ => {}) (c.stream % 4)).phase = 0)
    (hhalo : haloSides b (cmdRows b c) = []) (hue : s.readsUe h [(c.params, 64)] = none) (diag : Nat) :
    s.streamSetup h e diag = s.streamSet h c (setUpStream e b c diag) := by
  subst hb hc
  rw [State.streamSetup]
  dsimp only
  rw [State.unlessUe_of_none hue, hok, if_neg (by decide), hrows, if_neg (by decide), if_neg (not_not_intro hclosed),
    State.afterReads_of_none hue, hhalo]
  rfl

/-! ### The opening (R155, R160 to R163) -/

/-- A Hearth after the scale of a DIAG or DIAGMAX whose flag asks for it is written (R169). -/
def Hearth.scaled (v : Hearth) (st : Stream) (b : WinBlock) (c : WinCmd) : Hearth :=
  if st.diag ≠ 0 ∧ c.flags.testBit 0 then v.write c.aux (natLe (b.sigmaRef v.store c.oy).bits 8) else v

theorem Hearth.write_win (v : Hearth) (a : Nat) (bs : List Byte) : (v.write a bs).win = v.win := rfl

theorem Hearth.scaled_win (v : Hearth) (st : Stream) (b : WinBlock) (c : WinCmd) : (v.scaled st b c).win = v.win := by
  unfold Hearth.scaled
  split
  · exact Hearth.write_win ..
  · rfl

theorem Hearth.scaled_of_unasked (v : Hearth) (b : WinBlock) (hno : st.diag = 0 ∨ c.flags.testBit 0 = false) :
    v.scaled st b c = v := by
  refine if_neg ?_
  rintro ⟨hdiag, hflag⟩
  rcases hno with hdense | hclear
  · exact hdiag hdense
  · exact Bool.false_ne_true (hclear.symm.trans hflag)

/-- The scale word alone is written. -/
theorem Hearth.look_scaled_outside (v : Hearth) (st : Stream) (b : WinBlock) {a : Nat} (ha : a < c.aux ∨ c.aux + 8 ≤ a) :
    (v.scaled st b c).store.look zeroByte a = v.store.look zeroByte a := by
  unfold Hearth.scaled
  split
  · exact Hearth.look_write_outside _ _ _ _ (by rwa [length_natLe])
  · rfl

/-- A stream as it opens on the lines `ls`: its terms, and the fold multipliers of a diagonal one. -/
def Stream.opened (st : Stream) (m : SMap Byte) (ls : List Line) (id : Nat) (b : WinBlock) (c : WinCmd) : Stream :=
  let line := lineOf ls (haloId c.params b) (b.lineOwner id)
  { st with phase := 2
            terms := if st.diag = 0 then rowsTerms m line b c else diagTerms m line b c
            mults := if st.diag = 0 then [] else diagMults m b c }

/-- A Hearth in which stream `id` has opened on the lines `ls`. -/
def Hearth.openStream (v : Hearth) (id : Nat) (st : Stream) (b : WinBlock) (c : WinCmd) (ls : List Line) : Hearth :=
  ((v.scaled st b c).putStream id (st.opened v.store ls id b c)).putLines ls

section
variable (v : Hearth) (id : Nat) (st : Stream) (b : WinBlock) (c : WinCmd) (ls : List Line)

theorem Hearth.lines_openStream : (v.openStream id st b c ls).win.lines = ls := rfl

theorem Hearth.store_openStream : (v.openStream id st b c ls).store = (v.scaled st b c).store := rfl

theorem Hearth.streams_openStream : (v.openStream id st b c ls).win.streams =
    v.win.streams.put (fun _ => {}) id (st.opened v.store ls id b c) := by
  rw [Hearth.openStream, Hearth.putLines, Hearth.putStream, Hearth.scaled_win]

theorem Hearth.stream_openStream_same :
    (v.openStream id st b c ls).win.streams.look (fun _ => {}) id = st.opened v.store ls id b c := by
  rw [Hearth.streams_openStream, SMap.look_put_same]

theorem Hearth.stream_openStream_of_ne {i : Nat} (hi : i ≠ id) :
    (v.openStream id st b c ls).win.streams.look (fun _ => {}) i = v.win.streams.look (fun _ => {}) i := by
  rw [Hearth.streams_openStream, SMap.look_put_of_ne _ _ hi]

end

/-- Stream `id`, in state `st`, of command `c` on block `b`, is set up, and its halos, its MACs and the line buffer let it
open (R154, R155, R163). -/
structure State.OpenReady (s : State) (h id : Nat) (st : Stream) (c : WinCmd) (b : WinBlock) : Prop where
  stream  : st = (s.hearth h).win.streams.look (fun _ => {}) id
  decoded : c = readWinCmd (cmdMem st.cmd) 0
  block   : b = readBlock (s.hearth h).store c.params
  phase   : st.phase = 1
  halos   : haloMissing (s.hearth h).win (haloId c.params b) (haloSides b (cmdRows b c)) = []
  fanout  : s.fanoutBad h id st = false
  room    : lineRoom (s.streamLines h id).1 + lineRoom (s.streamLines h id).2 ≤ 262144
  sound   : s.readsUe h (winReads b c ((s.streamLines h id).2.map fun x => (x.row, x.chan))) = none

theorem State.OpenReady.streamStart_actsOn (hr : s.OpenReady h id st c b) :
    s.ActsOn (s.streamStart h id) h
      ((s.hearth h).openStream id st b c ((s.streamLines h id).1 ++ (s.streamLines h id).2)) := by
  obtain ⟨hst, hc, hb, hphase, hhalos, hfanout, hroom, hsound⟩ := hr
  have hphase0 : ¬st.phase = 0 := by omega
  have hready : ¬(st.phase ≠ 1 ∨ haloMissing (s.hearth h).win (haloId c.params b) (haloSides b (cmdRows b c)) ≠ [] ∨
      262144 < lineRoom (s.streamLines h id).1 + lineRoom (s.streamLines h id).2) := by
    rintro (hp | hm | hl)
    · exact hp hphase
    · exact hm hhalos
    · omega
  rw [State.streamStart]
  dsimp only
  rw [← hst, ← hc, ← hb, if_neg hphase0, hfanout, if_neg (by decide), if_neg hready, State.afterReads_of_none hsound,
    State.touchReads_hearth]
  have hopened := (((State.ActsOn.refl s h).touchReads
    (winReads b c ((s.streamLines h id).2.map fun x => (x.row, x.chan)))).setHearth
    ((s.hearth h).openStream id st b c ((s.streamLines h id).1 ++ (s.streamLines h id).2))).bump
    (hKey (0xA00C + h * 0x20)) ((s.streamLines h id).2.length * (b.lineBytes / 64))
  split
  · exact hopened
  · exact hopened.bump ..

theorem exec_streamOpen (hu : hearthOk h = true) (hid : id < 4) :
    exec (.streamOpen h id) s = .next (s.streamStart h id) := by
  change withUnit (hearthOk h && decide (id < 4)) _ = _
  rw [hu, decide_eq_true hid]
  rfl

/-- Settles O35: the three set-ups by the state they leave, the opening by its lines and by the Hearth it leaves. -/
theorem windowStreamsSetUpAndOpen : Obligations.WindowStreamsSetUpAndOpen := by
  unfold Obligations.WindowStreamsSetUpAndOpen
  intro s h id e rest v c b stream setup
  refine ⟨fun hu hok hrows hclosed hhalo hue => ?_, ?_⟩
  · have hsetup {i : Instr} {op diag : Nat}
        (hi : exec i s = withUnit (hearthOk h) (s.onHead h 4 op fun e => s.streamSetup h e diag)) : setup i op diag := by
      intro hs
      have hset := State.streamSet_setsUp hs.1 c (setUpStream e b c diag)
      refine ⟨_, ?_, hset.engine, hset.stream, hset.streams, hset.store⟩
      rw [exec_onHead hi hu hs, State.streamSetup_of_valid rfl rfl hok hrows hclosed hhalo hue]
    exact ⟨hsetup rfl, hsetup rfl, hsetup rfl⟩
  · intro st oc ob hu hid hphase hhalos hfanout ls hroom hue name line
    have hact := State.OpenReady.streamStart_actsOn ⟨rfl, rfl, rfl, hphase, hhalos, hfanout, hroom, hue⟩
    refine ⟨fun x hx => State.lineOf_streamLines rfl rfl hx, s.streamStart h id, exec_streamOpen hu hid, ?_⟩
    dsimp only [stream]
    rw [hact.hearth, Hearth.lines_openStream, Hearth.store_openStream, Hearth.stream_openStream_same]
    exact ⟨rfl, rfl, fun i hi => Hearth.stream_openStream_of_ne _ _ _ _ _ _ hi,
      fun hno => by rw [Hearth.scaled_of_unasked v ob hno], fun a => Hearth.look_scaled_outside v st ob, hact.hearths,
      (congrArg State.dram hact.rest :), (congrArg State.hitches hact.rest :)⟩

end Sys2Proof.Machine
end

section
/-! PROOF. A counter that nothing waits on: a signal to it, a wait on it, and the signal of an engine (R417, R426
to R428). -/

namespace Sys2Proof.Machine

variable {s t : State} {h k n : Nat} {v : Hearth} {x : Hitch}

/-- A counter that nothing waits on. -/
def Hitch.Idle (x : Hitch) : Prop := x.queue = [] ∧ x.poison = false ∧ x.barrier = false

/-- No job waits to start, or to begin its pass, on any Hitch. -/
def State.Quiet (s : State) : Prop := ∀ j ∈ s.jobs, j.startEn = false ∧ j.pass.waitsOn = none

theorem Hitch.Idle.signal (hx : x.Idle) (hroom : x.count + n ≤ 0xFFFFFFFF) :
    x.signal n = ({ x with count := x.count + n }, []) := by
  obtain ⟨hqueue, hpoison, hbarrier⟩ := hx
  simp [Hitch.signal, Hitch.serve, hqueue, hpoison, hbarrier, serveCounter, hroom, Nat.not_lt.2 hroom]

theorem Hitch.Idle.wait_granted (hx : x.Idle) (a : Agent) (hn : n ≤ x.count) :
    x.wait a n = ({ x with count := x.count - n }, [a]) := by
  obtain ⟨hqueue, hpoison, hbarrier⟩ := hx
  simp [Hitch.wait, Hitch.serve, hqueue, hpoison, hbarrier, serveCounter, hn]

theorem Hitch.Idle.wait_queued (hx : x.Idle) (a : Agent) (hn : x.count < n) :
    x.wait a n = ({ x with queue := [⟨a, n⟩] }, []) := by
  obtain ⟨hqueue, hpoison, hbarrier⟩ := hx
  simp [Hitch.wait, Hitch.serve, hqueue, hpoison, hbarrier, serveCounter, Nat.not_le.2 hn]

theorem State.retryStarts_of_quiet (hq : s.Quiet) (k : Nat) : s.retryStarts k = s := by
  have hpasses : (s.jobs.filter fun j => j.resident && j.pass.waitsOn == some k) = [] :=
    List.filter_eq_nil_iff.2 fun j hj => by simp [(hq j hj).2]
  have hstarts : (s.jobs.filter fun j => j.phase == 0 && j.startEn && !j.waitOk && j.startHitch == k) = [] :=
    List.filter_eq_nil_iff.2 fun j hj => by simp [(hq j hj).1]
  unfold State.retryStarts
  dsimp only
  rw [hpasses, List.foldl_nil, hstarts, List.foldl_nil]

/-- A signal to such a Hitch counts, and starts nothing. -/
theorem State.hitchSignal_of_idle (hx : (s.hitch k).Idle) (hq : s.Quiet) (hroom : (s.hitch k).count + n ≤ 0xFFFFFFFF) :
    s.hitchSignal k n = s.setHitch k { s.hitch k with count := (s.hitch k).count + n } := by
  rw [State.hitchSignal, hx.signal hroom]
  dsimp only
  rw [Bool.and_not_self, if_neg Bool.false_ne_true]
  exact State.retryStarts_of_quiet (by exact hq) k

theorem State.Quiet.noteSignal (hq : s.Quiet) (sub k : Nat) : (s.noteSignal sub k).Quiet := by
  intro j hj
  obtain ⟨i, hi, rfl⟩ := List.mem_map.1 hj
  split <;> exact hq i hi

/-- From s to t an engine of Hearth h, which is now `v`, has added 1 to Hitch k and touched no other Hitch. -/
structure State.SignalsTo (s t : State) (h k : Nat) (v : Hearth) : Prop where
  hearth : t.hearth h = v
  count  : (t.hitch k).count = (s.hitch k).count + 1
  others : ∀ z, z ≠ k → t.hitch z = s.hitch z

theorem State.ActsOn.hitch (ht : s.ActsOn t h v) (k : Nat) : t.hitch k = s.hitch k :=
  (congrArg (fun u : State => u.hitch k) ht.rest :)

theorem State.ActsOn.jobs (ht : s.ActsOn t h v) : t.jobs = s.jobs := (congrArg State.jobs ht.rest :)

theorem State.ActsOn.engineSignal (ht : s.ActsOn t h v) (hx : (s.hitch k).Idle) (hq : s.Quiet)
    (hroom : (s.hitch k).count < 0xFFFFFFFF) : s.SignalsTo (t.engineSignal h k) h k v := by
  have hhitch (z : Nat) : (t.noteSignal (t.jobOf h) k).hitch z = s.hitch z := ht.hitch z
  have hquiet : t.Quiet := by
    rw [State.Quiet, ht.jobs]
    exact hq
  rw [State.engineSignal, State.hitchSignal_of_idle ((hhitch k).symm ▸ hx) (hquiet.noteSignal _ k) (by rw [hhitch]; omega)]
  refine ⟨ht.hearth, ?_, fun z hz => ?_⟩
  · rw [State.hitch_setHitch_same, hhitch]
  · rw [State.hitch_setHitch, if_neg hz, hhitch]

end Sys2Proof.Machine
end

section
/-! PROOF. MTABLE and REGROUP write their Hearth's store (R164, R167, R178, R197). -/

namespace Sys2Proof.Machine

variable {s : State} {h : Nat} {e : QEntry} {rest : List QEntry} {reads : List (Nat × Nat)} {f : SMap Byte → SMap Byte}
  {c : WinCmd} {b : WinBlock}

/-- A Hearth in which a window command of entry `e` has changed the store by `f` and left its queue. -/
def Hearth.storeWritten (v : Hearth) (e : QEntry) (f : SMap Byte → SMap Byte) : Hearth :=
  ((v.change f).popQueue 4).cmdDone 4 e.core

/-- The state in which it has done so after its reads. -/
def State.storeWritten (s : State) (h : Nat) (e : QEntry) (reads : List (Nat × Nat)) (f : SMap Byte → SMap Byte) : State :=
  (((s.touchReads h reads).setHearth h ((s.hearth h).change f)).popQueue h 4).cmdDone h 4 e.core

theorem State.storeWritten_actsOn (s : State) (h : Nat) (e : QEntry) (reads : List (Nat × Nat))
    (f : SMap Byte → SMap Byte) : s.ActsOn (s.storeWritten h e reads f) h ((s.hearth h).storeWritten e f) :=
  ((((State.ActsOn.refl s h).touchReads reads).setHearth _).popQueue 4).cmdDone 4 e.core

theorem State.storeWritten_spec (hq : s.queueOf h 4 = e :: rest) (reads : List (Nat × Nat)) (f : SMap Byte → SMap Byte) :
    EngineTo s (s.storeWritten h e reads f) h 4 rest ∧
      ((s.storeWritten h e reads f).hearth h).store = f (s.hearth h).store ∧
      ((s.storeWritten h e reads f).hearth h).kilns = (s.hearth h).kilns := by
  have hact := s.storeWritten_actsOn h e reads f
  exact ⟨hact.engineTo_of_head hq rfl rfl rfl, (congrArg Hearth.store hact.hearth :),
    (congrArg Hearth.kilns hact.hearth :)⟩

theorem State.afterReads_engineStore (hr : s.readsUe h reads = none) (hn : (s.hearth h).needs f = none) :
    (s.afterReads h reads fun t => t.engineStore h f fun t => (t.popQueue h 4).cmdDone h 4 e.core) =
      s.storeWritten h e reads f := by
  rw [State.afterReads_of_none hr, State.engineStore_of_none (by rw [State.touchReads_hearth]; exact hn),
    State.touchReads_hearth]
  rfl

theorem State.mtableHead_of_valid (hc : c = readWinCmd (cmdMem e.cmd) 0) (hb : b = readBlock (s.hearth h).store c.params)
    (hok : winCmdOk (s.hearth h).store c = true) (hrows : rowsInRange b c = true)
    (hhalos : haloMissing (s.hearth h).win (haloId c.params b) (haloSides b (cmdRows b c)) = [])
    (hue : s.readsUe h [(c.params, 64)] = none)
    (hheaders : s.readsUe h ((cmdRows b c).map fun n => (b.hdrAddr n, 8)) = none)
    (hn : (s.hearth h).needs (fun m => mtableWrite m c) = none) :
    s.mtableHead h e = s.storeWritten h e ((cmdRows b c).map fun n => (b.hdrAddr n, 8)) fun m => mtableWrite m c := by
  rw [State.mtableHead]
  rw [← hc, ← hb, State.unlessUe_of_none hue, hok, if_neg (by decide), hrows, if_neg (by decide),
    if_neg (not_not_intro hhalos), State.afterReads_engineStore hheaders hn]

theorem State.regroupHead_of_valid {k : Nat} {toSpace : Bool} (hc : c = readWinCmd (cmdMem e.cmd) 0)
    (hkind : regroupKind (s.hearth h).store c = some (k, toSpace))
    (hrows : regroupInRange (s.hearth h).store c k toSpace = true)
    (hue : s.readsUe h [(c.params, 64), (c.aux, 64)] = none)
    (hn : (s.hearth h).needs (fun m => regroupWrite m c k toSpace) = none) :
    s.regroupHead h e =
      s.storeWritten h e [(c.params, 64), (c.aux, 64)] fun m => regroupWrite m c k toSpace := by
  rw [State.regroupHead]
  rw [← hc, State.unlessUe_of_none hue, hkind]
  dsimp only
  rw [hrows, if_neg (by decide), State.afterReads_engineStore hue hn]

end Sys2Proof.Machine
end

section
/-! PROOF. SPLICE, its acknowledgement, and RELEASE (R177, R178, R180). -/

namespace Sys2Proof.Machine

variable {s u : State} {h k : Nat} {e : QEntry} {rest : List QEntry} {c : SpliceCmd} {sp : Splicing}

def Hearth.setSplice (v : Hearth) (x : Option Splicing) : Hearth := { v with win := { v.win with splice := x } }

/-! ### The writes of a SPLICE (R177 step 2) -/

/-- From u to t the rows of the Splice `sp`, of command `c`, are written to their destination, and it leaves its queue. -/
structure State.SplicedTo (u t : State) (h : Nat) (sp : Splicing) (c : SpliceCmd) : Prop where
  source  : t.hearth h = ((u.hearth h).popQueue 4).setSplice (some { sp with written := true, ue := none })
  dest    : (t.hearth c.dst).store = spliceWrite (u.hearth h).store (u.hearth c.dst).store c
  hearths : ∀ g, g ≠ h → g ≠ c.dst → t.hearth g = u.hearth g
  hitches : t.hitches = u.hitches

theorem State.spliceRows_of_sound (hsp : (u.hearth h).win.splice = some sp) (hc : c = readSplice (cmdMem sp.cmd) 0)
    (hdst : c.dst ≠ h) (hue : u.spliceUe h c = none) : u.SplicedTo (u.spliceRows h) h sp c := by
  let d := (u.hearth c.dst).change fun m => spliceWrite (u.hearth h).store m c
  let w := ((u.hearth h).popQueue 4).setSplice (some { sp with written := true, ue := none })
  obtain ⟨n, hrows⟩ : ∃ n, u.spliceRows h = ((u.setHearth c.dst d).setHearth h w).bump (hKey (0xA018 + h * 0x20)) n := by
    refine ⟨spliceBytes (u.hearth h).store c, ?_⟩
    rw [State.spliceRows, hsp]
    dsimp only
    rw [← hc, hue]
    dsimp only [Option.isSome]
    rw [if_neg Bool.false_ne_true, if_neg Bool.false_ne_true, State.hearth_setHearth, if_neg (Ne.symm hdst)]
    rfl
  rw [hrows]
  refine ⟨?source, ?dest, fun g hg hg' => ?hearths, ?hitches⟩
  case hitches => rw [State.bump, State.setReg_hitches, State.setHearth_hitches, State.setHearth_hitches]
  all_goals rw [State.bump_hearth, State.hearth_setHearth]
  · exact if_pos rfl
  · rw [if_neg hdst, State.hearth_setHearth_same]
    rfl
  · rw [if_neg hg, State.hearth_setHearth, if_neg hg']

/-! ### The wait on the destination's FREE Hitch (R177 step 1) -/

/-- The state in which a SPLICE of entry `e` has begun, and waits for its FREE Hitch. -/
def State.splicing (s : State) (h : Nat) (e : QEntry) (c : SpliceCmd) : State :=
  (s.touchReads h [(c.params, 64)]).setHearth h ((s.hearth h).setSplice (some ⟨e.cmd, e.core, false, none⟩))

theorem State.splicing_actsOn (s : State) (h : Nat) (e : QEntry) (c : SpliceCmd) :
    s.ActsOn (s.splicing h e c) h ((s.hearth h).setSplice (some ⟨e.cmd, e.core, false, none⟩)) :=
  ((State.ActsOn.refl s h).touchReads _).setHearth _

theorem State.spliceUe_of_splice_only {x : Option Splicing} (hh : u.hearth h = (s.hearth h).setSplice x)
    (hd : u.hearth c.dst = s.hearth c.dst) : u.spliceUe h c = s.spliceUe h c := by
  rw [State.spliceUe, State.spliceUe, hh, hd]
  rfl

/-- A SPLICE of command `c` that is valid, whose engine is free, whose FREE Hitch is `k`, and that needs no uncorrectable
word (R177, R181). -/
structure State.SpliceValid (s : State) (h : Nat) (e : QEntry) (c : SpliceCmd) (k : Nat) : Prop where
  decoded : c = readSplice (cmdMem e.cmd) 0
  hitch   : k = c.hitch + 2 + c.side
  valid   : spliceOk (s.hearth h).store c = true
  member  : (s.members (s.core h e.core).cord).contains c.dst = true
  rows    : spliceInRange (s.hearth h).store c = true
  free    : (s.hearth h).win.splice = none
  idle    : (s.hitch k).Idle
  other   : c.dst ≠ h
  sound   : s.readsUe h [(c.params, 64)] = none
  whole   : s.spliceUe h c = none

theorem State.SpliceValid.spliceHead (hv : s.SpliceValid h e c k) : s.spliceHead h e =
    let u := s.splicing h e c
    let w := (s.hitch k).wait (.splice h) 1
    let t := (u.setHitch k w.1).grantAll k (w.2.filter fun a => a != .splice h)
    if w.2.contains (.splice h) then t.spliceRows h else t.anyCycles (hKey (0xA014 + h * 0x20)) := by
  obtain ⟨hc, hk, hok, hmember, hrows, hfree, ⟨-, hpoison, -⟩, -, hue, -⟩ := hv
  have hvalid : ¬(!spliceOk (s.hearth h).store c || !(s.members (s.core h e.core).cord).contains c.dst) = true := by
    rw [hok, hmember]
    decide
  rw [State.spliceHead]
  dsimp only
  rw [← hc, ← hk, State.unlessUe_of_none hue, if_neg hvalid, hrows, if_neg (by decide), hfree, if_neg (by decide), hpoison,
    if_neg (by decide), State.afterReads_of_none hue, ← (s.splicing_actsOn h e c).hitch k]
  rfl

/-- With a count of 1 or more it is granted at once, and the rows are written. -/
theorem State.SpliceValid.spliceHead_granted (hv : s.SpliceValid h e c k) (hcount : 1 ≤ (s.hitch k).count) :
    s.spliceHead h e =
      ((s.splicing h e c).setHitch k { s.hitch k with count := (s.hitch k).count - 1 }).spliceRows h := by
  rw [hv.spliceHead, hv.idle.wait_granted _ hcount]
  simp [State.grantAll]

/-- With a count of 0 it waits, and its cycles count. -/
theorem State.SpliceValid.spliceHead_queued (hv : s.SpliceValid h e c k) (hcount : (s.hitch k).count = 0) :
    s.spliceHead h e = ((s.splicing h e c).setHitch k { s.hitch k with queue := [⟨.splice h, 1⟩] }).anyCycles
      (hKey (0xA014 + h * 0x20)) := by
  rw [hv.spliceHead, hv.idle.wait_queued _ (by omega)]
  rfl

theorem State.anyCycles_hearth (s : State) (k g : Nat) : (s.anyCycles k).hearth g = s.hearth g := rfl

theorem State.anyCycles_hitch (s : State) (k z : Nat) : (s.anyCycles k).hitch z = s.hitch z := rfl

/-- A granted SPLICE: its rows are written, it is in progress as such, and 1 is taken from its FREE Hitch. -/
theorem State.SpliceValid.granted (hv : s.SpliceValid h e c k) (hq : s.queueOf h 4 = e :: rest)
    (hcount : 1 ≤ (s.hitch k).count) :
    let t := s.spliceHead h e
    (t.hearth c.dst).store = spliceWrite (s.hearth h).store (s.hearth c.dst).store c ∧ t.queueOf h 4 = rest ∧
      (t.hearth h).win.splice = some ⟨e.cmd, e.core, true, none⟩ ∧ (t.hearth h).store = (s.hearth h).store ∧
      (t.hitch k).count = (s.hitch k).count - 1 ∧ ∀ g, g ≠ h → g ≠ c.dst → t.hearth g = s.hearth g := by
  let x : Hitch := { s.hitch k with count := (s.hitch k).count - 1 }
  let u := (s.splicing h e c).setHitch k x
  have hact := s.splicing_actsOn h e c
  have hu : u.hearth h = (s.hearth h).setSplice (some ⟨e.cmd, e.core, false, none⟩) := hact.hearth
  have hus (g : Nat) (hg : g ≠ h) : u.hearth g = s.hearth g := hact.hearths g hg
  have hsplice : (u.hearth h).win.splice = some ⟨e.cmd, e.core, false, none⟩ := by rw [hu]; rfl
  have hue : u.spliceUe h c = none := (State.spliceUe_of_splice_only hu (hus _ hv.other)).trans hv.whole
  obtain ⟨hsource, hdest, hhearths, hhitches⟩ := State.spliceRows_of_sound hsplice hv.decoded hv.other hue
  rw [hu] at hsource hdest
  rw [hus _ hv.other] at hdest
  have hqueues : ((u.spliceRows h).hearth h).queues = ((s.hearth h).popQueue 4).queues := by rw [hsource]; rfl
  intro t
  rw [show t = u.spliceRows h from hv.spliceHead_granted hcount]
  refine ⟨hdest, ?_, ?_, ?_, ?_, fun g hg hg' => (hhearths g hg hg').trans (hus g hg)⟩
  · rw [State.queueOf, hqueues, State.queues_popQueue_of_head hq, SMap.look_put_same]
  · rw [hsource]
    rfl
  · rw [hsource]
    rfl
  · rw [State.hitch, hhitches]
    exact congrArg Hitch.count (State.hitch_setHitch_same ..)

/-- A SPLICE that waits: it stands on its FREE Hitch and at the head of its queue, and no row is written. -/
theorem State.SpliceValid.queued (hv : s.SpliceValid h e c k) (hcount : (s.hitch k).count = 0) :
    let t := s.spliceHead h e
    (t.hitch k).queue = [⟨.splice h, 1⟩] ∧ (t.hearth h).win.splice = some ⟨e.cmd, e.core, false, none⟩ ∧
      t.queueOf h 4 = s.queueOf h 4 ∧ (t.hearth c.dst).store = (s.hearth c.dst).store := by
  have hact := s.splicing_actsOn h e c
  let u := (s.splicing h e c).setHitch k { s.hitch k with queue := [⟨.splice h, 1⟩] }
  have hu : u.hearth h = (s.hearth h).setSplice (some ⟨e.cmd, e.core, false, none⟩) := hact.hearth
  have hdst : u.hearth c.dst = s.hearth c.dst := hact.hearths _ hv.other
  intro t
  rw [show t = u.anyCycles (hKey (0xA014 + h * 0x20)) from hv.spliceHead_queued hcount, State.queueOf,
    State.anyCycles_hitch, State.anyCycles_hearth, State.anyCycles_hearth, State.hitch_setHitch_same, hu, hdst]
  exact ⟨rfl, rfl, rfl, rfl⟩

/-! ### SPLICE_ACKED and RELEASE -/

/-- The acknowledgement of good writes ends the Splice and signals the destination's FULL Hitch (R177 step 3). -/
theorem State.spliceEnd_of_good (hsp : (s.hearth h).win.splice = some sp) (hwritten : sp.written = true)
    (hsound : sp.ue = none) (hc : c = readSplice (cmdMem sp.cmd) 0) : s.spliceEnd h true =
      ((s.setHearth h ((s.hearth h).setSplice none)).cmdDone h 4 sp.core).engineSignal h (c.hitch + c.side) := by
  subst hc
  rw [State.spliceEnd, hsp]
  dsimp only
  rw [hwritten, hsound, if_neg (by decide)]
  rfl

theorem exec_spliceAcked (hu : hearthOk h = true) (ok : Bool) : exec (.spliceAcked h ok) s = .next (s.spliceEnd h ok) := by
  change withUnit (hearthOk h) _ = _
  rw [hu, withUnit_true]

theorem State.spliceEnd_signals (hsp : (s.hearth h).win.splice = some sp) (hwritten : sp.written = true)
    (hsound : sp.ue = none) (hc : c = readSplice (cmdMem sp.cmd) 0) (hx : (s.hitch (c.hitch + c.side)).Idle)
    (hquiet : s.Quiet) (hroom : (s.hitch (c.hitch + c.side)).count < 0xFFFFFFFF) :
    s.SignalsTo (s.spliceEnd h true) h (c.hitch + c.side) (((s.hearth h).setSplice none).cmdDone 4 sp.core) := by
  rw [State.spliceEnd_of_good hsp hwritten hsound hc]
  exact (((State.ActsOn.refl s h).setHearth _).cmdDone 4 sp.core).engineSignal hx hquiet hroom

/-- The fields of a RELEASE that R161 and R178 leave at zero, and its window block. -/
structure ReleaseValid (m : SMap Byte) (c : SpliceCmd) : Prop where
  flags   : c.flags < 2
  row0    : c.row0 = 0
  nrows   : c.nrows = 0
  parity  : c.parity = 0
  hitch   : c.hitch = 0
  dst     : c.dst = 0
  rsv     : c.rsv = 0
  dstHalo : c.dstHalo = 0
  rsv2    : c.rsv2 = 0
  params  : addrOk c.params 64 64 = true
  block   : (readBlock m c.params).ok = true

/-- A Hearth whose halo of a side is not present any more. -/
def Hearth.released (v : Hearth) (x : Nat × Nat) : Hearth :=
  { v with win := { v.win with present := v.win.present.filter fun y => y != x } }

theorem State.releaseHead_of_valid {b : WinBlock} (hc : c = readSplice (cmdMem e.cmd) 0)
    (hb : b = readBlock (s.hearth h).store c.params) (hv : ReleaseValid (s.hearth h).store c)
    (hue : s.readsUe h [(c.params, 64)] = none) : s.releaseHead h e =
      ((((s.touchReads h [(c.params, 64)]).setHearth h
        ((s.hearth h).released (haloId c.params b, c.flags % 2))).popQueue h 4).cmdDone h 4 e.core).engineSignal h
        (b.haloHitch + 2 + c.flags % 2) := by
  obtain ⟨hflags, hrow0, hnrows, hparity, hhitch, hdst, hrsv, hdstHalo, hrsv2, hparams, hblock⟩ := hv
  subst hb
  rw [State.releaseHead]
  dsimp only
  rw [← hc, State.unlessUe_of_none hue, decide_eq_true hflags, hrow0, hnrows, hparity, hhitch, hdst, hrsv, hdstHalo, hrsv2,
    hparams, hblock, if_neg (by decide), State.afterReads_of_none hue]
  rfl

theorem State.releaseHead_signals {b : WinBlock} (hc : c = readSplice (cmdMem e.cmd) 0)
    (hb : b = readBlock (s.hearth h).store c.params) (hv : ReleaseValid (s.hearth h).store c)
    (hue : s.readsUe h [(c.params, 64)] = none) (hk : k = b.haloHitch + 2 + c.flags % 2) (hx : (s.hitch k).Idle)
    (hquiet : s.Quiet) (hroom : (s.hitch k).count < 0xFFFFFFFF) :
    s.SignalsTo (s.releaseHead h e) h k
      ((((s.hearth h).released (haloId c.params b, c.flags % 2)).popQueue 4).cmdDone 4 e.core) := by
  rw [State.releaseHead_of_valid hc hb hv hue, ← hk]
  exact (((((State.ActsOn.refl s h).touchReads _).setHearth _).popQueue 4).cmdDone 4 e.core).engineSignal hx hquiet hroom

theorem Hearth.present_released (v : Hearth) (x : Nat × Nat) :
    (v.released x).win.present = v.win.present.filter (· ≠ x) :=
  List.filter_congr fun y _ => Bool.eq_iff_iff.2 (by rw [bne_iff_ne, decide_eq_true_iff])

/-- Settles O36: MTABLE and REGROUP by the store they leave, the others by what becomes of the Hitch that they name. -/
theorem tablesRegroupsAndHalos : Obligations.TablesRegroupsAndHalos := by
  unfold Obligations.TablesRegroupsAndHalos
  intro s h e rest v c b x xb idle quiet hu
  refine ⟨fun hs hok hrows hhalos hue hheaders hn => ?mtable, fun f toSpace hs hkind hrows hue hn => ?regroup, ?splice,
    fun sp hsp hwritten hsound => ?acked,
    fun hs hflags hrow0 hnrows hparity hhitch hdst hrsv hdstHalo hrsv2 hparams hblock hue => ?release⟩
  case mtable =>
    refine ⟨_, exec_onHead (i := .mtable h) rfl hu hs, ?_⟩
    rw [State.mtableHead_of_valid rfl rfl hok hrows hhalos hue hheaders hn]
    exact State.storeWritten_spec hs.1 ..
  case regroup =>
    refine ⟨_, exec_onHead (i := .regroup h) rfl hu hs, ?_⟩
    rw [State.regroupHead_of_valid rfl hkind hrows hue hn]
    exact State.storeWritten_spec hs.1 ..
  case splice =>
    intro k hs hok hmember hrows hfree hidle hother hue hwhole
    have hv : s.SpliceValid h e x k := ⟨rfl, rfl, hok, hmember, hrows, hfree, hidle, hother, hue, hwhole⟩
    have hexec := exec_onHead (i := .splice h) rfl hu hs
    refine ⟨fun hcount => ⟨_, hexec, hv.granted hs.1 hcount⟩, fun hcount => ⟨_, hexec, ?_⟩⟩
    obtain ⟨hwaits, hsplice, hqueue, hstore⟩ := hv.queued hcount
    exact ⟨hwaits, hsplice, hqueue.trans hs.1, hstore⟩
  case acked =>
    intro y hidle hquiet hroom
    obtain ⟨hhearth, hcount, hothers⟩ := State.spliceEnd_signals hsp hwritten hsound rfl hidle hquiet hroom
    refine ⟨s.spliceEnd h true, exec_spliceAcked hu true, ?_, hcount, hothers, ?_⟩
    · rw [hhearth]
      rfl
    · rw [hhearth]
      rfl
  case release =>
    intro k hidle hquiet hroom
    have hvalid : ReleaseValid v.store x :=
      ⟨hflags, hrow0, hnrows, hparity, hhitch, hdst, hrsv, hdstHalo, hrsv2, hparams, hblock⟩
    obtain ⟨hhearth, hcount, hothers⟩ := State.releaseHead_signals rfl rfl hvalid hue rfl hidle hquiet hroom
    refine ⟨_, exec_onHead (i := .release h) rfl hu hs, ?_, hcount, hothers, ?_, ?_⟩
    · rw [State.queueOf, hhearth]
      change ((s.hearth h).popQueue 4).queues.look _ 4 = rest
      rw [State.queues_popQueue_of_head hs.1, SMap.look_put_same]
    · rw [hhearth]
      exact Hearth.present_released ..
    · rw [hhearth]
      rfl

end Sys2Proof.Machine
end

section
/-! PROOF. The register files of a Kindling core: the hardwired registers, and a read after a write (R183). -/

namespace Sys2Proof.Machine

variable (k : Core)

@[simp] theorem Core.readX_zero : k.readX 0 = 0 := rfl
@[simp] theorem Core.readP_zero : k.readP 0 = 0xFFFFFFFF := rfl
@[simp] theorem Core.writeX_zero (v : DWord) : k.writeX 0 v = k := rfl
@[simp] theorem Core.writeP_zero (v : Word) : k.writeP 0 v = k := rfl

theorem Core.readX_writeX {r : BitVec 5} (v : DWord) (q : BitVec 5) (hr : r ≠ 0) :
    (k.writeX r v).readX q = if q = r then v else k.readX q := by
  rw [Core.writeX, if_neg hr, Core.readX, Core.readX, SMap.look_put]
  simp only [BitVec.toNat_inj]
  by_cases hq : q = 0
  · rw [if_pos hq, if_pos hq, if_neg (hq ▸ hr.symm)]
  · rw [if_neg hq, if_neg hq]

theorem Core.readP_writeP {r : BitVec 3} (v : Word) (q : BitVec 3) (hr : r ≠ 0) :
    (k.writeP r v).readP q = if q = r then v else k.readP q := by
  rw [Core.writeP, if_neg hr, Core.readP, Core.readP, SMap.look_put]
  simp only [BitVec.toNat_inj]
  by_cases hq : q = 0
  · rw [if_pos hq, if_pos hq, if_neg (hq ▸ hr.symm)]
  · rw [if_neg hq, if_neg hq]

theorem Core.readV_writeV (r q : BitVec 5) (v : VWord) :
    (k.writeV r v).readV q = if q = r then v else k.readV q := by
  rw [Core.writeV, Core.readV, SMap.look_put]
  exact if_congr BitVec.toNat_inj rfl rfl

@[simp] theorem Core.writeX_v (r : BitVec 5) (v : DWord) : (k.writeX r v).v = k.v := by
  rw [Core.writeX]; split <;> rfl
@[simp] theorem Core.writeX_p (r : BitVec 5) (v : DWord) : (k.writeX r v).p = k.p := by
  rw [Core.writeX]; split <;> rfl
@[simp] theorem Core.writeP_x (r : BitVec 3) (v : Word) : (k.writeP r v).x = k.x := by
  rw [Core.writeP]; split <;> rfl
@[simp] theorem Core.writeP_v (r : BitVec 3) (v : Word) : (k.writeP r v).v = k.v := by
  rw [Core.writeP]; split <;> rfl

/-- Settles O6: each file by a read after a write of its own, and by the field that the other writes leave. -/
theorem hardwiredRegisters : Obligations.HardwiredRegisters := by
  unfold Obligations.HardwiredRegisters
  intro k
  refine ⟨k.readX_zero, k.readP_zero, k.writeX_zero, k.writeP_zero, fun r v q => k.readX_writeX v q,
    fun r v q => k.readP_writeP v q, fun r v q => k.readV_writeV r q v, ?_, ?_, fun _ _ _ => rfl, fun _ _ _ => rfl, ?_, ?_⟩
  · intro r v q
    rw [Core.readV, Core.writeX_v, Core.readV]
  · intro r v q
    rw [Core.readP, Core.writeX_p, Core.readP]
  · intro r v q
    rw [Core.readX, Core.writeP_x, Core.readX]
  · intro r v q
    rw [Core.readV, Core.writeP_v, Core.readV]

end Sys2Proof.Machine
end

section
/-! PROOF. The decoder of the Kindling cores: when a word agrees with each format's encoding, what the word then decodes
to, and that a legal word agrees with the encoding of what it decodes to (R186, R187, R190). -/

namespace Sys2Proof.Machine

variable {h c : Nat} {w : Word}

/-! ### Words that agree on a mask -/

/-- Words agree on the bits of a mask if they have in common the fields (low bit, width) that it consists of. -/
theorem agree_iff_fields {v m : Word} (fs : List (Nat × Nat))
    (hcover : ∀ i < 32, m.getLsbD i = fs.any fun f => decide (f.1 ≤ i) && decide (i < f.1 + f.2))
    (hfit : ∀ f ∈ fs, f.1 + f.2 ≤ 32) :
    w &&& m = v &&& m ↔ ∀ f ∈ fs, w.extractLsb' f.1 f.2 = v.extractLsb' f.1 f.2 := by
  constructor
  · intro hw f hf
    refine BitVec.eq_of_getLsbD_eq fun j hj => ?_
    have hfit := hfit f hf
    have hbit := congrArg (BitVec.getLsbD · (f.1 + j)) hw
    have hm : m.getLsbD (f.1 + j) = true := by
      rw [hcover _ (by omega), List.any_eq_true]
      exact ⟨f, hf, by simp; omega⟩
    simpa [hm, hj] using hbit
  · intro hf
    refine BitVec.eq_of_getLsbD_eq fun i hi => ?_
    rw [BitVec.getLsbD_and, BitVec.getLsbD_and]
    by_cases hm : m.getLsbD i
    · obtain ⟨f, hmem, hin⟩ := List.any_eq_true.1 ((hcover i hi).symm.trans hm)
      obtain ⟨hlo, hhi⟩ : f.1 ≤ i ∧ i < f.1 + f.2 := by simpa using hin
      have hbit := congrArg (BitVec.getLsbD · (i - f.1)) (hf f hmem)
      simp only [BitVec.getLsbD_extractLsb', Nat.add_sub_cancel' hlo, decide_eq_true (show i - f.1 < f.2 by omega),
        Bool.true_and] at hbit
      rw [hbit]
    · rw [Bool.eq_false_iff.2 hm, Bool.and_false, Bool.and_false]

theorem extract_one_eq_iff {i : Nat} {b : Bool} : w.extractLsb' i 1 = (if b then 1 else 0) ↔ w.getLsbD i = b := by
  have hbits : w.extractLsb' i 1 = if w.getLsbD i then 1 else 0 := by
    refine BitVec.eq_of_getLsbD_eq fun j hj => ?_
    obtain rfl : j = 0 := by omega
    rw [BitVec.getLsbD_extractLsb']
    cases w.getLsbD i <;> rfl
  rw [hbits]
  cases w.getLsbD i <;> cases b <;> decide

/-! ### Agreement with each format, field by field (R186) -/

theorem agree_encA {fn : BitVec 11} {rd rs1 rs2 : BitVec 5} : w &&& maskAll = encA fn rd rs1 rs2 &&& maskAll ↔
    w.extractLsb' 26 6 = 0 ∧ fD w = rd ∧ f1 w = rs1 ∧ f2 w = rs2 ∧ w.extractLsb' 0 11 = fn := by
  rw [agree_iff_fields [(26, 6), (21, 5), (16, 5), (11, 5), (0, 11)] (by decide) (by decide)]
  simp (disch := decide) only [List.forall_mem_cons, encA, BitVec.extractLsb'_append_eq_of_le,
    BitVec.extractLsb'_append_eq_of_add_le, Nat.reduceSub, BitVec.extractLsb'_eq_self]
  simp [fD, f1, f2]

theorem agree_encode5 {op : BitVec 6} {a b : BitVec 5} {rest : BitVec 16} :
    w &&& maskAll = encode5 op a b rest &&& maskAll ↔
      w.extractLsb' 26 6 = op ∧ fD w = a ∧ f1 w = b ∧ fImm w = rest := by
  rw [agree_iff_fields [(26, 6), (21, 5), (16, 5), (0, 16)] (by decide) (by decide)]
  simp (disch := decide) only [List.forall_mem_cons, encode5, BitVec.extractLsb'_append_eq_of_le,
    BitVec.extractLsb'_append_eq_of_add_le, Nat.reduceSub, BitVec.extractLsb'_eq_self]
  simp [fD, f1, fImm]

theorem agree_encBP {op : BitVec 6} {pr : BitVec 3} {off : BitVec 16} :
    w &&& maskPd = encBP op pr off &&& maskPd ↔
      w.extractLsb' 26 6 = op ∧ fPd w = pr ∧ f1 w = 0 ∧ fImm w = off := by
  rw [agree_iff_fields [(26, 6), (21, 3), (16, 5), (0, 16)] (by decide) (by decide)]
  simp (disch := decide) only [List.forall_mem_cons, encBP, encode5, BitVec.extractLsb'_append_eq_of_le,
    BitVec.extractLsb'_append_eq_of_add_le, Nat.reduceSub, BitVec.extractLsb'_eq_self]
  simp [fPd, f1, fImm]

theorem agree_encV {op : BitVec 6} {fn : BitVec 7} {vd vs1 vs2 : BitVec 5} {pr : BitVec 3} {w16 : Bool} : w &&& maskAll = encV op fn vd vs1 vs2 pr w16 &&& maskAll ↔
    w.extractLsb' 26 6 = op ∧ fD w = vd ∧ f1 w = vs1 ∧ f2 w = vs2 ∧ fPr w = pr ∧ f16 w = w16 ∧ w.extractLsb' 0 7 = fn := by
  rw [agree_iff_fields [(26, 6), (21, 5), (16, 5), (11, 5), (8, 3), (7, 1), (0, 7)] (by decide) (by decide)]
  simp (disch := decide) only [List.forall_mem_cons, encV, extract_one_eq_iff, BitVec.extractLsb'_append_eq_of_le,
    BitVec.extractLsb'_append_eq_of_add_le, Nat.reduceSub, BitVec.extractLsb'_eq_self]
  simp [fD, f1, f2, fPr, f16]

theorem agree_encVP {op : BitVec 6} {fn : BitVec 7} {pd : BitVec 3} {vs1 vs2 : BitVec 5} {pr : BitVec 3} {w16 : Bool} : w &&& maskPd = encVP op fn pd vs1 vs2 pr w16 &&& maskPd ↔
    w.extractLsb' 26 6 = op ∧ fPd w = pd ∧ f1 w = vs1 ∧ f2 w = vs2 ∧ fPr w = pr ∧ f16 w = w16 ∧ w.extractLsb' 0 7 = fn := by
  rw [agree_iff_fields [(26, 6), (21, 3), (16, 5), (11, 5), (8, 3), (7, 1), (0, 7)] (by decide) (by decide)]
  simp (disch := decide) only [List.forall_mem_cons, encVP, encV, extract_one_eq_iff, BitVec.extractLsb'_append_eq_of_le,
    BitVec.extractLsb'_append_eq_of_add_le, Nat.reduceSub, BitVec.extractLsb'_eq_self]
  simp [fPd, f1, f2, fPr, f16]

theorem agree_encK_kissue {op : BitVec 6} {rs1 rd : BitVec 5} {target : BitVec 3} {off : BitVec 12} : w &&& maskKissue = encK op rs1 rd target off &&& maskKissue ↔
    w.extractLsb' 26 6 = op ∧ fD w = rs1 ∧ w.extractLsb' 13 3 = target ∧ w.extractLsb' 12 1 = 0 ∧ w.extractLsb' 0 12 = off := by
  rw [agree_iff_fields [(26, 6), (21, 5), (13, 3), (12, 1), (0, 12)] (by decide) (by decide)]
  simp (disch := decide) only [List.forall_mem_cons, encK, BitVec.extractLsb'_append_eq_of_le,
    BitVec.extractLsb'_append_eq_of_add_le, Nat.reduceSub, BitVec.extractLsb'_eq_self]
  simp [fD]

theorem agree_encK_kwait {op : BitVec 6} {rs1 rd : BitVec 5} {target : BitVec 3} {off : BitVec 12} : w &&& maskKwait = encK op rs1 rd target off &&& maskKwait ↔
    w.extractLsb' 26 6 = op ∧ w.extractLsb' 13 3 = target ∧ w.extractLsb' 12 1 = 0 := by
  rw [agree_iff_fields [(26, 6), (13, 3), (12, 1)] (by decide) (by decide)]
  simp (disch := decide) only [List.forall_mem_cons, encK, BitVec.extractLsb'_append_eq_of_le,
    BitVec.extractLsb'_append_eq_of_add_le, Nat.reduceSub, BitVec.extractLsb'_eq_self]
  simp

theorem agree_encK_kpoll {op : BitVec 6} {rs1 rd : BitVec 5} {target : BitVec 3} {off : BitVec 12} : w &&& maskKpoll = encK op rs1 rd target off &&& maskKpoll ↔
    w.extractLsb' 26 6 = op ∧ f1 w = rd ∧ w.extractLsb' 13 3 = target ∧ w.extractLsb' 12 1 = 0 := by
  rw [agree_iff_fields [(26, 6), (16, 5), (13, 3), (12, 1)] (by decide) (by decide)]
  simp (disch := decide) only [List.forall_mem_cons, encK, BitVec.extractLsb'_append_eq_of_le,
    BitVec.extractLsb'_append_eq_of_add_le, Nat.reduceSub, BitVec.extractLsb'_eq_self]
  simp [f1]

theorem agree_encH {oper : BitVec 3} {rd rs1 rs2 : BitVec 5} : w &&& maskAll = encH oper rd rs1 rs2 &&& maskAll ↔
    w.extractLsb' 26 6 = 0x3C ∧ fD w = rd ∧ f1 w = rs1 ∧ f2 w = rs2 ∧ w.extractLsb' 3 8 = 0 ∧ w.extractLsb' 0 3 = oper := by
  rw [agree_iff_fields [(26, 6), (21, 5), (16, 5), (11, 5), (3, 8), (0, 3)] (by decide) (by decide)]
  simp (disch := decide) only [List.forall_mem_cons, encH, BitVec.extractLsb'_append_eq_of_le,
    BitVec.extractLsb'_append_eq_of_add_le, Nat.reduceSub, BitVec.extractLsb'_eq_self]
  simp [fD, f1, f2]

theorem agree_encSys {oper : BitVec 8} {v : BitVec 12} : w &&& maskSys = encSys v oper &&& maskSys ↔
    w.extractLsb' 26 6 = 0x3E ∧ w.extractLsb' 20 6 = 0 ∧ w.extractLsb' 0 8 = oper := by
  rw [agree_iff_fields [(26, 6), (20, 6), (0, 8)] (by decide) (by decide)]
  simp (disch := decide) only [List.forall_mem_cons, encSys, BitVec.extractLsb'_append_eq_of_le,
    BitVec.extractLsb'_append_eq_of_add_le, Nat.reduceSub, BitVec.extractLsb'_eq_self]
  simp

theorem agree_encSys_trap {oper : BitVec 8} {v : BitVec 12} : w &&& maskTrap = encSys v oper &&& maskTrap ↔
    w.extractLsb' 26 6 = 0x3E ∧ w.extractLsb' 20 6 = 0 ∧ w.extractLsb' 8 8 = v.extractLsb' 0 8 ∧ w.extractLsb' 0 8 = oper := by
  rw [agree_iff_fields [(26, 6), (20, 6), (8, 8), (0, 8)] (by decide) (by decide)]
  simp (disch := decide) only [List.forall_mem_cons, encSys, BitVec.extractLsb'_append_eq_of_le,
    BitVec.extractLsb'_append_eq_of_add_le, Nat.reduceSub, BitVec.extractLsb'_eq_self]
  simp

theorem agree_encSys_setd {oper : BitVec 8} {v : BitVec 12} : w &&& maskAll = encSys v oper &&& maskAll ↔
    w.extractLsb' 26 6 = 0x3E ∧ w.extractLsb' 20 6 = 0 ∧ w.extractLsb' 8 12 = v ∧ w.extractLsb' 0 8 = oper := by
  rw [agree_iff_fields [(26, 6), (20, 6), (8, 12), (0, 8)] (by decide) (by decide)]
  simp (disch := decide) only [List.forall_mem_cons, encSys, BitVec.extractLsb'_append_eq_of_le,
    BitVec.extractLsb'_append_eq_of_add_le, Nat.reduceSub, BitVec.extractLsb'_eq_self]
  simp

theorem agree_encBlk {adj : Bool} {d sig : BitVec 12} : w &&& maskAll = encBlk adj d sig &&& maskAll ↔
    w.extractLsb' 26 6 = 0x3F ∧ w.getLsbD 25 = adj ∧ w.extractLsb' 24 1 = 0 ∧ w.extractLsb' 12 12 = d ∧
      w.extractLsb' 0 12 = sig := by
  rw [agree_iff_fields [(26, 6), (25, 1), (24, 1), (12, 12), (0, 12)] (by decide) (by decide)]
  simp (disch := decide) only [List.forall_mem_cons, encBlk, extract_one_eq_iff, BitVec.extractLsb'_append_eq_of_le,
    BitVec.extractLsb'_append_eq_of_add_le, Nat.reduceSub, BitVec.extractLsb'_eq_self]
  simp

/-! ### The instruction that a word spells -/

theorem extract_zeroExtend {k n : Nat} (hk : k ≤ n) (x : BitVec k) : (x.zeroExtend n).extractLsb' 0 k = x := by
  apply BitVec.eq_of_toNat_eq
  have hx := x.isLt
  have hle : 2 ^ k ≤ 2 ^ n := Nat.pow_le_pow_right (by decide) hk
  rw [BitVec.extractLsb'_toNat, Nat.shiftRight_zero, BitVec.toNat_setWidth, Nat.mod_eq_of_lt (hx.trans_le hle), Nat.mod_eq_of_lt hx]

theorem field_of_extract {lo n : Nat} {x : BitVec n} (hx : w.extractLsb' lo n = x) : field w lo n = x.toNat := by
  rw [field_eq_extract, hx]

theorem extract_of_field {lo n : Nat} {x : BitVec n} (hx : field w lo n = x.toNat) : w.extractLsb' lo n = x :=
  BitVec.eq_of_toNat_eq (by rw [← field_eq_extract, hx])

theorem kdecode_of_legal {op : BitVec 6} (hl : legalWord w = true) (hop : w.extractLsb' 26 6 = op) :
    kdecode h c w = kdecodeOp h c w op.toNat := by
  rw [kdecode, if_pos hl, field_of_extract hop]

/-- Settles O8: each instruction by its format. -/
theorem kindlingDecodeOfEncode : Obligations.KindlingDecodeOfEncode := by
  unfold Obligations.KindlingDecodeOfEncode
  intro i h c v m w hi hl hw
  cases i
  case add | sub | and | or | xor | sll | srl | sra | slt | sltu | min | max | minu | maxu | mul | mulh | mulhu | div
      | divu | rem | remu =>
    cases hi
    obtain ⟨hop, rfl, rfl, rfl, hfn⟩ := agree_encA.1 hw
    exact (kdecode_of_legal hl hop).trans (congrArg (kdecodeA h c w) (field_of_extract hfn))
  case addi | andi | ori | xori | slli | srli | srai | slti | sltiu | lui | jalr | csrr | csrw | lb | lbu | lh | lhu | lw
      | lwu | ld | sb | sh | sw | sd | vld | vst | setw | clrw | beq | bne | blt | bge | bltu | bgeu =>
    cases hi
    obtain ⟨hop, rfl, rfl, rfl⟩ := agree_encode5.1 hw
    exact kdecode_of_legal hl hop
  case jal =>
    cases hi
    obtain ⟨hop, rfl, -, rfl⟩ := agree_encode5.1 hw
    exact kdecode_of_legal hl hop
  case bpany | bpnone =>
    cases hi
    obtain ⟨hop, rfl, -, rfl⟩ := agree_encBP.1 hw
    exact kdecode_of_legal hl hop
  case vadd | vsub | vadds | vmul | vmulh | vmac | vmacw | vrshr | vrshrw | vsll | vsra | vsrl | vand | vor | vxor | vmin
      | vmax | vminu | vmaxu | vlut | vsel =>
    cases hi
    obtain ⟨hop, rfl, rfl, rfl, rfl, rfl, hfn⟩ := agree_encV.1 hw
    exact (kdecode_of_legal hl hop).trans (congrArg (kdecodeV30 h c w) (field_of_extract hfn))
  case vcmpeq | vcmplt | vcmpltu =>
    cases hi
    obtain ⟨hop, rfl, rfl, rfl, rfl, rfl, hfn⟩ := agree_encVP.1 hw
    exact (kdecode_of_legal hl hop).trans (congrArg (kdecodeV30 h c w) (field_of_extract hfn))
  case vfadd | vfsub | vfmul | vfma | vfmin | vfmax =>
    cases hi
    obtain ⟨hop, rfl, rfl, rfl, rfl, rfl, hfn⟩ := agree_encV.1 hw
    exact (kdecode_of_legal hl hop).trans (congrArg (kdecodeV31 h c w) (field_of_extract hfn))
  case vfcmplt | vfcmpeq =>
    cases hi
    obtain ⟨hop, rfl, rfl, rfl, rfl, rfl, hfn⟩ := agree_encVP.1 hw
    exact (kdecode_of_legal hl hop).trans (congrArg (kdecodeV31 h c w) (field_of_extract hfn))
  case vcvtif | vcvtfi | vcvtfb | vcvtbf | vcvtfh | vcvthf | vbcast | vmvx | vredadd | vfredadd | vredmax =>
    cases hi
    obtain ⟨hop, rfl, rfl, rfl, rfl, rfl, hfn⟩ := agree_encV.1 hw
    exact (kdecode_of_legal hl hop).trans (congrArg (kdecodeV32 h c w) (field_of_extract hfn))
  case pand | por | pxor | pnot | psetn =>
    cases hi
    obtain ⟨hop, rfl, rfl, rfl, rfl, rfl, hfn⟩ := agree_encVP.1 hw
    exact (kdecode_of_legal hl hop).trans (congrArg (kdecodeV32 h c w) (field_of_extract hfn))
  case vtex =>
    cases hi
    obtain ⟨hop, rfl, rfl, rfl, rfl, rfl, -⟩ := agree_encV.1 hw
    exact kdecode_of_legal hl hop
  case kissue =>
    cases hi
    obtain ⟨hop, rfl, rfl, -, rfl⟩ := agree_encK_kissue.1 hw
    exact kdecode_of_legal hl hop
  case kwait =>
    cases hi
    obtain ⟨hop, rfl, -⟩ := agree_encK_kwait.1 hw
    exact kdecode_of_legal hl hop
  case kpoll =>
    cases hi
    obtain ⟨hop, rfl, rfl, -⟩ := agree_encK_kpoll.1 hw
    exact kdecode_of_legal hl hop
  case signal | wait | arm =>
    cases hi
    obtain ⟨hop, -, rfl, rfl, -, hfn⟩ := agree_encH.1 hw
    exact (kdecode_of_legal hl hop).trans (congrArg (kdecodeH h c w) (field_of_extract hfn))
  case trywait =>
    cases hi
    obtain ⟨hop, rfl, rfl, rfl, -, hfn⟩ := agree_encH.1 hw
    exact (kdecode_of_legal hl hop).trans (congrArg (kdecodeH h c w) (field_of_extract hfn))
  case nop | halt | fence | ppoint =>
    cases hi
    obtain ⟨hop, -, hfn⟩ := agree_encSys.1 hw
    exact (kdecode_of_legal hl hop).trans (congrArg (kdecodeSys h c w) (field_of_extract hfn))
  case trap code =>
    cases hi
    obtain ⟨hop, -, hcode, hfn⟩ := agree_encSys_trap.1 hw
    rw [extract_zeroExtend (by decide)] at hcode
    obtain rfl := hcode
    exact (kdecode_of_legal hl hop).trans (congrArg (kdecodeSys h c w) (field_of_extract hfn))
  case setd =>
    cases hi
    obtain ⟨hop, -, rfl, hfn⟩ := agree_encSys_setd.1 hw
    exact (kdecode_of_legal hl hop).trans (congrArg (kdecodeSys h c w) (field_of_extract hfn))
  case blk =>
    cases hi
    obtain ⟨hop, rfl, -, rfl, rfl⟩ := agree_encBlk.1 hw
    exact kdecode_of_legal hl hop
  all_goals cases hi

/-! ### A legal word agrees with the encoding of what it spells -/

/-- A decoder answers an instruction of core c of Hearth h whose encoding `w` agrees with. -/
def Spells (h c : Nat) (w : Word) (o : Option Instr) : Prop :=
  ∃ i v m, o = some i ∧ kword i = some ((h, c), v, m) ∧ w &&& m = v &&& m

theorem kdecodeA_spells (hop : w.extractLsb' 26 6 = 0)
    (hfn : field w 0 11 ≤ 0xD ∨ 0x10 ≤ field w 0 11 ∧ field w 0 11 ≤ 0x16) :
    Spells h c w (kdecodeA h c w (field w 0 11)) := by
  generalize hf : field w 0 11 = fn at hfn ⊢
  have hw {x : BitVec 11} (hx : fn = x.toNat) : w &&& maskAll = encA x (fD w) (f1 w) (f2 w) &&& maskAll :=
    agree_encA.2 ⟨hop, rfl, rfl, rfl, extract_of_field (hf.trans hx)⟩
  rcases hfn with hfn | ⟨hlo, hhi⟩ <;> interval_cases fn <;> exact ⟨_, _, _, rfl, rfl, hw rfl⟩

theorem kdecodeOp_spells_encode5 {op : Nat} (hop : field w 26 6 = op)
    (hr : 1 ≤ op ∧ op ≤ 0xD ∨ 0x10 ≤ op ∧ op ≤ 0x1E ∨ 0x20 ≤ op ∧ op ≤ 0x25) : Spells h c w (kdecodeOp h c w op) := by
  have hw {x : BitVec 6} (hx : op = x.toNat) : w &&& maskAll = encode5 x (fD w) (f1 w) (fImm w) &&& maskAll :=
    agree_encode5.2 ⟨extract_of_field (hop.trans hx), rfl, rfl, rfl⟩
  rcases hr with ⟨hlo, hhi⟩ | ⟨hlo, hhi⟩ | ⟨hlo, hhi⟩ <;> interval_cases op <;> exact ⟨_, _, _, rfl, rfl, hw rfl⟩

theorem kdecodeV30_spells (hop : w.extractLsb' 26 6 = 0x30) (hfn : field w 0 7 ≤ 0x17) :
    Spells h c w (kdecodeV30 h c w (field w 0 7)) := by
  generalize hf : field w 0 7 = fn at hfn ⊢
  have hv {x : BitVec 7} (hx : fn = x.toNat) :=
    agree_encV.2 ⟨hop, rfl, rfl, rfl, rfl, rfl, extract_of_field (hf.trans hx)⟩
  have hp {x : BitVec 7} (hx : fn = x.toNat) :=
    agree_encVP.2 ⟨hop, rfl, rfl, rfl, rfl, rfl, extract_of_field (hf.trans hx)⟩
  obtain hlow | ⟨hlo, hhi⟩ | rfl : fn ≤ 0x13 ∨ (0x14 ≤ fn ∧ fn ≤ 0x16) ∨ fn = 0x17 := by omega
  · interval_cases fn <;> exact ⟨_, _, _, rfl, rfl, hv rfl⟩
  · interval_cases fn <;> exact ⟨_, _, _, rfl, rfl, hp rfl⟩
  · exact ⟨_, _, _, rfl, rfl, hv rfl⟩

theorem kdecodeV31_spells (hop : w.extractLsb' 26 6 = 0x31) (hfn : field w 0 7 ≤ 7) :
    Spells h c w (kdecodeV31 h c w (field w 0 7)) := by
  generalize hf : field w 0 7 = fn at hfn ⊢
  have hv {x : BitVec 7} (hx : fn = x.toNat) :=
    agree_encV.2 ⟨hop, rfl, rfl, rfl, rfl, rfl, extract_of_field (hf.trans hx)⟩
  have hp {x : BitVec 7} (hx : fn = x.toNat) :=
    agree_encVP.2 ⟨hop, rfl, rfl, rfl, rfl, rfl, extract_of_field (hf.trans hx)⟩
  obtain hlow | hlo : fn ≤ 5 ∨ 6 ≤ fn := by omega
  · interval_cases fn <;> exact ⟨_, _, _, rfl, rfl, hv rfl⟩
  · interval_cases fn <;> exact ⟨_, _, _, rfl, rfl, hp rfl⟩

theorem kdecodeV32_spells (hop : w.extractLsb' 26 6 = 0x32) (hfn : field w 0 7 ≤ 0x0F) :
    Spells h c w (kdecodeV32 h c w (field w 0 7)) := by
  generalize hf : field w 0 7 = fn at hfn ⊢
  have hv {x : BitVec 7} (hx : fn = x.toNat) :=
    agree_encV.2 ⟨hop, rfl, rfl, rfl, rfl, rfl, extract_of_field (hf.trans hx)⟩
  have hp {x : BitVec 7} (hx : fn = x.toNat) :=
    agree_encVP.2 ⟨hop, rfl, rfl, rfl, rfl, rfl, extract_of_field (hf.trans hx)⟩
  obtain hlow | hlo : fn ≤ 0x0A ∨ 0x0B ≤ fn := by omega
  · interval_cases fn <;> exact ⟨_, _, _, rfl, rfl, hv rfl⟩
  · interval_cases fn <;> exact ⟨_, _, _, rfl, rfl, hp rfl⟩

theorem kdecodeH_spells (hop : w.extractLsb' 26 6 = 0x3C) (hzero : w.extractLsb' 3 8 = 0) (hfn : field w 0 3 ≤ 3)
    (hrd : field w 0 3 = 2 ∨ fD w = 0) : Spells h c w (kdecodeH h c w (field w 0 3)) := by
  generalize hf : field w 0 3 = fn at hfn hrd ⊢
  have hw {x : BitVec 3} (hx : fn = x.toNat) : w &&& maskAll = encH x (fD w) (f1 w) (f2 w) &&& maskAll :=
    agree_encH.2 ⟨hop, rfl, rfl, rfl, hzero, extract_of_field (hf.trans hx)⟩
  rcases hrd with rfl | hrd
  · exact ⟨_, _, _, rfl, rfl, hw rfl⟩
  · have hw' {x : BitVec 3} (hx : fn = x.toNat) : w &&& maskAll = encH x 0 (f1 w) (f2 w) &&& maskAll := hrd ▸ hw hx
    obtain hlow | rfl | rfl : fn ≤ 1 ∨ fn = 2 ∨ fn = 3 := by omega
    · interval_cases fn <;> exact ⟨_, _, _, rfl, rfl, hw' rfl⟩
    · exact ⟨_, _, _, rfl, rfl, hw rfl⟩
    · exact ⟨_, _, _, rfl, rfl, hw' rfl⟩

theorem kdecodeSys_spells (hop : w.extractLsb' 26 6 = 0x3E) (hzero : w.extractLsb' 20 6 = 0) (hfn : field w 0 8 ≤ 5) :
    Spells h c w (kdecodeSys h c w (field w 0 8)) := by
  generalize hf : field w 0 8 = fn at hfn ⊢
  have hx {x : BitVec 8} (hx : fn = x.toNat) : w.extractLsb' 0 8 = x := extract_of_field (hf.trans hx)
  obtain hlow | rfl | rfl : fn ≤ 3 ∨ fn = 4 ∨ fn = 5 := by omega
  · interval_cases fn <;> exact ⟨_, _, _, rfl, rfl, agree_encSys.2 ⟨hop, hzero, hx rfl⟩⟩
  · exact ⟨_, _, _, rfl, rfl, agree_encSys_trap.2 ⟨hop, hzero, (extract_zeroExtend (by decide) _).symm, hx rfl⟩⟩
  · exact ⟨_, _, _, rfl, rfl, agree_encSys_setd.2 ⟨hop, hzero, rfl, hx rfl⟩⟩

theorem kdecodeOp_spells_encK {op : Nat} (hop : field w 26 6 = op) (hr : 0x38 ≤ op ∧ op ≤ 0x3A)
    (hzero : w.extractLsb' 12 1 = 0) : Spells h c w (kdecodeOp h c w op) := by
  obtain rfl | rfl | rfl : op = 0x38 ∨ op = 0x39 ∨ op = 0x3A := by omega
  · exact ⟨_, _, _, rfl, rfl, agree_encK_kissue.2 ⟨extract_of_field (x := 0x38#6) hop, rfl, rfl, hzero, rfl⟩⟩
  · exact ⟨_, _, _, rfl, rfl, agree_encK_kwait.2 ⟨extract_of_field (x := 0x39#6) hop, rfl, hzero⟩⟩
  · exact ⟨_, _, _, rfl, rfl, agree_encK_kpoll.2 ⟨extract_of_field (x := 0x3A#6) hop, rfl, rfl, hzero⟩⟩

/-- A vector word that is legal: an operation of its major opcode, or VTEX. -/
theorem kdecodeOp_spells_vector {op : Nat} (hop : field w 26 6 = op) (hr : 0x30 ≤ op ∧ op ≤ 0x33)
    (hl : vecLegal w = true) : Spells h c w (kdecodeOp h c w op) := by
  rw [vecLegal, hop] at hl
  obtain rfl | rfl | rfl | rfl : op = 0x30 ∨ op = 0x31 ∨ op = 0x32 ∨ op = 0x33 := by omega
  · exact kdecodeV30_spells (extract_of_field (x := 0x30#6) hop) (by simp at hl; exact hl.1.1)
  · exact kdecodeV31_spells (extract_of_field (x := 0x31#6) hop) (by simpa using hl)
  · exact kdecodeV32_spells (extract_of_field (x := 0x32#6) hop) (by simpa using hl)
  · have hfn : field w 0 7 = 0 := by simp at hl; exact hl.1
    exact ⟨_, _, _, rfl, rfl, agree_encV.2 ⟨extract_of_field (x := 0x33#6) hop, rfl, rfl, rfl, rfl, rfl,
      extract_of_field (x := 0#7) hfn⟩⟩

/-- Every legal word spells an instruction, whose encoding it agrees with. -/
theorem kdecodeOp_spells (hl : legalWord w = true) : Spells h c w (kdecodeOp h c w (field w 26 6)) := by
  generalize hop : field w 26 6 = op
  have hf1 (h0 : field w 16 5 = 0) : f1 w = 0 := extract_of_field (x := 0#5) h0
  rw [legalWord, hop] at hl
  dsimp only at hl
  by_cases h0 : op = 0
  · rw [if_pos h0] at hl
    rw [h0] at hop ⊢
    exact kdecodeA_spells (extract_of_field (x := 0#6) hop) (by simpa using hl)
  rw [if_neg h0] at hl
  by_cases hI : op ≤ 0xB
  · exact kdecodeOp_spells_encode5 hop (by omega)
  rw [if_neg hI] at hl
  by_cases hCsrr : op = 0xC
  · exact kdecodeOp_spells_encode5 hop (by omega)
  rw [if_neg hCsrr] at hl
  by_cases hCsrw : op = 0xD
  · exact kdecodeOp_spells_encode5 hop (by omega)
  rw [if_neg hCsrw] at hl
  by_cases hM : 0x10 ≤ op ∧ op ≤ 0x1E
  · exact kdecodeOp_spells_encode5 hop (by omega)
  rw [if_neg hM] at hl
  by_cases hB : 0x20 ≤ op ∧ op ≤ 0x25
  · exact kdecodeOp_spells_encode5 hop (by omega)
  rw [if_neg hB] at hl
  by_cases hJal : op = 0x26
  · rw [if_pos hJal] at hl
    subst hJal
    exact ⟨_, _, _, rfl, rfl, agree_encode5.2 ⟨extract_of_field (x := 0x26#6) hop, rfl, hf1 (by simpa using hl), rfl⟩⟩
  rw [if_neg hJal] at hl
  by_cases hBp : op = 0x27 ∨ op = 0x28
  · rw [if_pos hBp] at hl
    have hrs1 := hf1 (by simpa using hl)
    rcases hBp with rfl | rfl
    · exact ⟨_, _, _, rfl, rfl, agree_encBP.2 ⟨extract_of_field (x := 0x27#6) hop, rfl, hrs1, rfl⟩⟩
    · exact ⟨_, _, _, rfl, rfl, agree_encBP.2 ⟨extract_of_field (x := 0x28#6) hop, rfl, hrs1, rfl⟩⟩
  rw [if_neg hBp] at hl
  by_cases hV : 0x30 ≤ op ∧ op ≤ 0x33
  · rw [if_pos hV] at hl
    exact kdecodeOp_spells_vector hop hV hl
  rw [if_neg hV] at hl
  by_cases hK : 0x38 ≤ op ∧ op ≤ 0x3A
  · rw [if_pos hK] at hl
    exact kdecodeOp_spells_encK hop hK (extract_of_field (x := 0#1) (by simpa using hl))
  rw [if_neg hK] at hl
  by_cases hH : op = 0x3C
  · rw [if_pos hH] at hl
    subst hH
    simp only [Bool.and_eq_true, Bool.or_eq_true, beq_iff_eq, decide_eq_true_eq] at hl
    obtain ⟨⟨hzero, hfn⟩, hrd⟩ := hl
    exact kdecodeH_spells (extract_of_field (x := 0x3C#6) hop) (extract_of_field (x := 0#8) hzero) hfn
      (hrd.imp_right fun hrd => extract_of_field (x := 0#5) hrd)
  rw [if_neg hH] at hl
  by_cases hS : op = 0x3E
  · rw [if_pos hS] at hl
    subst hS
    simp only [Bool.and_eq_true, beq_iff_eq, decide_eq_true_eq] at hl
    obtain ⟨hzero, hfn⟩ := hl
    exact kdecodeSys_spells (extract_of_field (x := 0x3E#6) hop) (extract_of_field (x := 0#6) hzero) hfn
  rw [if_neg hS] at hl
  by_cases hBlk : op = 0x3F
  · rw [if_pos hBlk] at hl
    subst hBlk
    exact ⟨_, _, _, rfl, rfl, agree_encBlk.2 ⟨extract_of_field (x := 0x3F#6) hop, rfl,
      extract_of_field (x := 0#1) (by simpa using hl), rfl, rfl⟩⟩
  rw [if_neg hBlk] at hl
  cases hl

/-- Settles O9: a legal word spells an instruction that it agrees with, an illegal one spells none. -/
theorem kindlingEncodeOfDecode : Obligations.KindlingEncodeOfDecode := by
  unfold Obligations.KindlingEncodeOfDecode
  intro h c w
  by_cases hl : legalWord w = true
  · obtain ⟨i, v, m, hi, hword, hagree⟩ := kdecodeOp_spells (h := h) (c := c) hl
    rw [kdecode, if_pos hl, hi, hl]
    exact ⟨rfl, fun j hj => ⟨v, m, Option.some.inj hj ▸ hword, hagree⟩⟩
  · rw [kdecode, if_neg hl, Bool.eq_false_iff.2 hl]
    exact ⟨rfl, fun _ hj => nomatch hj⟩

/-- Settles O7: each word is legal and spells what stands beside it. -/
theorem kindlingExampleWords : Obligations.KindlingExampleWords := by
  unfold Obligations.KindlingExampleWords
  intro h c
  refine ⟨rfl, rfl, rfl, rfl, rfl, rfl, rfl, rfl, rfl, rfl, rfl, rfl, rfl⟩

end Sys2Proof.Machine
end

section
/-! PROOF. The scalar instructions on registers and immediates (R187, R188). -/

namespace Sys2Proof.Machine

variable {s : State} {h c : Nat}

/-! ### What the operations compute -/

theorem sltS_eq_ite (a b : DWord) : sltS a b = if a.slt b then 1 else 0 := rfl
theorem sltU_eq_ite (a b : DWord) : sltU a b = if a.ult b then 1 else 0 := rfl

theorem minS_eq_ite (a b : DWord) : minS a b = if a.slt b then a else b := by
  simp only [minS, BitVec.slt, decide_eq_true_eq]
theorem maxS_eq_ite (a b : DWord) : maxS a b = if a.slt b then b else a := by
  simp only [maxS, BitVec.slt, decide_eq_true_eq]
theorem minU_eq_ite (a b : DWord) : minU a b = if a.ult b then a else b := by
  simp only [minU, BitVec.ult, decide_eq_true_eq]
theorem maxU_eq_ite (a b : DWord) : maxU a b = if a.ult b then b else a := by
  simp only [maxU, BitVec.ult, decide_eq_true_eq]

theorem extract_high_eq_ofInt (x : BitVec 128) : x.extractLsb' 64 64 = BitVec.ofInt 64 (x.toInt / (2 ^ 64 : Nat)) := by
  apply BitVec.eq_of_toNat_eq
  have hx := x.isLt
  rw [BitVec.extractLsb'_toNat, Nat.shiftRight_eq_div_pow, BitVec.toNat_ofInt, BitVec.toInt_eq_toNat_cond]
  split <;> omega

/-- The high half of a signed product is that of the product in 128 bits. -/
theorem mulhS_eq_extract (a b : DWord) :
    mulhS a b = (a.signExtend 128 * b.signExtend 128).extractLsb' 64 64 := by
  have hmul : (a.signExtend 128 * b.signExtend 128).toInt = a.toInt * b.toInt := by
    rw [BitVec.toInt_mul, BitVec.toInt_signExtend_of_le (by decide), BitVec.toInt_signExtend_of_le (by decide)]
    have ha := BitVec.two_mul_toInt_lt (x := a)
    have ha' := BitVec.le_two_mul_toInt (x := a)
    have hb := BitVec.two_mul_toInt_lt (x := b)
    have hb' := BitVec.le_two_mul_toInt (x := b)
    have habs : |a.toInt * b.toInt| ≤ 2 ^ 63 * 2 ^ 63 := by
      rw [abs_mul]
      exact mul_le_mul (abs_le.2 (by omega)) (abs_le.2 (by omega)) (abs_nonneg _) (by decide)
    obtain ⟨hlo, hhi⟩ := abs_le.1 habs
    exact Int.bmod_eq_of_le (by omega) (by omega)
  rw [extract_high_eq_ofInt, hmul, mulhS]

theorem mulhU_eq_extract (a b : DWord) :
    mulhU a b = (a.zeroExtend 128 * b.zeroExtend 128).extractLsb' 64 64 := by
  apply BitVec.eq_of_toNat_eq
  have hlt : a.toNat * b.toNat < 2 ^ 128 := by
    calc a.toNat * b.toNat < 2 ^ 64 * 2 ^ 64 := Nat.mul_lt_mul'' a.isLt b.isLt
      _ = 2 ^ 128 := by decide
  have ha : a.toNat < 2 ^ 128 := a.isLt.trans (by decide)
  have hb : b.toNat < 2 ^ 128 := b.isLt.trans (by decide)
  rw [mulhU, BitVec.extractLsb'_toNat, BitVec.toNat_mul, BitVec.toNat_setWidth, BitVec.toNat_setWidth,
    Nat.mod_eq_of_lt ha, Nat.mod_eq_of_lt hb, Nat.mod_eq_of_lt hlt, Nat.shiftRight_eq_div_pow, BitVec.toNat_ofNat]

theorem divS_eq_sdiv (a b : DWord) : divS a b = if b = 0 then BitVec.allOnes 64 else a.sdiv b := by
  refine if_congr Iff.rfl rfl (BitVec.eq_of_toInt_eq ?_)
  rw [BitVec.toInt_sdiv, BitVec.toInt_ofInt]

theorem remS_eq_srem (a b : DWord) : remS a b = if b = 0 then a else a.srem b := by
  refine if_congr Iff.rfl rfl ?_
  rw [← BitVec.toInt_srem, BitVec.ofInt_toInt]

theorem divU_eq_udiv (a b : DWord) : divU a b = if b = 0 then BitVec.allOnes 64 else a / b := by
  refine if_congr Iff.rfl rfl ?_
  rw [← BitVec.toNat_udiv, BitVec.ofNat_toNat, BitVec.setWidth_eq]

theorem remU_eq_umod (a b : DWord) : remU a b = if b = 0 then a else a % b := by
  refine if_congr Iff.rfl rfl ?_
  rw [← BitVec.toNat_umod, BitVec.ofNat_toNat, BitVec.setWidth_eq]

/-- A register instruction whose operation gives `x` on the core that executes it. -/
theorem CoreDoes.of_coreX_eq {i : Instr} {w v m : Word} {rd : BitVec 5} {f : Core → DWord} {x : DWord}
    (hs : s.standsAt h c w = true)
    (he : exec i s = withUnit (coreOk h c) (s.coreStep h c v m fun s => s.coreX h c rd f))
    (hw : w &&& m = v &&& m) (hx : f (s.core h c) = x) : CoreDoes i s h c fun k => k.writeX rd x :=
  hx ▸ CoreDoes.of_coreX he hs hw

/-- Settles O11: each instruction by what its operation computes. -/
theorem scalarRegisterOps : Obligations.ScalarRegisterOps := by
  unfold Obligations.ScalarRegisterOps
  intro s h c rd rs1 rs2 a b row n
  have holds {fn : BitVec 11} {i : Instr} {f : Core → DWord} {x : DWord}
      (he : exec i s = withUnit (coreOk h c) (s.coreStep h c (encA fn rd rs1 rs2) maskAll fun s => s.coreX h c rd f))
      (hx : f (s.core h c) = x) : row fn i x :=
    fun hs => .of_coreX_eq hs he rfl hx
  clear_value row
  exact ⟨holds rfl rfl, holds rfl rfl, holds rfl rfl, holds rfl rfl, holds rfl rfl, holds rfl rfl, holds rfl rfl,
    holds rfl rfl, holds rfl (sltS_eq_ite ..), holds rfl (sltU_eq_ite ..), holds rfl (minS_eq_ite ..),
    holds rfl (maxS_eq_ite ..), holds rfl (minU_eq_ite ..), holds rfl (maxU_eq_ite ..), holds rfl rfl,
    holds rfl (mulhS_eq_extract ..), holds rfl (mulhU_eq_extract ..), holds rfl (divS_eq_sdiv ..),
    holds rfl (divU_eq_udiv ..), holds rfl (remS_eq_srem ..), holds rfl (remU_eq_umod ..)⟩

/-- LUI: the sign extension of the immediate above 16 zeros. -/
theorem signExtend_append_zero (imm : BitVec 16) :
    (imm ++ (0 : BitVec 16)).signExtend 64 = (imm.signExtend 64 : DWord) <<< 16 := by
  have hzero : ((0 : BitVec 16).toNat : Int) = 0 := rfl
  rw [BitVec.signExtend, BitVec.toInt_append, if_neg (by decide), hzero, Int.add_zero, BitVec.ofInt_mul, BitVec.mul_comm,
    BitVec.shiftLeft_eq_mul_twoPow]
  rfl

/-- Settles O12: each instruction by what its operation computes. -/
theorem scalarImmediateOps : Obligations.ScalarImmediateOps := by
  unfold Obligations.ScalarImmediateOps
  intro s h c rd rs1 imm a sx zx n row
  have holds {op : BitVec 6} {i : Instr} {f : Core → DWord} {x : DWord}
      (he : exec i s = withUnit (coreOk h c) (s.coreStep h c (encI op rd rs1 imm) maskAll fun s => s.coreX h c rd f))
      (hx : f (s.core h c) = x) : row op i x :=
    fun hs => .of_coreX_eq hs he rfl hx
  clear_value row
  have hn : (imm.zeroExtend 64).toNat % 64 = n := by
    rw [BitVec.toNat_setWidth, Nat.mod_eq_of_lt (imm.isLt.trans (by decide))]
  exact ⟨holds rfl rfl, holds rfl rfl, holds rfl rfl, holds rfl rfl, holds rfl (congrArg (a <<< ·) hn),
    holds rfl (congrArg (a >>> ·) hn), holds rfl (congrArg a.sshiftRight hn), holds rfl (sltS_eq_ite ..), holds rfl (sltU_eq_ite ..),
    holds rfl (signExtend_append_zero imm)⟩

end Sys2Proof.Machine
end

section
/-! PROOF. Which core instruction executes, the jumps and branches, and the control registers (R185, R187, R188, R207). -/

namespace Sys2Proof.Machine

variable {s : State} {h c : Nat}

/-- A core that stands at a word does what the instruction that the word matches does. -/
theorem exec_of_standsAt {i : Instr} {w v m : Word} {body : State → State}
    (he : exec i s = withUnit (coreOk h c) (s.coreStep h c v m body)) (hs : s.standsAt h c w = true)
    (hw : w &&& m = v &&& m) : exec i s = .next (body s) := by
  rw [he, coreOk_of_standsAt hs, State.coreStep_standsAt hs hw, withUnit_true]

/-! ### Which instruction executes -/

/-- Every core instruction is a guarded step of its core, under its encoding. -/
theorem exec_core_instr {i : Instr} {v m : Word} (hi : kword i = some ((h, c), v, m)) :
    ∃ body, ∀ s, exec i s = withUnit (coreOk h c) (s.coreStep h c v m body) := by
  cases i <;> cases hi <;> exact ⟨_, fun _ => rfl⟩

theorem State.coreStep_not_running {v m : Word} {body : State → State}
    (hr : (s.core h c).runs = false ∨ s.paused h = true) : s.coreStep h c v m body = s := by
  refine if_pos ?_
  rcases hr with hr | hr <;> simp [hr]

/-- Settles O10: a core instruction is guarded by its encoding, and by its core's being able to run. -/
theorem onlyTheFetchedInstructionExecutes : Obligations.OnlyTheFetchedInstructionExecutes := by
  unfold Obligations.OnlyTheFetchedInstructionExecutes
  intro s i h c v m hi hu
  obtain ⟨body, he⟩ := exec_core_instr hi
  rw [he, hu, withUnit_true]
  exact ⟨fun w hs hw => congrArg _ (State.coreStep_mismatch hs hw), fun hr => congrArg _ (State.coreStep_not_running hr)⟩

/-! ### Jumps and branches -/

theorem CoreTo.coreBranch (target : Nat) (taken : Bool) : CoreTo s (s.coreBranch h c target taken) h c
    (if taken then (s.core h c).jumped target else (s.core h c).advanced) := by
  cases taken
  · exact CoreTo.coreNext rfl
  · exact CoreTo.coreJump target

/-- The two bits above a predicate source are free (R186). -/
theorem and_maskPd_encBP (op : BitVec 6) (free : BitVec 2) (pr : BitVec 3) (off : BitVec 16) :
    (op ++ free ++ pr ++ 0#5 ++ off) &&& maskPd = encBP op pr off &&& maskPd := by
  rw [agree_encBP, fPd, f1, fImm]
  simp (disch := decide) only [BitVec.extractLsb'_append_eq_of_le, BitVec.extractLsb'_append_eq_of_add_le,
    Nat.reduceSub, BitVec.extractLsb'_eq_self]
  trivial

/-- Settles O13: a branch by its condition, JAL and JALR by their link and target. -/
theorem jumpsAndBranches : Obligations.JumpsAndBranches := by
  unfold Obligations.JumpsAndBranches
  intro s h c rd rs1 rs2 pr free off k a b target jumps branch pbranch
  have branches {op : BitVec 6} {i : Instr} (taken : Core → Bool)
      (he : exec i s = withUnit (coreOk h c) (s.coreStep h c (encB op rs1 rs2 off) maskAll fun s =>
        s.coreBranch h c (branchTarget (s.core h c).pc off) (taken (s.core h c)))) : branch op i (taken k) :=
    fun hs => ⟨_, exec_of_standsAt he hs rfl, CoreTo.coreBranch ..⟩
  have pbranches {op : BitVec 6} {i : Instr} (taken : Core → Bool)
      (he : exec i s = withUnit (coreOk h c) (s.coreStep h c (encBP op pr off) maskPd fun s =>
        s.coreBranch h c (branchTarget (s.core h c).pc off) (taken (s.core h c)))) : pbranch op i (taken k) :=
    fun hs => ⟨_, exec_of_standsAt he hs (and_maskPd_encBP ..), CoreTo.coreBranch ..⟩
  clear_value branch pbranch
  exact ⟨branches (fun k => k.readX rs1 == k.readX rs2) rfl, branches (fun k => k.readX rs1 != k.readX rs2) rfl,
    branches (fun k => (k.readX rs1).slt (k.readX rs2)) rfl, branches (fun k => (k.readX rs2).sle (k.readX rs1)) rfl,
    branches (fun k => (k.readX rs1).ult (k.readX rs2)) rfl, branches (fun k => (k.readX rs2).ule (k.readX rs1)) rfl,
    pbranches (fun k => k.readP pr != 0) rfl, pbranches (fun k => k.readP pr == 0) rfl,
    fun hs => ⟨_, exec_of_standsAt rfl hs rfl, CoreTo.coreJump _⟩,
    fun hs => ⟨_, exec_of_standsAt rfl hs rfl, CoreTo.coreJump _⟩⟩

/-! ### Control registers -/

/-- What an instruction does to its core may be said in other words. -/
theorem CoreDoes.congr {i : Instr} {f g : Core → Core} (hd : CoreDoes i s h c f) (hfg : f (s.core h c) = g (s.core h c)) :
    CoreDoes i s h c g := by
  unfold CoreDoes at hd ⊢
  rwa [← hfg]

theorem ofNat_mod_256 (x : DWord) : BitVec.ofNat 32 (x.toNat % 256) = x.truncate 32 &&& 0xFF := by
  apply BitVec.eq_of_toNat_eq
  rw [BitVec.toNat_and, BitVec.toNat_ofNat, BitVec.toNat_setWidth]
  exact (by omega : x.toNat % 256 % 2 ^ 32 = x.toNat % 2 ^ 32 % 2 ^ 8).trans (Nat.and_two_pow_sub_one_eq_mod _ 8).symm


/-- CSRR of a register other than CYCLE writes what the register holds. -/
theorem csrr_does {idx : BitVec 16} {rd : BitVec 5} {x : DWord}
    (hs : s.standsAt h c (encI 0x0C rd 0 idx) = true) (hidx : idx.toNat ≠ 8) (hx : s.csr h c idx.toNat = x) :
    CoreDoes (.csrr h c rd 0 idx) s h c fun k => k.writeX rd x := by
  refine ⟨_, exec_of_standsAt rfl hs rfl, ?_⟩
  dsimp only
  rw [if_neg hidx, hx]
  exact CoreTo.coreNext (Core.writeX_pc ..)

/-- Settles O14: each register by its value; CYCLE by its draw. -/
theorem controlRegisterAccess : Obligations.ControlRegisterAccess := by
  unfold Obligations.ControlRegisterAccess
  intro s h c r k reads bit
  have holds {idx : BitVec 16} {x : DWord} (hidx : idx.toNat ≠ 8) (hx : s.csr h c idx.toNat = x) : reads idx x :=
    fun hs => csrr_does hs hidx hx
  clear_value reads
  have hrows : k.rowFirst % 65536 + k.rowCount % 65536 * 65536 = k.rowFirst % 65536 + 65536 * (k.rowCount % 65536) := by
    rw [Nat.mul_comm 65536]
  refine ⟨holds (by decide) rfl, holds (by decide) rfl, holds (by decide) rfl, holds (by decide) rfl, holds (by decide) rfl,
    holds (by decide) rfl, holds (by decide) ?flags, holds (by decide) rfl, holds (by decide) (congrArg (BitVec.ofNat 64) hrows),
    holds (by decide) rfl, holds (by decide) rfl, holds (by decide) rfl, holds (by decide) rfl, ?cycle, ?texsel, ?scratch⟩
  case flags =>
    refine congrArg (BitVec.ofNat 64) (?_ : (if k.vpath then 1 else 0) + (if k.ppointOnly then 2 else 0) = bit k.vpath + 2 * bit k.ppointOnly)
    cases k.vpath <;> cases k.ppointOnly <;> rfl
  case cycle =>
    intro hs
    refine ⟨_, exec_of_standsAt rfl hs rfl, s.draw.1, ?_⟩
    exact (CoreTo.coreNext (s := s.draw.2) (Core.writeX_pc ..)).of_drawn
  case texsel =>
    intro hs
    exact (CoreDoes.of_coreNext (f := fun k => { k with texsel := BitVec.ofNat 32 ((k.readX r).toNat % 256) }) rfl hs rfl
      rfl).congr (by rw [ofNat_mod_256])
  case scratch =>
    exact fun hs => CoreDoes.of_coreNext rfl hs rfl rfl

end Sys2Proof.Machine
end

section
/-! PROOF. Loads and stores of the Kindling cores, and the accesses that stop a core (R188, R193, R214, R439, R440). -/

namespace Sys2Proof.Machine

variable {s t u : State} {h c : Nat}

/-! ### An access to the Hearth store -/

theorem kcKey_ne_wakesKey (o : Nat) : kcKey o h c ≠ wakesKey := by
  rw [kcKey, hKey, wakesKey]
  omega

theorem State.coreAccess_hearth (a n g : Nat) : (s.coreAccess h c a n).hearth g = s.hearth g := State.touch_hearth ..

/-- From s to t an access of core c to its store has happened: Hearth h is `v`, whose store alone may have changed, and
the banks of its physical Hearth may have been used and woken. -/
structure State.AccessTo (s t : State) (h c : Nat) (v : Hearth) : Prop where
  acts  : s.ActsOn t h v
  store : { v with store := (s.hearth h).store, storeUe := (s.hearth h).storeUe } = s.hearth h
  banks : ∀ p, (t.phy p).sansBanks = (s.phy p).sansBanks
  regs  : ∀ x, x ≠ memStallKey h c → x ≠ wakesKey → t.reg x = s.reg x

theorem State.coreAccess_accesses (a n : Nat) : s.AccessTo (s.coreAccess h c a n) h c (s.hearth h) where
  acts := ((ActsOn.refl s h).touch a n).cycles _ _
  store := rfl
  banks := State.phy_touch_sansBanks s h a n
  regs x hx hw := by
    obtain ⟨m, -, hm⟩ := (s.touch h a n).reg_cycles (memStallKey h c) x 24
    exact hm.trans ((if_neg hx).trans (State.reg_touch _ _ _ _ hw))

theorem State.AccessTo.setHearth {v w : Hearth} (ha : s.AccessTo t h c v)
    (hw : { w with store := (s.hearth h).store, storeUe := (s.hearth h).storeUe } = s.hearth h) :
    s.AccessTo (t.setHearth h w) h c w :=
  ⟨ha.acts.setHearth w, hw, ha.banks, ha.regs⟩

theorem State.AccessTo.core {v : Hearth} (ha : s.AccessTo t h c v) (d : Nat) : t.core h d = s.core h d := by
  have hcores : v.cores = (s.hearth h).cores := (congrArg Hearth.cores ha.store :)
  rw [State.core, State.core, ha.acts.hearth, hcores]

theorem State.AccessTo.reg_kcKey {v : Hearth} {o : Nat} (ha : s.AccessTo t h c v) (ho : o ≠ 16) :
    t.reg (kcKey o h c) = s.reg (kcKey o h c) :=
  ha.regs _ (kcKey_ne ho) (kcKey_ne_wakesKey o)

/-- An instruction that advances its core after an access changes nothing beside the core and what the access does. -/
theorem CoreMemTo.of_access {v : Hearth} {k : Core} (ha : s.AccessTo t h c v) (hto : CoreTo t u h c k) :
    CoreMemTo s u h c k where
  core := hto.core
  cores d hd := (hto.cores d hd).trans (ha.core d)
  hearth := by
    let w := s.hearth h
    have hu := congrArg (fun x => { x with cores := w.cores, store := w.store, storeUe := w.storeUe }) hto.hearth
    rw [ha.acts.hearth] at hu
    have hv := congrArg (fun x => { x with cores := w.cores }) ha.store
    exact hu.trans hv
  hearths g hg := (hto.hearths g hg).trans (ha.acts.hearths g hg)
  banks := by
    have hu : u.phy (s.physOf h) = t.phy (s.physOf h) := (congrArg (fun x : State => x.phy (s.physOf h)) hto.rest :)
    let w := s.phy (s.physOf h)
    have hbanks := congrArg (fun x => { x with retention := w.retention, bankUse := w.bankUse }) (ha.banks (s.physOf h))
    exact (congrArg (fun x => { x with retention := w.retention, bankUse := w.bankUse }) hu).trans hbanks
  phys p hp := (congrArg (fun x : State => x.phy p) hto.rest :).trans (ha.acts.phys p hp)
  retired := by rw [hto.retired, retiredKey, ha.reg_kcKey (by decide)]
  dual := by
    have hdual := hto.dual
    rwa [ha.core, dualKey, ha.reg_kcKey (by decide)] at hdual
  regs x h1 h2 h3 h4 := (hto.regs x h1 h2).trans (ha.regs x h3 h4)
  rest := by
    have hu := congrArg
      (fun x => { x with hearths := s.hearths, phys := s.phys, regs := s.regs, draws := s.draws }) hto.rest
    exact hu.trans ha.acts.rest

/-! ### Loads -/

theorem SMap.readLe_lt (m : SMap Byte) (a n : Nat) : m.readLe a n < 2 ^ (8 * n) := by
  have hlt := leNat_lt (m.lookList zeroByte a n)
  rwa [SMap.length_lookList] at hlt

/-- A load at an aligned address of the store that meets no uncorrectable word (R193). -/
theorem State.coreLoad_reads {a n : Nat} {f : Nat → Core → Core} (ha : a % n = 0) (hin : a < storeSize)
    (hue : (s.hearth h).meetsUe a n = false) (hf : ∀ x k, (f x k).pc = k.pc) :
    let t := s.coreLoad h c a n f
    CoreMemTo s t h c (f ((s.hearth h).store.readLe a n) (s.core h c)).advanced ∧
      (t.hearth h).store = (s.hearth h).store ∧ (t.hearth h).storeUe = (s.hearth h).storeUe := by
  have hacc := s.coreAccess_accesses (h := h) (c := c) a n
  have hto := CoreTo.coreNext (s := s.coreAccess h c a n) (h := h) (c := c) (hf ((s.hearth h).store.readLe a n) _)
  rw [State.coreLoad, if_neg (not_not.2 ha), if_neg (Nat.not_le.2 hin), if_neg (Bool.eq_false_iff.1 hue)]
  have hmem := CoreMemTo.of_access hacc hto
  rw [hacc.core] at hmem
  have hhearth := hto.hearth
  rw [hacc.acts.hearth] at hhearth
  exact ⟨hmem, (congrArg Hearth.store hhearth :), (congrArg Hearth.storeUe hhearth :)⟩

theorem zeroExtend_ofNat_of_lt {k n x : Nat} (hx : x < 2 ^ k) :
    (BitVec.ofNat k x).zeroExtend n = BitVec.ofNat n x := by
  apply BitVec.eq_of_toNat_eq
  rw [BitVec.toNat_setWidth, BitVec.toNat_ofNat, BitVec.toNat_ofNat, Nat.mod_eq_of_lt hx]

/-- Settles O15: each load by what it puts where. -/
theorem loadsReadTheHearthStore : Obligations.LoadsReadTheHearthStore := by
  unfold Obligations.LoadsReadTheHearthStore
  intro s h c rd base off k a load
  have loads {op : BitVec 6} {i : Instr} {n : Nat} {f : Nat → Core} (g : Nat → Core → Core)
      (he : exec i s = withUnit (coreOk h c) (s.coreStep h c (encI op rd base off) maskAll fun s =>
        s.coreLoad h c ((s.core h c).effAddr base off) n g)) (hpc : ∀ x k, (g x k).pc = k.pc)
      (hg : ∀ x, x < 2 ^ (8 * n) → g x k = f x) : load op i n f := by
    intro hs ha hin hue
    refine ⟨_, exec_of_standsAt he hs rfl, ?_⟩
    rw [← hg _ (SMap.readLe_lt ..)]
    exact State.coreLoad_reads ha hin hue hpc
  clear_value load
  have hX (g : Nat → DWord) : ∀ x (k : Core), (k.writeX rd (g x)).pc = k.pc := fun _ _ => Core.writeX_pc ..
  exact ⟨loads _ rfl (hX _) fun _ _ => rfl, loads _ rfl (hX _) fun x hx => by rw [zeroExtend_ofNat_of_lt hx],
    loads _ rfl (hX _) fun _ _ => rfl, loads _ rfl (hX _) fun x hx => by rw [zeroExtend_ofNat_of_lt hx],
    loads _ rfl (hX _) fun _ _ => rfl, loads _ rfl (hX _) fun x hx => by rw [zeroExtend_ofNat_of_lt hx],
    loads _ rfl (hX _) fun _ _ => rfl, loads _ rfl (fun _ _ => rfl) fun _ _ => rfl⟩

/-! ### Stores -/

theorem State.storeFloor_le {a : Nat} (hfloor : ∀ g, s.cordCfg (s.core h c).cord = some g → g.weightShare ≤ a) :
    s.storeFloor h c ≤ a := by
  unfold State.storeFloor
  split
  next g hg => exact hfloor g hg
  next => exact Nat.zero_le a

/-- A store at an aligned address of the store above the weight share that leaves no uncorrectable word in part (R193). -/
theorem State.coreStore_writes {a n : Nat} {f : Core → Nat → Nat} (ha : a % n = 0) (hin : a < storeSize)
    (hfloor : ∀ g, s.cordCfg (s.core h c).cord = some g → g.weightShare ≤ a) (hue : (s.hearth h).partUe a n = false) :
    let t := s.coreStore h c a n f
    (t.hearth h).store.readLe a n = f (s.core h c) ((s.hearth h).store.readLe a n) % 2 ^ (8 * n) ∧
      (∀ y, y < a ∨ a + n ≤ y → (t.hearth h).store.look zeroByte y = (s.hearth h).store.look zeroByte y) ∧
      CoreMemTo s t h c (s.core h c).advanced := by
  have hbad : ¬ (storeSize ≤ a ∨ a < s.storeFloor h c) := by
    have := State.storeFloor_le hfloor
    omega
  rw [State.coreStore, if_neg (not_not.2 ha), if_neg hbad, if_neg (Bool.eq_false_iff.1 hue)]
  dsimp only
  rw [State.coreAccess_hearth]
  generalize f (s.core h c) ((s.hearth h).store.readLe a n) = x
  have hacc := (s.coreAccess_accesses (h := h) (c := c) a n).setHearth (w := (s.hearth h).write a (natLe x n)) rfl
  have hto := CoreTo.coreNext (s := (s.coreAccess h c a n).setHearth h ((s.hearth h).write a (natLe x n))) (h := h)
    (c := c) (f := id) rfl
  have hmem := CoreMemTo.of_access hacc hto
  rw [hacc.core] at hmem
  have hstore := congrArg Hearth.store hto.hearth
  rw [hacc.acts.hearth] at hstore
  refine ⟨?_, fun y hy => ?_, hmem⟩
  · exact (congrArg (fun m : SMap Byte => m.readLe a n) hstore).trans (SMap.readLe_writeLe ..)
  · exact (congrArg (fun m : SMap Byte => m.look zeroByte y) hstore).trans
      (Hearth.look_write_outside _ _ _ _ (by rwa [length_natLe]))

/-- Settles O16: each store by the number that it writes. -/
theorem storesWriteTheHearthStore : Obligations.StoresWriteTheHearthStore := by
  unfold Obligations.StoresWriteTheHearthStore
  intro s h c rs base off k a old store
  have stores {op : BitVec 6} {i : Instr} {n x : Nat} (f : Core → Nat → Nat)
      (he : exec i s = withUnit (coreOk h c) (s.coreStep h c (encI op rs base off) maskAll fun s =>
        s.coreStore h c ((s.core h c).effAddr base off) n f))
      (hx : f k ((s.hearth h).store.readLe a n) = x) : store op i n x := by
    intro hs ha hin hfloor hue
    refine ⟨_, exec_of_standsAt he hs rfl, ?_⟩
    rw [← hx]
    exact State.coreStore_writes ha hin hfloor hue
  clear_value store
  have hold : old.toNat = (s.hearth h).store.readLe a 4 := toNat_ofNat_of_lt (SMap.readLe_lt ..)
  refine ⟨stores _ rfl rfl, stores _ rfl rfl, stores _ rfl rfl, stores _ rfl rfl, stores _ rfl rfl, stores _ rfl ?setw,
    stores _ rfl rfl⟩
  case setw =>
    rw [BitVec.toNat_or, hold, BitVec.toNat_setWidth]

/-! ### Accesses that stop a core -/

theorem State.job_setCore (k : Core) : ((s.setCore h c k).hearth h).job = (s.hearth h).job := by
  rw [State.hearth_setCore]

theorem State.job_stopped (cause : Nat) (faulted : Bool) :
    ((s.stopped h c cause faulted).hearth h).job = (s.hearth h).job :=
  (State.job_setCore _).trans (State.job_setCore _)

/-- A stop that suspects no hardware: the stop is recorded, and the job of the Hearth is torn down (R214). -/
theorem State.coreStop_eq {cause : Nat} (hc : cause ≠ 1 ∧ cause ≠ 7) :
    s.coreStop h c cause = (s.stopped h c cause false).tearHearth h := by
  have hhw : (cause == 1 || cause == 7) = false := by simpa using hc
  rw [State.coreStop, State.coreStopAt, hhw]
  exact if_pos (State.job_stopped cause false)

/-- Settles O17: the checks in the order of R193. -/
theorem forbiddenAccessesStopTheCore : Obligations.ForbiddenAccessesStopTheCore := by
  unfold Obligations.ForbiddenAccessesStopTheCore
  intro s h c r base off k a access
  have loads {op : BitVec 6} {i : Instr} {n : Nat} {f : Nat → Core → Core}
      (he : exec i s = withUnit (coreOk h c) (s.coreStep h c (encI op r base off) maskAll fun s =>
        s.coreLoad h c ((s.core h c).effAddr base off) n f)) : access op i n false := by
    intro hs
    have hexec := exec_of_standsAt he hs rfl
    refine ⟨fun ha => hexec.trans (congrArg _ ?_), fun ha hout => hexec.trans (congrArg _ ?_), fun _ hf => nomatch hf⟩
    · exact (if_pos ha).trans (State.coreStop_eq (by decide))
    · exact ((if_neg (not_not.2 ha)).trans (if_pos hout)).trans (State.coreStop_eq (by decide))
  have stores {op : BitVec 6} {i : Instr} {n : Nat} {f : Core → Nat → Nat}
      (he : exec i s = withUnit (coreOk h c) (s.coreStep h c (encI op r base off) maskAll fun s =>
        s.coreStore h c ((s.core h c).effAddr base off) n f)) : access op i n true := by
    intro hs
    have hexec := exec_of_standsAt he hs rfl
    have haddress (ha : a % n = 0) (hbad : storeSize ≤ a ∨ a < s.storeFloor h c) :
        exec i s = .next ((s.stopped h c 4 false).tearHearth h) :=
      hexec.trans (congrArg _ (((if_neg (not_not.2 ha)).trans (if_pos hbad)).trans (State.coreStop_eq (by decide))))
    refine ⟨fun ha => hexec.trans (congrArg _ ((if_pos ha).trans (State.coreStop_eq (by decide)))),
      fun ha hout => haddress ha (.inl hout), fun ha _ ⟨g, hg, hlt⟩ => haddress ha (.inr ?_)⟩
    rwa [State.storeFloor, hg]
  clear_value access
  exact ⟨loads rfl, loads rfl, loads rfl, loads rfl, loads rfl, loads rfl, loads rfl, stores rfl, stores rfl, stores rfl,
    stores rfl, loads rfl, stores rfl, stores rfl, stores rfl⟩

end Sys2Proof.Machine
end

section
/-! PROOF. The floating-point vector instructions and the conversions (R184, R188, R189). -/

namespace Sys2Proof.Machine

variable {s : State} {h c : Nat} {vd vs1 vs2 : BitVec 5} {pd pr : BitVec 3}

theorem ofNat_lane (w16 : Bool) (v : VWord) (i : Nat) : BitVec.ofNat _ (lane w16 v i) = laneWord w16 v i := by
  rw [lane_eq_toNat, BitVec.ofNat_toNat, BitVec.setWidth_eq]

/-! ### Both forms of an instruction -/

/-- Both forms of an instruction that computes each predicated lane from the lanes of its registers as numbers. -/
theorem vecDoes_number_forms {major : BitVec 6} {funct : BitVec 7} {i : Bool → Instr} {G : Bool → Core → Nat → Nat}
    {f : Fmt → Nat → Nat → Nat → Nat → Nat}
    (he : ∀ w16, exec (i w16) s = withUnit (coreOk h c)
      (s.coreStep h c (encV major funct vd vs1 vs2 pr w16) maskAll fun s => s.coreV h c vd pr w16 (G w16)))
    (hG : ∀ w16 (k : Core) j, G w16 k j = f (vfmt w16) (laneBits w16) (lane w16 (k.readV vd) j) (lane w16 (k.readV vs1) j)
      (lane w16 (k.readV vs2) j)) :
    let k := s.core h c
    (s.standsAt h c (major ++ vd ++ vs1 ++ vs2 ++ pr ++ 0#1 ++ funct) = true →
      VecDoes (i false) s h c vd fun v => ∀ j, j < 16 → lane32 v j = if (k.readP pr).getLsbD j
        then .ofNat 32 (f fp32 32 (lane32 (k.readV vd) j).toNat (lane32 (k.readV vs1) j).toNat
          (lane32 (k.readV vs2) j).toNat) else lane32 (k.readV vd) j) ∧
    (s.standsAt h c (major ++ vd ++ vs1 ++ vs2 ++ pr ++ 1#1 ++ funct) = true →
      VecDoes (i true) s h c vd fun v => ∀ j, j < 32 → lane16 v j = if (k.readP pr).getLsbD j
        then .ofNat 16 (f fp16 16 (lane16 (k.readV vd) j).toNat (lane16 (k.readV vs1) j).toNat
          (lane16 (k.readV vs2) j).toNat) else lane16 (k.readV vd) j) := by
  have form (w16 : Bool) (hs : s.standsAt h c (encV major funct vd vs1 vs2 pr w16) = true) :
      VecDoes (i w16) s h c vd fun v => ∀ j, j < laneCount w16 → laneWord w16 v j =
        if ((s.core h c).readP pr).getLsbD j then .ofNat _ (f (vfmt w16) (laneBits w16)
          (laneWord w16 ((s.core h c).readV vd) j).toNat (laneWord w16 ((s.core h c).readV vs1) j).toNat
          (laneWord w16 ((s.core h c).readV vs2) j).toNat)
        else laneWord w16 ((s.core h c).readV vd) j := by
    simp only [← lane_eq_toNat, ← hG w16]
    exact .of_coreV (he w16) hs rfl
  exact ⟨form false, form true⟩

/-- Both forms of a comparison of decoded lanes. -/
theorem predDoes_float_forms {funct : BitVec 7} {free : BitVec 2} {i : Bool → Instr} {f : FVal → FVal → Bool}
    (he : ∀ w16, exec (i w16) s = withUnit (coreOk h c)
      (s.coreStep h c (encVP 0x31 funct pd vs1 vs2 pr w16) maskPd fun s => s.coreCmp h c pd pr w16 fun k j =>
        f ((vfmt w16).decode (lane w16 (k.readV vs1) j)) ((vfmt w16).decode (lane w16 (k.readV vs2) j)))) :
    let k := s.core h c
    (s.standsAt h c (0x31#6 ++ free ++ pd ++ vs1 ++ vs2 ++ pr ++ 0#1 ++ funct) = true →
      PredDoes (i false) s h c pd fun v => ∀ j, j < 32 → v.getLsbD j = (decide (j < 16) && (k.readP pr).getLsbD j &&
        f (fp32.decode (lane32 (k.readV vs1) j).toNat) (fp32.decode (lane32 (k.readV vs2) j).toNat))) ∧
    (s.standsAt h c (0x31#6 ++ free ++ pd ++ vs1 ++ vs2 ++ pr ++ 1#1 ++ funct) = true →
      PredDoes (i true) s h c pd fun v => ∀ j, j < 32 → v.getLsbD j = ((k.readP pr).getLsbD j &&
        f (fp16.decode (lane16 (k.readV vs1) j).toNat) (fp16.decode (lane16 (k.readV vs2) j).toNat))) := by
  intro k
  simp only [lane_eq_toNat] at he
  constructor <;> intro hs
  · obtain ⟨t, ht, v, hv, hto⟩ := PredDoes.of_coreCmp (he false) hs (and_maskPd (w16 := false) ..)
    exact ⟨t, ht, v, hv, hto⟩
  · obtain ⟨t, ht, v, hv, hto⟩ := PredDoes.of_coreCmp (he true) hs (and_maskPd (w16 := true) ..)
    refine ⟨t, ht, v, fun j hj => (hv j hj).trans ?_, hto⟩
    rw [decide_eq_true (show j < laneCount true from hj), Bool.true_and]
    rfl

/-! ### Conversions between widths -/

/-- VCVTFH and the like: 16-bit lanes 0 to 15 from 32-bit lanes; the upper half keeps its lanes. -/
theorem narrow_converts {funct : BitVec 7} {w16 : Bool} {i : Instr} {F : Fmt}
    (he : exec i s = withUnit (coreOk h c) (s.coreStep h c (encV 0x32 funct vd vs1 vs2 pr w16) maskAll fun s =>
      s.coreV h c vd pr true fun k j =>
        if j < 16 then cvtFmt fp32 F (lane false (k.readV vs1) j) else lane true (k.readV vd) j))
    (hs : s.standsAt h c (encV 0x32 funct vd vs1 vs2 pr w16) = true) :
    let k := s.core h c
    VecDoes i s h c vd fun v => ∀ j, j < 32 → lane16 v j =
      if (k.readP pr).getLsbD j && decide (j < 16) then .ofNat 16 (F.pack (fp32.decode (lane32 (k.readV vs1) j).toNat))
      else lane16 (k.readV vd) j := by
  intro k
  obtain ⟨t, ht, v, hv, hto⟩ := VecDoes.of_coreV (vd := vd) he hs rfl
  refine ⟨t, ht, v, fun j hj => (hv j hj).trans ?_, hto⟩
  rw [lane_eq_toNat, lane_eq_toNat]
  by_cases hlow : j < 16
  · simp only [if_pos hlow, decide_eq_true hlow, Bool.and_true]
    rfl
  · simp only [if_neg hlow, decide_eq_false hlow, Bool.and_false, BitVec.ofNat_toNat, BitVec.setWidth_eq, ite_self]
    rfl

/-- VCVTBF and VCVTHF: 32-bit lanes from 16-bit lanes 0 to 15. -/
theorem widen_converts {funct : BitVec 7} {w16 : Bool} {i : Instr} {F : Fmt}
    (he : exec i s = withUnit (coreOk h c) (s.coreStep h c (encV 0x32 funct vd vs1 vs2 pr w16) maskAll fun s =>
      s.coreV h c vd pr false fun k j => cvtFmt F fp32 (lane true (k.readV vs1) j)))
    (hs : s.standsAt h c (encV 0x32 funct vd vs1 vs2 pr w16) = true) :
    let k := s.core h c
    VecDoes i s h c vd fun v => ∀ j, j < 16 → lane32 v j =
      if (k.readP pr).getLsbD j then .ofNat 32 (fp32.pack (F.decode (lane16 (k.readV vs1) j).toNat))
      else lane32 (k.readV vd) j := by
  intro k
  simp only [lane_eq_toNat] at he
  exact VecDoes.of_coreV he hs rfl

/-- What VCVTFB puts in 16-bit lane `i`; `draws` numbers the free values of the NaNs (assumption 15). -/
def Core.cvtfbLane (k : Core) (vd vs1 : BitVec 5) (draws i : Nat) : Nat :=
  if i < 16 then bf16Of (lane false (k.readV vs1) i) (Config.freeValue (draws + i)) else lane true (k.readV vd) i

/-- VCVTFB: 16-bit lanes 0 to 15 from fp32 lanes; the bf16 of a NaN is open. -/
theorem vcvtfb_converts {w16 : Bool} (hs : s.standsAt h c (encV 0x32 0x02 vd vs1 vs2 pr w16) = true) :
    let k := s.core h c
    Completes (exec (.vcvtfb h c vd vs1 vs2 pr w16) s) fun t => ∃ v,
      (∀ j, j < 32 →
        let x := fp32.decode (lane32 (k.readV vs1) j).toNat
        ((k.readP pr).getLsbD j = true → j < 16 → x ≠ .nan → lane16 v j = .ofNat 16 (bf16.pack x)) ∧
        ((k.readP pr).getLsbD j = false ∨ 16 ≤ j → lane16 v j = lane16 (k.readV vd) j)) ∧
      CoreTo s t h c (k.writeV vd v).advanced := by
  intro k
  have hto := CoreTo.coreNext (s := { s with draws := s.draws + 16 }) (h := h) (c := c)
    (f := fun k => k.writeV vd (maskLanes true (k.readP pr) (k.readV vd) (k.cvtfbLane vd vs1 s.draws))) (Core.writeV_pc ..)
  refine ⟨_, exec_of_standsAt rfl hs rfl, _, fun j hj => ?_, hto.of_drawn⟩
  have hlane : lane16 (maskLanes true (k.readP pr) (k.readV vd) (k.cvtfbLane vd vs1 s.draws)) j =
      if (k.readP pr).getLsbD j then .ofNat 16 (k.cvtfbLane vd vs1 s.draws j) else lane16 (k.readV vd) j :=
    laneWord_maskLanes (w16 := true) hj
  refine ⟨fun hon hlow hnan => ?_, fun hkeep => hlane.trans ?_⟩
  · have hnan' : fp32.decode (lane false (k.readV vs1) j) ≠ .nan := by rwa [lane_eq_toNat]
    refine hlane.trans ?_
    rw [if_pos hon, Core.cvtfbLane, if_pos hlow, bf16Of, if_neg hnan', cvtFmt, lane_eq_toNat]
    rfl
  · rcases hkeep with hoff | hhigh
    · exact if_neg (Bool.eq_false_iff.1 hoff)
    · have hold : BitVec.ofNat 16 (lane true (k.readV vd) j) = lane16 (k.readV vd) j := ofNat_lane true ..
      rw [Core.cvtfbLane, if_neg (Nat.not_lt.2 hhigh), hold, ite_self]

/-- Settles O20: the lane operations in both forms, the comparisons by their bits, the conversions by their lanes. -/
theorem vectorFloatOps : Obligations.VectorFloatOps := by
  unfold Obligations.VectorFloatOps
  intro s h c vd vs1 vs2 pd pr free k on at' op cmp narrow widen sgn
  have ops {major : BitVec 6} {funct : BitVec 7} {i : Bool → Instr} {G : Bool → Core → Nat → Nat}
      {f : Fmt → Nat → Nat → Nat → Nat → Nat}
      (he : ∀ w16, exec (i w16) s = withUnit (coreOk h c)
        (s.coreStep h c (encV major funct vd vs1 vs2 pr w16) maskAll fun s => s.coreV h c vd pr w16 (G w16)))
      (hG : ∀ w16 (k : Core) j, G w16 k j = f (vfmt w16) (laneBits w16) (lane w16 (k.readV vd) j)
        (lane w16 (k.readV vs1) j) (lane w16 (k.readV vs2) j)) : op major funct i f :=
    vecDoes_number_forms he hG
  have cmps {funct : BitVec 7} {i : Bool → Instr} {f : FVal → FVal → Bool}
      (he : ∀ w16, exec (i w16) s = withUnit (coreOk h c)
        (s.coreStep h c (encVP 0x31 funct pd vs1 vs2 pr w16) maskPd fun s => s.coreCmp h c pd pr w16 fun k j =>
          f ((vfmt w16).decode (lane w16 (k.readV vs1) j)) ((vfmt w16).decode (lane w16 (k.readV vs2) j)))) :
      cmp funct i f :=
    predDoes_float_forms he
  clear_value op cmp
  have hsgn (w16 : Bool) (k : Core) (j : Nat) : laneS w16 (k.readV vs1) j = sgn (laneBits w16) (lane w16 (k.readV vs1) j) := by
    rw [laneS_eq_toInt, ← ofNat_lane]
  exact ⟨ops (fun _ => rfl) fun _ _ _ => rfl, ops (fun _ => rfl) fun _ _ _ => rfl, ops (fun _ => rfl) fun _ _ _ => rfl,
    ops (fun _ => rfl) fun _ _ _ => rfl, ops (fun _ => rfl) fun _ _ _ => rfl, ops (fun _ => rfl) fun _ _ _ => rfl,
    cmps fun _ => rfl, cmps fun _ => rfl,
    ops (fun _ => rfl) fun w16 k j => congrArg (fun x => (vfmt w16).pack (FVal.ofInt x)) (hsgn w16 k j),
    ops (fun _ => rfl) fun _ _ _ => rfl, fun _ => vcvtfb_converts, fun _ => widen_converts rfl, fun _ => narrow_converts rfl,
    fun _ => widen_converts rfl⟩

end Sys2Proof.Machine
end

section
/-! PROOF. The special values of the floating-point instructions (R189). -/

namespace Sys2Proof.Machine

theorem FVal.add_nan (x : FVal) : x.add .nan = .nan := by cases x <;> rfl
theorem FVal.mul_nan (x : FVal) : x.mul .nan = .nan := by cases x <;> rfl

theorem FVal.add_eq_nan {x y : FVal} (hn : x = .nan ∨ y = .nan) : x.add y = .nan := by
  rcases hn with rfl | rfl
  · rfl
  · exact x.add_nan

theorem FVal.mul_eq_nan {x y : FVal} (hn : x = .nan ∨ y = .nan) : x.mul y = .nan := by
  rcases hn with rfl | rfl
  · rfl
  · exact x.mul_nan

theorem cvtFI_of_nan {F : Fmt} {n a : Nat} (ha : F.decode a = .nan) : cvtFI F n a = 0 := by rw [cvtFI, ha]

/-- The zeros of a format: −0 is the lesser, and +0 the greater, in either order. -/
theorem fltMin_fltMax_zeros {F : Fmt} (hF : F = fp32 ∨ F = fp16) :
    fltMin F 0 F.sign = F.sign ∧ fltMin F F.sign 0 = F.sign ∧ fltMax F 0 F.sign = 0 ∧ fltMax F F.sign 0 = 0 := by
  rcases hF with rfl | rfl <;> decide

/-- The infinities saturate. -/
theorem cvtFI_inf {F : Fmt} {n : Nat} (hF : (F = fp32 ∧ n = 32) ∨ (F = fp16 ∧ n = 16)) :
    cvtFI F n F.inf = 2 ^ (n - 1) - 1 ∧ cvtFI F n (F.sign + F.inf) = 2 ^ (n - 1) := by
  rcases hF with ⟨rfl, rfl⟩ | ⟨rfl, rfl⟩ <;> decide

/-- Settles O21: a NaN propagates through each operation; the zeros and infinities are finitely many. -/
theorem floatSpecialValues : Obligations.FloatSpecialValues := by
  unfold Obligations.FloatSpecialValues
  refine ⟨by decide, by decide, fun F n hF => ?_⟩
  obtain ⟨hmin, hmin', hmax, hmax'⟩ := fltMin_fltMax_zeros (hF.imp And.left And.left)
  obtain ⟨hpos, hneg⟩ := cvtFI_inf hF
  refine ⟨fun a b hn => ⟨?_, ?_, if_pos hn, if_pos hn⟩, hmin, hmin', hmax, hmax', fun a => cvtFI_of_nan, hpos, hneg⟩
  · rw [FVal.add_eq_nan hn, Fmt.pack]
  · rw [FVal.mul_eq_nan hn, Fmt.pack]

end Sys2Proof.Machine
end

section
/-! PROOF. Moves between files, reductions and the predicate instructions (R184, R188). -/

namespace Sys2Proof.Machine

variable {s : State} {h c : Nat} {vd vs1 vs2 : BitVec 5} {pd pr : BitVec 3} {w16 : Bool}

/-! ### Reductions -/

/-- The predicated lanes of a vector as words, in ascending order. -/
def selWords (w16 : Bool) (pr : Word) (v : VWord) : List (BitVec (laneBits w16)) :=
  ((List.range (laneCount w16)).filter pr.getLsbD).map (laneWord w16 v)

theorem selLanes_eq_map (w16 : Bool) (pr : Word) (v : VWord) :
    selLanes w16 pr v = (selWords w16 pr v).map BitVec.toNat := by
  rw [selLanes, selWords, List.map_map]
  exact List.map_congr_left fun i _ => lane_eq_toNat ..

theorem ofNat_sum_toNat {n : Nat} (xs : List (BitVec n)) : BitVec.ofNat n (xs.map BitVec.toNat).sum = xs.sum := by
  induction xs with
  | nil => rfl
  | cons x xs ih =>
    rw [List.map_cons, List.sum_cons, List.sum_cons, BitVec.ofNat_add, ih, BitVec.ofNat_toNat, BitVec.setWidth_eq]

theorem signedBits_toNat {n : Nat} (hn : 0 < n) (x : BitVec n) : signedBits n x.toNat = x.toInt := by
  have hpow : 2 ^ n = 2 * 2 ^ (n - 1) := by rw [← Nat.pow_succ', Nat.succ_eq_add_one, Nat.sub_add_cancel hn]
  rw [signedBits, Nat.mod_eq_of_lt x.isLt, BitVec.toInt_eq_toNat_cond]
  exact if_congr (by omega) rfl rfl

/-- The largest of a list of words as signed numbers; 0 for none. -/
def topWord {n : Nat} : List (BitVec n) → BitVec n
  | [] => 0#n
  | x :: rest => rest.foldl (fun m y => if m.slt y then y else m) x

theorem foldl_max_toInt {n : Nat} (hn : 0 < n) (xs : List (BitVec n)) (x : BitVec n) :
    (xs.map BitVec.toNat).foldl (fun m y => max m (signedBits n y)) x.toInt =
      (xs.foldl (fun m y => if m.slt y then y else m) x).toInt := by
  induction xs generalizing x with
  | nil => rfl
  | cons y xs ih =>
    rw [List.map_cons, List.foldl_cons, List.foldl_cons, signedBits_toNat hn, ← ih]
    congr 1
    rw [apply_ite BitVec.toInt]
    simp only [BitVec.slt, decide_eq_true_eq]
    exact max_def_lt ..

theorem ofNat_maxLanes {n : Nat} (hn : 0 < n) (xs : List (BitVec n)) :
    BitVec.ofNat n (maxLanes n (xs.map BitVec.toNat)) = topWord xs := by
  cases xs with
  | nil => rfl
  | cons x xs =>
    rw [List.map_cons, maxLanes, signedBits_toNat hn, foldl_max_toInt hn, ofNat_bitsOf, BitVec.ofInt_toInt, topWord]

/-- A reduction writes its value to lane 0 and clears the others. -/
theorem VecDoes.of_coreReduce {i : Instr} {w v m : Word} {f : List Nat → Nat}
    (he : exec i s = withUnit (coreOk h c) (s.coreStep h c v m fun s => s.coreReduce h c vd vs1 pr w16 f))
    (hs : s.standsAt h c w = true) (hw : w &&& m = v &&& m) :
    VecDoes i s h c vd fun x => ∀ j, j < laneCount w16 → laneWord w16 x j =
      if j = 0 then BitVec.ofNat _ (f ((selWords w16 ((s.core h c).readP pr) ((s.core h c).readV vs1)).map BitVec.toNat))
      else 0 := by
  refine .of_coreNext he hs hw fun j hj => (laneWord_ofLanes hj).trans ?_
  rw [selLanes_eq_map, apply_ite (BitVec.ofNat _)]
  rfl

/-! ### Moves -/

theorem vbcast_broadcasts (hs : s.standsAt h c (encV 0x32 0x06 vd vs1 vs2 pr w16) = true) :
    let k := s.core h c
    VecDoes (.vbcast h c vd vs1 vs2 pr w16) s h c vd fun v => ∀ j, j < laneCount w16 →
      laneWord w16 v j = if (k.readP pr).getLsbD j then (k.readX vs1).truncate _ else laneWord w16 (k.readV vd) j := by
  intro k
  obtain ⟨t, ht, v, hv, hto⟩ := VecDoes.of_coreV (i := .vbcast h c vd vs1 vs2 pr w16) (vd := vd) rfl hs rfl
  refine ⟨t, ht, v, fun j hj => (hv j hj).trans ?_, hto⟩
  rw [BitVec.ofNat_toNat]

theorem vmvx_moves (hs : s.standsAt h c (encV 0x32 0x07 vd vs1 vs2 pr w16) = true) :
    CoreDoes (.vmvx h c vd vs1 vs2 pr w16) s h c fun k =>
      k.writeX vd ((laneWord w16 (k.readV vs1) (vs2.toNat % laneCount w16)).signExtend 64) :=
  .of_coreX_eq hs rfl rfl (by rw [laneS_eq_toInt]; rfl)

/-! ### Predicates -/

/-- A predicate instruction writes pd alone. -/
theorem PredDoes.of_coreP {i : Instr} {w v m : Word} {f : Core → Word} {P : Word → Prop}
    (he : exec i s = withUnit (coreOk h c) (s.coreStep h c v m fun s => s.coreP h c pd f))
    (hs : s.standsAt h c w = true) (hw : w &&& m = v &&& m) (hP : P (f (s.core h c))) : PredDoes i s h c pd P :=
  ⟨_, exec_of_standsAt he hs hw, _, hP, CoreTo.coreNext (Core.writeP_pc ..)⟩

/-- Settles O22: the moves, the reductions by the value of lane 0, the predicate instructions by the word that they write. -/
theorem movesReductionsAndPredicates : Obligations.MovesReductionsAndPredicates := by
  unfold Obligations.MovesReductionsAndPredicates
  intro s h c vd vs1 vs2 pd pr free w16 k on wb at' sel32 sel16 red32 red16 fsum top pop p1 p2
  have reds32 {funct : BitVec 7} {i : Bool → Instr} {f : List Nat → Nat} {x : BitVec 32}
      (he : exec (i false) s = withUnit (coreOk h c) (s.coreStep h c (encV 0x32 funct vd vs1 vs2 pr false) maskAll
        fun s => s.coreReduce h c vd vs1 pr false f))
      (hx : BitVec.ofNat 32 (f (sel32.map BitVec.toNat)) = x) : red32 funct i x :=
    fun hs => hx ▸ VecDoes.of_coreReduce he hs rfl
  have reds16 {funct : BitVec 7} {i : Bool → Instr} {f : List Nat → Nat} {x : BitVec 16}
      (he : exec (i true) s = withUnit (coreOk h c) (s.coreStep h c (encV 0x32 funct vd vs1 vs2 pr true) maskAll
        fun s => s.coreReduce h c vd vs1 pr true f))
      (hx : BitVec.ofNat 16 (f (sel16.map BitVec.toNat)) = x) : red16 funct i x :=
    fun hs => hx ▸ VecDoes.of_coreReduce he hs rfl
  have pops {funct : BitVec 7} {i : Instr} (f : Core → Word)
      (he : exec i s = withUnit (coreOk h c) (s.coreStep h c (encVP 0x32 funct pd vs1 vs2 pr w16) maskPd
        fun s => s.coreP h c pd f)) : pop funct i (f k) :=
    fun hs => .of_coreP he hs (and_maskPd ..) rfl
  have htop {n : Nat} (xs : List (BitVec n)) : topWord xs = top n xs := by cases xs <;> rfl
  have hsum (F : Fmt) (xs : List Nat) : sumLanes F xs = fsum F xs := by cases xs <;> rfl
  clear_value red32 red16 pop top fsum
  refine ⟨vbcast_broadcasts (w16 := false), vbcast_broadcasts (w16 := true), vmvx_moves (w16 := false), ?vmvx16,
    reds32 rfl (ofNat_sum_toNat _), reds16 rfl (ofNat_sum_toNat _),
    reds32 rfl (congrArg _ (hsum fp32 _)), reds16 rfl (congrArg _ (hsum fp16 _)),
    reds32 rfl ((ofNat_maxLanes (by decide) _).trans (htop _)), reds16 rfl ((ofNat_maxLanes (by decide) _).trans (htop _)),
    pops (fun k => k.readP (vs1.truncate 3) &&& k.readP (vs2.truncate 3)) rfl,
    pops (fun k => k.readP (vs1.truncate 3) ||| k.readP (vs2.truncate 3)) rfl,
    pops (fun k => k.readP (vs1.truncate 3) ^^^ k.readP (vs2.truncate 3)) rfl,
    pops (fun k => ~~~k.readP (vs1.truncate 3)) rfl, ?psetn⟩
  case vmvx16 =>
    intro hs
    have hlane : vs2.toNat % laneCount true = vs2.toNat := Nat.mod_eq_of_lt vs2.isLt
    have hmv := vmvx_moves (w16 := true) hs
    rw [hlane] at hmv
    exact hmv
  case psetn =>
    intro hs
    refine PredDoes.of_coreP rfl hs (and_maskPd ..) fun j hj => ?_
    rw [psetn, getLsbD_ofBits (by decide), decide_eq_true hj, Bool.true_and]

end Sys2Proof.Machine
end

section
/-! PROOF. The system instructions and the stops of a suspected core (R190, R203 to R207, R214, R481). -/

namespace Sys2Proof.Machine

variable {s : State} {h c : Nat}

/-! ### A BLK that pairs with the instruction before it (R191, R215) -/

/-- Right after reset, but core 0 of Hearth 0 runs at pc 4, behind an ADD, and stands at a BLK whose signature is that of
the core. -/
def State.pairedBlk : State := State.reset.setCore 0 0 { state := 1, pc := 4, imem := [(1, encBlk false 0 0)] }

/-- Refutes O25: a BLK may issue as the second of a pair, and then the count of the pair draws a free number (assumption 8),
which the clause of BLK leaves out. -/
theorem not_systemInstructionsAndSignatures : ¬ Obligations.SystemInstructionsAndSignatures := by
  intro hall
  have hs : State.pairedBlk.standsAt 0 0 (encBlk false 0 0) = true := by decide
  obtain ⟨-, -, -, -, -, -, hblk, -⟩ := hall State.pairedBlk 0 0 0 0 0 false 0 0
  obtain ⟨t, ht, -, -, -, -, -, -, -, hrest⟩ := hblk hs (by decide)
  rw [exec_of_standsAt rfl hs rfl, if_pos (by decide)] at ht
  cases ht
  have hdraws : 1 = 0 := congrArg State.draws hrest
  cases hdraws

/-! ### A suspected core (R206, R214, R481) -/

theorem State.hearthEvent_rest (p code arg : Nat) :
    { s.hearthEvent p code arg with hosts := s.hosts, regs := s.regs } = s := by
  have howner : { s.eventOwner code 0x28 arg with hosts := s.hosts, regs := s.regs } = s := State.event_rest ..
  unfold State.hearthEvent
  dsimp only
  split
  · split
    · exact howner
    · rename_i g _ _
      have hcord := (s.eventOwner code 0x28 arg).event_rest g.ownerHost code 0x28 arg
      exact (congrArg (fun x : State => { x with hosts := s.hosts, regs := s.regs }) hcord).trans howner
  · exact howner

/-- A Hearth that becomes SUSPECT keeps its contents (R481). -/
theorem State.setHearthState_suspect (p : Nat) : (s.setHearthState p 2).hearths = s.hearths ∧
    (s.setHearthState p 2).dram = s.dram := ⟨rfl, rfl⟩

/-- The first suspicion of a core touches no Hearth and no memory (R481). -/
theorem State.suspect_core {part : Nat} (hs : (s.phy (s.physOf h)).suspects = []) (hpart : 4 ≤ part) :
    (s.suspect h part).hearths = s.hearths ∧ (s.suspect h part).dram = s.dram := by
  have hkiln : ¬ part < 4 := Nat.not_lt.2 hpart
  unfold State.suspect
  dsimp only
  rw [hs, if_neg (by simp), if_neg (by simp [hkiln]), if_neg hkiln]
  split
  · exact ⟨rfl, rfl⟩
  · have hev (t : State) (p code arg : Nat) := t.hearthEvent_rest p code arg
    exact ⟨(congrArg State.hearths (hev ..) :), (congrArg State.dram (hev ..) :)⟩

/-- A core of a Hearth without a job or an earlier suspicion that stops as faulted: its stop is recorded, and no memory
changes (R206, R214). -/
theorem State.coreStop_suspected {cause : Nat} (hcause : cause = 1 ∨ cause = 7) (hjob : (s.hearth h).job = none)
    (hs : (s.phy (s.physOf h)).suspects = []) : (s.coreStop h c cause).hearths = (s.stopped h c cause true).hearths ∧
      (s.coreStop h c cause).dram = s.dram := by
  have hhw : (cause == 1 || cause == 7) = true := by simpa using hcause
  let reported := (s.stopped h c cause true).logFault (originHearth (s.physOf h)) 0x02 (s.physOf h + c * 256) (s.jobOf h) cause
  obtain ⟨hhearths, hdram⟩ := State.suspect_core (s := reported) (h := h) (part := 4 + c) hs (Nat.le_add_right ..)
  have hnone : ((reported.suspect h (4 + c)).hearth h).job = none := by
    rw [State.hearth, hhearths]
    exact (State.job_stopped cause true).trans hjob
  have heq : s.coreStop h c cause = reported.suspect h (4 + c) := by
    rw [State.coreStop, State.coreStopAt, hhw]
    refine (if_pos (hnone.trans hjob.symm)).trans ?_
    change (reported.suspect h (4 + c)).tearHearth h = _
    rw [State.tearHearth, hnone]
  rw [heq]
  exact ⟨hhearths, hdram⟩

/-- A core as a stop leaves it (R214). -/
def Core.halted (k : Core) (cause : Nat) (faulted : Bool) : Core :=
  { k with state := 3, cause := cause, faultPc := k.pc, waitsOn := none, faulted := k.faulted || faulted }

theorem State.stopped_core (hc : c < 2) (cause : Nat) (faulted : Bool) :
    (s.stopped h c cause faulted).core h c = (s.core h c).halted cause faulted := by
  have hne : ¬ (h = h ∧ c = 1 - c) := by omega
  exact (State.core_setCore ..).trans ((if_neg hne).trans (State.core_setCore_same ..))

theorem State.stopped_other_core (hc : c < 2) (cause : Nat) (faulted : Bool) :
    ((s.stopped h c cause faulted).core h (1 - c)).state = if (s.core h (1 - c)).state = 0 then 0 else 3 := by
  have hne : ¬ (h = h ∧ 1 - c = c) := by omega
  have hother := (State.core_setCore s h c h (1 - c) ((s.core h c).halted cause faulted)).trans (if_neg hne)
  refine (congrArg Core.state (State.core_setCore_same ..)).trans ?_
  exact congrArg (fun k : Core => if k.state = 0 then 0 else 3) hother

theorem State.store_setCore (k : Core) : ((s.setCore h c k).hearth h).store = (s.hearth h).store := by
  rw [State.hearth_setCore]

theorem State.stopped_store (cause : Nat) (faulted : Bool) :
    ((s.stopped h c cause faulted).hearth h).store = (s.hearth h).store :=
  (State.store_setCore _).trans (State.store_setCore _)

/-! ### What a core checks before it executes (R205, R206) -/

theorem State.noteImemUe_rest (s : State) (h c pc : Nat) :
    { s.noteImemUe h c pc with flt := s.flt, hosts := s.hosts, regs := s.regs } = s := by
  have hev (t : State) (code block arg : Nat) : { t.eventOwner code block arg with hosts := t.hosts, regs := t.regs } = t :=
    t.event_rest ..
  exact (congrArg (fun x : State => { x with flt := s.flt, regs := s.regs }) (hev ..) :)

section
variable {v m : Word} {body : State → State} (hruns : (s.core h c).runs = true) (hpaused : s.paused h = false)
include hruns hpaused

theorem State.coreStep_of_imemUe (hue : (s.core h c).imemUe.contains ((s.core h c).pc / 8) = true) :
    s.coreStep h c v m body = (s.noteImemUe h c (s.core h c).pc).coreStop h c 7 := by
  have hheld : ¬ (!(s.core h c).runs || s.paused h) = true := by simp [hruns, hpaused]
  exact (if_neg hheld).trans (if_pos hue)

theorem State.coreStep_of_bad_target (hue : (s.core h c).imemUe.contains ((s.core h c).pc / 8) = false)
    (hw : (s.core h c).fetch &&& m = v &&& m) (hpending : (s.core h c).blkPending = true)
    (hblk : isBlk (s.core h c).fetch = false) : s.coreStep h c v m body = s.coreStop h c 1 := by
  have hheld : ¬ (!(s.core h c).runs || s.paused h) = true := by simp [hruns, hpaused]
  have htarget : ((s.core h c).blkPending && !isBlk (s.core h c).fetch) = true := by simp [hpending, hblk]
  exact (if_neg hheld).trans ((if_neg (Bool.eq_false_iff.1 hue)).trans ((if_neg (not_not.2 hw)).trans (if_pos htarget)))

end

/-- Settles O26: the three ways in which a core is suspected, each a stop of the same form. -/
theorem suspectedCoreFaults : Obligations.SuspectedCoreFaults := by
  unfold Obligations.SuspectedCoreFaults
  intro s h c adj d sig i v m k hjob hu hsus halts
  have hc : c < 2 := by
    simp only [coreOk, Bool.and_eq_true, decide_eq_true_eq] at hu
    exact hu.2
  have stops {i : Instr} {cause : Nat} {u : State} (hcause : cause = 1 ∨ cause = 7)
      (he : exec i s = .next (u.coreStop h c cause)) (hhearth : u.hearth = s.hearth) (hphy : u.phy (u.physOf h) = s.phy (s.physOf h))
      (hdram : u.dram = s.dram) : halts i cause := by
    obtain ⟨hhearths, hmem⟩ := State.coreStop_suspected (s := u) (c := c) hcause (hhearth ▸ hjob) (hphy ▸ hsus)
    have hcore (d : Nat) : (u.coreStop h c cause).core h d = (u.stopped h c cause true).core h d := by
      rw [State.core, State.hearth, hhearths]
      rfl
    have hold (d : Nat) : u.core h d = s.core h d := by rw [State.core, hhearth]; rfl
    have hk : (u.coreStop h c cause).core h c = k.halted cause true := by rw [hcore, State.stopped_core hc, hold]
    refine ⟨_, he, ?_, ?_, ?_, ?_, ?_, ?_, fun hother => ?_, ?_, hmem.trans hdram⟩
    · rw [hk]; rfl
    · rw [hk]; rfl
    · rw [hk]; rfl
    · rw [hk]; exact Bool.or_true _
    · rw [hk]; rfl
    · rw [hk]; rfl
    · rw [hcore, State.stopped_other_core hc, hold, if_neg hother]
    · rw [State.hearth, hhearths]
      exact (State.stopped_store cause true).trans (congrArg (fun f : Nat → Hearth => (f h).store) hhearth)
  refine ⟨fun hs hsig => ?mismatch, fun hi hruns hpaused => ⟨fun hue => ?fetch, fun hue hw hpending hblk => ?target⟩⟩
  case mismatch => exact stops (.inl rfl) ((exec_of_standsAt rfl hs rfl).trans (congrArg _ (if_neg hsig))) rfl rfl rfl
  case fetch =>
    obtain ⟨body, he⟩ := exec_core_instr hi
    have hrest := s.noteImemUe_rest h c k.pc
    exact stops (u := s.noteImemUe h c k.pc) (.inr rfl) ((he s).trans (by rw [hu, withUnit_true, State.coreStep_of_imemUe hruns hpaused hue]))
      (congrArg State.hearth hrest :) (congrArg (fun x : State => x.phy (x.physOf h)) hrest :) (congrArg State.dram hrest :)
  case target =>
    obtain ⟨body, he⟩ := exec_core_instr hi
    exact stops (.inl rfl) ((he s).trans (by
      rw [hu, withUnit_true, State.coreStep_of_bad_target hruns hpaused hue hw hpending hblk])) rfl rfl rfl

end Sys2Proof.Machine
end

section
/-! PROOF. The Hitch instructions of the Kindling cores (R200, R214, R426 to R428). -/

namespace Sys2Proof.Machine

variable {s t : State} {h c k n : Nat} {y : Hitch}

/-! ### A Hitch that no job watches -/

/-- No job waits to start, or to begin its pass, on Hitch `k`. -/
def State.Unwatched (s : State) (k : Nat) : Prop :=
  ∀ j ∈ s.jobs, (j.startEn = false ∨ j.startHitch ≠ k) ∧ j.pass.waitsOn ≠ some k

theorem State.retryStarts_of_unwatched (hw : s.Unwatched k) : s.retryStarts k = s := by
  have hpasses : (s.jobs.filter fun j => j.resident && j.pass.waitsOn == some k) = [] :=
    List.filter_eq_nil_iff.2 fun j hj => by simp [(hw j hj).2]
  have hstarts : (s.jobs.filter fun j => j.phase == 0 && j.startEn && !j.waitOk && j.startHitch == k) = [] :=
    List.filter_eq_nil_iff.2 fun j hj => by
      rcases (hw j hj).1 with hen | hne
      · simp [hen]
      · simp [hne]
  unfold State.retryStarts
  dsimp only
  rw [hpasses, List.foldl_nil, hstarts, List.foldl_nil]

theorem State.Unwatched.of_jobs (hw : s.Unwatched k) (hj : t.jobs = s.jobs) : t.Unwatched k := by
  rw [State.Unwatched, hj]
  exact hw

theorem State.Unwatched.noteSignal (hw : s.Unwatched k) (sub x : Nat) : (s.noteSignal sub x).Unwatched k := by
  intro j hj
  obtain ⟨i, hi, rfl⟩ := List.mem_map.1 hj
  split <;> exact hw i hi

theorem State.mem_signalled_noteSignal {sub : Nat} {j : Job} (hj : j ∈ (s.noteSignal sub k).jobs) (hsub : j.sub = sub) :
    k ∈ j.signalled := by
  obtain ⟨i, -, rfl⟩ := List.mem_map.1 hj
  by_cases hi : i.sub == sub
  · rw [if_pos hi]
    exact List.mem_cons_self
  · rw [if_neg hi] at hsub
    exact absurd (beq_iff_eq.2 hsub) hi

/-! ### What grants keep -/

theorem State.spliceRows_hitches (g : Nat) : (s.spliceRows g).hitches = s.hitches := by
  unfold State.spliceRows
  dsimp only
  split
  · split <;> rfl
  · rfl

theorem State.core_setHearth_of_cores {g : Nat} {v : Hearth} (hv : v.cores = (s.hearth g).cores) :
    (s.setHearth g v).core h c = s.core h c := by
  rw [State.core, State.hearth_setHearth, State.core]
  split
  next he => rw [hv, he]
  next => rfl

theorem State.spliceRows_core (g : Nat) : (s.spliceRows g).core h c = s.core h c := by
  unfold State.spliceRows
  dsimp only
  split
  · rw [State.bump_core, State.core_setHearth_of_cores (by rfl)]
    split
    · rfl
    · exact State.core_setHearth_of_cores rfl
  · rfl

theorem State.grant_hitches (a : Agent) : (s.grant k a).hitches = s.hitches := by
  cases a with
  | core g d =>
    rw [State.grant]
    split
    · exact (congrArg State.hitches (State.retireInstr_frame ..) :)
    · rfl
  | window g side =>
    unfold State.grant
    dsimp only
    split <;> rfl
  | splice g => exact State.spliceRows_hitches g
  | _ => rfl

/-- A grant moves no core but one that waits. -/
theorem State.grant_core (hc : (s.core h c).waitsOn = none) (a : Agent) : (s.grant k a).core h c = s.core h c := by
  cases a with
  | core g d =>
    rw [State.grant]
    split
    next hwaits =>
      refine (State.retireInstr_core ..).trans ((State.core_setCore ..).trans (if_neg fun he => ?_))
      obtain ⟨rfl, rfl⟩ := he
      rw [hc] at hwaits
      cases hwaits
    next => rfl
  | window g side =>
    unfold State.grant
    dsimp only
    split
    · exact State.core_setHearth_of_cores rfl
    · rfl
  | splice g => exact State.spliceRows_core g
  | _ => rfl

theorem State.grantAll_hitches (l : List Agent) : (s.grantAll k l).hitches = s.hitches :=
  foldl_keeps State.hitches (fun _ a => State.grant_hitches a) l s

theorem State.grantAll_core (hc : (s.core h c).waitsOn = none) (l : List Agent) :
    (s.grantAll k l).core h c = s.core h c := by
  unfold State.grantAll
  induction l generalizing s with
  | nil => rfl
  | cons a l ih =>
    have ha := State.grant_core (k := k) hc a
    exact (ih (ha ▸ hc)).trans ha

/-! ### Signals, sets and waits -/

theorem State.eventCord_sansReports (m code block arg : Nat) : (s.eventCord m code block arg).sansReports = s.sansReports :=
  State.eventCord_keeps State.sansReports m code block arg fun d => State.event_sansReports d code block arg

/-- A signal to a Hitch that no job watches changes the counter, reaches the agents granted, and reports an overflow. -/
theorem State.hitchSignal_of_unwatched (hw : s.Unwatched k) (n : Nat) :
    (s.hitchSignal k n).sansReports =
      ((s.setHitch k ((s.hitch k).signal n).1).grantAll k ((s.hitch k).signal n).2).sansReports := by
  rw [State.hitchSignal]
  generalize (s.hitch k).signal n = p
  obtain ⟨x, agents⟩ := p
  dsimp only
  generalize hu : (s.setHitch k x).grantAll k agents = u
  have hjobs : u.jobs = s.jobs := hu ▸ State.jobs_of_books (State.grantAll_books ..)
  have hreport {v : State} (hv : v.sansReports = u.sansReports) : (v.retryStarts k).sansReports = u.sansReports := by
    rwa [State.retryStarts_of_unwatched (s := v) (hw.of_jobs ((congrArg State.jobs hv :).trans hjobs))]
  refine hreport ?_
  split
  · split
    · exact State.eventCord_sansReports ..
    · exact State.eventOwner_sansReports ..
  · rfl

theorem State.hitchSignal_hitch (hw : s.Unwatched k) (n z : Nat) :
    (s.hitchSignal k n).hitch z = if z = k then ((s.hitch k).signal n).1 else s.hitch z := by
  rw [← State.hitch_setHitch]
  have hsignal : (s.hitchSignal k n).hitches = _ := (congrArg State.hitches (State.hitchSignal_of_unwatched hw n) :)
  exact (congrArg (fun m : SMap Hitch => m.look (fun _ => {}) z) (hsignal.trans (State.grantAll_hitches _)) :)

theorem State.hitchSignal_core (hw : s.Unwatched k) (hc : (s.core h c).waitsOn = none) (n : Nat) :
    (s.hitchSignal k n).core h c = s.core h c :=
  (congrArg (fun u : State => u.core h c) (State.hitchSignal_of_unwatched hw n) :).trans
    (State.grantAll_core (s := s.setHitch k _) hc _)

theorem State.hitchSignal_jobs (hw : s.Unwatched k) (n : Nat) : (s.hitchSignal k n).jobs = s.jobs :=
  (congrArg State.jobs (State.hitchSignal_of_unwatched hw n) :).trans (State.jobs_of_books (State.grantAll_books ..))

/-- A signal that does not overflow a counter that nothing waits on only counts. -/
theorem State.hitchSignal_of_idle_unwatched (hx : (s.hitch k).Idle) (hw : s.Unwatched k)
    (hroom : (s.hitch k).count + n ≤ 0xFFFFFFFF) :
    s.hitchSignal k n = s.setHitch k { s.hitch k with count := (s.hitch k).count + n } := by
  rw [State.hitchSignal, hx.signal hroom]
  dsimp only
  rw [Bool.and_not_self, if_neg Bool.false_ne_true]
  exact State.retryStarts_of_unwatched (hw.of_jobs rfl)

/-- Whether a TRYWAIT of `n` succeeds. -/
def Hitch.tries (y : Hitch) (n : Nat) : Bool :=
  decide (y.queue = []) && !y.poison && !y.barrier && decide (n ≤ y.count)

theorem Hitch.tryWait_eq (y : Hitch) (n : Nat) :
    y.tryWait n = (if y.tries n then { y with count := y.count - n } else y, y.tries n) := by
  have htries : (!y.poison && !y.barrier && y.queue.isEmpty && decide (n ≤ y.count)) = y.tries n := by
    rw [Hitch.tries, Bool.eq_iff_iff]
    simp only [Bool.and_eq_true, List.isEmpty_iff, decide_eq_true_eq]
    tauto
  rw [Hitch.tryWait, htries]
  cases y.tries n <;> rfl

theorem Hitch.set_of_alone (hq : y.queue = []) (hp : y.poison = false) (n : Nat) :
    y.set n = ({ y with count := n, barrier := false }, []) := by
  simp [Hitch.set, Hitch.serve, hq, hp, serveCounter]

theorem State.hitchSet_of_alone (hq : (s.hitch k).queue = []) (hp : (s.hitch k).poison = false) (hw : s.Unwatched k) :
    s.hitchSet k n = s.setHitch k { s.hitch k with count := n, barrier := false } := by
  rw [State.hitchSet, Hitch.set_of_alone hq hp]
  exact State.retryStarts_of_unwatched (hw.of_jobs rfl)

/-- At a barrier, at a lower count and behind an agent that is not granted, an agent that waits joins the queue. -/
theorem Hitch.wait_queues (hp : y.poison = false)
    (hy : y.barrier = true ∨ (y.queue = [] ∧ y.count < n) ∨ ∃ w rest, y.queue = w :: rest ∧ y.count < w.n) (a : Agent) :
    y.wait a n = ({ y with queue := y.queue ++ [⟨a, n⟩] }, []) := by
  by_cases hb : y.barrier = true
  · rw [Hitch.wait, if_pos hb]
  · have hhead : ∃ w rest, y.queue ++ [⟨a, n⟩] = w :: rest ∧ y.count < w.n := by
      rcases hy with hb' | ⟨hq, hn⟩ | ⟨w, rest, hq, hn⟩
      · exact absurd hb' hb
      · exact ⟨⟨a, n⟩, [], by rw [hq]; rfl, hn⟩
      · exact ⟨w, rest ++ [⟨a, n⟩], by rw [hq]; rfl, hn⟩
    obtain ⟨w, rest, hq, hn⟩ := hhead
    simp [Hitch.wait, Hitch.serve, hb, hp, hq, serveCounter, Nat.not_le.2 hn]

/-! ### The instructions -/

theorem State.coreHitch_in {r : BitVec 5} {body : Nat → State}
    (hin : s.hitchIn (s.core h c).cord ((s.core h c).hitchOf r) = true) :
    s.coreHitch h c r body = body ((s.core h c).hitchOf r) := if_pos hin

theorem State.coreHitch_out {r : BitVec 5} {body : Nat → State}
    (hout : s.hitchIn (s.core h c).cord ((s.core h c).hitchOf r) = false) :
    s.coreHitch h c r body = (s.stopped h c 5 false).tearHearth h :=
  (if_neg (Bool.eq_false_iff.1 hout)).trans (State.coreStop_eq (by decide))

/-- A wait that is granted at once takes its count, and the core goes on. -/
theorem State.coreWait_granted (hx : (s.hitch k).Idle) (hn : n ≤ (s.hitch k).count) :
    s.coreWait h c k n = (s.setHitch k { s.hitch k with count := (s.hitch k).count - n }).coreNext h c id := by
  rw [State.coreWait, hx.2.1, hx.wait_granted _ hn]
  simp [State.grantAll]

/-- A wait that is not granted at once queues the core. -/
theorem State.coreWait_queued (hp : (s.hitch k).poison = false)
    (hw : (s.hitch k).wait (.core h c) n = (y, [])) :
    s.coreWait h c k n = ((s.setHitch k y).setCore h c { s.core h c with state := 2, waitsOn := some k }).anyCycles
      (kcKey 24 h c) := by
  rw [State.coreWait, hp, hw]
  rfl

theorem Core.waitsOn_of_runs {k : Core} (hr : k.runs = true) : k.waitsOn = none := by
  rw [Core.runs, Bool.and_eq_true] at hr
  exact Option.isNone_iff_eq_none.1 hr.2

theorem State.runs_of_standsAt {w : Word} (hs : s.standsAt h c w = true) : (s.core h c).runs = true := by
  simp only [State.standsAt, Bool.and_eq_true] at hs
  exact hs.1.1.1.1.1.2

/-- Beside a change of the Hitches, an instruction that advances its core changes nothing else. -/
theorem CoreTo.coreNext_setHitch {f : Core → Core} (hf : ∀ k, (f k).pc = k.pc) (x : Nat) (y : Hitch) :
    let t := (s.setHitch x y).coreNext h c f
    (∀ z, t.hitch z = if z = x then y else s.hitch z) ∧
      CoreTo s { t with hitches := s.hitches } h c (f (s.core h c)).advanced := by
  have hto := CoreTo.coreNext (s := s.setHitch x y) (h := h) (c := c) (hf _)
  refine ⟨fun z => ?_, hto.core, hto.cores, hto.hearth, hto.hearths, hto.retired, hto.dual, hto.regs, ?_⟩
  · rw [← State.hitch_setHitch]
    exact (congrArg (fun u : State => u.hitch z) hto.rest :)
  · exact (congrArg (fun u : State => { u with hitches := s.hitches }) hto.rest :)

/-- What an instruction does to one Hitch, said of that Hitch and of the others. -/
theorem State.hitch_cases {x : Nat} (ht : ∀ z, t.hitch z = if z = x then y else s.hitch z) :
    t.hitch x = y ∧ ∀ z, z ≠ x → t.hitch z = s.hitch z :=
  ⟨(ht x).trans (if_pos rfl), fun z hz => (ht z).trans (if_neg hz)⟩

/-- A core at a SIGNAL goes on, and its job notes the Hitch, before the signal is performed. -/
def State.signalling (s : State) (h c x : Nat) : State := (s.coreNext h c id).noteSignal (s.jobOf h) x

theorem State.signalling_hitch (x z : Nat) : (s.signalling h c x).hitch z = s.hitch z :=
  (congrArg (fun u : State => u.hitch z) (CoreTo.coreNext (s := s) (h := h) (c := c) (f := id) rfl).rest :)

theorem State.signalling_core (x : Nat) : (s.signalling h c x).core h c = (s.core h c).advanced :=
  (CoreTo.coreNext (f := id) rfl).core

theorem State.Unwatched.signalling (hw : s.Unwatched k) (x : Nat) : (s.signalling h c x).Unwatched k :=
  State.Unwatched.noteSignal
    (hw.of_jobs (congrArg State.jobs (CoreTo.coreNext (s := s) (h := h) (c := c) (f := id) rfl).rest :)) _ _

/-- Beside the Hitches and what jobs note, a SIGNAL only advances its core. -/
theorem CoreTo.noted {u : State} {k : Core} (hto : CoreTo s u h c k) (sub x z : Nat) (y : Hitch) :
    CoreTo s { (u.noteSignal sub x).setHitch z y with hitches := s.hitches, jobs := s.jobs } h c k :=
  ⟨hto.core, hto.cores, hto.hearth, hto.hearths, hto.retired, hto.dual, hto.regs,
    (congrArg (fun u : State => { u with hitches := s.hitches, jobs := s.jobs }) hto.rest :)⟩

theorem CoreTo.set_hitch {u : State} {k : Core} (hto : CoreTo s u h c k) (x : Nat) (y : Hitch) :
    (∀ z, (u.setHitch x y).hitch z = if z = x then y else s.hitch z) ∧
      CoreTo s { u.setHitch x y with hitches := s.hitches } h c k := by
  refine ⟨fun z => ?_, hto.core, hto.cores, hto.hearth, hto.hearths, hto.retired, hto.dual, hto.regs, ?_⟩
  · have hz : u.hitch z = s.hitch z := (congrArg (fun u : State => u.hitch z) hto.rest :)
    rw [State.hitch_setHitch, hz]
  · exact (congrArg (fun u : State => { u with hitches := s.hitches }) hto.rest :)

/-- An outcome whose next state has been computed completes as that state does. -/
theorem Completes.of_next {o : Host.Outcome State Fault Refusal} {u : State} {P : State → Prop} (ho : o = .next t)
    (hu : t = u) (hP : P u) : Completes o P := ⟨t, ho, hu ▸ hP⟩

/-- Settles O24: each instruction by the operation that it does on its Hitch. -/
theorem hitchInstructions : Obligations.HitchInstructions := by
  unfold Obligations.HitchInstructions
  intro s h c rd rs1 rs2 k x n y at' alone unwatched stops
  have hstops {oper : BitVec 3} {r : BitVec 5} {i : Instr} {body : State → Nat → State}
      (he : exec i s = withUnit (coreOk h c) (s.coreStep h c (encH oper r rs1 rs2) maskAll fun s =>
        s.coreHitch h c rs2 (body s))) (hs : at' oper r) : stops i :=
    fun hout => (exec_of_standsAt he hs rfl).trans (congrArg _ (State.coreHitch_out hout))
  have hdoes {oper : BitVec 3} {r : BitVec 5} {i : Instr} {body : State → Nat → State}
      (he : exec i s = withUnit (coreOk h c) (s.coreStep h c (encH oper r rs1 rs2) maskAll fun s =>
        s.coreHitch h c rs2 (body s))) (hs : at' oper r) (hin : s.hitchIn k.cord x = true) :
      exec i s = .next (body s x) :=
    (exec_of_standsAt he hs rfl).trans (congrArg _ (State.coreHitch_in hin))
  refine ⟨fun hs => ⟨hstops rfl hs, fun hin hw => ?_, fun hin ha hw hb hroom => ?_⟩,
    fun hs => ⟨hstops rfl hs, fun hin ha hb hn => ?_, fun hin hp hq => ?_⟩,
    fun hs => ⟨hstops rfl hs, fun hin => ?_⟩, fun hs => ⟨hstops rfl hs, fun hin => ⟨fun ha hw hn => ?_, fun hlo hhi => ?_⟩⟩⟩
  · have hw' := State.Unwatched.signalling (h := h) (c := c) hw x
    have hwaits : ((s.signalling h c x).core h c).waitsOn = none := by
      rw [State.signalling_core]
      exact (Core.waitsOn_of_runs (State.runs_of_standsAt hs) :)
    obtain ⟨hsame, hothers⟩ := State.hitch_cases (State.hitchSignal_hitch hw' n)
    refine ⟨_, hdoes rfl hs hin, hsame.trans ?_, fun z hz => (hothers z hz).trans (State.signalling_hitch ..),
      (State.hitchSignal_core hw' hwaits n).trans (State.signalling_core x), fun j hj hsub => ?_⟩
    · rw [State.signalling_hitch]
    · exact State.mem_signalled_noteSignal ((State.hitchSignal_jobs hw' n).subst hj) hsub
  · obtain ⟨hqueue, hpoison⟩ := ha
    have hy : (s.signalling h c x).hitch x = y := State.signalling_hitch x x
    have hsignal : (s.signalling h c x).hitchSignal x n = _ :=
      State.hitchSignal_of_idle_unwatched (hy.symm ▸ ⟨hqueue, hpoison, hb⟩) (State.Unwatched.signalling hw x)
        (hy.symm ▸ hroom)
    refine .of_next (hdoes rfl hs hin) hsignal ⟨?_, fun z hz => ?_, (CoreTo.coreNext (f := id) rfl).noted ..⟩
    · rw [State.hitch_setHitch_same, hy]
    · rw [State.hitch_setHitch, if_neg hz, State.signalling_hitch]
  · obtain ⟨hqueue, hpoison⟩ := ha
    obtain ⟨hhitch, hto⟩ := CoreTo.coreNext_setHitch (s := s) (h := h) (c := c) (f := id) (fun _ => rfl) x
      { y with count := y.count - n }
    obtain ⟨hsame, hothers⟩ := State.hitch_cases hhitch
    exact .of_next (hdoes rfl hs hin) (State.coreWait_granted ⟨hqueue, hpoison, hb⟩ hn) ⟨hsame, hothers, hto⟩
  · refine .of_next (hdoes rfl hs hin) (State.coreWait_queued hp (Hitch.wait_queues hp hq _))
      ⟨?_, fun z hz => ?_, ?_, rfl, rfl, rfl, fun g hg => ?_⟩
    · exact State.hitch_setHitch_same ..
    · exact (State.hitch_setHitch ..).trans (if_neg hz)
    · exact State.core_setCore_same ..
    · exact State.hearth_setCore_of_ne _ _ _ _ _ hg
  · obtain ⟨hhitch, hto⟩ := CoreTo.coreNext_setHitch (s := s) (h := h) (c := c) (f := fun k => k.writeX rd (boolWord (y.tries n)))
      (fun _ => Core.writeX_pc ..) x (if y.tries n then { y with count := y.count - n } else y)
    obtain ⟨hsame, hothers⟩ := State.hitch_cases hhitch
    have htry := congrArg (fun p : Hitch × Bool => (s.setHitch x p.1).coreX h c rd fun _ => boolWord p.2) (Hitch.tryWait_eq y n)
    refine .of_next (hdoes rfl hs hin) htry ?_
    exact ⟨hsame, hothers, hto⟩
  · obtain ⟨hqueue, hpoison⟩ := ha
    have hto := CoreTo.coreNext (s := s) (h := h) (c := c) (f := id) rfl
    have hy : (s.coreNext h c id).hitch x = y := (congrArg (fun u : State => u.hitch x) hto.rest :)
    have hset : (s.coreNext h c id).hitchSet x n = (s.coreNext h c id).setHitch x { y with count := n, barrier := false } := by
      have hjobs : (s.coreNext h c id).jobs = s.jobs := (congrArg State.jobs hto.rest :)
      rw [State.hitchSet_of_alone (hy.symm ▸ hqueue) (hy.symm ▸ hpoison) (State.Unwatched.of_jobs hw hjobs), hy]
    obtain ⟨hhitch, hto⟩ := hto.set_hitch x { y with count := n, barrier := false }
    obtain ⟨hsame, hothers⟩ := State.hitch_cases hhitch
    exact .of_next (hdoes rfl hs hin) ((if_pos hn).trans hset) ⟨hsame, hothers, hto⟩
  · obtain ⟨hhitch, hto⟩ := CoreTo.coreNext_setHitch (s := s) (h := h) (c := c) (f := id) (fun _ => rfl) x
      (y.arm (n - 2147483648))
    obtain ⟨hsame, hothers⟩ := State.hitch_cases hhitch
    have hset : ¬ n < 2147483648 := by omega
    have harm : ¬ (n = 2147483648 ∨ 2147483648 + 65535 < n) := by omega
    exact .of_next (hdoes rfl hs hin) ((if_neg hset).trans (if_neg harm)) ⟨hsame, hothers, hto⟩

end Sys2Proof.Machine
end

section
/-! PROOF. KISSUE, KWAIT and KPOLL (R196 to R199, R212, R214). -/

namespace Sys2Proof.Machine

variable {s t : State} {h c : Nat}

/-! ### The bits that a command instruction leaves free (R187) -/

section
variable (op : BitVec 6) (rs1 rd free free' : BitVec 5) (target : BitVec 3) (off : BitVec 12)

theorem and_maskKissue_encK : encK op rs1 free target off &&& maskKissue = encK op rs1 0 target off &&& maskKissue :=
  agree_encK_kissue.2 (agree_encK_kissue.1 rfl)

theorem and_maskKwait_encK : encK op free free' target off &&& maskKwait = encK op 0 0 target 0 &&& maskKwait :=
  agree_encK_kwait.2 (agree_encK_kwait.1 rfl)

theorem and_maskKpoll_encK : encK op free rd target off &&& maskKpoll = encK op 0 rd target 0 &&& maskKpoll :=
  agree_encK_kpoll.2 (agree_encK_kpoll.1 rfl)

end

/-! ### A core that stalls, and a command that is queued -/

/-- A core that stalls on a command target. -/
def State.stalled (s : State) (h c : Nat) : State :=
  (s.setCore h c { s.core h c with state := 2 }).anyCycles (kcKey 20 h c)

theorem State.stalled_spec (s : State) (h c : Nat) :
    { s.stalled h c with regs := s.regs, draws := s.draws } = s.setCore h c { s.core h c with state := 2 } ∧
      ∀ x, x ≠ kcKey 20 h c → (s.stalled h c).reg x = s.reg x := by
  refine ⟨State.cycles_rest .., fun x hx => ?_⟩
  obtain ⟨n, -, hn⟩ := (s.setCore h c { s.core h c with state := 2 }).reg_cycles (kcKey 20 h c) x 0xFFFFFFFF
  exact hn.trans (if_neg hx)

/-- A core has issued a command to target `tg`. -/
def Core.issue (k : Core) (tg : Nat) : Core := { k with issued := k.issued.modify (fun _ => 0) tg (· + 1) }

/-- The command of entry `e`, read at `a`, has joined the queue of target `tg`, and core c goes on. -/
def State.issued (s : State) (h c tg a : Nat) (e : QEntry) : State :=
  ((s.touch h a 32).setQueueOf h tg (s.queueOf h tg ++ [e])).coreNext h c fun k => k.issue tg

theorem State.ActsOn.trans_coreTo {v : Hearth} {k : Core} {u : State} (ha : s.ActsOn t h v) (hto : CoreTo t u h c k) :
    s.ActsOn u h (u.hearth h) where
  hearth := rfl
  hearths g hg := (hto.hearths g hg).trans (ha.hearths g hg)
  phys p hp := (congrArg (fun x : State => x.phy p) hto.rest :).trans (ha.phys p hp)
  rest := (congrArg (fun x : State =>
    { x with hearths := s.hearths, phys := s.phys, regs := s.regs, draws := s.draws }) hto.rest :).trans ha.rest

def Hearth.setQueue (v : Hearth) (tg : Nat) (q : List QEntry) : Hearth :=
  { v with queues := v.queues.put (fun _ => []) tg q }

theorem State.ActsOn.setQueueOf {v : Hearth} (ht : s.ActsOn t h v) (tg : Nat) (q : List QEntry) :
    s.ActsOn (t.setQueueOf h tg q) h (v.setQueue tg q) :=
  ht.hearth ▸ ht.setHearth _

theorem State.issued_spec (s : State) (h c tg a : Nat) (e : QEntry) :
    let t := s.issued h c tg a e
    t.queueOf h tg = s.queueOf h tg ++ [e] ∧ (∀ u, u ≠ tg → t.queueOf h u = s.queueOf h u) ∧
      t.core h c = ((s.core h c).issue tg).advanced ∧ (t.hearth h).store = (s.hearth h).store ∧
      (∀ g, g ≠ h → t.hearth g = s.hearth g) ∧ t.dram = s.dram ∧ t.hitches = s.hitches ∧ t.jobs = s.jobs := by
  let q := s.queueOf h tg ++ [e]
  have hact := ((State.ActsOn.refl s h).touch a 32).setQueueOf tg q
  have hto := CoreTo.coreNext (s := (s.touch h a 32).setQueueOf h tg q) (h := h) (c := c) (f := fun k => k.issue tg) rfl
  have hcore : ((s.touch h a 32).setQueueOf h tg q).core h c = s.core h c := by
    rw [State.core, hact.hearth]
    rfl
  have hend := hact.trans_coreTo hto
  have hhearth := hto.hearth
  rw [hact.hearth] at hhearth
  have hqueues : ((s.issued h c tg a e).hearth h).queues = (s.hearth h).queues.put (fun _ => []) tg q :=
    (congrArg Hearth.queues hhearth :)
  refine ⟨?_, fun u hu => ?_, by rw [← hcore]; exact hto.core, (congrArg Hearth.store hhearth :), hend.hearths,
    (congrArg State.dram hend.rest :), (congrArg State.hitches hend.rest :), (congrArg State.jobs hend.rest :)⟩
  · rw [State.queueOf, hqueues, SMap.look_put_same]
  · rw [State.queueOf, hqueues, SMap.look_put_of_ne _ _ hu]
    rfl

/-! ### The instructions -/

section
variable {tg a : Nat} {bs : List Byte}

/-- The commands that R212 keeps a VPATH core from issuing. -/
def Core.bars (k : Core) (tg : Nat) (bs : List Byte) : Prop :=
  tg = 4 ∧ k.vpath = true ∧ ((bs.getD 0 0).toNat = 0x21 ∨ (bs.getD 0 0).toNat = 0x22)

theorem State.kissue_misaligned (ha : a % 32 ≠ 0) :
    s.kissue h c tg a = (s.stopped h c 3 false).tearHearth h :=
  (if_pos ha).trans (State.coreStop_eq (by decide))

theorem State.kissue_beyond (ha : a % 32 = 0) (hout : storeSize < a + 32) :
    s.kissue h c tg a = (s.stopped h c 4 false).tearHearth h :=
  ((if_neg (not_not.2 ha)).trans (if_pos hout)).trans (State.coreStop_eq (by decide))

/-- KISSUE of 32 sound bytes of the store. -/
theorem State.kissue_sound (ha : a % 32 = 0) (hin : a + 32 ≤ storeSize) (hue : (s.hearth h).meetsUe a 32 = false)
    (hbs : (s.hearth h).store.lookList zeroByte a 32 = bs) :
    ((s.core h c).bars tg bs → s.kissue h c tg a = (s.stopped h c 6 false).tearHearth h) ∧
    (¬ (s.core h c).bars tg bs → 4 ≤ (s.queueOf h tg).length → s.kissue h c tg a = s.stalled h c) ∧
    (¬ (s.core h c).bars tg bs → (s.queueOf h tg).length < 4 → s.cmdAccepted h tg bs = false →
      s.kissue h c tg a = s.refuseCmd h tg ⟨bs, c, (s.core h c).pc⟩ (if tg < 4 then 7 else 1)) ∧
    (¬ (s.core h c).bars tg bs → (s.queueOf h tg).length < 4 → s.cmdAccepted h tg bs = true →
      tg ≠ 5 ∨ s.queueOf h tg ≠ [] → s.kissue h c tg a = s.issued h c tg a ⟨bs, c, (s.core h c).pc⟩) := by
  subst hbs
  rw [State.kissue, if_neg (not_not.2 ha), if_neg (Nat.not_lt.2 hin), hue, if_neg Bool.false_ne_true]
  refine ⟨fun hb => ?_, fun hb hq => ?_, fun hb hq hok => ?_, fun hb hq hok hreach => ?_⟩
  · exact (if_pos hb).trans (State.coreStop_eq (by decide))
  · exact (if_neg hb).trans (if_pos hq)
  · rw [hok]
    exact (if_neg hb).trans (if_neg (Nat.not_le.2 hq))
  · have hbehind : ¬ (tg = 5 ∧ (s.queueOf h tg).length = 0) := fun ⟨htg, hlen⟩ =>
      hreach.elim (fun h => h htg) (fun h => h (List.length_eq_zero_iff.1 hlen))
    rw [hok]
    exact ((if_neg hb).trans (if_neg (Nat.not_le.2 hq))).trans (if_neg hbehind)

end

theorem byte_eq_iff_toNat {b : Byte} {n : Nat} (hn : n < 256) : b = BitVec.ofNat 8 n ↔ b.toNat = n := by
  rw [← BitVec.toNat_inj, BitVec.toNat_ofNat, Nat.mod_eq_of_lt hn]

/-- Settles O23: KISSUE in the order of its checks; KWAIT by the count of what is outstanding; KPOLL by the queue. -/
theorem commandIssue : Obligations.CommandIssue := by
  unfold Obligations.CommandIssue
  intro s h c rs1 rd target off a5 b5 k q a bs barred stalls
  have hbarred : barred ↔ k.bars target.toNat bs := by
    have htarget : target = 4 ↔ target.toNat = 4 := by rw [← BitVec.toNat_inj]; rfl
    exact and_congr htarget (and_congr Iff.rfl (or_congr (byte_eq_iff_toNat (by decide)) (byte_eq_iff_toNat (by decide))))
  have hstalls {i : Instr} {t : State} (he : exec i s = .next t) (ht : t = s.stalled h c) : stalls i :=
    .of_next he ht (s.stalled_spec h c)
  clear_value stalls barred
  refine ⟨fun hs => ?_, fun hs => ?_, fun hs => ?_⟩
  · have hexec := exec_of_standsAt (i := .kissue h c rs1 target off) rfl hs (and_maskKissue_encK ..)
    refine ⟨fun ha => ?_, fun ha hout => ?_, fun ha hin hue => ?_⟩
    · exact hexec.trans (congrArg _ (State.kissue_misaligned ha))
    · exact hexec.trans (congrArg _ (State.kissue_beyond ha hout))
    · obtain ⟨hbar, hfull, hrefuse, hissue⟩ := State.kissue_sound (c := c) (tg := target.toNat) ha hin hue rfl
      rw [hbarred]
      refine ⟨fun hb => ?_, fun hb hq => hstalls hexec (hfull hb hq), fun hb hq hok => ?_, fun hb hq hok ht => ?_⟩
      · exact hexec.trans (congrArg _ (hbar hb))
      · exact hexec.trans (congrArg _ (hrefuse hb hq hok))
      · have ht' : target.toNat ≠ 5 ∨ q ≠ [] := ht.imp_left fun hne he => hne (BitVec.eq_of_toNat_eq he)
        exact .of_next hexec (hissue hb hq hok ht') (s.issued_spec h c target.toNat a _)
  · have hexec := exec_of_standsAt (i := .kwait h c target) rfl hs (and_maskKwait_encK ..)
    by_cases hnone : k.issued.look (fun _ => 0) target.toNat = 0
    · rw [if_pos hnone]
      exact .of_next hexec (if_pos hnone) (CoreTo.coreNext rfl)
    · rw [if_neg hnone]
      exact hstalls hexec (if_neg hnone)
  · exact ⟨_, exec_of_standsAt rfl hs (and_maskKpoll_encK ..), CoreTo.coreNext (Core.writeX_pc ..)⟩

end Sys2Proof.Machine
end

section
/-! PROOF. VTEX: what a sample changes, the colours of the lanes, and the four registers that they reach (R211, R302). -/

namespace Sys2Proof.Machine

variable {s u : State} {c : CordCfg} {j : Job} {t : Tex} {index : Nat}

/-! ### What a sample changes -/

/-- From s to u a sample has at most recorded misses: the Hearths and the frame store stay, DRAM stays sound, and where
the texture is not sparse nothing changes. -/
structure State.SampleTo (s u : State) (sparse : Bool) : Prop where
  hearths : u.hearths = s.hearths
  frame   : u.frame = s.frame
  sound   : u.dramUe = []
  plain   : sparse = false → u = s

theorem State.SampleTo.refl (hue : s.dramUe = []) (sparse : Bool) : s.SampleTo s sparse := ⟨rfl, rfl, hue, fun _ => rfl⟩

theorem State.SampleTo.trans {sparse : Bool} {w : State} (h1 : s.SampleTo u sparse) (h2 : u.SampleTo w sparse) :
    s.SampleTo w sparse :=
  ⟨h2.hearths.trans h1.hearths, h2.frame.trans h1.frame, h2.sound, fun hp => (h2.plain hp).trans (h1.plain hp)⟩

theorem State.cordUe_of_dramUe (hue : s.dramUe = []) (a n : Nat) : s.cordUe c a n = false := by
  rw [State.cordUe, hue, List.any_nil]

theorem State.jobWrite_of_dramUe (hue : s.dramUe = []) (sub a : Nat) (bs : List Byte) (body : State → State) :
    s.jobWrite sub c a bs body = body (s.putCordBytes c a bs) := by
  refine if_neg ?_
  rw [State.cordPartUe, State.cordUe_of_dramUe hue, State.cordUe_of_dramUe hue, ite_self, ite_self]
  decide

theorem State.putCordBytes_dramUe (hue : s.dramUe = []) (a : Nat) (bs : List Byte) :
    (s.putCordBytes c a bs).dramUe = [] := by
  rw [State.putCordBytes, hue]
  rfl

theorem State.putCordBytes_sampleTo (hue : s.dramUe = []) (a : Nat) (bs : List Byte) :
    s.SampleTo (s.putCordBytes c a bs) true := ⟨rfl, rfl, State.putCordBytes_dramUe hue a bs, nofun⟩

theorem State.SampleTo.bump (hu : s.SampleTo u true) (k n : Nat) : s.SampleTo (u.bump k n) true :=
  ⟨hu.hearths, hu.frame, hu.sound, nofun⟩

theorem State.SampleTo.modJob (hu : s.SampleTo u true) (sub : Nat) (f : Job → Job) : s.SampleTo (u.modJob sub f) true :=
  ⟨hu.hearths, hu.frame, hu.sound, nofun⟩

theorem State.SampleTo.eventCordBlock (hu : s.SampleTo u true) (n code arg : Nat) :
    s.SampleTo (u.eventCordBlock n code arg) true := by
  have hrest := u.eventCordBlock_rest n code arg
  exact ⟨(congrArg State.hearths hrest :).trans hu.hearths, (congrArg State.frame hrest :).trans hu.frame,
    (congrArg State.dramUe hrest :).trans hu.sound, nofun⟩

/-- What a miss of a sparse texture leaves alone. -/
theorem State.sparseMiss_sampleTo (hue : s.dramUe = []) (p : Nat) :
    s.SampleTo (s.sparseMiss c j t index p) true := by
  rw [State.sparseMiss]
  dsimp only
  rw [State.jobWrite_of_dramUe hue]
  have hcount (bs : List Byte) := (State.putCordBytes_sampleTo (c := c) hue (t.resMap + t.mapBytes + p / 8) bs).bump
    (cordAddr j.cord 0xE018) 1
  split
  · split
    · exact hcount _
    · exact ((hcount _).eventCordBlock ..).modJob ..
  · exact hcount _

theorem State.missingPage_of_not_sparse (hp : t.sparse = false) (es : List Texel) : s.missingPage c t es = none := by
  rw [State.missingPage, hp]
  rfl

theorem Tex.spanUe_of_dramUe (hue : s.dramUe = []) (fs : List (List Texel × Nat × Nat)) :
    (t.spans fs).find? (s.spanUe c) = none := by
  rw [List.find?_eq_none]
  intro x hx
  obtain ⟨f, -, hf⟩ := List.mem_flatMap.1 hx
  obtain ⟨e, -, rfl⟩ := List.mem_map.1 hf
  exact Bool.eq_false_iff.1 (State.cordUe_of_dramUe hue _ _)

/-- A miss is one of a sparse texture. -/
theorem State.sparse_of_missingPage {es : List Texel} {p : Nat} (hm : s.missingPage c t es = some p) : t.sparse = true := by
  by_contra hp
  rw [State.missingPage_of_not_sparse (Bool.eq_false_iff.2 hp)] at hm
  cases hm

/-- A sample ends no job in a machine whose DRAM is sound. -/
theorem State.sampleAt_spec (hue : s.dramUe = []) (x y wt n : Nat) (ls : List Nat) :
    s.SampleTo (s.sampleAt c j t index x y wt n ls).1 t.sparse ∧ (s.sampleAt c j t index x y wt n ls).2 ≠ .ended := by
  induction n generalizing s ls with
  | zero =>
    rw [State.sampleAt]
    dsimp only
    split
    · exact ⟨.refl hue _, nofun⟩
    · split
      · rw [Tex.spanUe_of_dramUe hue]
        exact ⟨.refl hue _, nofun⟩
      next p hp =>
        exact ⟨State.sparse_of_missingPage hp ▸ State.sparseMiss_sampleTo hue p, nofun⟩
  | succ n ih =>
    rw [State.sampleAt]
    dsimp only
    split
    · exact ⟨.refl hue _, nofun⟩
    · split
      · rw [Tex.spanUe_of_dramUe hue]
        exact ⟨.refl hue _, nofun⟩
      next p hp =>
        have hmiss : s.SampleTo (s.sparseMiss c j t index p) t.sparse :=
          State.sparse_of_missingPage hp ▸ State.sparseMiss_sampleTo hue p
        split
        · exact ⟨hmiss, nofun⟩
        · have hnext := ih hmiss.sound (ls.map fun (l : Nat) => t.clampLevel ((l : Int) + 1))
          exact ⟨hmiss.trans hnext.1, hnext.2⟩

/-! ### The colours of the lanes -/

section
variable (s : State) (c : CordCfg) (j : Job) (t : Tex) (index : Nat) (x y : Nat → Nat) (on : Nat → Bool)

/-- The sample of lane i. -/
def State.laneSample (i : Nat) : State × TexOut :=
  let lv := t.levelsAt (t.lod x y on i (Config.freeValue (s.draws + i / 4)))
  s.sampleAt c j t index (x i) (y i) lv.2 14 lv.1

/-- A run that has sampled the lanes of `l`: it found a value for each, and where the texture is not sparse the value
of a sample with a colour is that colour. -/
structure TexRun.Sampled (r : TexRun) (l : List Nat) (out : List (Nat × List Nat)) : Prop where
  rgba   : r.rgba = some out
  state  : s.SampleTo r.state t.sparse
  colour : t.sparse = false → ∀ i ∈ l, ∀ q, (s.laneSample c j t index x y on i).2 = .rgba q →
             out.find? (fun e => e.1 == i) = some (i, q)

end

section
variable {x y : Nat → Nat} {on : Nat → Bool} {r : TexRun} {l : List Nat} {out : List (Nat × List Nat)}

/-- A lane whose sample does not end the job adds a value, which is the colour where the sample has one. -/
theorem TexRun.lane_spec {i : Nat} (hr : r.rgba = some out)
    (hgoes : (r.state.laneSample c j t index x y on i).2 ≠ .ended) :
    ∃ q, r.lane c j t index x y on i = ⟨(r.state.laneSample c j t index x y on i).1, some ((i, q) :: out)⟩ ∧
      ∀ q', (r.state.laneSample c j t index x y on i).2 = .rgba q' → q' = q := by
  unfold State.laneSample at hgoes ⊢
  rw [TexRun.lane, hr]
  dsimp only at hgoes ⊢
  split
  next u q he =>
    rw [he]
    exact ⟨q, rfl, fun q' hq => (TexOut.rgba.inj hq).symm⟩
  next u he =>
    rw [he]
    exact ⟨_, rfl, nofun⟩
  next u he =>
    rw [he] at hgoes
    exact absurd rfl hgoes

/-- One lane more. -/
theorem TexRun.Sampled.lane (hr : r.Sampled s c j t index x y on l out) (i : Nat) :
    ∃ out', (r.lane c j t index x y on i).Sampled s c j t index x y on (l ++ [i]) out' := by
  have hsample : r.state.SampleTo (r.state.laneSample c j t index x y on i).1 t.sparse ∧ _ :=
    State.sampleAt_spec hr.state.sound ..
  obtain ⟨q, hlane, hq⟩ := TexRun.lane_spec hr.rgba hsample.2
  rw [hlane]
  refine ⟨_, rfl, hr.state.trans hsample.1, fun hp k hk q' hcolour => ?_⟩
  by_cases hki : i = k
  · subst hki
    rw [← hr.state.plain hp] at hcolour
    rw [List.find?_cons_of_pos (by exact beq_self_eq_true i), hq q' hcolour]
  · rw [List.find?_cons_of_neg (by simpa using hki)]
    have hmem : k ∈ l := (List.mem_append.1 hk).resolve_right fun h => hki (List.mem_singleton.1 h).symm
    exact hr.colour hp k hmem q' hcolour

/-- The lanes in turn. -/
theorem TexRun.sampled_foldl (hue : s.dramUe = []) (l : List Nat) :
    ∃ out, (l.foldl (fun (r : TexRun) i => r.lane c j t index x y on i) ⟨s, some []⟩).Sampled s c j t index x y on l out := by
  induction l using List.reverseRecOn with
  | nil => exact ⟨[], rfl, .refl hue _, fun _ _ hi => nomatch hi⟩
  | append_singleton l i ih =>
    obtain ⟨out, hout⟩ := ih
    rw [List.foldl_append]
    exact hout.lane i

end

/-! ### The four registers -/

/-- Component n of lane i among the colours found. -/
def texelLane (out : List (Nat × List Nat)) (i n : Nat) : Nat := (((out.find? fun e => e.1 == i).map Prod.snd).getD []).getD n 0

/-- Component n of the colours reaches its register. -/
def Core.putComponent (vd : BitVec 5) (pr : BitVec 3) (out : List (Nat × List Nat)) (k : Core) (n : Nat) : Core :=
  k.writeV (vd + BitVec.ofNat 5 n)
    (maskLanes false (k.readP pr) (k.readV (vd + BitVec.ofNat 5 n)) fun i => texelLane out i n)

/-- All four do. -/
def Core.putColours (vd : BitVec 5) (pr : BitVec 3) (out : List (Nat × List Nat)) (k : Core) : Core :=
  ([0, 1, 2, 3] : List Nat).foldl (Core.putComponent vd pr out) k

section
variable {k : Core} {vd : BitVec 5} {pr : BitVec 3} {out : List (Nat × List Nat)}

theorem Core.putComponent_rest (k : Core) (n : Nat) : { k.putComponent vd pr out n with v := [] } = { k with v := [] } := by
  rw [Core.putComponent, Core.writeV]

theorem Core.putColours_rest (k : Core) : { k.putColours vd pr out with v := [] } = { k with v := [] } :=
  (Core.putComponent_rest _ 3).trans
    ((Core.putComponent_rest _ 2).trans ((Core.putComponent_rest _ 1).trans (k.putComponent_rest 0)))

/-- Only vector registers change. -/
theorem Core.putColours_fields (k : Core) : (k.putColours vd pr out).pc = k.pc ∧ (k.putColours vd pr out).x = k.x ∧
    (k.putColours vd pr out).p = k.p := by
  have hrest := k.putColours_rest (vd := vd) (pr := pr) (out := out)
  generalize k.putColours vd pr out = k' at hrest ⊢
  exact ⟨(congrArg Core.pc hrest :), (congrArg Core.x hrest :), (congrArg Core.p hrest :)⟩

theorem Core.readP_writeV (k : Core) (q : BitVec 5) (w : VWord) (r : BitVec 3) : (k.writeV q w).readP r = k.readP r := rfl

theorem Core.readP_putComponent (n : Nat) (r : BitVec 3) : (k.putComponent vd pr out n).readP r = k.readP r :=
  Core.readP_writeV ..

theorem Core.readV_putComponent (n : Nat) (r : BitVec 5) : (k.putComponent vd pr out n).readV r =
    if r = vd + BitVec.ofNat 5 n
    then maskLanes false (k.readP pr) (k.readV (vd + BitVec.ofNat 5 n)) fun i => texelLane out i n
    else k.readV r := Core.readV_writeV ..

theorem Core.readV_putColours_of_ne {r : BitVec 5} (h0 : r ≠ vd) (h1 : r ≠ vd + 1) (h2 : r ≠ vd + 2) (h3 : r ≠ vd + 3) :
    (k.putColours vd pr out).readV r = k.readV r := by
  have hother (k : Core) {n : Nat} (hn : r ≠ vd + BitVec.ofNat 5 n) : (k.putComponent vd pr out n).readV r = k.readV r :=
    (Core.readV_putComponent ..).trans (if_neg hn)
  exact (hother _ h3).trans ((hother _ h2).trans ((hother _ h1).trans (hother k (by simpa using h0))))

theorem Core.readV_putColours {n : Nat} (hn : n < 4) :
    (k.putColours vd pr out).readV (vd + BitVec.ofNat 5 n) =
      maskLanes false (k.readP pr) (k.readV (vd + BitVec.ofNat 5 n)) fun i => texelLane out i n := by
  obtain rfl | rfl | rfl | rfl : n = 0 ∨ n = 1 ∨ n = 2 ∨ n = 3 := by omega
  all_goals simp [Core.putColours, Core.readV_putComponent, Core.readP_putComponent]

end

/-! ### The instruction -/

section
variable {h cr : Nat} {vd vs1 vs2 : BitVec 5} {pr : BitVec 3} {g : CordCfg}

/-- The core after the colours have reached its registers: the draws of open values are counted, and the pc advances. -/
def State.textured (s : State) (h cr : Nat) (vd : BitVec 5) (pr : BitVec 3) (out : List (Nat × List Nat)) : State :=
  ({ s with draws := s.draws + 68 } : State).coreNext h cr fun k => k.putColours vd pr out

/-- VTEX under a valid descriptor samples the lanes that its predicate selects. -/
theorem State.vtex_of_valid {k : Core} {d : Nat} (hk : s.core h cr = k) (hd : leAt j.desc 48 8 + 32 * (k.texsel.toNat % 256) = d)
    (hjob : ((s.hearth h).job.bind s.job?) = some j) (hkind : j.kind = 2) (hcord : s.cordCfg j.cord = some g)
    (hindex : k.texsel.toNat % 256 < leAt j.desc 56 2) (hue : s.dramUe = []) (hok : texOk g.size (s.cordBytes g d 32) = true) :
    ∃ (r : TexRun) (out : List (Nat × List Nat)), r.Sampled s g j (readTex (s.cordBytes g d 32)) (k.texsel.toNat % 256) (lane false (k.readV vs1))
        (lane false (k.readV vs2)) (fun i => (k.readP pr).toNat.testBit i)
        ((List.range 16).filter fun i => (k.readP pr).toNat.testBit i) out ∧
      s.vtex h cr vd vs1 vs2 pr = r.state.textured h cr vd pr out := by
  subst hk hd
  obtain ⟨out, hout⟩ := TexRun.sampled_foldl (c := g) (j := j)
    (t := readTex (s.cordBytes g (leAt j.desc 48 8 + 32 * ((s.core h cr).texsel.toNat % 256)) 32))
    (index := (s.core h cr).texsel.toNat % 256) (x := lane false ((s.core h cr).readV vs1))
    (y := lane false ((s.core h cr).readV vs2)) (on := fun i => ((s.core h cr).readP pr).toNat.testBit i) hue
    ((List.range 16).filter fun i => ((s.core h cr).readP pr).toNat.testBit i)
  refine ⟨_, out, hout, ?_⟩
  have htable : j.texTable = (leAt j.desc 48 8, leAt j.desc 56 2) := if_pos hkind
  rw [State.vtex]
  dsimp only
  rw [hjob]
  dsimp only
  rw [hcord]
  dsimp only
  rw [htable]
  dsimp only
  rw [if_neg (Nat.not_le.2 hindex), State.cordUe_of_dramUe hue, if_neg Bool.false_ne_true, hok, if_neg (by decide), hout.rgba]
  rfl

theorem State.textured_coreTo (s : State) (h cr : Nat) (out : List (Nat × List Nat)) :
    CoreTo s (s.textured h cr vd pr out) h cr ((s.core h cr).putColours vd pr out).advanced :=
  (CoreTo.coreNext (s := { s with draws := s.draws + 68 }) (f := fun k => k.putColours vd pr out)
    (Core.putColours_fields _).1).of_drawn

end

theorem Core.advanced_x (k : Core) : k.advanced.x = k.x := rfl
theorem Core.advanced_p (k : Core) : k.advanced.p = k.p := rfl
theorem Core.readV_advanced (k : Core) (q : BitVec 5) : k.advanced.readV q = k.readV q := rfl

/-- Settles O27: a lane's value is its sample's, and the lanes' values reach the four registers under the predicate. -/
theorem textureSamplesWriteSelectedLanes : Obligations.TextureSamplesWriteSelectedLanes := by
  unfold Obligations.TextureSamplesWriteSelectedLanes
  intro s h c vd vs1 vs2 pr w16 j g k index d hs hjob hkind hcord hindex hue hok tex u v sample
  obtain ⟨r, out, hout, hvtex⟩ := State.vtex_of_valid (s := s) (h := h) (cr := c) (vd := vd) (vs1 := vs1) (vs2 := vs2) (pr := pr)
    rfl rfl hjob hkind hcord hindex hue hok
  have hcore (e : Nat) : r.state.core h e = s.core h e := by rw [State.core, State.hearth, hout.state.hearths]; rfl
  have hearth (f : Nat) : r.state.hearth f = s.hearth f := by rw [State.hearth, hout.state.hearths]; rfl
  have hto := r.state.textured_coreTo (vd := vd) (pr := pr) h c out
  rw [hcore] at hto
  obtain ⟨hpc, hx, hp⟩ := k.putColours_fields (vd := vd) (pr := pr) (out := out)
  have hread (q : BitVec 5) : ((r.state.textured h c vd pr out).core h c).readV q = (k.putColours vd pr out).readV q := by
    rw [hto.core, Core.readV_advanced]
  have hlane {n l : Nat} (hn : n < 4) (hl : l < 16) :
      lane32 (((r.state.textured h c vd pr out).core h c).readV (vd + .ofNat 5 n)) l =
        if (k.readP pr).getLsbD l then .ofNat 32 (texelLane out l n) else lane32 (k.readV (vd + .ofNat 5 n)) l := by
    rw [hread, Core.readV_putColours hn]
    exact laneWord_maskLanes (w16 := false) hl
  refine .of_next (exec_of_standsAt (i := .vtex h c vd vs1 vs2 pr w16) rfl hs rfl) hvtex
    ⟨?_, ?_, ?_, fun q h0 h1 h2 h3 => ?_, fun n hn l hl hoff => ?_, fun hplain => ⟨?_, ?_, ?_, fun n hn l hl hon q hq => ?_⟩,
      fun e he => (hto.cores e he).trans (hcore e), fun f hf => (hto.hearths f hf).trans (hearth f), ?_, ?_⟩
  · rw [hto.core]
    exact congrArg (fun pc => (pc + 4) % 32768) hpc
  · rw [hto.core, Core.advanced_x, hx]
  · rw [hto.core, Core.advanced_p, hp]
  · rw [hread, Core.readV_putColours_of_ne h0 h1 h2 h3]
  · rw [hlane hn hl, if_neg (Bool.eq_false_iff.1 hoff)]
  · exact (congrArg State.dram hto.rest :).trans (congrArg State.dram (hout.state.plain hplain))
  · exact (congrArg State.hosts hto.rest :).trans (congrArg State.hosts (hout.state.plain hplain))
  · exact (congrArg State.jobs hto.rest :).trans (congrArg State.jobs (hout.state.plain hplain))
  · have hu : lane false (k.readV vs1) = u := funext fun i => lane_eq_toNat false _ i
    have hv : lane false (k.readV vs2) = v := funext fun i => lane_eq_toNat false _ i
    have hmem : l ∈ (List.range 16).filter fun i => (k.readP pr).toNat.testBit i :=
      List.mem_filter.2 ⟨List.mem_range.2 hl, hon⟩
    rw [hu, hv] at hout
    rw [hlane hn hl, if_pos hon, texelLane, hout.colour hplain l hmem q hq]
    rfl
  · exact (congrArg Hearth.store hto.hearth :).trans (congrArg Hearth.store (hearth h))
  · exact (congrArg State.frame hto.rest :).trans hout.state.frame

end Sys2Proof.Machine
end

section
/-! PROOF. Jobs that give way: a slice that ends, a budget that expires, and a swap (R407, R414, R416). -/

namespace Sys2Proof.Machine

variable {s t : State} {n sub why : Nat} {j q : Job} {c : CordCfg}

/-! ### Pre-emption -/

theorem State.job?_of_books (h : t.books = s.books) (sub : Nat) : t.job? sub = s.job? sub := by
  rw [State.job?, State.jobs_of_books h, State.job?]

theorem State.job?_toBack (s : State) (sub : Nat) : (s.toBack sub).job? sub = s.job? sub := by
  have hnone : (s.jobs.filter fun j => j.sub != sub).find? (fun j => j.sub == sub) = none :=
    List.find?_eq_none.2 fun q hq => by simpa using (List.mem_filter.1 hq).2
  have hsame : (s.jobs.filter fun j => j.sub == sub).find? (fun j => j.sub == sub) = s.jobs.find? fun j => j.sub == sub := by
    simp only [List.find?_filter, and_self, Bool.decide_eq_true]
  rw [State.job?, State.toBack]
  dsimp only
  rw [List.find?_append, hnone, hsame, Option.none_or, State.job?]

/-- A job after it has been asked to stop. -/
def Job.preempted (j : Job) (why : Nat) : Job := { j with phase := 3, stopWhy := why, preempts := j.preempts + 1 }

theorem State.job?_preempt (hj : s.job? sub = some j) (why : Nat) :
    (s.preempt sub why).job? sub = some (j.preempted why) := by
  have hjob (t : State) (ht : t.books = (s.modJob sub fun x => { x with phase := 3, stopWhy := why, preempts := j.preempts + 1 }).books) :
      t.job? sub = some (j.preempted why) := by
    rw [State.job?_of_books ht, State.job?_modJob, hj]
    · rfl
    · exact fun _ => rfl
  have hcores := foldl_keeps State.books (fun t h => State.stopCores_books (s := t) h false) j.hearths
    (s.modJob sub fun x => { x with phase := 3, stopWhy := why, preempts := j.preempts + 1 })
  rw [State.preempt, hj]
  dsimp only
  split
  · exact hjob _ ((State.bump_books ..).trans hcores)
  · rw [State.job?_toBack]
    exact hjob _ ((State.bump_books ..).trans hcores)

/-! ### The end of a slice (R407) -/

theorem State.scanOrder_of_none_queued (hq : ∀ q ∈ s.jobs, q.cord = n → q.queued = false) (lc : Bool) :
    s.scanOrder n lc = [] := by
  have hnil : (s.jobs.filter fun j => j.cord == n && j.inLc == lc && j.queued) = [] :=
    List.filter_eq_nil_iff.2 fun q hmem => by
      by_cases hn : q.cord = n
      · simp [hq q hmem hn]
      · simp [hn]
  rw [State.scanOrder, hnil]
  cases lc <;> rfl

theorem State.sliceEnds_of_nothing_queued (hj : s.job? sub = some j) (hq : ∀ q ∈ s.jobs, q.cord = j.cord → q.queued = false) :
    s.sliceEnds sub = s := by
  rw [State.sliceEnds, hj]
  dsimp only
  split
  · rfl
  · split
    · rfl
    next c hc =>
      have hcord := State.cord_of_cordCfg hc
      rw [State.beHead, hcord, State.scanOrder_of_none_queued hq]
      rfl

theorem State.sliceEnds_of_slice_left (hj : s.job? sub = some j) (hs : j.sliceOver s.time = false) : s.sliceEnds sub = s := by
  rw [State.sliceEnds, hj]
  dsimp only
  rw [hs]
  exact if_pos (by simp)

/-- A job for which no Hearth is free lacks Hearths. -/
theorem State.pickHearths_of_none_free (hp : q.phase ≠ 5) (hmust : q.mustHave = []) (hcount : 1 ≤ q.count)
    (hfree : s.freeFor c q = []) : s.pickHearths c q = none := by
  have hlack : (([] : List Nat).length == q.count) = false := beq_eq_false_iff_ne.2 (by rw [List.length_nil]; omega)
  rw [State.pickHearths, hfree, hmust]
  dsimp only
  rw [if_neg hp]
  simp only [List.filter_nil, List.append_nil, List.take_nil, hlack, Bool.and_false]
  rfl

/-- A running best-effort job whose slice is over, beside the job that is queued behind it. -/
structure State.GivesWay (s : State) (c : CordCfg) (j q : Job) : Prop where
  jobs    : s.jobs = [j, q]
  cord    : s.cordCfg j.cord = some c
  be      : j.inLc = false
  runs    : j.phase = 2
  net     : j.kind = 1
  hearths : j.hearths ≠ []
  ended   : j.sliceOver s.time = true
  other   : q.sub ≠ j.sub
  same    : q.cord = j.cord
  queueBe : q.inLc = false
  queued  : q.phase = 0
  must    : q.mustHave = []
  count   : 1 ≤ q.count
  waits   : s.skips c q = false
  free    : s.freeFor c q = []
  zeroed  : ∀ h ∈ s.members j.cord, (s.hearth h).zeroing = false

namespace State.GivesWay

theorem job?_self (h : s.GivesWay c j q) : s.job? j.sub = some j := by
  rw [State.job?, h.jobs, List.find?_cons_of_pos (by exact beq_self_eq_true _)]

theorem job?_other (h : s.GivesWay c j q) : s.job? q.sub = some q := by
  rw [State.job?, h.jobs, List.find?_cons_of_neg (by simpa using h.other.symm),
    List.find?_cons_of_pos (by exact beq_self_eq_true _)]

/-- The job behind it is the head of the scan. -/
theorem beHead (h : s.GivesWay c j q) : s.beHead c = some q := by
  have hcord := State.cord_of_cordCfg h.cord
  have horder : s.scanOrder c.cord false = [q.sub] := by
    simp [State.scanOrder, h.jobs, hcord, h.be, h.same, h.queueBe, Job.queued, h.runs, h.queued]
  rw [State.beHead, horder]
  simp [h.job?_other, h.waits]

/-- It alone is asked to stop. -/
theorem preemptFor (h : s.GivesWay c j q) : s.preemptFor c q = s.preempt j.sub 3 := by
  have hcord := State.cord_of_cordCfg h.cord
  have hzero : ((s.members c.cord).filter fun h => (s.hearth h).zeroing) = [] :=
    List.filter_eq_nil_iff.2 fun g hg => by simp [h.zeroed g (hcord ▸ hg)]
  have hcount : q.count ≠ 0 := Nat.ne_of_gt h.count
  unfold State.preemptFor
  dsimp only
  rw [h.must, h.free, hzero, h.jobs]
  simp [hcord, h.be, h.same, h.queueBe, h.runs, h.queued, h.net, h.hearths, h.ended, sortBy, insertBy,
    hcount]

theorem sliceEnds (h : s.GivesWay c j q) (hs : s.noStarts = false) : s.sliceEnds j.sub = s.preempt j.sub 3 := by
  have hpick : s.pickHearths c q = none :=
    State.pickHearths_of_none_free (by rw [h.queued]; decide) h.must h.count h.free
  rw [State.sliceEnds, h.job?_self]
  dsimp only
  rw [h.be, h.runs, h.ended, if_neg (by decide), h.cord]
  dsimp only
  rw [h.beHead]
  dsimp only
  rw [hpick, hs, if_pos (by rfl), h.preemptFor]

end State.GivesWay

/-! ### The end of a budget (R416) -/

theorem State.countHeld_jobs (s : State) (n : Nat) : (s.countHeld n).jobs = s.jobs := by
  unfold State.countHeld
  split
  · exact (State.jobs_of_books (State.bumpUnits_books ..)).trans rfl
  · rfl

theorem State.checkHold_jobs (s : State) (c : CordCfg) : (s.checkHold c).jobs = s.jobs := by
  unfold State.checkHold
  split
  · exact (State.jobs_of_books (State.setHold_books ..)).trans (State.countHeld_jobs s c.cord)
  · rfl

/-- A job whose budget timer has run out goes on as best-effort. -/
def Job.demote (j : Job) (now left : Nat) : Job := { j with demoted := true, sliceStart := now, sliceLeft := left }

theorem State.job?_budgetExpires (hj : s.job? sub = some j) (hlc : j.inLc = true) (hr : j.resident = true)
    (hb : j.budgetNs ≤ j.budgetUsed s.time) :
    (s.budgetExpires sub).job? sub = some (j.demote s.time s.sliceNs) := by
  have hmod : (s.modJob sub fun x => x.demote s.time s.sliceNs).job? sub = some (j.demote s.time s.sliceNs) := by
    rw [State.job?_modJob, hj]
    · rfl
    · exact fun _ => rfl
  rw [State.budgetExpires, hj]
  dsimp only
  rw [hlc, hr, decide_eq_true hb, Bool.and_true, Bool.and_true, if_pos rfl]
  split
  · rw [State.job?, State.checkHold_jobs]
    exact hmod
  · exact hmod

/-! ### A swap (R414) -/

theorem State.swapOut_of_no_resident (hc : s.cordCfg n = some c) (hr : ∀ x ∈ s.jobs, x.cord = n → x.resident = false) :
    s.swapOut n = s := by
  have hnone : (s.jobs.filter fun j => j.cord == n && j.resident) = [] :=
    List.filter_eq_nil_iff.2 fun x hx => by
      by_cases hn : x.cord = n
      · simp [hr x hx hn]
      · simp [hn]
  rw [State.swapOut, hc]
  exact if_pos (.inl hnone)

/-- A job that has been blocked for 50 µs, beside a saved job that could run but lacks Hearths. -/
structure State.Swaps (s : State) (c : CordCfg) (j q : Job) : Prop where
  jobs    : s.jobs = [j, q]
  cord    : s.cordCfg j.cord = some c
  other   : q.sub ≠ j.sub
  same    : q.cord = j.cord
  blocked : s.jobBlocked j = true
  long    : ∃ t0, j.blockedSince = some t0 ∧ t0 + 50000 ≤ s.time
  saved   : s.savedRunnable q = true
  lacks   : s.pickHearths c q = none
  starts  : s.noStarts = false
  room    : s.shortfall c j = 0

/-- The job is pre-empted for the swap. -/
theorem State.Swaps.swapOut (h : s.Swaps c j q) :
    s.swapOut j.cord = (s.preempt j.sub 2).setCordRt j.cord
      { (s.preempt j.sub 2).cordRt j.cord with swapPending := true, shortSent := false } := by
  obtain ⟨t0, hsince, hlong⟩ := h.long
  have hphase : j.phase = 2 := by
    have hblocked := h.blocked
    simp only [State.jobBlocked, Bool.and_eq_true, beq_iff_eq] at hblocked
    exact hblocked.1.1
  have hqueued : q.phase = 5 := by
    have hsaved := h.saved
    simp only [State.savedRunnable, Bool.and_eq_true, beq_iff_eq] at hsaved
    exact hsaved.1
  have hhere : (s.jobs.filter fun x => x.cord == j.cord && x.resident) = [j] := by
    simp [h.jobs, h.same, Job.resident, Job.queued, hphase, hqueued]
  have hlacking : (s.jobs.any fun x => x.cord == j.cord && s.savedRunnable x && (s.pickHearths c x).isNone) = true := by
    simp [h.jobs, h.same, h.saved, h.lacks]
  have hblocked : ([j].all fun x => s.jobBlocked x && x.blockedSince.any fun t => decide (t + 50000 ≤ s.time)) = true := by
    simp [h.blocked, hsince, hlong]
  have hfind : (sortBy (fun (x : Job) => (if x.inLc then 1 else 0, x.blockedSince.getD s.time)) [j]).find?
      (fun x => s.shortfall c x == 0) = some j := by
    simp [sortBy, insertBy, h.room]
  rw [State.swapOut, h.cord]
  dsimp only
  rw [hhere, hlacking, hblocked, h.starts, if_neg (by simp), hfind]

end Sys2Proof.Machine
end

section
/-! PROOF. The save of a job, the end of the save, and its restore (R203, R207, R210 to R212, R410 to R412). -/

namespace Sys2Proof.Machine

variable {s t : State} {h r sub : Nat} {j : Job} {c : CordCfg}

/-! ### What becomes of a job -/

theorem State.job?_mapJobs {f : Job → Job} (hf : ∀ q, (f q).sub = q.sub) (sub : Nat) :
    ({ s with jobs := s.jobs.map f } : State).job? sub = (s.job? sub).map f := by
  rw [State.job?, List.find?_map, State.job?]
  simp only [Function.comp_def, hf]

/-- The job of a submission that waits on a ring no more keeps its Hearths. -/
theorem State.job?_ringResume (hj : s.job? sub = some j) (d p : Nat) :
    ∃ q, (s.ringResume d p).job? sub = some q ∧ q.hearths = j.hearths := by
  unfold State.ringResume
  dsimp only
  split
  next who _ _ =>
    let f : Job → Job := fun q => if q.sub == who then { q with ringWait := false } else q
    have hmap := State.job?_mapJobs (s := s) (f := f) (fun q => by unfold f; split <;> rfl) sub
    rw [hj] at hmap
    refine ⟨f j, hmap, ?_⟩
    unfold f
    split <;> rfl
  · exact ⟨j, hj, rfl⟩

theorem State.job?_dropWaits (hj : s.job? sub = some j) (host : Nat) :
    ∃ q, (s.dropWaits host sub).job? sub = some q ∧ q.hearths = j.hearths := by
  unfold State.dropWaits
  induction List.range 16 generalizing s j with
  | nil => exact ⟨j, hj, rfl⟩
  | cons p l ih =>
    rw [List.foldl_cons]
    split
    · obtain ⟨q, hq, hhq⟩ := State.job?_ringResume hj host p
      obtain ⟨q', hq', hhq'⟩ := ih hq
      exact ⟨q', hq', hhq'.trans hhq⟩
    · exact ih hj

/-! ### A save begins (R410) -/

theorem State.unwait_books (h : Nat) : (s.unwait h).books = s.books :=
  (State.setHearth_books ..).trans (State.withdraw_books h)

/-- A job whose save has begun. -/
def Job.saving (j : Job) (records : List Nat) (left : Nat) : Job :=
  { j with phase := 4, records := records, sliceLeft := left }

/-- A stopped job at its point, with save records free for its Hearths. -/
theorem State.job?_saveJob (hj : s.job? sub = some j) (hc : s.cordCfg j.cord = some c) (hp : j.phase = 3)
    (ha : j.aborting = false) (hpoint : s.atPoint j = true) (hfree : j.hearths.length ≤ (s.freeRecords c).length)
    (x bound : Nat) : ∃ q, (s.saveJob sub x bound).job? sub = some q ∧ q.phase = 4 ∧
      q.records = (s.freeRecords c).take j.hearths.length ∧ q.hearths = j.hearths := by
  have hgoes : ¬ (j.phase ≠ 3 ∨ !s.atPoint j ∨ (s.freeRecords c).length < j.hearths.length) := by
    rw [hpoint]
    simp only [hp, ne_eq, not_true_eq_false, Bool.not_true, Bool.false_eq_true, false_or]
    omega
  obtain ⟨q, hq, hhearths⟩ := State.job?_dropWaits hj c.ownerHost
  have hunwaited : (j.hearths.foldl (fun t h => t.unwait h) (s.dropWaits c.ownerHost sub)).job? sub = some q := by
    rw [← hq]
    exact State.job?_of_books (foldl_keeps State.books (fun _ h => State.unwait_books h) _ _) sub
  have hsaved {t u : State} {n left : Nat} {v : CordRt} {recs : List Nat} (ht : t.job? sub = some q)
      (hu : u.books = ((t.setCordRt n v).modJob sub fun y => y.saving recs left).books) :
      u.job? sub = some (q.saving recs left) := by
    have ht' : (t.setCordRt n v).job? sub = some q := ht
    rw [State.job?_of_books hu, State.job?_modJob, ht']
    · rfl
    · exact fun _ => rfl
  rw [State.saveJob, hj]
  dsimp only
  rw [hc]
  dsimp only
  rw [ha, if_neg Bool.false_ne_true, if_neg hgoes]
  refine ⟨q.saving ((s.freeRecords c).take j.hearths.length) (if j.stopWhy = 3 then s.sliceNs - x else s.sliceNs), ?_, rfl,
    rfl, hhearths⟩
  split
  · exact hsaved hunwaited ((State.eventCordBlock_books ..).trans
      ((State.books_of_sansReports (State.logFault_sansReports ..)).trans (State.bump_books ..)))
  · exact hsaved hunwaited rfl

/-! ### The end of a save (R411, R412) -/

/-- A state without the Cord regions of DRAM and what is drawn for them. -/
def State.sansRegions (s : State) : State := { s with dram := [], dramUe := [], draws := 0 }

theorem State.putCordBytes_sansRegions (a : Nat) (bs : List Byte) : (s.putCordBytes c a bs).sansRegions = s.sansRegions := rfl

theorem State.drawBytes_sansRegions (n : Nat) : (s.drawBytes n).2.sansRegions = s.sansRegions := by
  induction n generalizing s with
  | zero => rfl
  | succ n ih => exact ih.trans rfl

theorem State.putFree_sansRegions (a n : Nat) : (s.putFree c a n).sansRegions = s.sansRegions :=
  (State.putCordBytes_sansRegions ..).trans (State.drawBytes_sansRegions n)

theorem State.hearth_of_sansRegions (ht : t.sansRegions = s.sansRegions) (g : Nat) : t.hearth g = s.hearth g :=
  (congrArg (fun u : State => u.hearth g) ht :)

theorem State.saved_of_sansRegions (ht : t.sansRegions = s.sansRegions) : t.saved = s.saved := (congrArg State.saved ht :)

theorem State.books_of_sansRegions (ht : t.sansRegions = s.sansRegions) : t.books = s.books := (congrArg State.books ht :)

/-- A Hearth's context is kept under number `k`. -/
def State.keep (s : State) (k : Nat) (v : Hearth) : State := { s with saved := s.saved.put (fun _ => {}) k v }

theorem State.keep_sansRegions (ht : t.sansRegions = s.sansRegions) (k : Nat) (v : Hearth) :
    (t.keep k v).sansRegions = (s.keep k v).sansRegions :=
  congrArg (fun u : State => u.keep k v) ht

/-- The record of a Hearth, beside its bytes in DRAM, keeps the Hearth's context. -/
theorem State.writeRecord_sansRegions (s : State) (c : CordCfg) (h r : Nat) :
    (s.writeRecord c h r).sansRegions = (s.keep (c.cord * 65536 + r) (s.hearth h)).sansRegions := by
  unfold State.writeRecord
  extract_lets v a w s1 s2 s3 s4 s5 s6
  have h1 : s1.sansRegions = s.sansRegions := State.putCordBytes_sansRegions ..
  have h2 : s2.sansRegions = s1.sansRegions := State.putFree_sansRegions ..
  have h3 : s3.sansRegions = s2.sansRegions :=
    foldl_keeps State.sansRegions (fun _ _ => State.putCordBytes_sansRegions ..) [0, 1, 2, 3] s2
  have h4 : s4.sansRegions = s3.sansRegions := State.putFree_sansRegions ..
  have h5 : s5.sansRegions = s4.sansRegions := foldl_keeps State.sansRegions (fun t k => by
    rw [State.putCordBytes_sansRegions]
    rfl) [0, 1] s4
  have h6 : s6.sansRegions = s5.sansRegions := State.putFree_sansRegions ..
  have hall := h6.trans (h5.trans (h4.trans (h3.trans (h2.trans h1))))
  exact State.keep_sansRegions hall (c.cord * 65536 + r) (s.hearth h)

theorem State.writeRecord_hearth (s : State) (c : CordCfg) (h r g : Nat) : (s.writeRecord c h r).hearth g = s.hearth g :=
  State.hearth_of_sansRegions (s.writeRecord_sansRegions c h r) g

theorem State.writeRecord_saved (s : State) (c : CordCfg) (h r : Nat) :
    (s.writeRecord c h r).saved = s.saved.put (fun _ => {}) (c.cord * 65536 + r) (s.hearth h) :=
  State.saved_of_sansRegions (s.writeRecord_sansRegions c h r)

theorem State.writeRecord_books (s : State) (c : CordCfg) (h r : Nat) : (s.writeRecord c h r).books = s.books :=
  State.books_of_sansRegions (s := s.keep (c.cord * 65536 + r) (s.hearth h)) (s.writeRecord_sansRegions c h r)

/-- A Hearth that a save has freed. -/
structure State.FreedTo (s t : State) (h : Nat) : Prop where
  job     : (t.hearth h).job = none
  store   : (t.hearth h).store = (s.hearth h).store
  hearths : ∀ g, g ≠ h → t.hearth g = s.hearth g
  saved   : t.saved = s.saved
  books   : t.books = s.books

theorem State.releaseHearth_freed (s : State) (h : Nat) : s.FreedTo (s.releaseHearth h) h := by
  unfold State.releaseHearth
  extract_lets v rest cores kilns win hist s1 p q
  have hearth (g : Nat) : s1.hearth g = if g = h then _ else s.hearth g := State.hearth_setHearth ..
  have hsame := (hearth h).trans (if_pos rfl)
  exact ⟨(congrArg Hearth.job hsame :), (congrArg Hearth.store hsame :), fun g hg => (hearth g).trans (if_neg hg), rfl, rfl⟩

/-- The save of a job of one Hearth has ended. -/
structure State.SavedTo (s t : State) (c : CordCfg) (j : Job) (h r : Nat) : Prop where
  job     : (t.hearth h).job = none
  context : t.saved.look (fun _ => {}) (c.cord * 65536 + r) = s.hearth h
  store   : (t.hearth h).store = (s.hearth h).store
  hearths : ∀ g, g ≠ h → t.hearth g = s.hearth g
  phase   : (t.job? j.sub).map Job.phase = some 5

/-- A Hearth whose record is written and which is freed is one whose save has ended, once its job is saved. -/
theorem State.FreedTo.savedTo {w u : State} {f : Job → Job} (hfree : w.FreedTo u h) (hw : ∀ g, w.hearth g = s.hearth g)
    (hsaved : w.saved = s.saved.put (fun _ => {}) (c.cord * 65536 + r) (s.hearth h)) (hbooks : w.books = s.books)
    (hj : s.job? j.sub = some j) (hf : ∀ q, (f q).sub = q.sub) (hp : (f j).phase = 5) :
    s.SavedTo (u.modJob j.sub f) c j h r where
  job := hfree.job
  context := (congrArg (fun m : SMap Hearth => m.look (fun _ => {}) (c.cord * 65536 + r))
    (hfree.saved.trans hsaved)).trans (SMap.look_put_same ..)
  store := hfree.store.trans (congrArg Hearth.store (hw h))
  hearths g hg := (hfree.hearths g hg).trans (hw g)
  phase := by
    rw [State.job?_modJob u j.sub hf, State.job?_of_books (hfree.books.trans hbooks), hj]
    exact congrArg some hp

theorem State.saveEnds_saved (hj : s.job? j.sub = some j) (hc : s.cordCfg j.cord = some c) (hp : j.phase = 4)
    (hh : j.hearths = [h]) (hr : j.records = [r]) (hw : j.stopWhy ≠ 2) (hue : (s.hearth h).storeUe = []) :
    s.SavedTo (s.saveEnds j.sub) c j h r := by
  have hsound : ((s.hearth h).meetsUe c.weightShare (4194304 - c.weightShare)) = false := by
    rw [Hearth.meetsUe, hue, List.any_nil]
  have hfree := (s.writeRecord c h r).releaseHearth_freed h
  have hrecords : (List.range j.hearths.length).foldl
      (fun t k => t.writeRecord c (j.hearths.getD k 0) (j.records.getD k 0)) s = s.writeRecord c h r := by
    rw [hh, hr]
    rfl
  have hreleased (t : State) : j.hearths.foldl (fun t h => t.releaseHearth h) t = t.releaseHearth h := by
    rw [hh]
    rfl
  have hfind : (j.hearths.find? fun h => (s.hearth h).meetsUe c.weightShare (4194304 - c.weightShare)) = none := by
    rw [hh, List.find?_cons_of_neg (by rw [hsound]; decide), List.find?_nil]
  rw [State.saveEnds, hj]
  dsimp only
  rw [hc]
  dsimp only
  rw [if_neg (not_not_intro hp), hfind]
  dsimp only
  rw [if_neg hw, hrecords, hreleased]
  exact hfree.savedTo (s.writeRecord_hearth c h r) (s.writeRecord_saved c h r) (s.writeRecord_books c h r) hj (fun _ => rfl) rfl

/-! ### A restore (R210) -/

/-- Hearth h has taken up the context `old` of job `sub` again, whatever its cores, Kilns and store read. -/
structure State.ResumedTo (s t : State) (h sub : Nat) (old : Hearth) : Prop where
  job     : (t.hearth h).job = some sub
  queues  : (t.hearth h).queues = old.queues
  hist    : (t.hearth h).hist = old.hist
  hearths : ∀ g, g ≠ h → t.hearth g = s.hearth g
  jobs    : t.jobs = s.jobs

theorem State.fillShare_frame (s : State) (c : CordCfg) (m : ModelCfg) (h : Nat) :
    (∀ g, g ≠ h → (s.fillShare c m h).hearth g = s.hearth g) ∧ (s.fillShare c m h).jobs = s.jobs := by
  refine ⟨fun g hg => ?_, ?_⟩
  · exact ((State.hearth_setHearth ..).trans (if_neg hg)).trans (State.touch_hearth ..)
  · exact (congrArg State.jobs (s.touch_sansBanks h 0 (min m.need c.weightShare)) :)

theorem State.readRecord_resumes (s : State) (c : CordCfg) (j : Job) (k : Nat) {old : Hearth}
    (hold : s.saved.look (fun _ => {}) (c.cord * 65536 + j.records.getD k 0) = old) (hwait : old.win.waiting = []) :
    s.ResumedTo (s.readRecord c j k) (j.hearths.getD k 0) j.sub old := by
  subst hold
  unfold State.readRecord
  extract_lets h r a w old m s1 v imem core kiln v1 kilns cores win s2
  have hs1 : (∀ g, g ≠ h → s1.hearth g = s.hearth g) ∧ s1.jobs = s.jobs := by
    unfold s1
    cases m
    case none => exact ⟨fun _ _ => rfl, rfl⟩
    case some x =>
      dsimp only
      split
      · exact ⟨fun _ _ => rfl, rfl⟩
      · exact s.fillShare_frame c x h
  have hs2 (g : Nat) : s2.hearth g = if g = h then _ else s1.hearth g := State.hearth_setHearth ..
  have hsame := (hs2 h).trans (if_pos rfl)
  rw [hwait, List.foldl_nil]
  exact ⟨(congrArg Hearth.job hsame :), (congrArg Hearth.queues hsame :), (congrArg Hearth.hist hsame :),
    fun g hg => ((hs2 g).trans (if_neg hg)).trans (hs1.1 g hg), hs1.2⟩

/-- The restore of a job of one Hearth, in a machine whose DRAM is sound. -/
theorem State.restoreJob_resumes (hj : s.job? j.sub = some j) (hc : s.cordCfg j.cord = some c) (hp : j.phase = 6)
    (hh : j.hearths = [h]) (hr : j.records = [r]) (hue : s.dramUe = []) {old : Hearth}
    (hold : s.saved.look (fun _ => {}) (c.cord * 65536 + r) = old) (hwait : old.win.waiting = []) :
    (s.modJob j.sub fun x => { x with phase := 2, records := [], stopWhy := 0 }).ResumedTo (s.restoreJob j.sub) h j.sub old := by
  have hfind : (j.records.find? fun r => s.cordUe c (c.recordAt r + c.weightShare) (4784128 - c.weightShare)) = none :=
    List.find?_eq_none.2 fun r _ => by rw [State.cordUe_of_dramUe hue]; decide
  have hread (t : State) : (List.range j.hearths.length).foldl (fun t k => t.readRecord c j k) t = t.readRecord c j 0 := by
    rw [hh]
    rfl
  have hto := (s.modJob j.sub fun x => { x with phase := 2, records := [], stopWhy := 0 }).readRecord_resumes c j 0
    (old := old) (by rw [hr]; exact hold) hwait
  rw [hh] at hto
  rw [State.restoreJob, hj]
  dsimp only
  rw [hc]
  dsimp only
  rw [if_neg (not_not_intro hp), hfind]
  dsimp only
  rw [hread]
  generalize State.readRecord _ c j 0 = u at hto ⊢
  exact ⟨hto.job, hto.queues, hto.hist, hto.hearths, hto.jobs⟩

end Sys2Proof.Machine
end

section
/-! PROOF. A job that retires frees its Hearths, whatever its end does to Hitches, records and other jobs (R203, R415). -/

namespace Sys2Proof.Machine

variable {s t u : State} {n sub h : Nat} {j : Job} {c : CordCfg}

/-! ### Hearths that stay free -/

/-- Every Hearth that no job holds in s is held by none in t. -/
structure State.FreesTo (s t : State) : Prop where
  free : ∀ g, (s.hearth g).job = none → (t.hearth g).job = none

namespace State.FreesTo

theorem refl (s : State) : s.FreesTo s := ⟨fun _ => id⟩

theorem trans (h1 : s.FreesTo t) (h2 : t.FreesTo u) : s.FreesTo u := ⟨fun g hg => h2.free g (h1.free g hg)⟩

theorem of_hearths (h : t.hearths = s.hearths) : s.FreesTo t where
  free g hg := by
    rw [State.hearth, h]
    exact hg

theorem foldl {α : Type} {f : State → α → State} (hf : ∀ (t : State) (a : α), t.FreesTo (f t a)) (l : List α) (s : State) :
    s.FreesTo (l.foldl f s) := by
  induction l generalizing s with
  | nil => exact refl s
  | cons a l ih => exact (hf s a).trans (ih (f s a))

theorem ite {p : Prop} [Decidable p] (h : s.FreesTo t) : s.FreesTo (if p then t else s) := by
  split
  · exact h
  · exact refl s

theorem setHearth {v : Hearth} (hv : (s.hearth h).job = none → v.job = none) : s.FreesTo (s.setHearth h v) where
  free g hg := by
    rw [State.hearth_setHearth]
    split
    next he => exact hv (he ▸ hg)
    · exact hg

theorem setCore (h c : Nat) (k : Core) : s.FreesTo (s.setCore h c k) := setHearth id

theorem bump (hst : s.FreesTo t) (k m : Nat) : s.FreesTo (t.bump k m) := hst.trans (of_hearths rfl)

theorem anyCycles (hst : s.FreesTo t) (k : Nat) : s.FreesTo (t.anyCycles k) := hst.trans (of_hearths rfl)

end State.FreesTo

/-! ### Grants and withdrawals of Hitches -/

theorem State.FreesTo.spliceRows (h : Nat) : s.FreesTo (s.spliceRows h) := by
  unfold State.spliceRows
  extract_lets v
  split
  next sp _ =>
    extract_lets c ue s1 v1 q
    have h1 : s.FreesTo s1 := by
      unfold s1
      split
      · exact .refl s
      · exact .setHearth id
    refine State.FreesTo.bump ?_ _ _
    exact h1.trans (.setHearth id)
  · exact .refl s

theorem State.FreesTo.grant (k : Nat) (a : Agent) : s.FreesTo (s.grant k a) := by
  cases a with
  | core h c =>
    unfold State.grant
    dsimp only
    split
    · exact (State.FreesTo.setCore h c _).trans (.of_hearths (congrArg State.hearths (State.retireInstr_frame ..) :))
    · exact .refl s
  | window h side =>
    unfold State.grant
    dsimp only
    split
    · refine State.FreesTo.anyCycles ?_ _
      exact .setHearth id
    · exact .refl s
  | splice h => exact (State.FreesTo.spliceRows h).anyCycles _
  | _ => exact .refl s

theorem State.FreesTo.grantAll (k : Nat) (as : List Agent) : s.FreesTo (s.grantAll k as) :=
  .foldl (fun _ a => .grant k a) as s

theorem State.FreesTo.hitchCancel (k : Nat) (a : Agent) : s.FreesTo (s.hitchCancel k a) :=
  State.FreesTo.trans (t := s.setHitch k _) (.of_hearths rfl) (.grantAll k _)

theorem State.FreesTo.withdraw (h : Nat) : s.FreesTo (s.withdraw h) := by
  unfold State.withdraw
  extract_lets s1 v s2
  have h1 : s.FreesTo s1 := .foldl (fun t c => by
    dsimp only
    split
    · exact (State.FreesTo.hitchCancel ..).trans (.setCore ..)
    · exact .refl t) [0, 1] s
  have h2 : s1.FreesTo s2 := .foldl (fun _ _ => .hitchCancel ..) v.win.waiting s1
  split
  · split
    · exact h1.trans h2
    · exact (h1.trans h2).trans (.hitchCancel ..)
  · exact h1.trans h2

/-! ### A Hearth that a job leaves -/

theorem State.clearHearth_frees (h : Nat) (bad : Bool) :
    s.FreesTo (s.clearHearth h bad) ∧ ((s.clearHearth h bad).hearth h).job = none := by
  unfold State.clearHearth
  extract_lets s0 v stop cores kilns win hist s1 p q
  have hsame : (s1.hearth h).job = none := (congrArg Hearth.job (State.hearth_setHearth_same (s := s0) h _) :)
  have hs1 : s0.FreesTo s1 := .setHearth fun _ => rfl
  exact ⟨((State.FreesTo.withdraw h).trans hs1).trans (.of_hearths rfl), hsame⟩

theorem State.clearHearths_frees (hs : List Nat) (bad : Bool) :
    s.FreesTo (hs.foldl (fun t h => t.clearHearth h bad) s) ∧
      ∀ h ∈ hs, ((hs.foldl (fun t h => t.clearHearth h bad) s).hearth h).job = none := by
  refine ⟨.foldl (fun _ h => (State.clearHearth_frees h bad).1) hs s, ?_⟩
  induction hs generalizing s with
  | nil => exact fun _ hh => nomatch hh
  | cons a hs ih =>
    intro h hh
    rcases List.mem_cons.1 hh with rfl | hh
    · exact (State.FreesTo.foldl (fun _ h => (State.clearHearth_frees h bad).1) hs _).free h (State.clearHearth_frees h bad).2
    · exact ih h hh

/-! ### What else the end of a job does -/

theorem State.hearths_of_sansReports (h : t.sansReports = s.sansReports) : t.hearths = s.hearths :=
  (congrArg State.hearths h :)

theorem State.eventCord_hearths (m code block arg : Nat) : (s.eventCord m code block arg).hearths = s.hearths :=
  State.hearths_of_sansReports (State.eventCord_sansReports m code block arg)

theorem State.eventCordBlock_hearths (m code arg : Nat) : (s.eventCordBlock m code arg).hearths = s.hearths :=
  State.eventCord_hearths m code (0x10 + m) arg

theorem State.putCordBytes_hearths (a : Nat) (bs : List Byte) : (s.putCordBytes c a bs).hearths = s.hearths := rfl

theorem State.putSessLe_hearths (i off k x : Nat) : (s.putSessLe c i off k x).hearths = s.hearths := rfl

theorem State.fillFlag_hearths (i b : Nat) (v : Bool) : (s.fillFlag c i b v).hearths = s.hearths := by
  simp only [State.fillFlag, State.putSessLe_hearths]

theorem State.feedFrame_hearths (i : Nat) : (s.feedFrame c i).hearths = s.hearths := by
  simp only [State.feedFrame, State.putSessLe_hearths]

theorem State.FreesTo.clearTags (i : Nat) : s.FreesTo (s.clearTags i) :=
  .foldl (fun t h => by
    dsimp only
    split
    · split
      · exact .setHearth id
      · exact .refl t
    · exact .refl t) (List.range 48) s

theorem State.FreesTo.histCommit (c : CordCfg) (j : Job) : s.FreesTo (s.histCommit c j) := by
  unfold State.histCommit
  extract_lets i hs pl cap len head steps fl fl' s1
  have h1 : s.FreesTo s1 := .of_hearths (by simp only [s1, State.putSessLe_hearths])
  split
  · exact .refl s
  · refine h1.trans (.foldl (fun t k => ?_) _ s1)
    exact .setHearth id

theorem State.FreesTo.histDiscard (c : CordCfg) (j : Job) : s.FreesTo (s.histDiscard c j) := by
  unfold State.histDiscard
  extract_lets i p cap len len' s1 fl fl'
  have h1 : s.FreesTo s1 := .clearTags i
  split
  · exact .refl s
  split
  · exact h1
  · refine h1.trans (.of_hearths ?_)
    rw [State.eventCordBlock_hearths, State.bump_hearths, State.putSessLe_hearths, State.putSessLe_hearths]

theorem State.FreesTo.trackWriteBack (c : CordCfg) (j : Job) : s.FreesTo (s.trackWriteBack c j) :=
  .of_hearths (foldl_keeps State.hearths (fun _ _ => State.putCordBytes_hearths ..) (List.range j.hearths.length) s)

theorem State.bumpUnits_hearths (k m n : Nat) : (s.bumpUnits k m n).hearths = s.hearths := rfl

theorem State.modJob_hearths (sub : Nat) (f : Job → Job) : (s.modJob sub f).hearths = s.hearths := rfl

theorem State.ringResume_hearths (d p : Nat) : (s.ringResume d p).hearths = s.hearths := by
  unfold State.ringResume
  dsimp only
  split
  · rw [State.bumpUnits_hearths, State.modJob_hearths, State.setPort_hearths]
  · rfl

theorem State.FreesTo.dropWaits (host sub : Nat) : s.FreesTo (s.dropWaits host sub) :=
  .foldl (fun _ p => .ite (.of_hearths (State.ringResume_hearths host p))) (List.range 16) s

theorem State.refund_hearths (c : CordCfg) (j : Job) : (s.refund c j).hearths = s.hearths := by
  unfold State.refund
  dsimp only
  split
  · rfl
  · split <;> rfl

theorem State.complete_hearths (n sub : Nat) (j : Job) (status flags : Nat) :
    (s.complete n sub j status flags).hearths = s.hearths := by
  by_cases h0 : s.reg (cordAddr n 0x1C) = 0
  · rw [State.complete_of_no_ring (.inl h0)]
  cases hc : s.cordCfg n with
  | none => rw [State.complete_of_no_ring (.inr hc)]
  | some c => exact (congrArg State.hearths (State.complete_sansRecords hc h0 status flags) :)

theorem State.slotDone_hearths (c : CordCfg) (sl : SlotRt) (status seq : Nat) :
    (s.slotDone c sl status seq).hearths = s.hearths := by
  have hput (t : State) (a k x : Nat) : (t.putCordLe c a k x).hearths = t.hearths := rfl
  unfold State.slotDone
  extract_lets late s1 s2 s3 kind s4
  have h1 : s1.hearths = s.hearths := by
    unfold s1
    split
    · simp only [hput]
    · rfl
  have h2 : s2.hearths = s1.hearths := by
    unfold s2
    split
    · exact State.fillFlag_hearths ..
    · rfl
  have h3 : s3.hearths = s2.hearths := by
    unfold s3
    split
    · rw [State.eventCordBlock_hearths, State.bump_hearths]
    · rfl
  have h4 : s4.hearths = s3.hearths := by
    unfold s4
    split
    · exact State.feedFrame_hearths ..
    · rfl
  exact h4.trans (h3.trans (h2.trans h1))

theorem State.slotJobEnded_hearths (c : CordCfg) (j : Job) (status : Nat) : (s.slotJobEnded c j status).hearths = s.hearths := by
  unfold State.slotJobEnded
  split
  · rfl
  next sl _ =>
    extract_lets next later upd q s1 ok r s1' s2
    have h1 : s1.hearths = s.hearths := by
      unfold s1
      split
      · rfl
      · exact State.fillFlag_hearths ..
    have h1' : s1'.hearths = s1.hearths := by
      unfold s1'
      split
      · exact State.setSess_hearths ..
      · rfl
    have h2 : s2.hearths = s1'.hearths := by
      unfold s2
      split
      · exact State.fillFlag_hearths ..
      · rfl
    have h : s2.hearths = s.hearths := h2.trans (h1'.trans h1)
    split
    · rfl
    split
    · rfl
    split
    · exact h
    split
    · exact h
    · exact (State.slotDone_hearths ..).trans h

theorem State.retryStarts_hearths (k : Nat) : (s.retryStarts k).hearths = s.hearths := by
  unfold State.retryStarts
  extract_lets s1
  have h1 : s1.hearths = s.hearths := foldl_keeps State.hearths (fun t j => by
    unfold State.tryPass
    dsimp only
    split <;> rfl) _ s
  exact (foldl_keeps State.hearths (fun t j => by
    dsimp only
    split <;> rfl) _ s1).trans h1

theorem State.FreesTo.hitchSignal (k m : Nat) : s.FreesTo (s.hitchSignal k m) := by
  unfold State.hitchSignal
  extract_lets h
  split
  next h1 g _ =>
    extract_lets s1 s2
    have hs1 : s.FreesTo s1 := State.FreesTo.trans (t := s.setHitch k h1) (.of_hearths rfl) (.grantAll k g)
    have hs2 : s2.hearths = s1.hearths := by
      unfold s2
      split
      · split
        · exact State.eventCord_hearths ..
        · exact State.hearths_of_sansReports (State.eventOwner_sansReports ..)
      · rfl
    exact hs1.trans (.of_hearths ((State.retryStarts_hearths k).trans hs2))

theorem State.setHold_hearths (n : Nat) (b : Bool) : (s.setHold n b).hearths = s.hearths := by
  unfold State.setHold
  exact State.setReg_hearths ..

theorem State.countHeld_hearths (n : Nat) : (s.countHeld n).hearths = s.hearths := by
  unfold State.countHeld
  split
  · exact (State.bumpUnits_hearths ..).trans (State.setCordRt_hearths ..)
  · rfl

theorem State.checkHold_hearths (c : CordCfg) : (s.checkHold c).hearths = s.hearths := by
  unfold State.checkHold
  split
  · exact (State.setHold_hearths ..).trans (State.countHeld_hearths c.cord)
  · rfl

theorem State.finishClose_hearths (n i : Nat) : (s.finishClose n i).hearths = s.hearths := by
  unfold State.finishClose
  split
  · rfl
  next c _ =>
    split
    · have hunbind : (s.unbind c i).hearths = s.hearths := (State.frame_of_sansSessions State.unbind_frame.1).2.1
      rw [State.eventCordBlock_hearths, State.putSessLe_hearths, State.putSessLe_hearths, hunbind]
    · rfl

/-! ### The end of a job -/

theorem State.countJob_hearths (n host which : Nat) : (s.countJob n host which).hearths = s.hearths := by
  unfold State.countJob
  extract_lets r r' s1
  exact State.setCordRt_hearths s n r'

theorem State.jobLeft_hearths (n sub : Nat) : (s.jobLeft n sub).hearths = s.hearths := rfl

theorem State.recordsDropped_hearths (n sub : Nat) (records : List Nat) :
    (s.recordsDropped n sub records).hearths = s.hearths := rfl

theorem State.chainTold_hearths (n sub status : Nat) (j : Job) : (s.chainTold c n sub status j).hearths = s.hearths := by
  unfold State.chainTold
  extract_lets t r
  exact State.setSess_hearths ..

theorem State.FreesTo.jobReleased (c : CordCfg) (sub status : Nat) (j k : Job) : s.FreesTo (s.jobReleased c sub status j k) := by
  unfold State.jobReleased
  extract_lets committed kept cleared
  have hcommitted : s.FreesTo committed := .histCommit c k
  have hkept : s.FreesTo kept := by
    unfold kept
    split
    · split
      · split
        · exact hcommitted.trans (.trackWriteBack c k)
        · exact hcommitted
      · exact .refl s
    · exact .ite (.histDiscard c k)
  have hcleared : kept.FreesTo cleared := .ite (State.clearHearths_frees _ _).1
  exact (hkept.trans hcleared).trans (.ite (.dropWaits ..))

/-- A resident job that ends leaves its Hearths free. -/
theorem State.jobReleased_free (hr : j.resident = true) (sub status : Nat) (k : Job) :
    ∀ g ∈ k.hearths, ((s.jobReleased c sub status j k).hearth g).job = none := by
  intro g hg
  unfold State.jobReleased
  extract_lets committed kept cleared
  have hcleared : (cleared.hearth g).job = none := by
    unfold cleared
    rw [if_pos hr]
    exact (State.clearHearths_frees k.hearths _).2 g hg
  exact (State.FreesTo.ite (State.FreesTo.dropWaits ..)).free g hcleared

theorem State.FreesTo.jobSettled (c : CordCfg) (n sub status : Nat) (j : Job) (granted : Bool) :
    s.FreesTo (s.jobSettled c n sub status j granted) := by
  unfold State.jobSettled
  extract_lets s4 s5 s6 s7 s8 s9 s9' s10 s11 s12
  have h4 : s.FreesTo s4 := .of_hearths (State.recordsDropped_hearths ..)
  have h5 : s4.FreesTo s5 := .ite (.of_hearths (State.refund_hearths ..))
  have h6 : s5.FreesTo s6 := .of_hearths (State.countJob_hearths ..)
  have h7 : s6.FreesTo s7 := .of_hearths (State.putSessLe_hearths ..)
  have h8 : s7.FreesTo s8 := .of_hearths (State.chainTold_hearths ..)
  have h9 : s8.FreesTo s9 := .of_hearths (State.complete_hearths ..)
  have h9' : s9.FreesTo s9' := by
    unfold s9'
    split
    · exact .refl s9
    · exact .of_hearths (State.eventCordBlock_hearths ..)
  have h10 : s9'.FreesTo s10 := .ite (.of_hearths (State.feedFrame_hearths ..))
  have h11 : s10.FreesTo s11 := .of_hearths (State.slotJobEnded_hearths ..)
  have h12 : s11.FreesTo s12 := .ite (.hitchSignal ..)
  have hclose : s12.FreesTo ((s12.checkHold c).finishClose n j.session) :=
    .of_hearths ((State.finishClose_hearths ..).trans (State.checkHold_hearths c))
  exact h4.trans <| h5.trans <| h6.trans <| h7.trans <| h8.trans <| h9.trans <| h9'.trans <| h10.trans <| h11.trans <|
    h12.trans hclose

theorem State.FreesTo.endJobBase (sub status : Nat) : s.FreesTo (s.endJobBase sub status) := by
  cases hj : s.job? sub with
  | none =>
    rw [State.endJobBase, hj]
    exact .refl s
  | some j =>
    cases hc : s.cordCfg j.cord with
    | none =>
      unfold State.endJobBase
      rw [hj]
      dsimp -zeta only
      extract_lets n running k
      have hcn : s.cordCfg n = none := hc
      rw [hcn]
      exact .of_hearths rfl
    | some c =>
      obtain ⟨k, granted, heq⟩ := State.endJobBase_eq hj hc status
      rw [heq]
      exact ((State.FreesTo.jobReleased ..).trans (.of_hearths (State.jobLeft_hearths ..))).trans (.jobSettled ..)

theorem State.FreesTo.poisonHitch (k : Nat) : s.FreesTo (s.poisonHitch k) := by
  unfold State.poisonHitch
  extract_lets h
  split
  next h1 as _ =>
    extract_lets s1 s2 starts
    have hs1 : s.FreesTo s1 := .of_hearths (State.setHitch_hearths ..)
    have hs2 : s1.FreesTo s2 := by
      unfold s2
      split
      · exact .refl s1
      · split
        · exact .of_hearths (State.eventCord_hearths ..)
        · exact .refl s1
    exact (hs1.trans hs2).trans (.foldl (fun t q => .endJobBase ..) _ s2)

/-- A job whose time on Hearths or engines is counted up to its end. -/
def Job.counted (j : Job) (now : Nat) : Job :=
  if j.resident then { j with residentNs := j.residentNs + (now - j.resumed) } else j

theorem Job.counted_hearths (j : Job) (now : Nat) : (j.counted now).hearths = j.hearths := by
  unfold Job.counted
  split <;> rfl

theorem State.endJobBase_eq_counted (hj : s.job? sub = some j) (hc : s.cordCfg j.cord = some c) (status : Nat) :
    s.endJobBase sub status = ((s.jobReleased c sub status j (j.counted s.time)).jobLeft j.cord sub).jobSettled c j.cord sub
      status (j.counted s.time) (s.drg.granted.contains sub) := by
  unfold State.endJobBase State.jobSettled State.chainTold State.recordsDropped State.jobLeft State.jobReleased
    Job.counted
  rw [hj]
  dsimp -zeta only
  extract_lets n running k
  have hcn : s.cordCfg n = some c := hc
  rw [hcn]

/-- A resident job that ends, however it does, holds no Hearth any more. -/
theorem State.endJob_frees (hj : s.job? sub = some j) (hc : s.cordCfg j.cord = some c) (hr : j.resident = true)
    (status : Nat) : ∀ g ∈ j.hearths, ((s.endJob sub status).hearth g).job = none := by
  intro g hg
  have hbase : ((s.endJobBase sub status).hearth g).job = none := by
    rw [State.endJobBase_eq_counted hj hc]
    refine (State.FreesTo.jobSettled ..).free g ?_
    exact State.jobReleased_free hr sub status (j.counted s.time) g ((j.counted_hearths s.time).symm ▸ hg)
  rw [State.endJob, hj]
  exact (State.FreesTo.ite (.foldl (fun _ k => .poisonHitch k) _ _)).free g hbase

end Sys2Proof.Machine
end

section
/-! PROOF. JOB_RETIRE, and with the slices, budgets, saves, restores and swaps all that a job gives way to (R203, R210, R407,
R409, R411, R412, R414 to R416). -/

namespace Sys2Proof.Machine

variable {s : State} {j : Job} {c : CordCfg}

theorem State.resident_of_atRetirement (hr : s.atRetirement j = true) : j.resident = true := by
  rw [State.atRetirement, Bool.and_eq_true, Bool.and_eq_true, Bool.or_eq_true, beq_iff_eq, beq_iff_eq] at hr
  obtain ⟨⟨-, hp | hp⟩, -⟩ := hr <;> simp [Job.resident, Job.queued, hp]

theorem jobRetire_of_not_retiring (hj : s.job? j.sub = some j) (hr : s.atRetirement j = false) :
    exec (.jobRetire j.sub) s = .next s := by
  refine congrArg Host.Outcome.next ?_
  rw [hj]
  dsimp only
  rw [hr]
  rfl

/-- A job at its retirement point whose stretches made the same appends ends, and frees its Hearths. -/
theorem jobRetire_ends (hj : s.job? j.sub = some j) (hc : s.cordCfg j.cord = some c) (hr : s.atRetirement j = true)
    (ha : s.appendsMatch j = true) :
    Completes (exec (.jobRetire j.sub) s) fun t =>
      t.job? j.sub = none ∧ (∀ h ∈ j.hearths, (t.hearth h).job = none) ∧ t.ended.contains (j.sub, j.cord) = true := by
  have hended := (State.endJob_ends hj hc (j.doneStatus s.time)).2
  refine .of_next (t := _) rfl ?_ ⟨hended.job?, State.endJob_frees hj hc (State.resident_of_atRetirement hr) _, hended.contains⟩
  rw [hj]
  dsimp only
  rw [hr, if_pos rfl, State.retireWith, ha, Bool.or_true]
  rfl

theorem exec_swap {n : Nat} (hn : cordOk n = true) : exec (.swap n) s = .next (s.swapOut n) := by
  change withUnit (cordOk n) _ = _
  rw [hn]
  rfl

/-- Settles O49: a row for each way in which a job gives way or ends. -/
theorem jobsGiveWayAndEnd : Obligations.JobsGiveWayAndEnd := by
  unfold Obligations.JobsGiveWayAndEnd
  intro s j hj after
  have hafter {i : Instr} {p : Job → Prop} {t : State} {q : Job} (he : exec i s = .next t) (hq : t.job? j.sub = some q) (hp : p q) :
      after i p := ⟨t, he, q, hq, hp⟩
  clear_value after
  refine ⟨?slice, ?gives, ?budget, fun c hc => ⟨?save, ?saveEnd, ?restore, ?swap, ?swapNone, ?retire⟩,
    jobRetire_of_not_retiring hj⟩
  case slice =>
    rintro (hq | hs)
    · exact congrArg Host.Outcome.next (State.sliceEnds_of_nothing_queued hj hq)
    · exact congrArg Host.Outcome.next (State.sliceEnds_of_slice_left hj hs)
  case gives =>
    intro c q hjobs hbe hp hk hh hover hne hcord hqbe hqp hmust hcount hc hskips hfree hzero hstarts
    have hgives : s.GivesWay c j q := ⟨hjobs, hc, hbe, hp, hk, hh, decide_eq_true hover, hne, hcord, hqbe, hqp, hmust, hcount,
      hskips, hfree, hzero⟩
    exact hafter (congrArg Host.Outcome.next (hgives.sliceEnds hstarts)) (State.job?_preempt hj 3) ⟨rfl, rfl, rfl⟩
  case budget =>
    intro hlc hr hb
    exact hafter rfl (State.job?_budgetExpires hj hlc hr hb) rfl
  case save =>
    intro x bound hp ha hpoint hfree
    obtain ⟨q, hq, hphase, hrecords, hhearths⟩ := State.job?_saveJob hj hc hp ha hpoint hfree x bound
    exact hafter rfl hq ⟨hphase, hrecords, hhearths⟩
  case saveEnd =>
    intro h r hp hh hr hw hue
    have hto := State.saveEnds_saved hj hc hp hh hr hw hue
    exact ⟨_, rfl, hto.job, hto.context, hto.store, hto.hearths, hto.phase⟩
  case restore =>
    intro h r hp hh hr hue old hwait
    have hto := State.restoreJob_resumes hj hc hp hh hr hue (old := old) rfl hwait
    have hjob : (s.restoreJob j.sub).job? j.sub = some { j with phase := 2, records := [], stopWhy := 0 } := by
      rw [State.job?, hto.jobs]
      exact (State.job?_modJob s j.sub (f := fun x => { x with phase := 2, records := [], stopWhy := 0 }) fun _ => rfl).trans
        (congrArg _ hj)
    refine ⟨_, rfl, hto.job, hto.queues, hto.hist, hto.hearths, ?_, ?_⟩
    · exact congrArg (Option.map Job.phase) hjob
    · exact congrArg (Option.map Job.records) hjob
  case swap =>
    intro q hn hjobs hne hcord hbe hblocked hlong hsaved hlacks hstarts hroom
    have hswaps : s.Swaps c j q := ⟨hjobs, hc, hne, hcord, hblocked, hlong, hsaved, hlacks, hstarts, hroom⟩
    refine hafter ((exec_swap hn).trans (congrArg _ hswaps.swapOut)) (State.job?_preempt hj 2) ⟨rfl, rfl, rfl⟩
  case swapNone =>
    intro hn hr
    exact (exec_swap hn).trans (congrArg _ (State.swapOut_of_no_resident hc hr))
  case retire =>
    intro hr ha hd
    exact jobRetire_ends hj hc hr ha

end Sys2Proof.Machine
end

section
/-! PROOF. The history mover at a history record of a length that no session has (R222, R230, R439). -/

namespace Sys2Proof.Machine

variable {s t : State} {h : Nat} {j : Job} {c : CordCfg} {e : QEntry} {rest : List QEntry}

/-- The command at the head of a history mover's queue is performed if its checks pass, and refused if not. -/
theorem exec_histHead {i : Instr} {op : Nat} {body : State → QEntry → Job → CordCfg → HistCmd → State}
    (he : exec i s = withUnit (hearthOk h) (s.histHead h op body)) (hu : hearthOk h = true) (hj : s.hearthJob h = some j)
    (hc : s.cordCfg j.cord = some c) (hs : s.headStarts h 6 op e rest) :
    exec i s = .next (if histCmdOk c j (s.hearth h).hist (readHist e.cmd) then body s e j c (readHist e.cmd)
      else s.refuseCmd h 6 e 1) := by
  rw [exec_onHead he hu hs, hj]
  dsimp only
  rw [hc]

/-- A write of part of an uncorrectable word is not made (R439). -/
theorem State.moverWrite_of_partUe {a : Nat} {bs : List Byte} (hpart : (s.hearth h).partUe a bs.length = true)
    (body : State → State) : s.moverWrite h [(a, bs)] body = s.storeUeStop h a bs.length := by
  rw [State.moverWrite, List.find?_cons_of_pos (by exact hpart)]

/-- It ends the job of the Hearth instead. -/
theorem State.job?_storeUeStop (hj : s.hearthJob h = some j) (hc : s.cordCfg j.cord = some c) (a n : Nat) :
    (s.storeUeStop h a n).job? j.sub = none := by
  obtain ⟨sub, hsub, hfind⟩ := Option.bind_eq_some_iff.1 hj
  have hjsub : j.sub = sub := by simpa using List.find?_some hfind
  have hnoted : (s.noteSramUe h ((s.hearth h).ueAt a n)).sansReports = s.sansReports := State.eventOwner_sansReports ..
  have hheld : ((s.noteSramUe h ((s.hearth h).ueAt a n)).hearth h).job = some sub :=
    (congrArg (fun t : State => (t.hearth h).job) hnoted).trans hsub
  have hfind' : (s.noteSramUe h ((s.hearth h).ueAt a n)).job? sub = some j :=
    (congrArg (fun t : State => t.job? sub) hnoted).trans hfind
  have hc' : (s.noteSramUe h ((s.hearth h).ueAt a n)).cordCfg j.cord = some c :=
    (congrArg (fun t : State => t.cordCfg j.cord) hnoted).trans hc
  rw [State.storeUeStop, State.tearHearth, hheld, hjsub]
  exact (State.endJob_ends hfind' hc' stTorn).2.job?

/-- A command that keeps the jobs has not ended one of them. -/
theorem EngineTo.job? {q : Nat} (ht : EngineTo s t h q rest) (sub : Nat) : t.job? sub = s.job? sub :=
  (congrArg (fun u : State => u.job? sub) ht.rest :)

/-- A Cord of one Hearth and of a history of one frame of 8 bytes, without a weight share. -/
def bareCord : CordCfg :=
  { cord := 0, ownerHost := 0, reserveMw := 0, hearths := 1, channels := 1, ways := 0, hitchBase := 0, hitchCount := 0
    sessionBase := 0, sessionCount := 1, weightShare := 0, historyBytes := 64, haloBytes := 0, scaleBytes := 0, tileBytes := 0
    historySteps := 1, region := [] }

/-- A running NET job of session 0 on Hearth 0. -/
def bareJob : Job :=
  { sub := 1, cord := 0, host := 0, lc := true, kind := 1, flags := 0, nHearths := 1, histFlags := 0, session := 0, modelId := 0
    entry0 := 0, entry1 := 0, arg0 := 0, arg1 := 0, deadline := 0, budgetNs := 0, wcNs := 0, energyUj := 0, npBoundUs := 0
    rows := 0, tag := 0, startHitch := 0, startCount := 0, doneHitch := 0, phase := 2, hearths := [0] }

/-- HINFO to address 0. -/
def bareHinfo : QEntry := ⟨0x30 :: List.replicate 31 0, 0, 0⟩

/-- The Hearth of `bareJob`: its history record has 5 bytes, a HINFO waits, and word 4 of its store is uncorrectable. -/
def cutRecordHearth : Hearth :=
  { storeUe := [4], queues := [(6, [bareHinfo])], hist := { record := [0, 0, 0, 0, 1] }, job := some 1 }

/-- Right after reset, but `bareJob` runs on that Hearth. -/
def State.cutRecord : State :=
  { State.reset with
    lay := some { seq := 0, hash := 0, roles := [], scWays := 0, beSlice := 0, units := [], cords := [bareCord], models := [] }
    jobs := [bareJob], hearths := [(0, cutRecordHearth)] }

/-- In `State.cutRecord` the 37 bytes that HINFO writes end inside the uncorrectable word, and the job is torn down. -/
theorem exec_hinfo_cutRecord : ∃ n, exec (.hinfo 0) State.cutRecord = .next (State.cutRecord.storeUeStop 0 0 n) := by
  have hs : State.cutRecord.headStarts 0 6 0x30 bareHinfo [] := by decide
  rw [exec_histHead (i := .hinfo 0) (h := 0) rfl rfl (j := bareJob) rfl (c := bareCord) rfl hs, if_pos (by decide), State.hinfo]
  exact ⟨_, congrArg Host.Outcome.next (State.moverWrite_of_partUe (by decide) _)⟩

/-- Refutes O51: the clause of HINFO bounds neither the length of the history record nor the uncorrectable words of the store.
A record of 5 bytes makes HINFO write 37 bytes instead of 64; in `State.cutRecord` they end inside an uncorrectable word, so
that the write is not made and the job is torn down (R439). A job that starts takes 32 bytes as its record (R225), so the
clause misses a hypothesis on that length. -/
theorem not_historyMoverActs : ¬ Obligations.HistoryMoverActs := by
  unfold Obligations.HistoryMoverActs
  intro hall
  have hs : State.cutRecord.headStarts 0 6 0x30 bareHinfo [] := by decide
  obtain ⟨-, hvalid, -⟩ := hall State.cutRecord 0 bareHinfo [] bareJob bareCord rfl rfl rfl
  obtain ⟨hinfo, -⟩ := hvalid (by decide)
  obtain ⟨t, ht, hto, -⟩ := hinfo hs
  obtain ⟨n, hn⟩ := exec_hinfo_cutRecord
  have hstop : t = State.cutRecord.storeUeStop 0 0 n := Host.Outcome.next.inj (ht.symm.trans hn)
  have hended : t.job? 1 = none := hstop ▸ State.job?_storeUeStop (j := bareJob) (c := bareCord) rfl rfl 0 n
  have hkept : t.job? 1 = some bareJob := hto.job? 1
  cases hended.symm.trans hkept

end Sys2Proof.Machine
end

section
/-! PROOF. JOB_DISPATCH: when it starts nothing, and how it starts the only queued job (R404, R405, R417, R467, R486). -/

namespace Sys2Proof.Machine

variable {s t : State} {n sub : Nat} {j q : Job} {c : CordCfg} {hs : List Nat}

/-! ### The parts of the dispatch -/

theorem exec_jobDispatch_of_noStarts (hn : cordOk n = true) (hw : s.noStarts = true) : exec (.jobDispatch n) s = .next s := by
  change withUnit (cordOk n) _ = _
  rw [hn, withUnit_true]
  split
  · exact congrArg _ (if_pos hw)
  · rfl

theorem exec_jobDispatch_of_no_cord (hn : cordOk n = true) (hc : s.cordCfg n = none) : exec (.jobDispatch n) s = .next s := by
  change withUnit (cordOk n) _ = _
  rw [hn, hc]
  rfl

theorem exec_jobDispatch (hn : cordOk n = true) (hc : s.cordCfg n = some c) (hw : s.noStarts = false) :
    exec (.jobDispatch n) s = .next (((s.endAllAborted.scanBegins n).scanQueue c true).scanQueue c false) := by
  have hgoes : ¬ (s.pwr.holdSince.isSome || s.clk.relocking) = true := by
    rw [show (s.pwr.holdSince.isSome || s.clk.relocking) = false from hw]
    decide
  change withUnit (cordOk n) _ = _
  rw [hn, hc]
  exact congrArg _ (if_neg hgoes)

/-- A job that is not aborted, or has not begun to stop, does not end in the scan. -/
theorem State.endAborted_of_not_stopping (ha : ∀ q ∈ s.jobs, q.aborting = false ∨ q.phase ≠ 3) (sub : Nat) :
    s.endAborted sub = s := by
  unfold State.endAborted
  split
  next q hq =>
    have hstays : ¬ (q.aborting && q.phase == 3 && (s.atPoint q || q.ringWait)) = true := by
      rcases ha q (List.mem_of_find?_eq_some hq) with h | h <;> simp [h]
    exact if_neg hstays
  · rfl

theorem State.endAllAborted_of_not_stopping (ha : ∀ q ∈ s.jobs, q.aborting = false ∨ q.phase ≠ 3) : s.endAllAborted = s :=
  List.foldl_fixed' (State.endAborted_of_not_stopping ha) _

theorem State.scanQueue_of_none_queued (hq : ∀ q ∈ s.jobs, q.cord = c.cord → q.queued = false) (lc : Bool) :
    s.scanQueue c lc = s := by
  rw [State.scanQueue, State.scanOrder_of_none_queued hq]
  rfl

/-! ### Nothing to start -/

/-- Where nothing has been held, a scan begins without a change of any Cord. -/
theorem State.scanBegins_of_none_held (hh : (s.cordRt n).heldSince = none) :
    { s.scanBegins n with cords := s.cords } = s ∧ ∀ m, (s.scanBegins n).cordRt m = s.cordRt m := by
  have hcount : s.countHeld n = s := by
    rw [State.countHeld, hh]
  have hsame : ({ s.cordRt n with heldSince := none } : CordRt) = s.cordRt n := by
    rw [← hh]
  rw [State.scanBegins, hcount, hsame]
  refine ⟨rfl, fun m => ?_⟩
  rw [State.cordRt_setCordRt]
  split
  · simp [*]
  · rfl

/-- With no job of its Cord queued, none aborted and none held, the dispatch changes nothing. -/
theorem jobDispatch_of_none_queued (hn : cordOk n = true)
    (hq : ∀ q ∈ s.jobs, q.aborting = false ∧ (q.cord = n → q.queued = false)) (hh : (s.cordRt n).heldSince = none) :
    Completes (exec (.jobDispatch n) s) fun t => { t with cords := s.cords } = s ∧ ∀ m, t.cordRt m = s.cordRt m := by
  cases hc : s.cordCfg n with
  | none => exact ⟨s, exec_jobDispatch_of_no_cord hn hc, rfl, fun _ => rfl⟩
  | some c =>
    cases hw : s.noStarts with
    | true => exact ⟨s, exec_jobDispatch_of_noStarts hn hw, rfl, fun _ => rfl⟩
    | false =>
      obtain ⟨hrest, hcords⟩ := State.scanBegins_of_none_held hh
      have hjobs : (s.scanBegins n).jobs = s.jobs := (congrArg State.jobs hrest :)
      have hnone : ∀ q ∈ (s.scanBegins n).jobs, q.cord = c.cord → q.queued = false := by
        rw [hjobs, State.cord_of_cordCfg hc]
        exact fun q hmem => (hq q hmem).2
      refine ⟨s.scanBegins n, ?_, hrest, hcords⟩
      rw [exec_jobDispatch hn hc hw, State.endAllAborted_of_not_stopping fun q hmem => .inl (hq q hmem).1,
        State.scanQueue_of_none_queued hnone, State.scanQueue_of_none_queued hnone]

/-! ### A job takes its Hearths -/

/-- The state without its physical Hearths and fault records. -/
def State.sansService (s : State) : State := { s with phys := [], flt := {} }

theorem State.hearth_of_sansService (ht : t.sansService = s.sansService) (g : Nat) : t.hearth g = s.hearth g :=
  (congrArg (fun u : State => u.hearth g) ht :)

theorem State.jobs_of_sansService (ht : t.sansService = s.sansService) : t.jobs = s.jobs := (congrArg State.jobs ht :)

theorem State.dram_of_sansService (ht : t.sansService = s.sansService) : t.dram = s.dram := (congrArg State.dram ht :)

theorem State.setPhy_sansService (s : State) (p : Nat) (v : Phys) : (s.setPhy p v).sansService = s.sansService := rfl

theorem State.logFault_sansService (s : State) (o k a x y : Nat) : (s.logFault o k a x y).sansService = s.sansService := rfl

theorem State.takeDivider_sansService (s : State) (h : Nat) (lc : Bool) : (s.takeDivider h lc).sansService = s.sansService := by
  rw [State.takeDivider, State.askDivider, State.setPhy_sansService, State.setPhy_sansService]

theorem State.setHearthState_sansService (s : State) (p : Nat) {new : Nat} (hnew : new ≠ 0) :
    (s.setHearthState p new).sansService = s.sansService := by
  unfold State.setHearthState
  dsimp only
  rw [if_neg hnew, State.setPhy_sansService, State.logFault_sansService]

theorem State.inField_sansService (s : State) (h : Nat) : (s.inField h).sansService = s.sansService := by
  unfold State.inField
  dsimp only
  split
  · rfl
  · split
    · rw [State.setHearthState_sansService _ _ Nat.one_ne_zero, State.setPhy_sansService]
    · rw [State.setPhy_sansService]

/-- A job takes a Hearth (R405, R463, R474). -/
def State.takeHearth (s : State) (sub : Nat) (lc : Bool) (h : Nat) : State :=
  ((s.setHearth h { s.hearth h with job := some sub }).takeDivider h lc).inField h

theorem State.takeHearth_sansService (s : State) (sub : Nat) (lc : Bool) (h : Nat) :
    (s.takeHearth sub lc h).sansService = (s.setHearth h { s.hearth h with job := some sub }).sansService :=
  (State.inField_sansService ..).trans (State.takeDivider_sansService ..)

theorem State.takeHearth_hearth (s : State) (sub : Nat) (lc : Bool) (h g : Nat) :
    (s.takeHearth sub lc h).hearth g = if g = h then { s.hearth h with job := some sub } else s.hearth g :=
  (State.hearth_of_sansService (s.takeHearth_sansService sub lc h) g).trans (State.hearth_setHearth ..)

theorem State.takeHearth_jobs (s : State) (sub : Nat) (lc : Bool) (h : Nat) : (s.takeHearth sub lc h).jobs = s.jobs :=
  (State.jobs_of_sansService (s.takeHearth_sansService sub lc h)).trans (State.setHearth_jobs ..)

theorem State.takeHearth_dram (s : State) (sub : Nat) (lc : Bool) (h : Nat) : (s.takeHearth sub lc h).dram = s.dram :=
  (State.dram_of_sansService (s.takeHearth_sansService sub lc h)).trans (State.setHearth_dram ..)

/-- The Hearths of a list are the job's, and are as they were otherwise. -/
theorem State.takeHearths_hearth (s : State) (sub : Nat) (lc : Bool) (hs : List Nat) (g : Nat) :
    (hs.foldl (fun t h => t.takeHearth sub lc h) s).hearth g =
      if g ∈ hs then { s.hearth g with job := some sub } else s.hearth g := by
  induction hs generalizing s with
  | nil => rfl
  | cons h hs ih =>
    rw [List.foldl_cons, ih, State.takeHearth_hearth]
    by_cases hg : g = h
    · subst hg
      simp
    · simp [hg]

theorem State.takeHearths_jobs (s : State) (sub : Nat) (lc : Bool) (hs : List Nat) :
    (hs.foldl (fun t h => t.takeHearth sub lc h) s).jobs = s.jobs :=
  foldl_keeps State.jobs (fun t h => t.takeHearth_jobs sub lc h) hs s

theorem State.takeHearths_dram (s : State) (sub : Nat) (lc : Bool) (hs : List Nat) :
    (hs.foldl (fun t h => t.takeHearth sub lc h) s).dram = s.dram :=
  foldl_keeps State.dram (fun t h => t.takeHearth_dram sub lc h) hs s

/-- A job that loads its Hearths' weight shares. -/
def Job.loading (j : Job) (hs : List Nat) : Job :=
  { j with phase := 1, hearths := hs, cuts := j.stretchCuts hs.length, loaded := [] }

/-- A job that takes Hearths none of which holds its model's image begins to load it (R217). -/
theorem State.startHearths_of_untagged (hne : hs ≠ [])
    (htag : ∀ h ∈ hs, (s.hearth h).tag ≠ some (c.cord, s.jobModelId c j)) :
    s.startHearths c j hs = hs.foldl (fun t h => t.takeHearth j.sub j.inLc h) (s.modJob j.sub fun x =>
      { x with phase := 1, hearths := hs, cuts := j.stretchCuts hs.length, loaded := [] }) := by
  have hnone : (hs.filter fun h => (s.hearth h).tag == some (c.cord, s.jobModelId c j)) = [] :=
    List.filter_eq_nil_iff.2 fun h hmem => by simpa using htag h hmem
  have hloads : ¬ ([] : List Nat).length = hs.length := fun he => hne (List.length_eq_zero_iff.1 he.symm)
  unfold State.startHearths
  dsimp only
  rw [hnone]
  exact if_neg hloads

/-! ### The only queued job starts -/

/-- The state without its registers and the accounts of its Draught governor. -/
def State.sansAccounts (s : State) : State := { s with drg := {}, regs := [] }

theorem State.debitReserve_sansAccounts (s : State) (c : CordCfg) (e : Nat) :
    (s.debitReserve c e).sansAccounts = s.sansAccounts := rfl

/-- A NET job when the dispatch unit has started it. -/
def Job.dispatched (j : Job) (now left : Nat) : Job :=
  { j with firstStart := some now, resumed := now, sliceStart := now, sliceLeft := left, desc := [], units := [] }

theorem State.jobDesc_of_net (hk : j.kind = 1) : s.jobDesc c j = [] := by
  rw [State.jobDesc, hk]
  exact ite_self _

theorem State.jobUnits_of_net (hk : j.kind = 1) : s.jobUnits c j = [] := by
  unfold State.jobUnits
  dsimp only
  simp [hk]

/-- A NET job that starts takes its Hearths, once its energy is on the books. -/
theorem State.startJob_of_net (hj : s.job? j.sub = some j) (hk : j.kind = 1) (hs : List Nat) :
    ∃ u : State, s.startJob c j hs = u.startHearths c (j.dispatched s.time s.sliceNs) hs ∧
      u.sansAccounts = (s.modJob j.sub fun x => x.dispatched s.time s.sliceNs).sansAccounts := by
  have hon : j.onHearths = true := by simp [Job.onHearths, hk]
  unfold State.startJob
  rw [State.jobDesc_of_net hk, State.jobUnits_of_net hk]
  extract_lets n desc units left s1 s2 accounts s3 j1
  have h2 : s2.sansAccounts = s1.sansAccounts := by
    unfold s2
    split
    · exact State.debitReserve_sansAccounts ..
    · rfl
  have h3 : s3.sansAccounts = s1.sansAccounts := Eq.trans rfl h2
  have hj1 : j1 = j.dispatched s.time s.sliceNs := by
    have hfound : s3.job? j.sub = some (j.dispatched s.time s.sliceNs) := by
      refine (congrArg (fun t : State => t.job? j.sub) h3).trans ?_
      exact (State.job?_modJob s j.sub (f := fun x => x.dispatched s.time s.sliceNs) fun _ => rfl).trans (congrArg _ hj)
    unfold j1
    rw [hfound]
    rfl
  refine ⟨s3, ?_, h3⟩
  rw [if_neg (fun h => h.1 rfl), hon, if_pos rfl, hj1]

/-- A queued job of a Cord that alone is in flight, and which the scan does not pass over, with the Hearths that R405 finds. -/
structure State.Starts (s : State) (n : Nat) (c : CordCfg) (j : Job) (hs : List Nat) : Prop where
  jobs      : s.jobs = [j]
  cord      : j.cord = n
  lc        : j.inLc = true
  queued    : j.phase = 0
  net       : j.kind = 1
  unchained : j.chained = false
  goes      : s.waits c j = false
  cached    : s.sessCache.contains j.session = true
  picks     : s.pickHearths c j = some hs

namespace State.Starts

theorem job?_self (h : s.Starts n c j hs) : s.job? j.sub = some j := by
  rw [State.job?, h.jobs, List.find?_cons_of_pos (by exact beq_self_eq_true _)]

/-- What a scan counts as it begins keeps nothing from the job. -/
theorem of_sansCounts (h : s.Starts n c j hs) (ht : t.sansCounts = s.sansCounts) : t.Starts n c j hs where
  jobs := (congrArg State.jobs ht :).trans h.jobs
  cord := h.cord
  lc := h.lc
  queued := h.queued
  net := h.net
  unchained := h.unchained
  goes := (congrArg (fun u : State => u.waits c j) ht :).trans h.goes
  cached := (congrArg (fun u : State => u.sessCache.contains j.session) ht :).trans h.cached
  picks := (congrArg (fun u : State => u.pickHearths c j) ht :).trans h.picks

theorem scanOrder (h : s.Starts n c j hs) : s.scanOrder n true = [j.sub] := by
  simp [State.scanOrder, h.jobs, h.cord, h.lc, Job.queued, h.queued, sortBy, insertBy]

theorem scanOne (h : s.Starts n c j hs) : s.scanOne c j = (s.startJob c j hs, true) := by
  have hheld : s.held c j = false := by simp [State.held, h.lc]
  have hcached : j.session ∈ s.sessCache := List.contains_iff_mem.1 h.cached
  have hunits : s.unitsBusy j.sub (s.jobUnits c j) = false := by simp [State.unitsBusy, h.jobs]
  unfold State.scanOne
  rw [h.goes, hheld, if_neg Bool.false_ne_true, if_neg Bool.false_ne_true, if_neg (by simp [h.unchained])]
  simp [h.queued, h.lc, State.wantSession, hcached, h.picks, hunits]

theorem scanQueue (h : s.Starts n c j hs) (hc : c.cord = n) : s.scanQueue c true = s.startJob c j hs := by
  have hqueued : j.queued = true := by simp [Job.queued, h.queued]
  rw [State.scanQueue, hc, h.scanOrder, List.foldl_cons, List.foldl_nil, if_pos rfl, h.job?_self]
  dsimp only
  rw [if_pos hqueued, h.scanOne]

/-- Started, it loads the weight shares of the Hearths that it has taken; everything else of Hearths and memory stays. -/
theorem startJob (h : s.Starts n c j hs) (hc : c.cord = n) (hne : hs ≠ [])
    (htag : ∀ g ∈ hs, (s.hearth g).tag ≠ some (n, s.jobModelId c j)) :
    (s.startJob c j hs).jobs = [(j.dispatched s.time s.sliceNs).loading hs] ∧
    (∀ g, (s.startJob c j hs).hearth g = if g ∈ hs then { s.hearth g with job := some j.sub } else s.hearth g) ∧
    (s.startJob c j hs).dram = s.dram := by
  obtain ⟨u, hu, hacc⟩ := State.startJob_of_net (c := c) h.job?_self h.net hs
  have hjobs : u.jobs = [j.dispatched s.time s.sliceNs] := by
    refine (congrArg State.jobs hacc).trans ?_
    change (s.jobs.map _) = _
    rw [h.jobs, List.map_cons, List.map_nil, if_pos (beq_self_eq_true _)]
  have hhearth (g : Nat) : u.hearth g = s.hearth g := (congrArg (fun t : State => t.hearth g) hacc :)
  have hdram : u.dram = s.dram := (congrArg State.dram hacc :)
  have hmodel : u.jobModelId c (j.dispatched s.time s.sliceNs) = s.jobModelId c j :=
    (congrArg (fun t : State => t.jobModelId c (j.dispatched s.time s.sliceNs)) hacc :)
  have huntagged : ∀ g ∈ hs, (u.hearth g).tag ≠ some (c.cord, u.jobModelId c (j.dispatched s.time s.sliceNs)) := by
    intro g hg
    rw [hhearth, hmodel, hc]
    exact htag g hg
  rw [hu, State.startHearths_of_untagged hne huntagged]
  refine ⟨?_, fun g => ?_, ?_⟩
  · rw [State.takeHearths_jobs, State.modJob, hjobs, List.map_cons, List.map_nil, if_pos (beq_self_eq_true _)]
    rfl
  · rw [State.takeHearths_hearth]
    exact congrArg (fun v : Hearth => if g ∈ hs then { v with job := some j.sub } else v) (hhearth g)
  · rw [State.takeHearths_dram]
    exact hdram

end State.Starts

theorem State.countHeld_sansCounts (s : State) (n : Nat) : (s.countHeld n).sansCounts = s.sansCounts := by
  unfold State.countHeld
  split
  · rw [State.bumpUnits_sansCounts, State.setCordRt_sansCounts]
  · rfl

theorem State.scanBegins_sansCounts (s : State) (n : Nat) : (s.scanBegins n).sansCounts = s.sansCounts := by
  rw [State.scanBegins, State.setCordRt_sansCounts, State.countHeld_sansCounts]

theorem jobDispatch_starts (hn : cordOk n = true) (hc : s.cordCfg n = some c) (hw : s.noStarts = false)
    (h : s.Starts n c j hs) (hne : hs ≠ []) (htag : ∀ g ∈ hs, (s.hearth g).tag ≠ some (n, s.jobModelId c j)) :
    Completes (exec (.jobDispatch n) s) fun t =>
      (∃ q, t.jobs = [q] ∧ q.sub = j.sub ∧ q.phase = 1 ∧ q.hearths = hs ∧ q.loaded = [] ∧
        q.firstStart = some s.time ∧ q.cuts = j.stretchCuts hs.length) ∧
      (∀ g ∈ hs, (t.hearth g).job = some j.sub ∧ (t.hearth g).store = (s.hearth g).store) ∧
      (∀ g, g ∉ hs → t.hearth g = s.hearth g) ∧ t.dram = s.dram := by
  have hcord := State.cord_of_cordCfg hc
  have hbegin := s.scanBegins_sansCounts n
  have hhearth (g : Nat) : (s.scanBegins n).hearth g = s.hearth g := (congrArg (fun t : State => t.hearth g) hbegin :)
  have hmodel : (s.scanBegins n).jobModelId c j = s.jobModelId c j :=
    (congrArg (fun t : State => t.jobModelId c j) hbegin :)
  have htime : (s.scanBegins n).time = s.time := (congrArg State.time hbegin :)
  have hbegun := h.of_sansCounts hbegin
  obtain ⟨hjobs, hhearths, hdram⟩ := hbegun.startJob hcord hne (by
    intro g hg
    rw [hhearth, hmodel]
    exact htag g hg)
  have hnone : ∀ q ∈ ((s.scanBegins n).startJob c j hs).jobs, q.cord = c.cord → q.queued = false := by
    rw [hjobs]
    intro q hq _
    rw [List.mem_singleton.1 hq]
    rfl
  refine ⟨(s.scanBegins n).startJob c j hs, ?_, ⟨_, hjobs, rfl, rfl, rfl, rfl, congrArg some htime, rfl⟩, fun g hg => ?_,
    fun g hg => ?_, hdram.trans (congrArg State.dram hbegin :)⟩
  · rw [exec_jobDispatch hn hc hw, State.endAllAborted_of_not_stopping, hbegun.scanQueue hcord,
      State.scanQueue_of_none_queued hnone]
    rw [h.jobs]
    intro q hq
    rw [List.mem_singleton.1 hq, h.queued]
    exact .inr (by decide)
  · rw [hhearths, if_pos hg, hhearth]
    exact ⟨rfl, rfl⟩
  · rw [hhearths, if_neg hg, hhearth]

end Sys2Proof.Machine
end

section
/-! PROOF. WEIGHT_SHARE_LOADED, by which a job that loads comes to run, and TEARDOWN_ZERO_DONE (R217, R417). -/

namespace Sys2Proof.Machine

variable {s t : State} {h sub : Nat} {j : Job} {c : CordCfg} {m : ModelCfg}

/-! ### The weight share (R217) -/

theorem State.length_residentImage (s : State) (c : CordCfg) {n : Nat} (hn : n ≤ m.need) :
    (s.residentImage c m n).length = n := by
  rw [State.residentImage, List.length_take, List.length_append, List.length_replicate]
  omega

/-- A Hearth whose weight share holds the first bytes of a model's image, and whose tag says so. -/
def Hearth.shareFilled (v : Hearth) (c : CordCfg) (m : ModelCfg) (image : List Byte) : Hearth :=
  { v.write 0 image with tag := some (c.cord, m.modelId) }

theorem State.residentImage_of_sansBanks (ht : t.sansBanks = s.sansBanks) (c : CordCfg) (m : ModelCfg) (n : Nat) :
    t.residentImage c m n = s.residentImage c m n := (congrArg (fun u : State => u.residentImage c m n) ht :)

theorem State.fillShare_hearth (s : State) (c : CordCfg) (m : ModelCfg) (h : Nat) : (s.fillShare c m h).hearth h =
    (s.hearth h).shareFilled c m (s.residentImage c m (min m.need c.weightShare)) := by
  unfold State.fillShare
  dsimp only
  rw [State.hearth_setHearth_same, State.touch_hearth, State.residentImage_of_sansBanks (s.touch_sansBanks ..),
    Hearth.shareFilled]

/-- The state when Hearth h holds its image: the reload is counted, and the job has one Hearth less to load. -/
def State.shareIn (s : State) (c : CordCfg) (m : ModelCfg) (j : Job) (h : Nat) : State :=
  ((s.fillShare c m h).bump (cordAddr j.cord 0xC018) 1).modJob j.sub fun x => { x with loaded := h :: x.loaded }

theorem State.fillShare_sansBanks (s : State) (c : CordCfg) (m : ModelCfg) (h : Nat) :
    { s.fillShare c m h with hearths := s.hearths }.sansBanks = s.sansBanks :=
  congrArg (fun t : State => { t with hearths := s.hearths }) (s.touch_sansBanks h 0 (min m.need c.weightShare))

theorem State.shareIn_hearth (s : State) (c : CordCfg) (m : ModelCfg) (j : Job) (h g : Nat) : (s.shareIn c m j h).hearth g =
    if g = h then (s.hearth h).shareFilled c m (s.residentImage c m (min m.need c.weightShare)) else s.hearth g := by
  have hkeep : (s.shareIn c m j h).hearths = (s.fillShare c m h).hearths := by
    rw [State.shareIn, State.modJob_hearths, State.bump_hearths]
  rw [State.hearth, hkeep]
  change (s.fillShare c m h).hearth g = _
  by_cases hg : g = h
  · rw [hg, if_pos rfl, State.fillShare_hearth]
  · rw [if_neg hg, (s.fillShare_frame c m h).1 g hg]

theorem State.bump_jobs (k n : Nat) : (s.bump k n).jobs = s.jobs := by rw [State.bump, State.setReg_jobs]

theorem State.shareIn_job? (hj : s.job? j.sub = some j) (c : CordCfg) (m : ModelCfg) (h : Nat) :
    (s.shareIn c m j h).job? j.sub = some { j with loaded := h :: j.loaded } := by
  have hfill : ((s.fillShare c m h).bump (cordAddr j.cord 0xC018) 1).job? j.sub = some j := by
    rw [State.job?, State.bump_jobs, (s.fillShare_frame c m h).2]
    exact hj
  rw [State.shareIn, State.job?_modJob _ _ (by exact fun _ => rfl), hfill]
  rfl

theorem State.shareIn_dram (s : State) (c : CordCfg) (m : ModelCfg) (j : Job) (h : Nat) :
    (s.shareIn c m j h).dram = s.dram ∧ (s.shareIn c m j h).dramUe = s.dramUe :=
  ⟨(congrArg State.dram (s.fillShare_sansBanks c m h) :), (congrArg State.dramUe (s.fillShare_sansBanks c m h) :)⟩

/-- The counter of reloads is not that of wakes, which the write may count too. -/
theorem cordAddr_ne_wakesKey (n : Nat) : cordAddr n 0xC018 ≠ wakesKey := by
  rw [cordAddr, wakesKey]
  omega

theorem State.reg_setHearth (h k : Nat) (v : Hearth) : (s.setHearth h v).reg k = s.reg k := rfl

theorem State.reg_fillShare (s : State) (c : CordCfg) (m : ModelCfg) (h : Nat) {k : Nat} (hk : k ≠ wakesKey) :
    (s.fillShare c m h).reg k = s.reg k := by
  rw [State.fillShare, State.reg_setHearth, State.reg_touch _ _ _ _ hk]

theorem State.modJob_reg (sub : Nat) (f : Job → Job) (k : Nat) : (s.modJob sub f).reg k = s.reg k := rfl

theorem State.shareIn_reloads (s : State) (c : CordCfg) (m : ModelCfg) (j : Job) (h : Nat) :
    (s.shareIn c m j h).reg (cordAddr j.cord 0xC018) = counted (s.reg (cordAddr j.cord 0xC018)) := by
  rw [State.shareIn, State.modJob_reg, State.reg_bump_one, State.reg_fillShare _ _ _ _ (cordAddr_ne_wakesKey j.cord)]

theorem Hearth.look_shareFilled_inside (v : Hearth) (c : CordCfg) (m : ModelCfg) {image : List Byte} {i : Nat}
    (hi : i < image.length) : (v.shareFilled c m image).store.look zeroByte i = image.getD i 0 := by
  have hlook := v.look_write_inside 0 i image hi
  rw [Nat.zero_add] at hlook
  rw [List.getD_eq_getElem _ _ hi]
  exact hlook

theorem Hearth.look_shareFilled_outside (v : Hearth) (c : CordCfg) (m : ModelCfg) {image : List Byte} {i : Nat}
    (hi : image.length ≤ i) : (v.shareFilled c m image).store.look zeroByte i = v.store.look zeroByte i :=
  v.look_write_outside 0 i image (.inr (by omega))

/-- A Hearth of a loading job that has not been loaded takes its image, if DRAM is sound; with the last one the job runs. -/
theorem State.shareLoaded_of_loading (hj : s.job? j.sub = some j) (hp : j.phase = 1) (hmem : h ∈ j.hearths)
    (hnew : h ∉ j.loaded) (hc : s.cordCfg j.cord = some c) (hm : s.jobModel c j = some m) (hue : s.dramUe = []) :
    s.shareLoaded j.sub h = if j.loaded.length + 1 = j.hearths.length then (s.shareIn c m j h).runJob c j.sub
      else s.shareIn c m j h := by
  have himage : s.imageUe c m = none :=
    List.find?_eq_none.2 fun r _ => by rw [State.cordUe_of_dramUe hue]; decide
  rw [State.shareLoaded, hj]
  dsimp only
  rw [if_neg (by simp [hp, hmem, hnew]), hc]
  dsimp only
  rw [hm]
  dsimp only
  rw [himage]
  rfl

/-! ### The job runs (R201, R217) -/

/-- The jobs, and what the weight share of Hearth h holds. -/
def State.jobsAndTag (s : State) (h : Nat) : List Job × Option (Nat × Nat) := (s.jobs, (s.hearth h).tag)

theorem State.setHearth_jobsAndTag {g : Nat} {v : Hearth} (hv : v.tag = (s.hearth g).tag) (h : Nat) :
    (s.setHearth g v).jobsAndTag h = s.jobsAndTag h := by
  rw [State.jobsAndTag, State.hearth_setHearth]
  by_cases hh : h = g
  · rw [if_pos hh, hv, hh]
    rfl
  · rw [if_neg hh]
    rfl

/-- A write of its store and a change of its history leave what the weight share of a Hearth holds. -/
theorem State.setHearth_write_jobsAndTag (g a : Nat) (bs : List Byte) (h : Nat) :
    (s.setHearth g ((s.hearth g).write a bs)).jobsAndTag h = s.jobsAndTag h :=
  State.setHearth_jobsAndTag (v := (s.hearth g).write a bs) rfl h

theorem State.setHearth_hist_jobsAndTag (g : Nat) (x : History) (h : Nat) :
    (s.setHearth g { s.hearth g with hist := x }).jobsAndTag h = s.jobsAndTag h :=
  State.setHearth_jobsAndTag (v := { s.hearth g with hist := x }) rfl h

theorem State.putSessLe_jobsAndTag (i off n x h : Nat) : (s.putSessLe c i off n x).jobsAndTag h = s.jobsAndTag h := rfl

theorem State.bumpUnits_jobsAndTag (k u n h : Nat) : (s.bumpUnits k u n).jobsAndTag h = s.jobsAndTag h := rfl

theorem State.setCore_jobsAndTag (g d : Nat) (k : Core) (h : Nat) : (s.setCore g d k).jobsAndTag h = s.jobsAndTag h :=
  State.setHearth_jobsAndTag (v := { s.hearth g with cores := (s.hearth g).cores.put (fun _ => {}) d k }) rfl h

theorem State.startCore_jobsAndTag (k d h : Nat) : (s.startCore c j k d).jobsAndTag h = s.jobsAndTag h := by
  unfold State.startCore
  exact State.setCore_jobsAndTag ..

theorem State.trackLoad_jobsAndTag (k h : Nat) : (s.trackLoad c j k).jobsAndTag h = s.jobsAndTag h := by
  unfold State.trackLoad
  exact State.setHearth_write_jobsAndTag ..

theorem State.areaLoad_jobsAndTag (k h : Nat) : (s.areaLoad c j k).jobsAndTag h = s.jobsAndTag h := by
  unfold State.areaLoad
  extract_lets g v old x s1 n bytes s2 w
  have h1 : s1.jobsAndTag h = s.jobsAndTag h := State.setHearth_hist_jobsAndTag ..
  have h2 : s2.jobsAndTag h = s1.jobsAndTag h := foldl_keeps (fun t : State => t.jobsAndTag h)
    (fun _ _ => State.setHearth_write_jobsAndTag ..) (List.range n) s1
  split
  · exact h1
  · rw [State.bumpUnits_jobsAndTag, State.setHearth_hist_jobsAndTag, h2, h1]

theorem State.clearTags_jobsAndTag (i h : Nat) : (s.clearTags i).jobsAndTag h = s.jobsAndTag h :=
  foldl_keeps (fun t : State => t.jobsAndTag h) (fun t g => by
    dsimp only
    split
    · split
      · exact State.setHearth_hist_jobsAndTag ..
      · rfl
    · rfl) (List.range 48) s

theorem State.fillFlag_jobsAndTag (i b : Nat) (v : Bool) (h : Nat) : (s.fillFlag c i b v).jobsAndTag h = s.jobsAndTag h := by
  rw [State.fillFlag, State.putSessLe_jobsAndTag]

theorem State.applyCut_jobsAndTag (h : Nat) : (s.applyCut c j).jobsAndTag h = s.jobsAndTag h := by
  unfold State.applyCut
  split
  · extract_lets i fl s1 s2 s3
    have h3 : s3.jobsAndTag h = s.jobsAndTag h := by
      simp only [s3, s2, s1, State.fillFlag_jobsAndTag, State.putSessLe_jobsAndTag]
    rw [State.clearTags_jobsAndTag]
    split
    · exact h3
    · exact (State.putSessLe_jobsAndTag ..).trans h3
  · rfl

/-- A NET job whose shares are in place runs, if DRAM is sound, and the shares stay. -/
theorem State.runJob_of_net (hj : s.job? sub = some j) (hk : j.kind = 1) (hue : s.dramUe = []) (h : Nat) :
    (s.runJob c sub).job? sub = (s.job? sub).map (fun x => { x with phase := 2 }) ∧
      ((s.runJob c sub).hearth h).tag = (s.hearth h).tag := by
  unfold State.runJob
  rw [hj]
  dsimp -zeta only
  extract_lets ks bytes base s1 s2 s3 s4
  have h1 : s1.jobsAndTag h = s.jobsAndTag h := State.applyCut_jobsAndTag h
  have h2 : s2.jobsAndTag h = s1.jobsAndTag h := foldl_keeps (fun t : State => t.jobsAndTag h)
    (fun t k => (State.trackLoad_jobsAndTag k h).trans (State.areaLoad_jobsAndTag k h)) ks s1
  have h3 : s3.jobsAndTag h = s2.jobsAndTag h := foldl_keeps (fun t : State => t.jobsAndTag h)
    (fun t k => (State.startCore_jobsAndTag k 1 h).trans (State.startCore_jobsAndTag k 0 h)) ks s2
  have hall : s3.jobsAndTag h = s.jobsAndTag h := h3.trans (h2.trans h1)
  have hjobs : s3.jobs = s.jobs := congrArg Prod.fst hall
  rw [State.cordUe_of_dramUe hue, if_neg Bool.false_ne_true, if_neg (by rw [hk]; decide)]
  refine ⟨?_, (congrArg Prod.snd hall :)⟩
  have hfound : s3.job? sub = some j := by
    rw [State.job?, hjobs]
    exact hj
  exact (State.job?_modJob s3 sub (f := fun x => { x with phase := 2 }) fun _ => rfl).trans (congrArg _ hfound)

theorem exec_weightShareLoaded (hu : hearthOk h = true) (sub : Nat) :
    exec (.weightShareLoaded sub h) s = .next (s.shareLoaded sub h) := by
  change withUnit (hearthOk h) _ = _
  rw [hu]
  rfl

/-! ### A Hearth after a teardown (R417) -/

theorem exec_teardownZeroDone (hu : hearthOk h = true) : exec (.teardownZeroDone h) s = .next (s.zeroDone h) := by
  change withUnit (hearthOk h) _ = _
  rw [hu]
  rfl

theorem State.startRecovery_sansService (s : State) (h : Nat) : (s.startRecovery h).sansService = s.sansService := by
  unfold State.startRecovery
  dsimp only
  split
  · rfl
  · split
    · rfl
    · split <;> rfl

/-- A Hearth with everything above its weight share, of `w` bytes, zeroed, and its accumulators (R417 step 4). -/
def Hearth.zeroed (v : Hearth) (w : Nat) : Hearth :=
  { v with
    store := v.store.wipe w (4194304 - w), storeUe := v.storeUe.filter fun i => decide (8 * i + 8 ≤ w)
    kilns := ([0, 1, 2, 3] : List Nat).foldl
      (fun (m : SMap Kiln) k => m.modify (fun _ => {}) k fun x => { x with acc := [] }) v.kilns
    zeroing := false }

theorem State.zeroDone_of_not_zeroing (hz : (s.hearth h).zeroing = false) : s.zeroDone h = s := by
  rw [State.zeroDone]
  exact if_pos (by rw [hz]; rfl)

/-- A Hearth that is being zeroed becomes its zeroed one, whatever tests start on its physical Hearth. -/
theorem State.zeroDone_zeroes {n : Nat} (hz : (s.hearth h).zeroing = true) (hn : s.cordOfHearth h = some n)
    (hc : s.cordCfg n = some c) :
    (∀ g, (s.zeroDone h).hearth g = if g = h then (s.hearth h).zeroed c.weightShare else s.hearth g) ∧
      (s.zeroDone h).jobs = s.jobs := by
  have hcord : (s.cordOfHearth h).bind s.cordCfg = some c := by rw [hn, Option.bind_some, hc]
  have hdone : s.zeroDone h = (s.setHearth h ((s.hearth h).zeroed c.weightShare)).startRecovery h := by
    unfold State.zeroDone
    dsimp only
    rw [hcord, hz]
    rfl
  have hkeep := (s.setHearth h ((s.hearth h).zeroed c.weightShare)).startRecovery_sansService h
  rw [hdone]
  exact ⟨fun g => (State.hearth_of_sansService hkeep g).trans (State.hearth_setHearth ..),
    (State.jobs_of_sansService hkeep).trans (State.setHearth_jobs ..)⟩

theorem Hearth.look_zeroed_below (v : Hearth) {w a : Nat} (ha : a < w) :
    (v.zeroed w).store.look zeroByte a = v.store.look zeroByte a :=
  (SMap.look_wipe ..).trans (if_neg (by omega))

theorem Hearth.look_zeroed_above (v : Hearth) {w a : Nat} (hw : w ≤ a) (ha : a < 4194304) :
    (v.zeroed w).store.look zeroByte a = 0 :=
  (SMap.look_wipe ..).trans (if_pos (by omega))

theorem Hearth.acc_zeroed (v : Hearth) (w : Nat) {k : Nat} (hk : k < 4) :
    ((v.zeroed w).kilns.look (fun _ => {}) k).acc = [] := by
  have hmem : k ∈ [0, 1, 2, 3] := by simp; omega
  have hlook := SMap.look_foldl_modify (dflt := fun _ => ({} : Kiln)) (key := id)
    (g := fun (_ : Nat) (x : Kiln) => { x with acc := [] }) [0, 1, 2, 3] v.kilns (by decide) hmem
  exact congrArg Kiln.acc hlook

/-! ### The statement -/

/-- Settles O48: the dispatch by whether it starts a job, the load by whether it is the last one, the zeroing by the Hearth
that it leaves. -/
theorem jobsStartAndLoad : Obligations.JobsStartAndLoad := by
  unfold Obligations.JobsStartAndLoad
  intro s
  refine ⟨fun n hn => ⟨fun hw => ?held, fun hq hh => ?idle, ?starts⟩, ?load, fun h hu => ⟨fun hz => ?clean, ?zero⟩⟩
  case held =>
    exact exec_jobDispatch_of_noStarts hn (by rwa [State.noStarts, Bool.or_eq_true])
  case idle =>
    exact jobDispatch_of_none_queued hn hq hh
  case starts =>
    intro c j hs hc hjobs hcord hlc hp hk hfirst hhold hlock hskips hcached hpicks hne htag
    have hw : s.noStarts = false := by rw [State.noStarts, hhold, hlock]; rfl
    have hgoes : s.waits c j = false := ((Bool.or_eq_false_iff ..).1 hskips).1
    exact jobDispatch_starts hn hc hw ⟨hjobs, hcord, hlc, hp, hk, hfirst, hgoes, hcached, hpicks⟩ hne htag
  case load =>
    intro j h c m hu hj hp hmem hnew hc hm hue
    have hload := State.shareLoaded_of_loading hj hp hmem hnew hc hm hue
    have hjob := State.shareIn_job? hj c m h
    have hhearth := s.shareIn_hearth c m j h
    have himage := s.length_residentImage c (m := m) (Nat.min_le_left m.need c.weightShare)
    obtain ⟨hdram, hdramUe⟩ := s.shareIn_dram c m j h
    refine ⟨fun hmore => ⟨s.shareIn c m j h, ?_, ?_⟩, fun hlast hk => ⟨(s.shareIn c m j h).runJob c j.sub, ?_, ?_⟩⟩
    · rw [exec_weightShareLoaded hu, hload, if_neg hmore]
    · dsimp only
      rw [hjob, hhearth h, if_pos rfl]
      exact ⟨rfl, rfl, fun i hi => Hearth.look_shareFilled_inside _ _ _ (himage.symm ▸ hi),
        fun i hi => Hearth.look_shareFilled_outside _ _ _ (himage.symm ▸ hi), s.shareIn_reloads c m j h, rfl,
        congrArg some hp, fun g hg => (hhearth g).trans (if_neg hg), hdram⟩
    · rw [exec_weightShareLoaded hu, hload, if_pos hlast]
    · obtain ⟨hrun, htag⟩ := State.runJob_of_net (c := c) hjob hk (hdramUe.trans hue) h
      rw [hrun, hjob, htag, hhearth, if_pos rfl]
      exact ⟨rfl, rfl⟩
  case clean =>
    rw [exec_teardownZeroDone hu, State.zeroDone_of_not_zeroing hz]
  case zero =>
    intro n c hz hn hc
    obtain ⟨hhearth, hjobs⟩ := State.zeroDone_zeroes hz hn hc
    have hsame := (hhearth h).trans (if_pos rfl)
    refine ⟨s.zeroDone h, exec_teardownZeroDone hu, congrArg Hearth.zeroing hsame, fun a ha => ?_, fun a hw ha => ?_,
      fun k hk => ?_, fun g hg => (hhearth g).trans (if_neg hg), hjobs⟩
    · rw [hsame, Hearth.look_zeroed_below _ ha]
    · rw [hsame, Hearth.look_zeroed_above _ hw ha]
    · rw [State.kiln, hsame, Hearth.acc_zeroed _ _ hk]

end Sys2Proof.Machine
end

section
/-! PROOF. The writes that reach the fill governor and the end of its window (R263, R272, R275). -/

namespace Sys2Proof.Machine

variable {s : State} {d n : Nat} {w : Word} {c : CordCfg}

/-! ### The governor's state of a Cord -/

theorem State.fillRt_setFillRt (s : State) (n m : Nat) (v : FillRt) :
    (s.setFillRt n v).fillRt m = if m = n then v else s.fillRt m := SMap.look_put ..

@[simp] theorem State.fillRt_setFillRt_same (s : State) (n : Nat) (v : FillRt) : (s.setFillRt n v).fillRt n = v := by
  rw [State.fillRt_setFillRt, if_pos rfl]

/-- An event leaves the governor's states alone. -/
theorem State.eventCordBlock_fillRt (s : State) (n code arg m : Nat) :
    (s.eventCordBlock n code arg).fillRt m = s.fillRt m :=
  (congrArg (State.fillRt · m) (State.eventCordBlock_rest n code arg) :)

/-- An event of a Cord is queued for the Cord's owner (R248). -/
theorem State.queued_eventCordBlock (hc : s.cordCfg n = some c) (code arg : Nat) :
    Queued s (s.eventCordBlock n code arg) c.ownerHost code (0x10 + n) arg := fun hroom => by
  rw [State.eventCordBlock, State.eventCord, hc]
  exact State.event_room s c.ownerHost code (0x10 + n) arg hroom

/-! ### FILL_FORCE (R263) -/

theorem exec_fillForce (hn : cordOk n = true) (hc : s.cordCfg n = some c) (h : s.mayWrite d (cordAddr n 0xD004)) :
    ∃ l, exec (.fillForce d n w) s = .next ((s.withChg l).fillForce c w.toNat) := by
  obtain ⟨l, hl⟩ := State.exists_cordWrite h hc w fun s c => s.fillForce c w.toNat
  refine ⟨l, ?_⟩
  change execFillForce d n w s = _
  rw [execFillForce, h.1, hn, hl]
  rfl

/-- From s to t the forces of Cord n become `l`, and nothing else changes but the change log. -/
def State.ForcesTo (s t : State) (n : Nat) (l : List Force) : Prop :=
  t.fillRt n = { s.fillRt n with forces := l } ∧ (∀ m, m ≠ n → t.fillRt m = s.fillRt m) ∧
    { t with fills := s.fills, trust := s.trust } = s

theorem State.forcesTo_same (s : State) (l : Log) (n : Nat) : s.ForcesTo (s.withChg l) n (s.fillRt n).forces :=
  ⟨rfl, fun _ _ => rfl, rfl⟩

theorem State.forcesTo_setFillRt (s : State) (l : Log) (n : Nat) (fs : List Force) :
    s.ForcesTo ((s.withChg l).setFillRt n { (s.withChg l).fillRt n with forces := fs }) n fs :=
  ⟨State.fillRt_setFillRt_same .., fun m hm => (State.fillRt_setFillRt _ n m _).trans (if_neg hm), rfl⟩

/-- The forces of a Cord after FILL_FORCE of a session in range: 0 ends the session's force, a valid one replaces it,
and an invalid one is ignored. -/
def forcesAfter (fs : List Force) (i mode scale count : Nat) : List Force :=
  if mode = 0 then fs.filter fun x => x.session != i
  else if 4 < mode ∨ count = 0 ∨ (scale = 0 ∧ mode = 2) ∨ (scale ≠ 0 ∧ mode ≠ 2) then fs
  else (fs.filter fun x => x.session != i) ++ [⟨i, mode, scale, count⟩]

theorem State.fillForce_of_ignored {w : Nat} (h : w.testBit 23 = true ∨ c.hasSession (w % 2 ^ 20) = false) :
    s.fillForce c w = s :=
  if_pos (Bool.or_eq_true_iff.2 (h.imp_right fun hi => by rw [hi, Bool.not_false]))

theorem State.fillForce_forces {w : Nat} (hbit : w.testBit 23 = false) (hi : c.hasSession (w % 2 ^ 20) = true) (s : State)
    (l : Log) : s.ForcesTo ((s.withChg l).fillForce c w) c.cord
      (forcesAfter (s.fillRt c.cord).forces (w % 2 ^ 20) (w / 2 ^ 20 % 8) (w / 2 ^ 24 % 8) (w / 2 ^ 27)) := by
  rw [State.fillForce, if_neg (by rw [hbit, hi]; decide), forcesAfter]
  split
  · exact State.forcesTo_setFillRt ..
  · split
    · exact State.forcesTo_same ..
    · exact State.forcesTo_setFillRt ..

theorem fillForce_ignored (hn : cordOk n = true) (hc : s.cordCfg n = some c) (h : s.mayWrite d (cordAddr n 0xD004))
    (hw : w.getLsbD 23 = true ∨ c.hasSession (w.toNat % 2 ^ 20) = false) :
    Completes (exec (.fillForce d n w) s) fun t => s.ForcesTo t n (s.fillRt n).forces := by
  obtain ⟨l, hl⟩ := exec_fillForce (w := w) hn hc h
  rw [State.fillForce_of_ignored hw] at hl
  exact ⟨_, hl, s.forcesTo_same l n⟩

theorem fillForce_forces (hn : cordOk n = true) (hc : s.cordCfg n = some c) (h : s.mayWrite d (cordAddr n 0xD004))
    (hbit : w.getLsbD 23 = false) (hi : c.hasSession (w.toNat % 2 ^ 20) = true) :
    Completes (exec (.fillForce d n w) s) fun t => s.ForcesTo t n (forcesAfter (s.fillRt n).forces (w.toNat % 2 ^ 20)
      (w.toNat / 2 ^ 20 % 8) (w.toNat / 2 ^ 24 % 8) (w.toNat / 2 ^ 27)) := by
  obtain ⟨l, hl⟩ := exec_fillForce (w := w) hn hc h
  obtain rfl := State.cord_of_cordCfg hc
  exact ⟨_, hl, State.fillForce_forces hbit hi s l⟩

/-! ### FILL_REC_SIZE (R272) -/

theorem exec_fillRecSize (hn : cordOk n = true) (hc : s.cordCfg n = some c) (h : s.mayWrite d (cordAddr n 0xD00C)) :
    ∃ l, exec (.fillRecSize d n w) s = .next ((s.withChg l).recSize n w) := by
  obtain ⟨l, hl⟩ := State.exists_cordWrite h hc w fun s _ => s.recSize n w
  refine ⟨l, ?_⟩
  change execFillRecSize d n w s = _
  rw [execFillRecSize, h.1, hn, hl]
  rfl

theorem ringSize_of_power {k : Nat} (hlo : 6 ≤ k) (hhi : k ≤ 19) (hw : w.toNat % 2 ^ 20 = 2 ^ k) :
    ringSize w = 2 ^ k := by
  rw [ringSize, if_pos (powerIn_iff.2 ⟨k, hlo, hhi, hw⟩), hw]

theorem ringSize_of_no_power (hw : ∀ k, 6 ≤ k → k ≤ 19 → w.toNat % 2 ^ 20 ≠ 2 ^ k) : ringSize w = 0 :=
  if_neg fun hp => (powerIn_iff.1 hp).elim fun k hk => hw k hk.1 hk.2.1 hk.2.2

theorem State.fillRt_setReg (s : State) (k m : Nat) (v : Word) : (s.setReg k v).fillRt m = s.fillRt m := rfl
theorem State.reg_setFillRt (s : State) (m k : Nat) (v : FillRt) : (s.setFillRt m v).reg k = s.reg k := rfl
theorem State.jobs_setFillRt (s : State) (m : Nat) (v : FillRt) : (s.setFillRt m v).jobs = s.jobs := rfl

/-- The state whose slots of Cord n name no record any more. -/
def State.dropRecords (s : State) (n : Nat) : State :=
  { s with slots := s.slots.map fun sl => if sl.cord == n then { sl with record := none } else sl }

theorem State.dropRecords_frame (s : State) (n : Nat) : (s.dropRecords n).fillRt n = s.fillRt n ∧
    (∀ k, (s.dropRecords n).reg k = s.reg k) ∧ (s.dropRecords n).jobs = s.jobs := ⟨rfl, fun _ => rfl, rfl⟩

theorem State.record_dropRecords (s : State) (n : Nat) {x : SlotRt} (hx : x ∈ (s.dropRecords n).slots)
    (hcord : x.cord = n) : x.record = none := by
  obtain ⟨sl, -, rfl⟩ := List.mem_map.1 hx
  by_cases hsl : sl.cord = n
  · rw [if_pos (beq_iff_eq.2 hsl)]
  · rw [if_neg (by simpa using hsl)] at hcord
    exact absurd hcord hsl

theorem State.recSize_eq (s : State) (n : Nat) (w : Word) : s.recSize n w =
    ((s.setReg (cordAddr n 0xD014) 0).setFillRt n
      { (s.setReg (cordAddr n 0xD014) 0).fillRt n with wr := 0, size := ringSize w }).dropRecords n := by
  rw [State.recSize, ringSize, State.dropRecords]

theorem fillRecSize_restarts (hn : cordOk n = true) (hc : s.cordCfg n = some c) (h : s.mayWrite d (cordAddr n 0xD00C)) :
    Completes (exec (.fillRecSize d n w) s) fun t =>
      t.fillRt n = { s.fillRt n with wr := 0, size := ringSize w } ∧ t.reg (cordAddr n 0xD014) = 0 ∧ t.jobs = s.jobs ∧
      ∀ x ∈ t.slots, x.cord = n → x.record = none := by
  obtain ⟨l, hl⟩ := exec_fillRecSize (w := w) hn hc h
  rw [State.recSize_eq] at hl
  refine ⟨_, hl, ?_, ?_, ?_, fun x => State.record_dropRecords _ n⟩
  · rw [(State.dropRecords_frame ..).1, State.fillRt_setFillRt_same, State.fillRt_setReg]
    rfl
  · rw [(State.dropRecords_frame ..).2.1, State.reg_setFillRt, State.reg_setReg_same]
  · rw [(State.dropRecords_frame ..).2.2, State.jobs_setFillRt, State.setReg_jobs]
    rfl

/-! ### The end of a window (R275) -/

theorem exec_fillWindowEnd (hn : cordOk n = true) :
    exec (.fillWindowEnd n) s = .next (s.each (0x310000 + n) 100000000 fun t => t.fillWindow n) := by
  change execFillWindowEnd n s = _
  rw [execFillWindowEnd, hn, withUnit_true]

/-- Whether the fallbacks of a window reach the threshold of the Cord, which 0 turns off. -/
def State.fillHit (s : State) (n : Nat) : Bool :=
  decide ((s.reg (cordAddr n 0xD01C)).toNat % 65536 ≠ 0 ∧
    (s.reg (cordAddr n 0xD01C)).toNat % 65536 ≤ (s.fillRt n).fallbacks)

theorem State.fillWindow_eq (s : State) (n : Nat) : s.fillWindow n =
    (let u := s.setFillRt n { s.fillRt n with saturated := s.fillHit n, fallbacks := 0 }
     if s.fillHit n then u.eventCordBlock n 0x0901 (s.fillRt n).fallbacks else u) := by
  have hhit (th k : Nat) : (th != 0 && decide (th ≤ k)) = decide (th ≠ 0 ∧ th ≤ k) := by
    rw [Bool.decide_and, bne, beq_eq_decide, decide_not]
  rw [State.fillWindow, hhit]
  rfl

theorem State.fillRt_fillWindow (s : State) (n : Nat) :
    (s.fillWindow n).fillRt n = { s.fillRt n with saturated := s.fillHit n, fallbacks := 0 } := by
  rw [State.fillWindow_eq]
  dsimp only
  split
  · rw [State.eventCordBlock_fillRt, State.fillRt_setFillRt_same]
  · rw [State.fillRt_setFillRt_same]

theorem State.fillWindow_frame (s : State) (n : Nat) :
    (s.fillWindow n).jobs = s.jobs ∧ (s.fillWindow n).hearths = s.hearths := by
  rw [State.fillWindow_eq]
  dsimp only
  split
  · exact ⟨State.eventCordBlock_jobs .., State.eventCordBlock_hearths ..⟩
  · exact ⟨rfl, rfl⟩

theorem State.queued_fillWindow (hc : s.cordCfg n = some c) (hhit : s.fillHit n = true) :
    Queued s (s.fillWindow n) c.ownerHost 0x0901 (0x10 + n) (s.fillRt n).fallbacks := by
  rw [State.fillWindow_eq, hhit]
  have hcu : (s.setFillRt n { s.fillRt n with saturated := true, fallbacks := 0 }).cordCfg n = some c := hc
  exact State.queued_eventCordBlock hcu 0x0901 (s.fillRt n).fallbacks

end Sys2Proof.Machine
end

section
/-! PROOF. A number that is written into a session's descriptor reads back (R42, R394). -/

namespace Sys2Proof

/-- What a fold of writes at distinct addresses has written at one of them reads back. -/
theorem SMap.look_foldl_put {β : Type} [DecidableEq β] {dflt : Nat → β} (addr : Nat → Nat) (v : Nat → β)
    {l : List Nat} {k : Nat} (hk : k ∈ l) (hne : ∀ i ∈ l, i ≠ k → addr i ≠ addr k) (m : SMap β) :
    (l.foldl (fun m i => m.put dflt (addr i) (v i)) m).look dflt (addr k) = v k := by
  induction l using List.reverseRecOn with
  | nil => exact absurd hk List.not_mem_nil
  | append_singleton l i ih =>
    rw [List.foldl_append, List.foldl_cons, List.foldl_nil]
    by_cases hi : i = k
    · rw [hi, SMap.look_put_same]
    · rw [SMap.look_put_of_ne _ _ (hne i (by simp) hi).symm]
      exact ih ((List.mem_append.1 hk).resolve_right fun h => hi (List.mem_singleton.1 h).symm)
        fun x hx => hne x (List.mem_append_left _ hx)

end Sys2Proof

namespace Sys2Proof.Machine

/-- Addresses of one 4 KiB block differ in DRAM too (R42). -/
theorem CordCfg.dramAddr_ne (c : CordCfg) {a b : Nat} (hblock : a / 4096 = b / 4096) (hne : a ≠ b) :
    c.dramAddr a ≠ c.dramAddr b := by
  simp only [CordCfg.dramAddr, hblock]
  omega

theorem State.cordByte_putCordBytes (s : State) (c : CordCfg) {a k : Nat} {bs : List Byte}
    (hblock : a % 4096 + bs.length ≤ 4096) (hk : k < bs.length) :
    (s.putCordBytes c a bs).cordByte c (a + k) = bs[k] := by
  have hlook := SMap.look_foldl_put (dflt := zeroByte) (fun i => c.dramAddr (a + i)) (fun i => bs.getD i 0)
    (List.mem_range.2 hk) (fun i hi hik => c.dramAddr_ne (by have := List.mem_range.1 hi; omega) (by omega)) s.dram
  rw [List.getD_eq_getElem _ _ hk] at hlook
  exact hlook

theorem State.cordBytes_putCordBytes (s : State) (c : CordCfg) {a : Nat} {bs : List Byte}
    (hblock : a % 4096 + bs.length ≤ 4096) : (s.putCordBytes c a bs).cordBytes c a bs.length = bs :=
  List.ext_getElem (by simp [State.cordBytes]) fun k _ hk => by
    simp only [State.cordBytes, List.getElem_map, List.getElem_range, State.cordByte_putCordBytes s c hblock hk]

theorem State.cordLe_putCordLe (s : State) (c : CordCfg) {a n : Nat} (hblock : a % 4096 + n ≤ 4096) (x : Nat) :
    (s.putCordLe c a n x).cordLe c a n = x % 2 ^ (8 * n) := by
  have hbytes := s.cordBytes_putCordBytes c (a := a) (bs := natLe x n) (by rwa [length_natLe])
  rw [length_natLe] at hbytes
  rw [State.cordLe, State.putCordLe, hbytes, leNat_natLe]

/-- A descriptor lies in one 4 KiB block. -/
theorem State.sessLe_putSessLe (s : State) (c : CordCfg) (i : Nat) {off n : Nat} (h : off + n ≤ 256) (x : Nat) :
    (s.putSessLe c i off n x).sessLe c i off n = x % 2 ^ (8 * n) := by
  refine s.cordLe_putCordLe c ?_ x
  simp only [CordCfg.sessAddr, CordCfg.regionBase]
  omega

end Sys2Proof.Machine
end

section
/-! PROOF. What the fill governor's evaluation of a list chooses (R258, R261, R262). -/

namespace Sys2Proof.Machine

variable {s : State} {c : CordCfg} {x : FillCtx} {e : FillEval}

/-- The chosen mode is not one of N, U and G, or its predicted time meets the deadline, or the session is forced. -/
def FillEval.Fits (e : FillEval) (x : FillCtx) : Prop :=
  e.mode = 1 ∨ e.mode = 2 ∨ e.mode = 3 → e.pred ≤ x.due ∨ x.forced = true

/-- P needs no prediction. -/
theorem FillEval.Fits.of_mode_four (h : e.mode = 4) : e.Fits x := fun hm => by omega

theorem FillEval.takeP_fits (e : FillEval) (c : CordCfg) (x : FillCtx) : (e.takeP c x).Fits x := by
  apply FillEval.Fits.of_mode_four
  unfold FillEval.takeP
  dsimp only
  split
  · rfl
  · split <;> rfl

/-- An entry that passes the checks has figures, and meets the deadline by them unless the session is forced. -/
theorem State.preCheck_passes {m : Nat × Nat} (h : s.preCheck c x m = 0) :
    x.pred ((s.fillFigures c x m).getD (0, 0)).1 ≤ x.due ∨ x.forced = true := by
  unfold State.preCheck at h
  split at h
  · omega
  split at h
  · omega
  split at h
  · omega
  split at h
  · omega
  next f hf =>
    rw [hf, Option.getD_some]
    by_cases hlate : x.due < x.pred f.1
    · by_cases hforced : x.forced = true
      · exact .inr hforced
      · rw [if_pos ⟨hlate, by simpa using hforced⟩] at h
        omega
    · exact .inl (Nat.not_lt.1 hlate)

theorem FillEval.Fits.check (h : e.Fits x) (c : CordCfg) (k : Nat) (m : Nat × Nat) : (e.check c x k m).Fits x := by
  unfold FillEval.check
  dsimp only
  split
  · exact h
  split
  · split
    · exact FillEval.takeP_fits _ _ _
    · exact h
  split
  · exact h
  next hpass =>
    split
    · exact h
    split
    · exact fun _ => State.preCheck_passes (not_not.1 hpass)
    · exact h

theorem State.evalList_fits (s : State) (c : CordCfg) (x : FillCtx) : (s.evalList c x).Fits x := by
  unfold State.evalList
  dsimp only
  have hfold : ((List.range x.list.length).foldl (fun (e : FillEval) k => e.check c x k (x.list.getD k (0, 0)))
      { st := s }).Fits x :=
    List.foldlRecOn (motive := fun e : FillEval => e.Fits x) _ _ (fun h => by simp at h)
      fun e he k _ => he.check c k (x.list.getD k (0, 0))
  split
  · exact hfold
  split
  · exact FillEval.takeP_fits _ _ _
  · exact hfold

/-- P without a frame to present is rejected for want of its input, whose code is 4. -/
theorem FillEval.check_p_missing {m : Nat × Nat} (he : e.chosen = false) (hm : m.1 = 4) (hp : x.pIn = false) (c : CordCfg)
    (k : Nat) : e.check c x k m = { e with rejects := e.rejects + 4 * 16 ^ k } := by
  unfold FillEval.check
  dsimp only
  rw [he, if_neg Bool.false_ne_true, if_pos hm, hp, if_neg Bool.false_ne_true]

/-- A list of P alone without a frame to present chooses nothing. -/
theorem State.evalList_of_p_alone (hlist : x.list = [(4, 0)]) (hp : x.pIn = false) (s : State) (c : CordCfg) :
    s.evalList c x = { st := s, rejects := 4 } := by
  have hcheck : FillEval.check { st := s } c x 0 ([(4, 0)].getD 0 (0, 0)) = { st := s, rejects := 4 } :=
    FillEval.check_p_missing rfl rfl hp c 0
  unfold State.evalList
  rw [hlist]
  dsimp only [List.length_singleton, List.range_one, List.foldl_cons, List.foldl_nil]
  rw [hcheck, hp, if_neg Bool.false_ne_true, if_neg Bool.false_ne_true]

end Sys2Proof.Machine
end

section
/-! PROOF. SLOT_DECISION: what the record of a decision changes, a decision whose chain is submitted, and one that skips its
slot; with the writes and the window, all that the fill governor does (R251, R261, R264, R265, R270, R273, R275). -/

namespace Sys2Proof.Machine

variable {s t r : State} {n i : Nat} {c : CordCfg} {x : FillCtx} {e : FillEval}

/-! ### What a decision leaves alone -/

/-- The state without what the record of a decision touches: ports, DRAM, sessions, registers and the governor's state. -/
def State.sansDecision (s : State) : State := { s.sansSessions with fills := [] }

theorem State.frame_of_sansDecision (h : t.sansDecision = s.sansDecision) :
    t.jobs = s.jobs ∧ t.hearths = s.hearths ∧ t.hitches = s.hitches ∧ t.slots = s.slots :=
  ⟨(congrArg State.jobs h :), (congrArg State.hearths h :), (congrArg State.hitches h :), (congrArg State.slots h :)⟩

section
variable (s : State)

theorem State.setFillRt_sansDecision (n : Nat) (v : FillRt) : (s.setFillRt n v).sansDecision = s.sansDecision := rfl
theorem State.bump_sansDecision (k m : Nat) : (s.bump k m).sansDecision = s.sansDecision := rfl
theorem State.setSess_sansDecision (i : Nat) (v : SessRt) : (s.setSess i v).sansDecision = s.sansDecision := rfl
theorem State.putCordBytes_sansDecision (c : CordCfg) (a : Nat) (bs : List Byte) :
    (s.putCordBytes c a bs).sansDecision = s.sansDecision := rfl
theorem State.putSessLe_sansDecision (c : CordCfg) (i off k v : Nat) :
    (s.putSessLe c i off k v).sansDecision = s.sansDecision := rfl
theorem State.putFillLe_sansDecision (c : CordCfg) (i off k v : Nat) :
    (s.putFillLe c i off k v).sansDecision = s.sansDecision := s.putSessLe_sansDecision c i (0x80 + off) k v
theorem State.fillFlag_sansDecision (c : CordCfg) (i b : Nat) (v : Bool) :
    (s.fillFlag c i b v).sansDecision = s.sansDecision := by
  rw [State.fillFlag, State.putSessLe_sansDecision]
theorem State.useForce_sansDecision (n i : Nat) : (s.useForce n i).sansDecision = s.sansDecision := rfl
theorem State.eventCordBlock_sansDecision (n code arg : Nat) :
    (s.eventCordBlock n code arg).sansDecision = s.sansDecision :=
  (congrArg State.sansDecision (State.eventCordBlock_rest n code arg) :)

theorem State.ite_sansDecision {p : Prop} [Decidable p] {a b z : State} (ha : a.sansDecision = z.sansDecision)
    (hb : b.sansDecision = z.sansDecision) : (if p then a else b).sansDecision = z.sansDecision := by
  split
  · exact ha
  · exact hb

theorem State.writeSlotRecord_sansDecision (c : CordCfg) (bs : List Byte) :
    (s.writeSlotRecord c bs).1.sansDecision = s.sansDecision := by
  unfold State.writeSlotRecord
  extract_lets n f full t s1 a s2
  have hroom : s1.sansDecision = s.sansDecision :=
    State.ite_sansDecision ((t.eventCordBlock_sansDecision ..).trans (s.bump_sansDecision ..)) rfl
  have hput : s2.sansDecision = s1.sansDecision := State.ite_sansDecision (s1.putCordBytes_sansDecision ..) rfl
  split
  · rfl
  · exact (s2.setFillRt_sansDecision ..).trans (hput.trans hroom)

theorem State.countSlot_sansDecision (n mode reason : Nat) :
    (s.countSlot n mode reason).sansDecision = s.sansDecision := by
  unfold State.countSlot
  extract_lets key s1 s2
  have hmode : s1.sansDecision = s.sansDecision := s.bump_sansDecision ..
  have hreason : s2.sansDecision = s1.sansDecision :=
    State.ite_sansDecision (s1.bump_sansDecision ..) (State.ite_sansDecision (s1.bump_sansDecision ..) rfl)
  split
  · exact hreason.trans hmode
  · exact (s2.setFillRt_sansDecision ..).trans (hreason.trans hmode)

theorem State.afterDecision_sansDecision (c : CordCfg) (x : FillCtx) (e : FillEval) :
    (s.afterDecision c x e).sansDecision = s.sansDecision := by
  simp only [State.afterDecision, apply_ite State.sansDecision, State.setSess_sansDecision, State.fillFlag_sansDecision,
    State.putFillLe_sansDecision, ite_self]

end

/-! ### A decision whose chain is submitted (R264, R265) -/

/-- The slot of a decision in its books: its Cord, session and number, and the deadline, mode and jobs of its chain. -/
def SlotRt.Keeps (sl : SlotRt) (n : Nat) (x : FillCtx) (e : FillEval) : Prop :=
  sl.cord = n ∧ sl.session = x.i ∧ sl.k = x.k ∧ sl.deadline = x.due ∧ sl.mode = e.mode ∧ sl.subs = e.subs

theorem State.recordSlot_of_chain (hmode : e.mode = 1 ∨ e.mode = 2 ∨ e.mode = 3) (hsubs : e.subs ≠ []) (s : State)
    (c : CordCfg) (reason : Nat) (early anchor composed : Bool) (busy : Nat) :
    ∃ (u : State) (sl : SlotRt),
      s.recordSlot c x e reason early anchor composed busy = { u with slots := u.slots ++ [sl] } ∧
      u.sansDecision = s.sansDecision ∧ sl.Keeps c.cord x e := by
  have hzero : e.mode ≠ 0 := by omega
  have hfour : e.mode ≠ 4 := by omega
  unfold State.recordSlot
  dsimp only
  rw [if_neg hzero, if_neg fun h => hfour h.2, if_pos hsubs]
  exact ⟨_, _, rfl, by simp only [State.afterDecision_sansDecision, State.countSlot_sansDecision,
    State.writeSlotRecord_sansDecision], rfl, rfl, rfl, rfl, rfl, rfl⟩

/-! ### A decision that skips its slot (R270, R273, R275) -/

theorem State.writeSlotRecord_of_no_ring (h : (s.fillRt c.cord).size = 0) (bs : List Byte) :
    s.writeSlotRecord c bs = (s, none) := if_pos h

theorem State.fillRt_bump (s : State) (k m n : Nat) : (s.bump k m).fillRt n = s.fillRt n := rfl

theorem State.countSlot_skipped (s : State) (n : Nat) : s.countSlot n 0 4 =
    (s.bump (cordAddr n 0xD030) 1).setFillRt n { s.fillRt n with fallbacks := (s.fillRt n).fallbacks + 1 } := by
  unfold State.countSlot
  dsimp only
  rw [if_pos rfl, if_neg (by decide), if_neg (by decide), if_neg (by decide), State.fillRt_bump]

/-- The state with other sessions. -/
def State.withSessions (s : State) (l : SMap SessRt) : State := { s with sessions := l }

theorem State.fillLe_withSessions (s : State) (l : SMap SessRt) (c : CordCfg) (i off k : Nat) :
    (s.withSessions l).fillLe c i off k = s.fillLe c i off k := rfl
theorem State.reg_withSessions (s : State) (l : SMap SessRt) (k : Nat) : (s.withSessions l).reg k = s.reg k := rfl
theorem State.fillRt_withSessions (s : State) (l : SMap SessRt) (n : Nat) : (s.withSessions l).fillRt n = s.fillRt n := rfl
theorem State.withSessions_sansDecision (s : State) (l : SMap SessRt) :
    (s.withSessions l).sansDecision = s.sansDecision := rfl

theorem State.fillLe_putFillLe (s : State) (c : CordCfg) (i : Nat) {off k : Nat} (h : 0x80 + off + k ≤ 256) (v : Nat) :
    (s.putFillLe c i off k v).fillLe c i off k = v % 2 ^ (8 * k) := s.sessLe_putSessLe c i h v
theorem State.reg_putFillLe (s : State) (c : CordCfg) (i off k v j : Nat) : (s.putFillLe c i off k v).reg j = s.reg j := rfl
theorem State.fillRt_putFillLe (s : State) (c : CordCfg) (i off k v n : Nat) :
    (s.putFillLe c i off k v).fillRt n = s.fillRt n := rfl

/-- The state after a decision without a chain, without a record and with the reason of a missing input: the slot number
has moved on, and the skip and the fallback are counted; `l` are the sessions, whose target frames may move. -/
def State.slotSkipped (s : State) (c : CordCfg) (x : FillCtx) (l : SMap SessRt) : State :=
  ((s.countSlot c.cord 0 4).putFillLe c x.i 48 4 (x.k + 1)).withSessions l

theorem State.afterDecision_skipped (hmode : e.mode = 0) (hsubs : e.subs = []) (s : State) (c : CordCfg) (x : FillCtx) :
    ∃ l, s.afterDecision c x e = (s.putFillLe c x.i 48 4 (x.k + 1)).withSessions l := by
  have hfull : ¬(e.mode = 1 ∨ e.mode = 2) := by omega
  have hgen : ¬e.mode = 3 := by omega
  unfold State.afterDecision
  dsimp only
  rw [if_neg hfull, if_neg hgen, if_pos hsubs]
  split
  · exact ⟨_, rfl⟩
  · exact ⟨_, rfl⟩

theorem State.recordSlot_skipped (hmode : e.mode = 0) (hsubs : e.subs = []) (hring : (s.fillRt c.cord).size = 0)
    (early anchor composed : Bool) (busy : Nat) :
    ∃ l, s.recordSlot c x e 4 early anchor composed busy = s.slotSkipped c x l := by
  unfold State.recordSlot
  rw [State.writeSlotRecord_of_no_ring hring]
  dsimp only
  rw [if_pos hmode, hmode]
  exact State.afterDecision_skipped hmode hsubs ..

section
variable (s : State) (c : CordCfg) (x : FillCtx) (l : SMap SessRt)

theorem State.fillLe_slotSkipped : (s.slotSkipped c x l).fillLe c x.i 48 4 = (x.k + 1) % 2 ^ 32 := by
  rw [State.slotSkipped, State.fillLe_withSessions, State.fillLe_putFillLe _ _ _ (by decide)]

theorem State.slotSkipped_sansDecision : (s.slotSkipped c x l).sansDecision = s.sansDecision := by
  rw [State.slotSkipped, State.withSessions_sansDecision, State.putFillLe_sansDecision, State.countSlot_sansDecision]

theorem State.reg_slotSkipped (k : Nat) : (s.slotSkipped c x l).reg k = (s.bump (cordAddr c.cord 0xD030) 1).reg k := by
  rw [State.slotSkipped, State.reg_withSessions, State.reg_putFillLe, State.countSlot_skipped, State.reg_setFillRt]

theorem State.fillRt_slotSkipped : (s.slotSkipped c x l).fillRt c.cord =
    { s.fillRt c.cord with fallbacks := (s.fillRt c.cord).fallbacks + 1 } := by
  rw [State.slotSkipped, State.fillRt_withSessions, State.fillRt_putFillLe, State.countSlot_skipped,
    State.fillRt_setFillRt_same]

end

/-! ### The delay of a decision (R252) -/

/-- What every write of a register keeps, the count of the delay keeps. -/
theorem State.countDelay_keeps {β : Type} (g : State → β)
    (hg : ∀ (u : State) (k : Nat) (w : Word), g (u.setReg k w) = g u) (s : State) (delay : Nat) :
    g (s.countDelay delay) = g s := by
  unfold State.countDelay
  dsimp only
  split
  · rw [State.bump, hg, hg, State.bump, hg]
  · rw [hg, State.bump, hg]

theorem State.reg_countDelay (s : State) (delay : Nat) {k : Nat} (h4 : k ≠ 0x220004) (h8 : k ≠ 0x220008) :
    (s.countDelay delay).reg k = (s.bump 0x220000 1).reg k := by
  unfold State.countDelay
  dsimp only
  split
  · rw [State.reg_bump, if_neg h8, State.reg_setReg, if_neg h4]
  · rw [State.reg_setReg, if_neg h4]

/-! ### SLOT_DECISION (R251, R261) -/

/-- The evaluation that decides the next slot of a session, in the state that its retired jobs have left. -/
def State.decision (s : State) (c : CordCfg) (i : Nat) : FillEval :=
  (s.countDelay ((s.fillCtx c i).now - s.decisionPoint c i)).evalList c (s.fillCtx c i)

/-- The reason of a decision: forced, or why the first entry of the list was rejected, if it was. -/
def FillEval.reason (e : FillEval) (x : FillCtx) : Nat :=
  if x.forced then 5 else if e.rejects % 16 = 8 then 0 else e.rejects % 16

/-- What stands between the evaluation and the record of a decision: one force is used up, and the mode of an anchor that
the chain renders early is kept. -/
def State.noteChoice (s : State) (c : CordCfg) (i : Nat) (forced anchor : Bool) : State :=
  let s1 := if forced then s.useForce c.cord i else s
  if anchor then
    (let f := s1.fillRt c.cord
     let m := (s1.anchorMode c i).getD (1, 0)
     s1.setFillRt c.cord { f with early := (i, m) :: f.early.filter fun y => y.1 != i })
  else s1

theorem State.noteChoice_sansDecision (s : State) (c : CordCfg) (i : Nat) (forced anchor : Bool) :
    (s.noteChoice c i forced anchor).sansDecision = s.sansDecision := by
  simp only [State.noteChoice, apply_ite State.sansDecision, State.setFillRt_sansDecision,
    State.useForce_sansDecision, ite_self]

theorem State.decideSlot_of_no_early (hr : s.retireReady c i = r) (h : (r.fillLe c i 54 1).testBit 2 = false) :
    ∃ composed busy,
      (let x := r.fillCtx c i
       let e := r.decision c i
       let anchor := e.mode == 3 && x.interp
       s.decideSlot c i =
         (e.st.noteChoice c i x.forced anchor).recordSlot c x e (e.reason x) false anchor composed busy) := by
  subst hr
  unfold State.decideSlot
  dsimp only
  rw [h, if_neg Bool.false_ne_true]
  exact ⟨_, _, rfl⟩

theorem exec_slotDecision_of_not_first (hn : cordOk n = true) (hc : s.cordCfg n = some c)
    (h : s.slotDue c i = false ∨ s.dueBefore (s.dueKey c i) = true) : exec (.slotDecision n i) s = .next s := by
  change execSlotDecision n i s = _
  rw [execSlotDecision, hn, hc, withUnit_true]
  exact congrArg _ (if_pos (by rcases h with h | h <;> simp [h]))

theorem exec_slotDecision_of_first (hn : cordOk n = true) (hc : s.cordCfg n = some c) (hdue : s.slotDue c i = true)
    (hfirst : s.dueBefore (s.dueKey c i) = false) : exec (.slotDecision n i) s = .next (s.decideSlot c i) := by
  change execSlotDecision n i s = _
  rw [execSlotDecision, hn, hc, withUnit_true]
  exact congrArg _ (if_neg (by rw [hdue, hfirst]; decide))

/-- A decision that chose N, U or G and submitted its chain keeps the chain's jobs and adds the slot (R264, R265). -/
theorem State.decideSlot_of_chain (hr : s.retireReady c i = r) (hearly : (r.fillLe c i 54 1).testBit 2 = false)
    (hmode : (r.decision c i).mode = 1 ∨ (r.decision c i).mode = 2 ∨ (r.decision c i).mode = 3)
    (hsubs : (r.decision c i).subs ≠ []) :
    ∃ (u : State) (sl : SlotRt), s.decideSlot c i = { u with slots := u.slots ++ [sl] } ∧
      u.sansDecision = (r.decision c i).st.sansDecision ∧ sl.Keeps c.cord (r.fillCtx c i) (r.decision c i) := by
  obtain ⟨composed, busy, hdecide⟩ := State.decideSlot_of_no_early hr hearly
  obtain ⟨u, sl, hrecord, hu, hsl⟩ := State.recordSlot_of_chain hmode hsubs _ c _ false _ composed busy
  exact ⟨u, sl, hdecide.trans hrecord, hu.trans (State.noteChoice_sansDecision ..), hsl⟩

/-- A due slot whose list is P alone, without a frame to present and without a record ring, is skipped (R270, R273). -/
theorem State.decideSlot_of_p_alone (hr : s.retireReady c i = r) (hearly : (r.fillLe c i 54 1).testBit 2 = false)
    (hlist : (r.fillCtx c i).list = [(4, 0)]) (hp : (r.fillCtx c i).pIn = false)
    (hforced : (r.fillCtx c i).forced = false) (hring : (r.fillRt c.cord).size = 0) :
    ∃ delay l, s.decideSlot c i = (r.countDelay delay).slotSkipped c (r.fillCtx c i) l := by
  obtain ⟨composed, busy, hdecide⟩ := State.decideSlot_of_no_early hr hearly
  have he : r.decision c i = { st := r.countDelay ((r.fillCtx c i).now - r.decisionPoint c i), rejects := 4 } :=
    State.evalList_of_p_alone hlist hp ..
  have hkeep : ((r.countDelay ((r.fillCtx c i).now - r.decisionPoint c i)).fillRt c.cord).size = 0 := by
    rw [State.countDelay_keeps (State.fillRt · c.cord) (fun u k w => u.fillRt_setReg k c.cord w), hring]
  obtain ⟨l, hl⟩ := State.recordSlot_skipped (x := r.fillCtx c i) (e := r.decision c i) (by rw [he]) (by rw [he]) hkeep
    false false composed busy
  refine ⟨_, l, hdecide.trans (Eq.trans ?_ hl)⟩
  rw [he, hforced, FillEval.reason, hforced]
  rfl

section
variable (hn : cordOk n = true) (hc : s.cordCfg n = some c) (hdue : s.slotDue c i = true)
  (hfirst : s.dueBefore (s.dueKey c i) = false) (hr : s.retireReady c i = r) (hearly : (r.fillLe c i 54 1).testBit 2 = false)
include hn hc hdue hfirst hr hearly

theorem slotDecision_submits
    (hmode : (r.decision c i).mode = 1 ∨ (r.decision c i).mode = 2 ∨ (r.decision c i).mode = 3)
    (hsubs : (r.decision c i).subs ≠ []) :
    Completes (exec (.slotDecision n i) s) fun t =>
      t.jobs = (r.decision c i).st.jobs ∧ t.hearths = (r.decision c i).st.hearths ∧
      t.hitches = (r.decision c i).st.hitches ∧
      ∃ sl : SlotRt, t.slots = (r.decision c i).st.slots ++ [sl] ∧ sl.Keeps n (r.fillCtx c i) (r.decision c i) := by
  obtain rfl := State.cord_of_cordCfg hc
  obtain ⟨u, sl, hdecide, hu, hsl⟩ := State.decideSlot_of_chain hr hearly hmode hsubs
  obtain ⟨hjobs, hhearths, hhitches, hslots⟩ := State.frame_of_sansDecision hu
  rw [exec_slotDecision_of_first hn hc hdue hfirst, hdecide]
  exact ⟨_, rfl, hjobs, hhearths, hhitches, sl, congrArg (· ++ [sl]) hslots, hsl⟩

theorem slotDecision_skips (hlist : (r.fillCtx c i).list = [(4, 0)]) (hp : (r.fillCtx c i).pIn = false)
    (hforced : (r.fillCtx c i).forced = false) (hring : (r.fillRt n).size = 0) :
    Completes (exec (.slotDecision n i) s) fun t =>
      t.fillLe c i 48 4 = ((r.fillCtx c i).k + 1) % 2 ^ 32 ∧ t.jobs = r.jobs ∧
      t.slots = r.slots ∧ t.reg 0x220000 = counted (r.reg 0x220000) ∧
      t.reg (cordAddr n 0xD030) = counted (r.reg (cordAddr n 0xD030)) ∧
      (t.fillRt n).fallbacks = (r.fillRt n).fallbacks + 1 := by
  obtain rfl := State.cord_of_cordCfg hc
  obtain ⟨delay, l, hskip⟩ := State.decideSlot_of_p_alone hr hearly hlist hp hforced hring
  have hblock : cordAddr c.cord 0xD030 < 0x200000 := by
    have hcord : c.cord < 16 := of_decide_eq_true hn
    unfold cordAddr
    omega
  obtain ⟨hjobs, -, -, hslots⟩ := State.frame_of_sansDecision
    ((r.countDelay delay).slotSkipped_sansDecision c (r.fillCtx c i) l)
  refine ⟨_, exec_slotDecision_of_first hn hc hdue hfirst, ?_⟩
  rw [hskip]
  refine ⟨State.fillLe_slotSkipped .., hjobs.trans ?_, hslots.trans ?_, ?_, ?_, ?_⟩
  · exact State.countDelay_keeps State.jobs (fun u k w => u.setReg_jobs k w) ..
  · exact State.countDelay_keeps State.slots (fun u k w => u.setReg_slots k w) ..
  · rw [State.reg_slotSkipped, State.reg_bump, if_neg (by omega), State.reg_countDelay _ _ (by decide) (by decide),
      State.reg_bump_one]
  · rw [State.reg_slotSkipped, State.reg_bump_one, State.reg_countDelay _ _ (by omega) (by omega), State.reg_bump,
      if_neg (by omega)]
  · rw [State.fillRt_slotSkipped, State.countDelay_keeps (State.fillRt · c.cord) fun u k w => u.fillRt_setReg k c.cord w]

end

/-! ### The statement -/

/-- Settles O50: the decision by what its evaluation chose, the writes and the end of a window by the state that they
leave. -/
theorem fillGovernorActs : Obligations.FillGovernorActs := by
  unfold Obligations.FillGovernorActs
  intro s n c hn hc
  refine ⟨fun i h => exec_slotDecision_of_not_first hn hc h, fun i hdue hfirst => ⟨?fits, ?chain, ?skip⟩,
    fun d w h => ⟨fun hw => fillForce_ignored hn hc h hw, ?force⟩, fun d w h => ?size, fun hnot => ?still,
    fun hdue => ?window⟩
  case fits =>
    exact State.evalList_fits _ c _
  case chain =>
    exact fun hearly hmode hsubs => slotDecision_submits hn hc hdue hfirst rfl hearly hmode hsubs
  case skip =>
    exact fun hearly hlist hp hforced _ hring => slotDecision_skips hn hc hdue hfirst rfl hearly hlist hp hforced hring
  case force =>
    intro hbit hi
    have hforce := fillForce_forces hn hc h hbit hi
    refine ⟨fun hmode => ?_, fun hmode hbad => ?_, fun hlo hhi hcount hscale => ?_⟩
    · rwa [forcesAfter, if_pos hmode] at hforce
    · rwa [forcesAfter, if_neg hmode, if_pos hbad] at hforce
    · rwa [forcesAfter, if_neg (by omega), if_neg (by omega)] at hforce
  case size =>
    obtain ⟨t, ht, hrt, hreg, hjobs, hslots⟩ := fillRecSize_restarts (w := w) hn hc h
    refine ⟨t, ht, ?_, hreg, fun k hlo hhi hk => ?_, fun hk => ?_, ?_, hjobs, hslots⟩
    · rw [hrt]
    · rw [hrt]
      exact ringSize_of_power hlo hhi hk
    · rw [hrt]
      exact ringSize_of_no_power hk
    · rw [hrt]
  case still =>
    rw [exec_fillWindowEnd hn, s.each_not_due (by omega)]
  case window =>
    rw [exec_fillWindowEnd hn, s.each_due hdue.1 hdue.2]
    obtain ⟨hjobs, hhearths⟩ := State.fillWindow_frame { s with came := s.came.put (fun _ => 0) (0x310000 + n) s.time } n
    refine ⟨_, rfl, State.fillRt_fillWindow .., fun hth hle => ?_, hjobs, hhearths⟩
    exact State.queued_fillWindow (s := { s with came := s.came.put (fun _ => 0) (0x310000 + n) s.time }) hc
      (decide_eq_true ⟨hth, hle⟩)

end Sys2Proof.Machine
end
